-- ==== Sys2Proof/Word.lean ====
section
/-! DEFINITION. The word types of the machine (00_scope.md R5) and the plainest arithmetic on them. -/

namespace Sys2Proof

/-- A 64-bit register value. -/
abbrev Word := BitVec 64

/-- A byte of memory. -/
abbrev Byte := BitVec 8

/-- The number of a scalar register, g0 to g31 (01_assembly.md R25). -/
abbrev Reg := BitVec 5

/-- One 32-bit lane of a vector register (07_vector_instr.md R179). -/
abbrev Lane := BitVec 32

/-- bits(x, hi, lo): bits [hi:lo] of x, right-aligned, as a natural number (00_scope.md, the pseudocode helpers). -/
def bitsOf (x : Word) (hi lo : Nat) : Nat := (x.toNat >>> lo) % 2 ^ (hi + 1 - lo)

/-- One bit of a word. -/
def bitAt (x : Word) (i : Nat) : Bool := x.getLsbD i

/-- A word holding a natural number modulo 2^64. -/
def wordOf (n : Nat) : Word := BitVec.ofNat 64 n

/-- A word holding an integer modulo 2^64, in two's complement. -/
def wordOfInt (z : Int) : Word := BitVec.ofInt 64 z

/-- x with bits [hi:lo] replaced by the low bits of v. -/
def setBits (x : Word) (hi lo : Nat) (v : Nat) : Word :=
  let w := hi + 1 - lo
  wordOf (x.toNat - bitsOf x hi lo * 2 ^ lo + (v % 2 ^ w) * 2 ^ lo)

end Sys2Proof
end

