-- ==== Sys2Proof/Syntax.lean ====
section
/-! DEFINITION. The abstract syntax: one constructor for each row of spec/opcode_table.json, in the table's order
but that the integer rows, the compact rows and then the events stand last.
A row with an encoding carries the fields of its encoding (03_encoding.md R81 to R95), under the names the table gives
them and with their widths; the one-bit last-use marks (and the sign bit of a load) are Booleans. A row without an
encoding is an EVENT (95_what_each_step_holds.md): a step of a unit of the package that no program encodes; its
arguments name the unit, the request or the input that the step is about. -/

namespace Sys2Proof

/-- The instructions and events of the table. Each constructor's docstring gives its rule. -/
inductive Instr where
  /-- PADD, R107. -/
  | padd (d : BitVec 5) (a : BitVec 5) (l : Bool) (b : BitVec 5) (m : Bool)
  /-- PIDX, R107. -/
  | pidx (d : BitVec 5) (a : BitVec 5) (l : Bool) (b : BitVec 5) (m : Bool)
  /-- PSET, R108. -/
  | pset (d : BitVec 5) (a : BitVec 5) (l : Bool) (b : BitVec 5) (m : Bool) (f : BitVec 2)
  /-- PGET, R108. -/
  | pget (d : BitVec 5) (a : BitVec 5) (l : Bool) (f : BitVec 2)
  /-- PCORE, R109. -/
  | pcore (d : BitVec 5) (a : BitVec 5) (l : Bool) (b : BitVec 5) (m : Bool)
  /-- PSHRD, R110. -/
  | pshrd (d : BitVec 5) (a : BitVec 5) (l : Bool) (b : BitVec 5) (m : Bool)
  /-- EXT, R111. -/
  | ext (d : BitVec 5) (a : BitVec 5) (l : Bool) (b : BitVec 5) (m : Bool)
  /-- BC, R113. -/
  | bc (a : BitVec 5) (l : Bool) (b : BitVec 5) (m : Bool) (c : BitVec 3) (o : BitVec 10)
  /-- J, R113. -/
  | j (o : BitVec 25)
  /-- JAL, R113. -/
  | jal (o : BitVec 25)
  /-- JR, R113. -/
  | jr (d : BitVec 5) (a : BitVec 5) (l : Bool) (i : BitVec 10)
  /-- LOOP, R114. -/
  | loop (d : BitVec 5) (i : BitVec 10)
  /-- LD, R122. -/
  | ld (d : BitVec 5) (a : BitVec 5) (l : Bool) (s : Bool) (z : BitVec 2) (h : BitVec 2) (i : BitVec 7)
  /-- LD_FUT, R124. -/
  | ldFut (d : BitVec 5) (a : BitVec 5) (l : Bool) (h : BitVec 2) (i : BitVec 7)
  /-- LD_TAKE, R124. -/
  | ldTake (d : BitVec 5) (a : BitVec 5) (l : Bool) (h : BitVec 2) (i : BitVec 7)
  /-- ST, R122. -/
  | st (d : BitVec 5) (a : BitVec 5) (l : Bool) (e : Bool) (z : BitVec 2) (h : BitVec 2) (i : BitVec 7)
  /-- ST_FILL, R124. -/
  | stFill (d : BitVec 5) (a : BitVec 5) (l : Bool) (e : Bool) (h : BitVec 2) (i : BitVec 7)
  /-- ST_GIVE, R124. -/
  | stGive (d : BitVec 5) (a : BitVec 5) (l : Bool) (e : Bool) (h : BitVec 2) (i : BitVec 7)
  /-- LDX, R122. -/
  | ldx (d : BitVec 5) (a : BitVec 5) (l : Bool) (b : BitVec 5) (m : Bool) (s : Bool) (z : BitVec 2) (h : BitVec 2) (x : BitVec 2)
  /-- STX, R122. -/
  | stx (d : BitVec 5) (a : BitVec 5) (l : Bool) (b : BitVec 5) (m : Bool) (e : Bool) (z : BitVec 2) (h : BitVec 2) (x : BitVec 2)
  /-- LDT_VEQ, R126. -/
  | ldtVeq (d : BitVec 5) (a : BitVec 5) (l : Bool) (b : BitVec 5) (m : Bool) (h : BitVec 2)
  /-- LDT_VGE, R125. -/
  | ldtVge (d : BitVec 5) (a : BitVec 5) (l : Bool) (b : BitVec 5) (m : Bool) (h : BitVec 2)
  /-- STT_VNX, R125. -/
  | sttVnx (d : BitVec 5) (a : BitVec 5) (l : Bool) (e : Bool) (h : BitVec 2)
  /-- STT_VSET, R125. -/
  | sttVset (d : BitVec 5) (a : BitVec 5) (l : Bool) (b : BitVec 5) (m : Bool) (e : Bool) (h : BitVec 2)
  /-- LDS, R132. -/
  | lds (d : BitVec 5) (a : BitVec 5) (l : Bool) (b : BitVec 5) (m : Bool) (s : Bool) (z : BitVec 2) (h : BitVec 2)
  /-- STS, R132. -/
  | sts (d : BitVec 5) (a : BitVec 5) (l : Bool) (b : BitVec 5) (m : Bool) (e : Bool) (z : BitVec 2) (h : BitVec 2)
  /-- AMO_SWAP, R137. -/
  | amoSwap (d : BitVec 5) (a : BitVec 5) (l : Bool) (b : BitVec 5) (m : Bool) (z : BitVec 1) (h : BitVec 2)
  /-- AMO_ADD, R137. -/
  | amoAdd (d : BitVec 5) (a : BitVec 5) (l : Bool) (b : BitVec 5) (m : Bool) (z : BitVec 1) (h : BitVec 2)
  /-- AMO_AND, R137. -/
  | amoAnd (d : BitVec 5) (a : BitVec 5) (l : Bool) (b : BitVec 5) (m : Bool) (z : BitVec 1) (h : BitVec 2)
  /-- AMO_OR, R137. -/
  | amoOr (d : BitVec 5) (a : BitVec 5) (l : Bool) (b : BitVec 5) (m : Bool) (z : BitVec 1) (h : BitVec 2)
  /-- AMO_XOR, R137. -/
  | amoXor (d : BitVec 5) (a : BitVec 5) (l : Bool) (b : BitVec 5) (m : Bool) (z : BitVec 1) (h : BitVec 2)
  /-- AMO_MIN, R137. -/
  | amoMin (d : BitVec 5) (a : BitVec 5) (l : Bool) (b : BitVec 5) (m : Bool) (z : BitVec 1) (h : BitVec 2)
  /-- AMO_MAX, R137. -/
  | amoMax (d : BitVec 5) (a : BitVec 5) (l : Bool) (b : BitVec 5) (m : Bool) (z : BitVec 1) (h : BitVec 2)
  /-- AMO_MINU, R137. -/
  | amoMinu (d : BitVec 5) (a : BitVec 5) (l : Bool) (b : BitVec 5) (m : Bool) (z : BitVec 1) (h : BitVec 2)
  /-- AMO_MAXU, R137. -/
  | amoMaxu (d : BitVec 5) (a : BitVec 5) (l : Bool) (b : BitVec 5) (m : Bool) (z : BitVec 1) (h : BitVec 2)
  /-- CAS, R137. -/
  | cas (d : BitVec 5) (a : BitVec 5) (l : Bool) (b : BitVec 5) (m : Bool) (z : BitVec 1) (h : BitVec 2)
  /-- REDO, R140. -/
  | redo (d : BitVec 5) (a : BitVec 5) (l : Bool) (b : BitVec 5) (m : Bool) (f : BitVec 6)
  /-- REDA, R140. -/
  | reda (a : BitVec 5) (l : Bool) (b : BitVec 5) (m : Bool) (f : BitVec 6)
  /-- REDR, R73. -/
  | redr (d : BitVec 5) (a : BitVec 5) (l : Bool) (f : BitVec 6)
  /-- REDC, R140. -/
  | redc (d : BitVec 5) (a : BitVec 5) (l : Bool) (f : BitVec 6)
  /-- JINIT, R143. -/
  | jinit (d : BitVec 5) (a : BitVec 5) (l : Bool) (b : BitVec 5) (m : Bool)
  /-- JOIN, R143. -/
  | join (d : BitVec 5) (a : BitVec 5) (l : Bool) (b : BitVec 5) (m : Bool)
  /-- FENCE, R134. -/
  | fence (d : BitVec 5) (a : BitVec 5) (l : Bool)
  /-- FLUSH, R135. -/
  | flush (a : BitVec 5) (l : Bool) (b : BitVec 5) (m : Bool)
  /-- CINV, R135. -/
  | cinv (a : BitVec 5) (l : Bool) (b : BitVec 5) (m : Bool)
  /-- WAIT, R95. -/
  | wait (a : BitVec 4) (b : BitVec 4) (c : BitVec 4) (d : BitVec 4)
  /-- PREF, R135. -/
  | pref (h : BitVec 2) (a : BitVec 5) (l : Bool) (b : BitVec 5) (m : Bool)
  /-- VRECL, R130. -/
  | vrecl (a : BitVec 5) (l : Bool) (b : BitVec 5) (m : Bool)
  /-- TAGR, R131. -/
  | tagr (d : BitVec 5) (a : BitVec 5) (l : Bool)
  /-- TAGW, R131. -/
  | tagw (a : BitVec 5) (l : Bool) (b : BitVec 5) (m : Bool)
  /-- MCAST, R146. -/
  | mcast (d : BitVec 5) (a : BitVec 5) (l : Bool) (b : BitVec 5) (m : Bool)
  /-- SPAWN, R153. -/
  | spawn (a : BitVec 5) (l : Bool) (b : BitVec 5) (m : Bool)
  /-- LAUNCH, R155. -/
  | launch (d : BitVec 5) (a : BitVec 5) (l : Bool)
  /-- YIELD, R157. -/
  | yield
  /-- PRIO, R158. -/
  | prio (d : BitVec 5) (a : BitVec 5) (l : Bool)
  /-- SENDM, R162. -/
  | sendm (a : BitVec 5) (l : Bool) (b : BitVec 5) (m : Bool)
  /-- RECV, R163. -/
  | recv (d : BitVec 5) (a : BitVec 5) (l : Bool)
  /-- PEEK, R164. -/
  | peek (d : BitVec 5)
  /-- REPLY, R165. -/
  | reply (a : BitVec 5) (l : Bool)
  /-- HSTART, R166. -/
  | hstart (d : BitVec 5) (a : BitVec 5) (l : Bool) (b : BitVec 5) (m : Bool)
  /-- HHALT, R167. -/
  | hhalt (a : BitVec 5) (l : Bool)
  /-- HHALT_RETAIN, R167. -/
  | hhaltRetain (a : BitVec 5) (l : Bool) (b : BitVec 5) (m : Bool)
  /-- HWAIT, R168. -/
  | hwait (d : BitVec 5) (a : BitVec 5) (l : Bool)
  /-- CREW, R169. -/
  | crew (a : BitVec 5) (l : Bool) (b : BitVec 5) (m : Bool)
  /-- CREWX, R170. -/
  | crewx (d : BitVec 5)
  /-- BAR, R171. -/
  | bar (d : BitVec 5) (a : BitVec 5) (l : Bool) (n : BitVec 5)
  /-- QBIND, R172. -/
  | qbind (a : BitVec 5) (l : Bool) (b : BitVec 5) (m : Bool) (q : BitVec 3)
  /-- QFREE, R176. -/
  | qfree (q : BitVec 3)
  /-- QCTL_POP, R174. -/
  | qctlPop (d : BitVec 5) (q : BitVec 3)
  /-- QCTL_PUSH, R174. -/
  | qctlPush (a : BitVec 5) (l : Bool) (q : BitVec 3)
  /-- QCTL_PUSHC, R174. -/
  | qctlPushc (a : BitVec 5) (l : Bool) (q : BitVec 3)
  /-- QCTL_FLUSH, R174. -/
  | qctlFlush (q : BitVec 3)
  /-- QSTAT, R175. -/
  | qstat (d : BitVec 5) (q : BitVec 3)
  /-- QHND, R177. -/
  | qhnd (a : BitVec 5) (l : Bool)
  /-- QRET, R177. -/
  | qret
  /-- VCLAIM, R184. -/
  | vclaim (d : BitVec 5) (a : BitVec 5) (l : Bool)
  /-- VRENEG, R185. -/
  | vreneg (d : BitVec 5) (a : BitVec 5) (l : Bool)
  /-- VREL, R186. -/
  | vrel
  /-- PCNT, R189. -/
  | pcnt (d : BitVec 5) (k : BitVec 2)
  /-- PWHILE, R189. -/
  | pwhile (d : BitVec 5) (a : BitVec 5) (l : Bool) (b : BitVec 5) (m : Bool) (k : BitVec 2)
  /-- PMIN, R189. -/
  | pmin (a : BitVec 5) (l : Bool) (k : BitVec 2) (kb : BitVec 2)
  /-- VLD, R208. -/
  | vld (d : BitVec 4) (a : BitVec 5) (l : Bool) (k : BitVec 2) (h : BitVec 2)
  /-- VST, R208. -/
  | vst (d : BitVec 4) (a : BitVec 5) (l : Bool) (k : BitVec 2) (h : BitVec 2)
  /-- VLDF, R210. -/
  | vldf (d : BitVec 4) (a : BitVec 5) (l : Bool) (k : BitVec 2) (h : BitVec 2)
  /-- VLDS, R208. -/
  | vlds (d : BitVec 4) (a : BitVec 5) (l : Bool) (b : BitVec 5) (m : Bool) (k : BitVec 2) (h : BitVec 2)
  /-- VSTS, R208. -/
  | vsts (d : BitVec 4) (a : BitVec 5) (l : Bool) (b : BitVec 5) (m : Bool) (k : BitVec 2) (h : BitVec 2)
  /-- VGTH, R208. -/
  | vgth (d : BitVec 4) (a : BitVec 5) (l : Bool) (w : BitVec 4) (k : BitVec 2) (h : BitVec 2)
  /-- VSCT, R211. -/
  | vsct (d : BitVec 4) (a : BitVec 5) (l : Bool) (w : BitVec 4) (k : BitVec 2) (h : BitVec 2)
  /-- VADD, R193. -/
  | vadd (d : BitVec 4) (a : BitVec 4) (b : BitVec 4) (k : BitVec 2) (t : BitVec 4) (x : BitVec 3)
  /-- VSUB, R193. -/
  | vsub (d : BitVec 4) (a : BitVec 4) (b : BitVec 4) (k : BitVec 2) (t : BitVec 4) (x : BitVec 3)
  /-- VMUL, R193. -/
  | vmul (d : BitVec 4) (a : BitVec 4) (b : BitVec 4) (k : BitVec 2) (t : BitVec 4) (x : BitVec 3)
  /-- VDIV, R193. -/
  | vdiv (d : BitVec 4) (a : BitVec 4) (b : BitVec 4) (k : BitVec 2) (t : BitVec 4) (x : BitVec 3)
  /-- VMIN, R193. -/
  | vmin (d : BitVec 4) (a : BitVec 4) (b : BitVec 4) (k : BitVec 2) (t : BitVec 4) (x : BitVec 3)
  /-- VMAX, R193. -/
  | vmax (d : BitVec 4) (a : BitVec 4) (b : BitVec 4) (k : BitVec 2) (t : BitVec 4) (x : BitVec 3)
  /-- VABSD, R193. -/
  | vabsd (d : BitVec 4) (a : BitVec 4) (b : BitVec 4) (k : BitVec 2) (t : BitVec 4) (x : BitVec 3)
  /-- VMULH, R193. -/
  | vmulh (d : BitVec 4) (a : BitVec 4) (b : BitVec 4) (k : BitVec 2) (t : BitVec 4) (x : BitVec 3)
  /-- VFMA, R194. -/
  | vfma (d : BitVec 4) (a : BitVec 4) (b : BitVec 4) (k : BitVec 2) (t : BitVec 4) (x : BitVec 3)
  /-- VFMS, R194. -/
  | vfms (d : BitVec 4) (a : BitVec 4) (b : BitVec 4) (k : BitVec 2) (t : BitVec 4) (x : BitVec 3)
  /-- VCVT, R197. -/
  | vcvt (d : BitVec 4) (a : BitVec 4) (s : BitVec 4) (k : BitVec 2) (t : BitVec 4) (x : BitVec 3)
  /-- VABS, R195. -/
  | vabs (d : BitVec 4) (a : BitVec 4) (k : BitVec 2) (t : BitVec 4) (x : BitVec 3)
  /-- VNEG, R195. -/
  | vneg (d : BitVec 4) (a : BitVec 4) (k : BitVec 2) (t : BitVec 4) (x : BitVec 3)
  /-- VSQRT, R195. -/
  | vsqrt (d : BitVec 4) (a : BitVec 4) (k : BitVec 2) (t : BitVec 4) (x : BitVec 3)
  /-- VRCP, R196. -/
  | vrcp (d : BitVec 4) (a : BitVec 4) (k : BitVec 2) (t : BitVec 4) (x : BitVec 3)
  /-- VRSQ, R196. -/
  | vrsq (d : BitVec 4) (a : BitVec 4) (k : BitVec 2) (t : BitVec 4) (x : BitVec 3)
  /-- VEXP, R196. -/
  | vexp (d : BitVec 4) (a : BitVec 4) (k : BitVec 2) (t : BitVec 4) (x : BitVec 3)
  /-- VLOG, R196. -/
  | vlog (d : BitVec 4) (a : BitVec 4) (k : BitVec 2) (t : BitVec 4) (x : BitVec 3)
  /-- VSIN, R60. -/
  | vsin (d : BitVec 4) (a : BitVec 4) (k : BitVec 2) (t : BitVec 4) (x : BitVec 3)
  /-- VCOS, R60. -/
  | vcos (d : BitVec 4) (a : BitVec 4) (k : BitVec 2) (t : BitVec 4) (x : BitVec 3)
  /-- VTANH, R196. -/
  | vtanh (d : BitVec 4) (a : BitVec 4) (k : BitVec 2) (t : BitVec 4) (x : BitVec 3)
  /-- VAND, R198. -/
  | vand (d : BitVec 4) (a : BitVec 4) (b : BitVec 4) (k : BitVec 2) (t : BitVec 4) (x : BitVec 3)
  /-- VOR, R198. -/
  | vor (d : BitVec 4) (a : BitVec 4) (b : BitVec 4) (k : BitVec 2) (t : BitVec 4) (x : BitVec 3)
  /-- VXOR, R198. -/
  | vxor (d : BitVec 4) (a : BitVec 4) (b : BitVec 4) (k : BitVec 2) (t : BitVec 4) (x : BitVec 3)
  /-- VANDN, R198. -/
  | vandn (d : BitVec 4) (a : BitVec 4) (b : BitVec 4) (k : BitVec 2) (t : BitVec 4) (x : BitVec 3)
  /-- VSHL, R198. -/
  | vshl (d : BitVec 4) (a : BitVec 4) (b : BitVec 4) (k : BitVec 2) (t : BitVec 4) (x : BitVec 3)
  /-- VSHR, R198. -/
  | vshr (d : BitVec 4) (a : BitVec 4) (b : BitVec 4) (k : BitVec 2) (t : BitVec 4) (x : BitVec 3)
  /-- VSAR, R198. -/
  | vsar (d : BitVec 4) (a : BitVec 4) (b : BitVec 4) (k : BitVec 2) (t : BitVec 4) (x : BitVec 3)
  /-- VCMP, R199. -/
  | vcmp (d : BitVec 4) (a : BitVec 4) (b : BitVec 4) (k : BitVec 2) (t : BitVec 4) (c : BitVec 3)
  /-- VSEL, R200. -/
  | vsel (d : BitVec 4) (a : BitVec 4) (b : BitVec 4) (k : BitVec 2) (t : BitVec 4) (x : BitVec 3)
  /-- VSUM, R68. -/
  | vsum (a : BitVec 4) (g : BitVec 5) (k : BitVec 2) (t : BitVec 4) (x : BitVec 3)
  /-- VRMAX, R201. -/
  | vrmax (a : BitVec 4) (g : BitVec 5) (k : BitVec 2) (t : BitVec 4) (x : BitVec 3)
  /-- VRMIN, R201. -/
  | vrmin (a : BitVec 4) (g : BitVec 5) (k : BitVec 2) (t : BitVec 4) (x : BitVec 3)
  /-- VSCAN, R202. -/
  | vscan (d : BitVec 4) (a : BitVec 4) (k : BitVec 2) (t : BitVec 4) (x : BitVec 3)
  /-- VPERM, R203. -/
  | vperm (d : BitVec 4) (a : BitVec 4) (b : BitVec 4) (k : BitVec 2) (t : BitVec 4) (x : BitVec 3)
  /-- VBC, R203. -/
  | vbc (d : BitVec 4) (g : BitVec 5) (l : Bool) (k : BitVec 2) (t : BitVec 4) (x : BitVec 3)
  /-- VEXT, R203. -/
  | vext (a : BitVec 4) (g : BitVec 5) (k : BitVec 2) (t : BitVec 4) (x : BitVec 3)
  /-- VINS, R203. -/
  | vins (d : BitVec 4) (g : BitVec 5) (l : Bool) (k : BitVec 2) (t : BitVec 4) (x : BitVec 3)
  /-- VIOTA, R203. -/
  | viota (d : BitVec 4) (k : BitVec 2) (t : BitVec 4) (x : BitVec 3)
  /-- VMOV, R203. -/
  | vmov (d : BitVec 4) (a : BitVec 4) (k : BitVec 2) (t : BitVec 4) (x : BitVec 3)
  /-- VQMOV_POP, R204. -/
  | vqmovPop (d : BitVec 4) (q : BitVec 3) (k : BitVec 2) (t : BitVec 4) (x : BitVec 3)
  /-- VQMOV_PUSH, R204. -/
  | vqmovPush (q : BitVec 3) (a : BitVec 4) (k : BitVec 2) (t : BitVec 4) (x : BitVec 3)
  /-- VMRG, R206. -/
  | vmrg (d : BitVec 4) (a : BitVec 3) (b : BitVec 3) (k : BitVec 2) (t : BitVec 4) (x : BitVec 3)
  /-- MMA, R222. -/
  | mma (d : BitVec 5) (a : BitVec 5) (l : Bool) (p : BitVec 4)
  /-- MMAZ, R222. -/
  | mmaz (d : BitVec 5) (a : BitVec 5) (l : Bool) (p : BitVec 4)
  /-- MBS, R222. -/
  | mbs (d : BitVec 5) (a : BitVec 5) (l : Bool) (p : BitVec 4)
  /-- MBSZ, R222. -/
  | mbsz (d : BitVec 5) (a : BitVec 5) (l : Bool) (p : BitVec 4)
  /-- MSP, R231. -/
  | msp (d : BitVec 5) (a : BitVec 5) (l : Bool) (p : BitVec 4)
  /-- MPRE, R235. -/
  | mpre (d : BitVec 5) (a : BitVec 5) (l : Bool)
  /-- MPINV, R235. -/
  | mpinv (a : BitVec 5) (l : Bool)
  /-- MLD, R215. -/
  | mld (d : BitVec 5) (a : BitVec 5) (l : Bool) (b : BitVec 5) (m : Bool) (p : BitVec 4)
  /-- MST, R215. -/
  | mst (d : BitVec 5) (a : BitVec 5) (l : Bool) (b : BitVec 5) (m : Bool) (p : BitVec 4)
  /-- MZERO, R215. -/
  | mzero (p : BitVec 4)
  /-- MRD, R215. -/
  | mrd (d : BitVec 5) (a : BitVec 5) (l : Bool) (p : BitVec 4)
  /-- MST_FILL, R215. -/
  | mstFill (d : BitVec 5) (a : BitVec 5) (l : Bool) (b : BitVec 5) (m : Bool) (p : BitVec 4)
  /-- MST_VNX, R215. -/
  | mstVnx (d : BitVec 5) (a : BitVec 5) (l : Bool) (b : BitVec 5) (m : Bool) (p : BitVec 4)
  /-- MST_VSET, R215. -/
  | mstVset (d : BitVec 5) (a : BitVec 5) (l : Bool) (b : BitVec 5) (m : Bool) (p : BitVec 4)
  /-- MCMD, R226. -/
  | mcmd (d : BitVec 5) (a : BitVec 5) (l : Bool) (b : BitVec 5) (m : Bool)
  /-- MQRY, R228. -/
  | mqry (d : BitVec 5) (a : BitVec 5) (l : Bool)
  /-- HACC, R237. -/
  | hacc (d : BitVec 5) (a : BitVec 5) (l : Bool) (b : BitVec 5) (m : Bool)
  /-- HDRN, R239. -/
  | hdrn (d : BitVec 5) (a : BitVec 5) (l : Bool) (b : BitVec 5) (m : Bool)
  /-- SBND, R238. -/
  | sbnd (a : BitVec 5) (l : Bool) (b : BitVec 5) (m : Bool)
  /-- CARRY, R240. -/
  | carry (d : BitVec 5) (a : BitVec 5) (l : Bool) (b : BitVec 5) (m : Bool)
  /-- SURV_BIND, R241. -/
  | survBind (d : BitVec 5) (a : BitVec 5) (l : Bool) (b : BitVec 5) (m : Bool)
  /-- SURV_UNBIND, R241. -/
  | survUnbind (a : BitVec 5) (l : Bool)
  /-- SURV_START, R241. -/
  | survStart (a : BitVec 5) (l : Bool)
  /-- SURV_STOP, R388. -/
  | survStop (a : BitVec 5) (l : Bool)
  /-- TMLD, R248. -/
  | tmld (a : BitVec 5) (l : Bool) (p : BitVec 3)
  /-- TMSET, R248. -/
  | tmset (a : BitVec 5) (l : Bool) (n : BitVec 3) (p : BitVec 3)
  /-- TMGET, R248. -/
  | tmget (d : BitVec 5) (n : BitVec 3) (p : BitVec 3)
  /-- CPY, R254. -/
  | cpy (d : BitVec 5) (s : BitVec 3) (p : BitVec 3)
  /-- CPYG, R254. -/
  | cpyg (d : BitVec 5) (a : BitVec 5) (l : Bool) (s : BitVec 3) (p : BitVec 3)
  /-- CPYS, R254. -/
  | cpys (d : BitVec 5) (a : BitVec 5) (l : Bool) (s : BitVec 3) (p : BitVec 3)
  /-- CPYQ, R257. -/
  | cpyq (d : BitVec 5) (q : BitVec 3) (p : BitVec 3)
  /-- CPYF, R259. -/
  | cpyf (d : BitVec 5) (a : BitVec 5) (l : Bool) (b : BitVec 5) (m : Bool) (p : BitVec 3)
  /-- SRD, R266. -/
  | srd (g : BitVec 5) (n : BitVec 12)
  /-- SWR, R266. -/
  | swr (g : BitVec 5) (l : Bool) (n : BitVec 12)
  /-- TRAP, R278. -/
  | trap (n : BitVec 12)
  /-- CAP_MINT, R470. -/
  | capMint
  /-- CAP_NEW_GENERATION, R470. -/
  | capNewGeneration
  /-- XRET, R277. -/
  | xret
  /-- BRK, R278. -/
  | brk (n : BitVec 12)
  /-- NOP, R280. -/
  | nop
  /-- SYNCI, R280. -/
  | synci
  /-- PTINV, R282. -/
  | ptinv (a : BitVec 5) (l : Bool) (b : BitVec 5) (m : Bool)
  /-- ATSET, R283. -/
  | atset (a : BitVec 5) (l : Bool) (b : BitVec 5) (m : Bool)
  /-- ATSYNC, R284. -/
  | atsync (d : BitVec 5)
  /-- MIGR, R285. -/
  | migr (d : BitVec 5) (a : BitVec 5) (l : Bool) (b : BitVec 5) (m : Bool)
  /-- GSTOP, R286. -/
  | gstop (d : BitVec 5) (a : BitVec 5) (l : Bool)
  /-- SV_FETCH, R243. -/
  | svFetch (a : BitVec 3) (b : BitVec 3) (i : BitVec 4)
  /-- SV_EMIT, R243. -/
  | svEmit (a : BitVec 3) (b : BitVec 3) (i : BitVec 4)
  /-- ADD, R98. -/
  | add (d : BitVec 5) (a : BitVec 5) (l : Bool) (b : BitVec 5) (m : Bool)
  /-- SUB, R98. -/
  | sub (d : BitVec 5) (a : BitVec 5) (l : Bool) (b : BitVec 5) (m : Bool)
  /-- AND, R98. -/
  | and (d : BitVec 5) (a : BitVec 5) (l : Bool) (b : BitVec 5) (m : Bool)
  /-- OR, R98. -/
  | or (d : BitVec 5) (a : BitVec 5) (l : Bool) (b : BitVec 5) (m : Bool)
  /-- XOR, R98. -/
  | xor (d : BitVec 5) (a : BitVec 5) (l : Bool) (b : BitVec 5) (m : Bool)
  /-- ANDN, R98. -/
  | andn (d : BitVec 5) (a : BitVec 5) (l : Bool) (b : BitVec 5) (m : Bool)
  /-- SHL, R98. -/
  | shl (d : BitVec 5) (a : BitVec 5) (l : Bool) (b : BitVec 5) (m : Bool)
  /-- SHR, R98. -/
  | shr (d : BitVec 5) (a : BitVec 5) (l : Bool) (b : BitVec 5) (m : Bool)
  /-- SAR, R98. -/
  | sar (d : BitVec 5) (a : BitVec 5) (l : Bool) (b : BitVec 5) (m : Bool)
  /-- ROT, R98. -/
  | rot (d : BitVec 5) (a : BitVec 5) (l : Bool) (b : BitVec 5) (m : Bool)
  /-- MIN, R98. -/
  | min (d : BitVec 5) (a : BitVec 5) (l : Bool) (b : BitVec 5) (m : Bool)
  /-- MAX, R98. -/
  | max (d : BitVec 5) (a : BitVec 5) (l : Bool) (b : BitVec 5) (m : Bool)
  /-- MINU, R98. -/
  | minu (d : BitVec 5) (a : BitVec 5) (l : Bool) (b : BitVec 5) (m : Bool)
  /-- MAXU, R98. -/
  | maxu (d : BitVec 5) (a : BitVec 5) (l : Bool) (b : BitVec 5) (m : Bool)
  /-- SLT, R98. -/
  | slt (d : BitVec 5) (a : BitVec 5) (l : Bool) (b : BitVec 5) (m : Bool)
  /-- SLTU, R98. -/
  | sltu (d : BitVec 5) (a : BitVec 5) (l : Bool) (b : BitVec 5) (m : Bool)
  /-- SEL, R98. -/
  | sel (d : BitVec 5) (a : BitVec 5) (l : Bool) (b : BitVec 5) (m : Bool)
  /-- MOV, R98. -/
  | mov (d : BitVec 5) (a : BitVec 5) (l : Bool)
  /-- CLZ, R98. -/
  | clz (d : BitVec 5) (a : BitVec 5) (l : Bool)
  /-- CTZ, R98. -/
  | ctz (d : BitVec 5) (a : BitVec 5) (l : Bool)
  /-- POPC, R98. -/
  | popc (d : BitVec 5) (a : BitVec 5) (l : Bool)
  /-- BREV, R98. -/
  | brev (d : BitVec 5) (a : BitVec 5) (l : Bool)
  /-- BSWP, R98. -/
  | bswp (d : BitVec 5) (a : BitVec 5) (l : Bool)
  /-- ADD_W, R99. -/
  | addW (d : BitVec 5) (a : BitVec 5) (l : Bool) (b : BitVec 5) (m : Bool)
  /-- SUB_W, R99. -/
  | subW (d : BitVec 5) (a : BitVec 5) (l : Bool) (b : BitVec 5) (m : Bool)
  /-- AND_W, R99. -/
  | andW (d : BitVec 5) (a : BitVec 5) (l : Bool) (b : BitVec 5) (m : Bool)
  /-- OR_W, R99. -/
  | orW (d : BitVec 5) (a : BitVec 5) (l : Bool) (b : BitVec 5) (m : Bool)
  /-- XOR_W, R99. -/
  | xorW (d : BitVec 5) (a : BitVec 5) (l : Bool) (b : BitVec 5) (m : Bool)
  /-- ANDN_W, R99. -/
  | andnW (d : BitVec 5) (a : BitVec 5) (l : Bool) (b : BitVec 5) (m : Bool)
  /-- SHL_W, R99. -/
  | shlW (d : BitVec 5) (a : BitVec 5) (l : Bool) (b : BitVec 5) (m : Bool)
  /-- SHR_W, R99. -/
  | shrW (d : BitVec 5) (a : BitVec 5) (l : Bool) (b : BitVec 5) (m : Bool)
  /-- SAR_W, R99. -/
  | sarW (d : BitVec 5) (a : BitVec 5) (l : Bool) (b : BitVec 5) (m : Bool)
  /-- ROT_W, R99. -/
  | rotW (d : BitVec 5) (a : BitVec 5) (l : Bool) (b : BitVec 5) (m : Bool)
  /-- MIN_W, R99. -/
  | minW (d : BitVec 5) (a : BitVec 5) (l : Bool) (b : BitVec 5) (m : Bool)
  /-- MAX_W, R99. -/
  | maxW (d : BitVec 5) (a : BitVec 5) (l : Bool) (b : BitVec 5) (m : Bool)
  /-- MINU_W, R99. -/
  | minuW (d : BitVec 5) (a : BitVec 5) (l : Bool) (b : BitVec 5) (m : Bool)
  /-- MAXU_W, R99. -/
  | maxuW (d : BitVec 5) (a : BitVec 5) (l : Bool) (b : BitVec 5) (m : Bool)
  /-- SLT_W, R99. -/
  | sltW (d : BitVec 5) (a : BitVec 5) (l : Bool) (b : BitVec 5) (m : Bool)
  /-- SLTU_W, R99. -/
  | sltuW (d : BitVec 5) (a : BitVec 5) (l : Bool) (b : BitVec 5) (m : Bool)
  /-- CLZ_W, R99. -/
  | clzW (d : BitVec 5) (a : BitVec 5) (l : Bool)
  /-- CTZ_W, R99. -/
  | ctzW (d : BitVec 5) (a : BitVec 5) (l : Bool)
  /-- POPC_W, R99. -/
  | popcW (d : BitVec 5) (a : BitVec 5) (l : Bool)
  /-- ADD_IMM, R100. -/
  | addImm (d : BitVec 5) (a : BitVec 5) (l : Bool) (i : BitVec 10)
  /-- AND_IMM, R100. -/
  | andImm (d : BitVec 5) (a : BitVec 5) (l : Bool) (i : BitVec 10)
  /-- OR_IMM, R100. -/
  | orImm (d : BitVec 5) (a : BitVec 5) (l : Bool) (i : BitVec 10)
  /-- XOR_IMM, R100. -/
  | xorImm (d : BitVec 5) (a : BitVec 5) (l : Bool) (i : BitVec 10)
  /-- SHL_IMM, R100. -/
  | shlImm (d : BitVec 5) (a : BitVec 5) (l : Bool) (c : BitVec 6)
  /-- SHR_IMM, R100. -/
  | shrImm (d : BitVec 5) (a : BitVec 5) (l : Bool) (c : BitVec 6)
  /-- SAR_IMM, R100. -/
  | sarImm (d : BitVec 5) (a : BitVec 5) (l : Bool) (c : BitVec 6)
  /-- ROT_IMM, R100. -/
  | rotImm (d : BitVec 5) (a : BitVec 5) (l : Bool) (c : BitVec 6)
  /-- SLT_IMM, R100. -/
  | sltImm (d : BitVec 5) (a : BitVec 5) (l : Bool) (i : BitVec 10)
  /-- SLTU_IMM, R100. -/
  | sltuImm (d : BitVec 5) (a : BitVec 5) (l : Bool) (i : BitVec 10)
  /-- MIN_IMM, R100. -/
  | minImm (d : BitVec 5) (a : BitVec 5) (l : Bool) (i : BitVec 10)
  /-- MAX_IMM, R100. -/
  | maxImm (d : BitVec 5) (a : BitVec 5) (l : Bool) (i : BitVec 10)
  /-- ADD_W_IMM, R100. -/
  | addWImm (d : BitVec 5) (a : BitVec 5) (l : Bool) (i : BitVec 10)
  /-- LI, R101. -/
  | li (d : BitVec 5) (i : BitVec 19)
  /-- LIH, R101. -/
  | lih (d : BitVec 5) (h : BitVec 2) (i : BitVec 16)
  /-- BFX, R104. -/
  | bfx (d : BitVec 5) (a : BitVec 5) (l : Bool) (o : BitVec 6) (w : BitVec 7)
  /-- BFXS, R104. -/
  | bfxs (d : BitVec 5) (a : BitVec 5) (l : Bool) (o : BitVec 6) (w : BitVec 7)
  /-- BFXS_64, R104. -/
  | bfxs64 (d : BitVec 5) (a : BitVec 5) (l : Bool) (o : BitVec 6)
  /-- BFI, R104. -/
  | bfi (d : BitVec 5) (a : BitVec 5) (l : Bool) (o : BitVec 6) (w : BitVec 7)
  /-- BFX_REG, R104. -/
  | bfxReg (d : BitVec 5) (a : BitVec 5) (l : Bool) (b : BitVec 5) (m : Bool)
  /-- BFXS_REG, R104. -/
  | bfxsReg (d : BitVec 5) (a : BitVec 5) (l : Bool) (b : BitVec 5) (m : Bool)
  /-- BFI_REG, R104. -/
  | bfiReg (d : BitVec 5) (a : BitVec 5) (l : Bool) (b : BitVec 5) (m : Bool)
  /-- MUL, R105. -/
  | mul (d : BitVec 5) (a : BitVec 5) (l : Bool) (b : BitVec 5) (m : Bool)
  /-- MULH, R105. -/
  | mulh (d : BitVec 5) (a : BitVec 5) (l : Bool) (b : BitVec 5) (m : Bool)
  /-- MULHU, R105. -/
  | mulhu (d : BitVec 5) (a : BitVec 5) (l : Bool) (b : BitVec 5) (m : Bool)
  /-- DIV, R106. -/
  | div (d : BitVec 5) (a : BitVec 5) (l : Bool) (b : BitVec 5) (m : Bool)
  /-- DIVU, R106. -/
  | divu (d : BitVec 5) (a : BitVec 5) (l : Bool) (b : BitVec 5) (m : Bool)
  /-- REM, R106. -/
  | rem (d : BitVec 5) (a : BitVec 5) (l : Bool) (b : BitVec 5) (m : Bool)
  /-- REMU, R106. -/
  | remu (d : BitVec 5) (a : BitVec 5) (l : Bool) (b : BitVec 5) (m : Bool)
  /-- MUL_W, R105. -/
  | mulW (d : BitVec 5) (a : BitVec 5) (l : Bool) (b : BitVec 5) (m : Bool)
  /-- MULH_W, R105. -/
  | mulhW (d : BitVec 5) (a : BitVec 5) (l : Bool) (b : BitVec 5) (m : Bool)
  /-- MULHU_W, R105. -/
  | mulhuW (d : BitVec 5) (a : BitVec 5) (l : Bool) (b : BitVec 5) (m : Bool)
  /-- DIV_W, R106. -/
  | divW (d : BitVec 5) (a : BitVec 5) (l : Bool) (b : BitVec 5) (m : Bool)
  /-- DIVU_W, R106. -/
  | divuW (d : BitVec 5) (a : BitVec 5) (l : Bool) (b : BitVec 5) (m : Bool)
  /-- REM_W, R106. -/
  | remW (d : BitVec 5) (a : BitVec 5) (l : Bool) (b : BitVec 5) (m : Bool)
  /-- REMU_W, R106. -/
  | remuW (d : BitVec 5) (a : BitVec 5) (l : Bool) (b : BitVec 5) (m : Bool)
  /-- C_ADD, R92. -/
  | cAdd (d : BitVec 5) (b : BitVec 5) (l : Bool)
  /-- C_ADDI, R92. -/
  | cAddi (d : BitVec 5) (i : BitVec 6)
  /-- C_MOV, R92. -/
  | cMov (d : BitVec 5) (b : BitVec 5) (l : Bool)
  /-- C_LI, R92. -/
  | cLi (d : BitVec 5) (i : BitVec 6)
  /-- C_LD, R92. -/
  | cLd (d : BitVec 3) (a : BitVec 3) (l : Bool) (i : BitVec 4)
  /-- C_ST, R92. -/
  | cSt (b : BitVec 3) (m : Bool) (a : BitVec 3) (l : Bool) (i : BitVec 3)
  /-- C_BZ, R92. -/
  | cBz (a : BitVec 3) (l : Bool) (o : BitVec 6)
  /-- C_BNZ, R92. -/
  | cBnz (a : BitVec 3) (l : Bool) (o : BitVec 6)
  /-- C_J, R92. -/
  | cJ (o : BitVec 11)
  /-- C_SUB, R92. -/
  | cSub (d : BitVec 3) (a : BitVec 3) (l : Bool)
  /-- C_AND, R92. -/
  | cAnd (d : BitVec 3) (a : BitVec 3) (l : Bool)
  /-- C_OR, R92. -/
  | cOr (d : BitVec 3) (a : BitVec 3) (l : Bool)
  /-- C_XOR, R92. -/
  | cXor (d : BitVec 3) (a : BitVec 3) (l : Bool)
  /-- C_SHL, R92. -/
  | cShl (d : BitVec 3) (a : BitVec 3) (l : Bool)
  /-- C_SHR, R92. -/
  | cShr (d : BitVec 3) (a : BitVec 3) (l : Bool)
  /-- C_WAIT, R92. -/
  | cWait (m : BitVec 4)
  /-- C_RECV, R92. -/
  | cRecv (d : BitVec 5)
  /-- C_JR, R92. -/
  | cJr (a : BitVec 5) (l : Bool)
  /-- C_PADD, R92. -/
  | cPadd (d : BitVec 5) (b : BitVec 5) (l : Bool)
  /-- C_NOP, R92. -/
  | cNop
  /-- C_YIELD, R92. -/
  | cYield
  /-- C_HHALT, R92. -/
  | cHhalt
  /-- CLAIM_GRANT, R187. -/
  | claimGrant (tile : Nat)
  /-- LSPLIT_WRITE, R271. -/
  | lsplitWrite (core : Nat) (cw : BitVec 3)
  /-- VGROUP_WRITE, R272. -/
  | vgroupWrite (tile : Nat) (en : Bool)
  /-- HOME_ACCEPT, R118. -/
  | homeAccept (rid : Nat)
  /-- RETRY_REPLAY, R127. -/
  | retryReplay (rid : Nat)
  /-- LOAD_DATA_RETURN, R119. -/
  | loadDataReturn (rid : Nat) (data : Word)
  /-- STORE_ACK, R120. -/
  | storeAck (rid : Nat)
  /-- RELEASE_SEND, R128. -/
  | releaseSend (hid : Nat)
  /-- BAR_COMPLETE, R171. -/
  | barComplete (core : Nat) (ctx : Nat)
  /-- MESSAGE_ARRIVAL, R159. -/
  | messageArrival (mid : Nat)
  /-- MESSAGE_REPLAY, R161. -/
  | messageReplay (mid : Nat)
  /-- HANDLER_START, R160. -/
  | handlerStart (core : Nat)
  /-- RESUME_MESSAGE, R424. -/
  | resumeMessage (mid : Nat)
  /-- STOP_MESSAGE, R159. -/
  | stopMessage (mid : Nat)
  /-- FORWARD_REQUEST, R427. -/
  | forwardRequest (rid : Nat)
  /-- FORWARD_EXPIRE, R427. -/
  | forwardExpire (core : Nat) (index : Nat)
  /-- REGISTER_PREEMPT, R31. -/
  | registerPreempt (core : Nat) (ctx : Nat)
  /-- REGISTER_GRANT, R30. -/
  | registerGrant (core : Nat)
  /-- ENGINE_COMMAND_ACCEPT, R227. -/
  | engineCommandAccept (cid : Nat)
  /-- ENGINE_COMMAND_START, R218. -/
  | engineCommandStart (core : Nat)
  /-- ENGINE_COMMAND_COMPLETE, R219. -/
  | engineCommandComplete (core : Nat)
  /-- ENGINE_COMMAND_MIGRATE, R229. -/
  | engineCommandMigrate (core : Nat) (cid : Nat)
  /-- ENGRAVE_START, R382. -/
  | engraveStart (sg : Nat)
  /-- ENGRAVE_COMPLETE, R382. -/
  | engraveComplete (sg : Nat)
  /-- COPY_START, R401. -/
  | copyStart (tile : Nat)
  /-- COPY_COMPLETE, R261. -/
  | copyComplete (tile : Nat)
  /-- COPYQ_RESUME, R253. -/
  | copyqResume (tile : Nat)
  /-- SURVEYOR_RUN, R243. -/
  | surveyorRun (core : Nat) (stream : Nat)
  /-- SURVEYOR_GATHER_RETURN, R387. -/
  | surveyorGatherReturn (core : Nat) (stream : Nat)
  /-- MEMORY_STREAM_READ, R173. -/
  | memoryStreamRead (core : Nat) (ctx : Nat) (q : BitVec 3)
  /-- LAUNCH_DISTRIBUTE, R156. -/
  | launchDistribute
  /-- LAUNCH_ENTRY_PLACE, R299. -/
  | launchEntryPlace (die : Nat)
  /-- DISPATCH, R303. -/
  | dispatch (tile : Nat)
  /-- PLACEMENT_DECISION, R321. -/
  | placementDecision (tile : Nat)
  /-- HELD_TASK_RESUME, R290. -/
  | heldTaskResume (tile : Nat)
  /-- SPILL_REFILL, R301. -/
  | spillRefill (tile : Nat)
  /-- SPILL_OFFER_RETRY, R301. -/
  | spillOfferRetry (tile : Nat)
  /-- QUEUE_AGEING, R302. -/
  | queueAgeing (tile : Nat)
  /-- PRESSURE_SAMPLE, R315. -/
  | pressureSample (tile : Nat)
  /-- CONTOUR_STEP, R318. -/
  | contourStep (tile : Nat)
  /-- CREW_GRANT, R311. -/
  | crewGrant (sg : Nat)
  /-- CREW_TARGET, R310. -/
  | crewTarget (sg : Nat)
  /-- CREW_SWAP, R429. -/
  | crewSwap (sg : Nat)
  /-- CREW_RESTORE, R429. -/
  | crewRestore (sg : Nat)
  /-- HEAT_SWEEP, R347. -/
  | heatSweep (part : Nat)
  /-- MEMORY_DOUBLE_UPSET, R428. -/
  | memoryDoubleUpset (address : Nat)
  /-- DIE_LOST, R433. -/
  | dieLost (die : Nat)
  /-- ROUTER_CYCLE, R457. -/
  | routerCycle (router : Nat) (damaged : BitVec 4)
  /-- LINK_DEAD, R460. -/
  | linkDead (router : Nat) (dir : BitVec 2)
  /-- DRAIN_WRITE, R460. -/
  | drainWrite (mask : BitVec 8)
  /-- FABRIC_TIMED_REPLAY, R444. -/
  | fabricTimedReplay (rid : Nat)
  /-- FABRIC_TRANSIT, R447. -/
  | fabricTransit (index : Nat)
  /-- LOSS_PACKET, R448. -/
  | lossPacket (source : Nat) (seqs : List Nat)
  /-- TIME_EXCHANGE, R455. -/
  | timeExchange (port : Nat) (peer : BitVec 8) (time : Word)
  /-- FLIT_ARRIVAL, R451. -/
  | flitArrival (port : Nat) (flit : BitVec 306)
  /-- LINK_NAK_RESEND, R451. -/
  | linkNakResend (port : Nat) (lseq : BitVec 16)
  /-- SEND_WINDOW_DOUBLE_UPSET, R453. -/
  | sendWindowDoubleUpset (port : Nat) (lseq : BitVec 16)
  /-- REPLAY_NOTICE, R453. -/
  | replayNotice (rid : Nat)
  /-- PORT_DOWN, R448. -/
  | portDown (port : Nat)
  /-- ORTE_WRITE, R448. -/
  | orteWrite (svc : Nat) (value : Word)
  /-- OPARK_WRITE, R438. -/
  | oparkWrite (svc : Nat) (value : Word)
  /-- OHEAT_WRITE, R441. -/
  | oheatWrite (svc : Nat) (value : Word)
  /-- OASGN_WRITE, R440. -/
  | oasgnWrite (svc : Nat) (value : Word)
  /-- OPTICAL_WAKE_TRIGGER, R438. -/
  | opticalWakeTrigger (port : Nat)
  /-- RING_SETTLE_DONE, R438. -/
  | ringSettleDone (ring : Nat)
  /-- RING_LOCKED, R438. -/
  | ringLocked (ring : Nat)
  /-- RING_LOCK_TIMEOUT, R438. -/
  | ringLockTimeout (ring : Nat)
  /-- RING_DESKEW_DONE, R438. -/
  | ringDeskewDone (ring : Nat)
  /-- STRIPE_WIDEN, R438. -/
  | stripeWiden (port : Nat)
  /-- MONITOR_SAMPLE, R437. -/
  | monitorSample (ring : Nat)
  /-- PARK_FLIT, R454. -/
  | parkFlit (port : Nat) (mask : BitVec 16)
  /-- WAKE_FLIT, R454. -/
  | wakeFlit (port : Nat) (mask : BitVec 16)
  /-- LOCK_REPORT, R454. -/
  | lockReport (port : Nat)
  /-- HOST_LAUNCH_WRITE, R474. -/
  | hostLaunchWrite (offset : Nat) (bytes : List Byte)
  /-- HOST_COMMAND_WRITE, R476. -/
  | hostCommandWrite (offset : Nat) (bytes : List Byte)
  /-- HOST_QUEUE_DELIVER, R475. -/
  | hostQueueDeliver (mid : Nat)
  /-- HQSIZE_WRITE, R475. -/
  | hqsizeWrite (offset : Nat) (bytes : List Byte)
  /-- HQHEAD_WRITE, R475. -/
  | hqheadWrite (offset : Nat) (bytes : List Byte)
  /-- HQBASE_WRITE, R475. -/
  | hqbaseWrite (offset : Nat) (bytes : List Byte)
  /-- POWER_GOOD, R477. -/
  | powerGood (signatureOk : Bool) (trained : BitVec 16) (peers : List (BitVec 8 × BitVec 4))
  /-- THERMAL_THROTTLE, R478. -/
  | thermalThrottle
  /-- THERMAL_TRIP, R478. -/
  | thermalTrip
  /-- D3HOT_REQUEST, R478. -/
  | d3hotRequest
  /-- GET_VERSION, R471. -/
  | getVersion (request : List Byte)
  /-- GET_CAPABILITIES, R471. -/
  | getCapabilities (request : List Byte)
  /-- NEGOTIATE_ALGORITHMS, R471. -/
  | negotiateAlgorithms (request : List Byte)
  /-- GET_DIGESTS, R471. -/
  | getDigests (request : List Byte)
  /-- GET_CERTIFICATE, R471. -/
  | getCertificate (request : List Byte)
  /-- CHALLENGE, R471. -/
  | challenge (request : List Byte)
  /-- GET_MEASUREMENTS, R471. -/
  | getMeasurements (request : List Byte)
  /-- KEY_EXCHANGE, R471. -/
  | keyExchange (request : List Byte)
  /-- FINISH, R471. -/
  | finish (request : List Byte)
  /-- CREATE, R465. -/
  | create (body : List Byte)
  /-- DESTROY, R465. -/
  | destroy (body : List Byte)
  /-- SET_KEY, R469. -/
  | setKey (body : List Byte)
  /-- SET_PKG, R472. -/
  | setPkg (body : List Byte)
  /-- LOG, R472. -/
  | log (body : List Byte)
  /-- ROUTE, R472. -/
  | route (body : List Byte)
  /-- PACKAGE_LOSS, R433. -/
  | packageLoss (reason : Nat)
  /-- ILLEGAL_ENCODING, R75. -/
  | illegalEncoding (encoding : BitVec 32) (wide : Bool)
  /-- FETCH_FAULT, R76. -/
  | fetchFault (address : Word) (reason : Nat)
  /-- VENDOR_DEFINED_REQUEST, R472. -/
  | vendorDefinedRequest (request : List Byte)
  deriving DecidableEq, Repr

end Sys2Proof
end

