-- ==== Sys2Proof/WellFormed.lean ====
section
/-! DEFINITION. Which instructions are well-formed: the field values that 03_encoding.md (R79, R82 to R92) and the rules
of single instructions mark illegal, each under a name. A pattern that is refused here traps with ILLEGAL (R77). -/

namespace Sys2Proof

/-- Why a bit pattern is not an instruction (03_encoding.md R75, R77). -/
inductive Reject where
  /-- R75: 0xFFFF_FFFF, or a halfword of compact opcode 0. -/
  | forever
  /-- R91: an unassigned major or compact opcode. -/
  | unassignedOpcode
  /-- R91: an unassigned minor code or sub-field value, or a non-zero reserved bit. -/
  | unassignedMinor
  /-- R74: fewer halfwords than the instruction needs. -/
  | truncated
  /-- R79: a last-use mark on g0. -/
  | lastUseOfG0
  /-- R83, R84: S = 1 with the size of a doubleword. -/
  | signOfDoubleword
  /-- R82: a width outside the form's range. -/
  | fieldWidth
  /-- R85, 07_vector_instr.md R199: a condition code that is illegal. -/
  | condition
  /-- R86: aux 5 or 6. -/
  | rounding
  /-- 07_vector_instr.md R204, R206, R208: k = 0. -/
  | predicate
  /-- 07_vector_instr.md R206: both inputs of VMRG are one channel register. -/
  | sameChannel
  /-- 06_task_instr.md R171: n of BAR. -/
  | count
  /-- R92: mask 0 of C.WAIT. -/
  | mask
  /-- R92: register field 0 of a compact form. -/
  | compactG0
  /-- 25_package.md R470: the codes of TRAP that are instructions of their own. -/
  | otherInstruction
  deriving DecidableEq, Repr

/-- The first check that an instruction fails, or none. -/
def Instr.check : Instr → Option Reject
  | .padd _ a l b m => if l && a == 0 then some .lastUseOfG0 else if m && b == 0 then some .lastUseOfG0 else none
  | .pidx _ a l b m => if l && a == 0 then some .lastUseOfG0 else if m && b == 0 then some .lastUseOfG0 else none
  | .pset _ a l b m _ => if l && a == 0 then some .lastUseOfG0 else if m && b == 0 then some .lastUseOfG0 else none
  | .pget _ a l _ => if l && a == 0 then some .lastUseOfG0 else none
  | .pcore _ a l b m => if l && a == 0 then some .lastUseOfG0 else if m && b == 0 then some .lastUseOfG0 else none
  | .pshrd _ a l b m => if l && a == 0 then some .lastUseOfG0 else if m && b == 0 then some .lastUseOfG0 else none
  | .ext _ a l b m => if l && a == 0 then some .lastUseOfG0 else if m && b == 0 then some .lastUseOfG0 else none
  | .bc a l b m c _ => if l && a == 0 then some .lastUseOfG0 else if m && b == 0 then some .lastUseOfG0 else if decide (5 < c.toNat) then some .condition else none
  | .j _ => none
  | .jal _ => none
  | .jr _ a l _ => if l && a == 0 then some .lastUseOfG0 else none
  | .loop _ _ => none
  | .ld _ a l s z _ _ => if l && a == 0 then some .lastUseOfG0 else if s && z == 3 then some .signOfDoubleword else none
  | .ldFut _ a l _ _ => if l && a == 0 then some .lastUseOfG0 else none
  | .ldTake _ a l _ _ => if l && a == 0 then some .lastUseOfG0 else none
  | .st d a l e _ _ _ => if l && a == 0 then some .lastUseOfG0 else if e && d == 0 then some .lastUseOfG0 else none
  | .stFill d a l e _ _ => if l && a == 0 then some .lastUseOfG0 else if e && d == 0 then some .lastUseOfG0 else none
  | .stGive d a l e _ _ => if l && a == 0 then some .lastUseOfG0 else if e && d == 0 then some .lastUseOfG0 else none
  | .ldx _ a l b m s z _ _ => if l && a == 0 then some .lastUseOfG0 else if m && b == 0 then some .lastUseOfG0 else if s && z == 3 then some .signOfDoubleword else none
  | .stx d a l b m e _ _ _ => if l && a == 0 then some .lastUseOfG0 else if m && b == 0 then some .lastUseOfG0 else if e && d == 0 then some .lastUseOfG0 else none
  | .ldtVeq _ a l b m _ => if l && a == 0 then some .lastUseOfG0 else if m && b == 0 then some .lastUseOfG0 else none
  | .ldtVge _ a l b m _ => if l && a == 0 then some .lastUseOfG0 else if m && b == 0 then some .lastUseOfG0 else none
  | .sttVnx d a l e _ => if l && a == 0 then some .lastUseOfG0 else if e && d == 0 then some .lastUseOfG0 else none
  | .sttVset d a l b m e _ => if l && a == 0 then some .lastUseOfG0 else if m && b == 0 then some .lastUseOfG0 else if e && d == 0 then some .lastUseOfG0 else none
  | .lds _ a l b m s z _ => if l && a == 0 then some .lastUseOfG0 else if m && b == 0 then some .lastUseOfG0 else if s && z == 3 then some .signOfDoubleword else none
  | .sts d a l b m e _ _ => if l && a == 0 then some .lastUseOfG0 else if m && b == 0 then some .lastUseOfG0 else if e && d == 0 then some .lastUseOfG0 else none
  | .amoSwap _ a l b m _ _ => if l && a == 0 then some .lastUseOfG0 else if m && b == 0 then some .lastUseOfG0 else none
  | .amoAdd _ a l b m _ _ => if l && a == 0 then some .lastUseOfG0 else if m && b == 0 then some .lastUseOfG0 else none
  | .amoAnd _ a l b m _ _ => if l && a == 0 then some .lastUseOfG0 else if m && b == 0 then some .lastUseOfG0 else none
  | .amoOr _ a l b m _ _ => if l && a == 0 then some .lastUseOfG0 else if m && b == 0 then some .lastUseOfG0 else none
  | .amoXor _ a l b m _ _ => if l && a == 0 then some .lastUseOfG0 else if m && b == 0 then some .lastUseOfG0 else none
  | .amoMin _ a l b m _ _ => if l && a == 0 then some .lastUseOfG0 else if m && b == 0 then some .lastUseOfG0 else none
  | .amoMax _ a l b m _ _ => if l && a == 0 then some .lastUseOfG0 else if m && b == 0 then some .lastUseOfG0 else none
  | .amoMinu _ a l b m _ _ => if l && a == 0 then some .lastUseOfG0 else if m && b == 0 then some .lastUseOfG0 else none
  | .amoMaxu _ a l b m _ _ => if l && a == 0 then some .lastUseOfG0 else if m && b == 0 then some .lastUseOfG0 else none
  | .cas _ a l b m _ _ => if l && a == 0 then some .lastUseOfG0 else if m && b == 0 then some .lastUseOfG0 else none
  | .redo _ a l b m _ => if l && a == 0 then some .lastUseOfG0 else if m && b == 0 then some .lastUseOfG0 else none
  | .reda a l b m _ => if l && a == 0 then some .lastUseOfG0 else if m && b == 0 then some .lastUseOfG0 else none
  | .redr _ a l _ => if l && a == 0 then some .lastUseOfG0 else none
  | .redc _ a l _ => if l && a == 0 then some .lastUseOfG0 else none
  | .jinit _ a l b m => if l && a == 0 then some .lastUseOfG0 else if m && b == 0 then some .lastUseOfG0 else none
  | .join _ a l b m => if l && a == 0 then some .lastUseOfG0 else if m && b == 0 then some .lastUseOfG0 else none
  | .fence _ a l => if l && a == 0 then some .lastUseOfG0 else none
  | .flush a l b m => if l && a == 0 then some .lastUseOfG0 else if m && b == 0 then some .lastUseOfG0 else none
  | .cinv a l b m => if l && a == 0 then some .lastUseOfG0 else if m && b == 0 then some .lastUseOfG0 else none
  | .wait _ _ _ _ => none
  | .pref _ a l b m => if l && a == 0 then some .lastUseOfG0 else if m && b == 0 then some .lastUseOfG0 else none
  | .vrecl a l b m => if l && a == 0 then some .lastUseOfG0 else if m && b == 0 then some .lastUseOfG0 else none
  | .tagr _ a l => if l && a == 0 then some .lastUseOfG0 else none
  | .tagw a l b m => if l && a == 0 then some .lastUseOfG0 else if m && b == 0 then some .lastUseOfG0 else none
  | .mcast _ a l b m => if l && a == 0 then some .lastUseOfG0 else if m && b == 0 then some .lastUseOfG0 else none
  | .spawn a l b m => if l && a == 0 then some .lastUseOfG0 else if m && b == 0 then some .lastUseOfG0 else none
  | .launch _ a l => if l && a == 0 then some .lastUseOfG0 else none
  | .yield => none
  | .prio _ a l => if l && a == 0 then some .lastUseOfG0 else none
  | .sendm a l b m => if l && a == 0 then some .lastUseOfG0 else if m && b == 0 then some .lastUseOfG0 else none
  | .recv _ a l => if l && a == 0 then some .lastUseOfG0 else none
  | .peek _ => none
  | .reply a l => if l && a == 0 then some .lastUseOfG0 else none
  | .hstart _ a l b m => if l && a == 0 then some .lastUseOfG0 else if m && b == 0 then some .lastUseOfG0 else none
  | .hhalt a l => if l && a == 0 then some .lastUseOfG0 else none
  | .hhaltRetain a l b m => if l && a == 0 then some .lastUseOfG0 else if m && b == 0 then some .lastUseOfG0 else none
  | .hwait _ a l => if l && a == 0 then some .lastUseOfG0 else none
  | .crew a l b m => if l && a == 0 then some .lastUseOfG0 else if m && b == 0 then some .lastUseOfG0 else none
  | .crewx _ => none
  | .bar _ a l n => if l && a == 0 then some .lastUseOfG0 else if n == 0 || decide (11 < n.toNat) then some .count else none
  | .qbind a l b m _ => if l && a == 0 then some .lastUseOfG0 else if m && b == 0 then some .lastUseOfG0 else none
  | .qfree _ => none
  | .qctlPop _ _ => none
  | .qctlPush a l _ => if l && a == 0 then some .lastUseOfG0 else none
  | .qctlPushc a l _ => if l && a == 0 then some .lastUseOfG0 else none
  | .qctlFlush _ => none
  | .qstat _ _ => none
  | .qhnd a l => if l && a == 0 then some .lastUseOfG0 else none
  | .qret => none
  | .vclaim _ a l => if l && a == 0 then some .lastUseOfG0 else none
  | .vreneg _ a l => if l && a == 0 then some .lastUseOfG0 else none
  | .vrel => none
  | .pcnt _ _ => none
  | .pwhile _ a l b m _ => if l && a == 0 then some .lastUseOfG0 else if m && b == 0 then some .lastUseOfG0 else none
  | .pmin a l _ _ => if l && a == 0 then some .lastUseOfG0 else none
  | .vld _ a l _ _ => if l && a == 0 then some .lastUseOfG0 else none
  | .vst _ a l _ _ => if l && a == 0 then some .lastUseOfG0 else none
  | .vldf _ a l k _ => if l && a == 0 then some .lastUseOfG0 else if k == 0 then some .predicate else none
  | .vlds _ a l b m _ _ => if l && a == 0 then some .lastUseOfG0 else if m && b == 0 then some .lastUseOfG0 else none
  | .vsts _ a l b m _ _ => if l && a == 0 then some .lastUseOfG0 else if m && b == 0 then some .lastUseOfG0 else none
  | .vgth _ a l _ _ _ => if l && a == 0 then some .lastUseOfG0 else none
  | .vsct _ a l _ _ _ => if l && a == 0 then some .lastUseOfG0 else none
  | .vadd _ _ _ _ _ x => if x == 5 || x == 6 then some .rounding else none
  | .vsub _ _ _ _ _ x => if x == 5 || x == 6 then some .rounding else none
  | .vmul _ _ _ _ _ x => if x == 5 || x == 6 then some .rounding else none
  | .vdiv _ _ _ _ _ x => if x == 5 || x == 6 then some .rounding else none
  | .vmin _ _ _ _ _ x => if x == 5 || x == 6 then some .rounding else none
  | .vmax _ _ _ _ _ x => if x == 5 || x == 6 then some .rounding else none
  | .vabsd _ _ _ _ _ x => if x == 5 || x == 6 then some .rounding else none
  | .vmulh _ _ _ _ _ x => if x == 5 || x == 6 then some .rounding else none
  | .vfma _ _ _ _ _ x => if x == 5 || x == 6 then some .rounding else none
  | .vfms _ _ _ _ _ x => if x == 5 || x == 6 then some .rounding else none
  | .vcvt _ _ _ _ _ x => if x == 5 || x == 6 then some .rounding else none
  | .vabs _ _ _ _ x => if x == 5 || x == 6 then some .rounding else none
  | .vneg _ _ _ _ x => if x == 5 || x == 6 then some .rounding else none
  | .vsqrt _ _ _ _ x => if x == 5 || x == 6 then some .rounding else none
  | .vrcp _ _ _ _ x => if x == 5 || x == 6 then some .rounding else none
  | .vrsq _ _ _ _ x => if x == 5 || x == 6 then some .rounding else none
  | .vexp _ _ _ _ x => if x == 5 || x == 6 then some .rounding else none
  | .vlog _ _ _ _ x => if x == 5 || x == 6 then some .rounding else none
  | .vsin _ _ _ _ x => if x == 5 || x == 6 then some .rounding else none
  | .vcos _ _ _ _ x => if x == 5 || x == 6 then some .rounding else none
  | .vtanh _ _ _ _ x => if x == 5 || x == 6 then some .rounding else none
  | .vand _ _ _ _ _ x => if x == 5 || x == 6 then some .rounding else none
  | .vor _ _ _ _ _ x => if x == 5 || x == 6 then some .rounding else none
  | .vxor _ _ _ _ _ x => if x == 5 || x == 6 then some .rounding else none
  | .vandn _ _ _ _ _ x => if x == 5 || x == 6 then some .rounding else none
  | .vshl _ _ _ _ _ x => if x == 5 || x == 6 then some .rounding else none
  | .vshr _ _ _ _ _ x => if x == 5 || x == 6 then some .rounding else none
  | .vsar _ _ _ _ _ x => if x == 5 || x == 6 then some .rounding else none
  | .vcmp _ _ _ _ t c => if decide (5 < c.toNat) && decide (t.toNat < 8) then some .condition else none
  | .vsel _ _ _ _ _ x => if x == 5 || x == 6 then some .rounding else none
  | .vsum _ _ _ _ x => if x == 5 || x == 6 then some .rounding else none
  | .vrmax _ _ _ _ x => if x == 5 || x == 6 then some .rounding else none
  | .vrmin _ _ _ _ x => if x == 5 || x == 6 then some .rounding else none
  | .vscan _ _ _ _ x => if x == 5 || x == 6 then some .rounding else none
  | .vperm _ _ _ _ _ x => if x == 5 || x == 6 then some .rounding else none
  | .vbc _ g l _ _ x => if l && g == 0 then some .lastUseOfG0 else if x == 5 || x == 6 then some .rounding else none
  | .vext _ _ _ _ x => if x == 5 || x == 6 then some .rounding else none
  | .vins _ g l _ _ x => if l && g == 0 then some .lastUseOfG0 else if x == 5 || x == 6 then some .rounding else none
  | .viota _ _ _ x => if x == 5 || x == 6 then some .rounding else none
  | .vmov _ _ _ _ x => if x == 5 || x == 6 then some .rounding else none
  | .vqmovPop _ _ k _ x => if x == 5 || x == 6 then some .rounding else if k == 0 then some .predicate else none
  | .vqmovPush _ _ k _ x => if x == 5 || x == 6 then some .rounding else if k == 0 then some .predicate else none
  | .vmrg _ a b k _ x => if x == 5 || x == 6 then some .rounding else if k == 0 then some .predicate else if a == b then some .sameChannel else none
  | .mma _ a l _ => if l && a == 0 then some .lastUseOfG0 else none
  | .mmaz _ a l _ => if l && a == 0 then some .lastUseOfG0 else none
  | .mbs _ a l _ => if l && a == 0 then some .lastUseOfG0 else none
  | .mbsz _ a l _ => if l && a == 0 then some .lastUseOfG0 else none
  | .msp _ a l _ => if l && a == 0 then some .lastUseOfG0 else none
  | .mpre _ a l => if l && a == 0 then some .lastUseOfG0 else none
  | .mpinv a l => if l && a == 0 then some .lastUseOfG0 else none
  | .mld _ a l b m _ => if l && a == 0 then some .lastUseOfG0 else if m && b == 0 then some .lastUseOfG0 else none
  | .mst _ a l b m _ => if l && a == 0 then some .lastUseOfG0 else if m && b == 0 then some .lastUseOfG0 else none
  | .mzero _ => none
  | .mrd _ a l _ => if l && a == 0 then some .lastUseOfG0 else none
  | .mstFill _ a l b m _ => if l && a == 0 then some .lastUseOfG0 else if m && b == 0 then some .lastUseOfG0 else none
  | .mstVnx _ a l b m _ => if l && a == 0 then some .lastUseOfG0 else if m && b == 0 then some .lastUseOfG0 else none
  | .mstVset _ a l b m _ => if l && a == 0 then some .lastUseOfG0 else if m && b == 0 then some .lastUseOfG0 else none
  | .mcmd _ a l b m => if l && a == 0 then some .lastUseOfG0 else if m && b == 0 then some .lastUseOfG0 else none
  | .mqry _ a l => if l && a == 0 then some .lastUseOfG0 else none
  | .hacc _ a l b m => if l && a == 0 then some .lastUseOfG0 else if m && b == 0 then some .lastUseOfG0 else none
  | .hdrn _ a l b m => if l && a == 0 then some .lastUseOfG0 else if m && b == 0 then some .lastUseOfG0 else none
  | .sbnd a l b m => if l && a == 0 then some .lastUseOfG0 else if m && b == 0 then some .lastUseOfG0 else none
  | .carry _ a l b m => if l && a == 0 then some .lastUseOfG0 else if m && b == 0 then some .lastUseOfG0 else none
  | .survBind _ a l b m => if l && a == 0 then some .lastUseOfG0 else if m && b == 0 then some .lastUseOfG0 else none
  | .survUnbind a l => if l && a == 0 then some .lastUseOfG0 else none
  | .survStart a l => if l && a == 0 then some .lastUseOfG0 else none
  | .survStop a l => if l && a == 0 then some .lastUseOfG0 else none
  | .tmld a l _ => if l && a == 0 then some .lastUseOfG0 else none
  | .tmset a l _ _ => if l && a == 0 then some .lastUseOfG0 else none
  | .tmget _ _ _ => none
  | .cpy _ _ _ => none
  | .cpyg _ a l _ _ => if l && a == 0 then some .lastUseOfG0 else none
  | .cpys _ a l _ _ => if l && a == 0 then some .lastUseOfG0 else none
  | .cpyq _ _ _ => none
  | .cpyf _ a l b m _ => if l && a == 0 then some .lastUseOfG0 else if m && b == 0 then some .lastUseOfG0 else none
  | .srd _ _ => none
  | .swr g l _ => if l && g == 0 then some .lastUseOfG0 else none
  | .trap n => if n == 0x800 || n == 0x801 then some .otherInstruction else none
  | .capMint => none
  | .capNewGeneration => none
  | .xret => none
  | .brk _ => none
  | .nop => none
  | .synci => none
  | .ptinv a l b m => if l && a == 0 then some .lastUseOfG0 else if m && b == 0 then some .lastUseOfG0 else none
  | .atset a l b m => if l && a == 0 then some .lastUseOfG0 else if m && b == 0 then some .lastUseOfG0 else none
  | .atsync _ => none
  | .migr _ a l b m => if l && a == 0 then some .lastUseOfG0 else if m && b == 0 then some .lastUseOfG0 else none
  | .gstop _ a l => if l && a == 0 then some .lastUseOfG0 else none
  | .svFetch _ _ _ => none
  | .svEmit _ _ _ => none
  | .add _ a l b m => if l && a == 0 then some .lastUseOfG0 else if m && b == 0 then some .lastUseOfG0 else none
  | .sub _ a l b m => if l && a == 0 then some .lastUseOfG0 else if m && b == 0 then some .lastUseOfG0 else none
  | .and _ a l b m => if l && a == 0 then some .lastUseOfG0 else if m && b == 0 then some .lastUseOfG0 else none
  | .or _ a l b m => if l && a == 0 then some .lastUseOfG0 else if m && b == 0 then some .lastUseOfG0 else none
  | .xor _ a l b m => if l && a == 0 then some .lastUseOfG0 else if m && b == 0 then some .lastUseOfG0 else none
  | .andn _ a l b m => if l && a == 0 then some .lastUseOfG0 else if m && b == 0 then some .lastUseOfG0 else none
  | .shl _ a l b m => if l && a == 0 then some .lastUseOfG0 else if m && b == 0 then some .lastUseOfG0 else none
  | .shr _ a l b m => if l && a == 0 then some .lastUseOfG0 else if m && b == 0 then some .lastUseOfG0 else none
  | .sar _ a l b m => if l && a == 0 then some .lastUseOfG0 else if m && b == 0 then some .lastUseOfG0 else none
  | .rot _ a l b m => if l && a == 0 then some .lastUseOfG0 else if m && b == 0 then some .lastUseOfG0 else none
  | .min _ a l b m => if l && a == 0 then some .lastUseOfG0 else if m && b == 0 then some .lastUseOfG0 else none
  | .max _ a l b m => if l && a == 0 then some .lastUseOfG0 else if m && b == 0 then some .lastUseOfG0 else none
  | .minu _ a l b m => if l && a == 0 then some .lastUseOfG0 else if m && b == 0 then some .lastUseOfG0 else none
  | .maxu _ a l b m => if l && a == 0 then some .lastUseOfG0 else if m && b == 0 then some .lastUseOfG0 else none
  | .slt _ a l b m => if l && a == 0 then some .lastUseOfG0 else if m && b == 0 then some .lastUseOfG0 else none
  | .sltu _ a l b m => if l && a == 0 then some .lastUseOfG0 else if m && b == 0 then some .lastUseOfG0 else none
  | .sel _ a l b m => if l && a == 0 then some .lastUseOfG0 else if m && b == 0 then some .lastUseOfG0 else none
  | .mov _ a l => if l && a == 0 then some .lastUseOfG0 else none
  | .clz _ a l => if l && a == 0 then some .lastUseOfG0 else none
  | .ctz _ a l => if l && a == 0 then some .lastUseOfG0 else none
  | .popc _ a l => if l && a == 0 then some .lastUseOfG0 else none
  | .brev _ a l => if l && a == 0 then some .lastUseOfG0 else none
  | .bswp _ a l => if l && a == 0 then some .lastUseOfG0 else none
  | .addW _ a l b m => if l && a == 0 then some .lastUseOfG0 else if m && b == 0 then some .lastUseOfG0 else none
  | .subW _ a l b m => if l && a == 0 then some .lastUseOfG0 else if m && b == 0 then some .lastUseOfG0 else none
  | .andW _ a l b m => if l && a == 0 then some .lastUseOfG0 else if m && b == 0 then some .lastUseOfG0 else none
  | .orW _ a l b m => if l && a == 0 then some .lastUseOfG0 else if m && b == 0 then some .lastUseOfG0 else none
  | .xorW _ a l b m => if l && a == 0 then some .lastUseOfG0 else if m && b == 0 then some .lastUseOfG0 else none
  | .andnW _ a l b m => if l && a == 0 then some .lastUseOfG0 else if m && b == 0 then some .lastUseOfG0 else none
  | .shlW _ a l b m => if l && a == 0 then some .lastUseOfG0 else if m && b == 0 then some .lastUseOfG0 else none
  | .shrW _ a l b m => if l && a == 0 then some .lastUseOfG0 else if m && b == 0 then some .lastUseOfG0 else none
  | .sarW _ a l b m => if l && a == 0 then some .lastUseOfG0 else if m && b == 0 then some .lastUseOfG0 else none
  | .rotW _ a l b m => if l && a == 0 then some .lastUseOfG0 else if m && b == 0 then some .lastUseOfG0 else none
  | .minW _ a l b m => if l && a == 0 then some .lastUseOfG0 else if m && b == 0 then some .lastUseOfG0 else none
  | .maxW _ a l b m => if l && a == 0 then some .lastUseOfG0 else if m && b == 0 then some .lastUseOfG0 else none
  | .minuW _ a l b m => if l && a == 0 then some .lastUseOfG0 else if m && b == 0 then some .lastUseOfG0 else none
  | .maxuW _ a l b m => if l && a == 0 then some .lastUseOfG0 else if m && b == 0 then some .lastUseOfG0 else none
  | .sltW _ a l b m => if l && a == 0 then some .lastUseOfG0 else if m && b == 0 then some .lastUseOfG0 else none
  | .sltuW _ a l b m => if l && a == 0 then some .lastUseOfG0 else if m && b == 0 then some .lastUseOfG0 else none
  | .clzW _ a l => if l && a == 0 then some .lastUseOfG0 else none
  | .ctzW _ a l => if l && a == 0 then some .lastUseOfG0 else none
  | .popcW _ a l => if l && a == 0 then some .lastUseOfG0 else none
  | .addImm _ a l _ => if l && a == 0 then some .lastUseOfG0 else none
  | .andImm _ a l _ => if l && a == 0 then some .lastUseOfG0 else none
  | .orImm _ a l _ => if l && a == 0 then some .lastUseOfG0 else none
  | .xorImm _ a l _ => if l && a == 0 then some .lastUseOfG0 else none
  | .shlImm _ a l _ => if l && a == 0 then some .lastUseOfG0 else none
  | .shrImm _ a l _ => if l && a == 0 then some .lastUseOfG0 else none
  | .sarImm _ a l _ => if l && a == 0 then some .lastUseOfG0 else none
  | .rotImm _ a l _ => if l && a == 0 then some .lastUseOfG0 else none
  | .sltImm _ a l _ => if l && a == 0 then some .lastUseOfG0 else none
  | .sltuImm _ a l _ => if l && a == 0 then some .lastUseOfG0 else none
  | .minImm _ a l _ => if l && a == 0 then some .lastUseOfG0 else none
  | .maxImm _ a l _ => if l && a == 0 then some .lastUseOfG0 else none
  | .addWImm _ a l _ => if l && a == 0 then some .lastUseOfG0 else none
  | .li _ _ => none
  | .lih _ _ _ => none
  | .bfx _ a l _ w => if l && a == 0 then some .lastUseOfG0 else if decide (64 < w.toNat) then some .fieldWidth else none
  | .bfxs _ a l _ w => if l && a == 0 then some .lastUseOfG0 else if decide (w.toNat < 65) then some .fieldWidth else none
  | .bfxs64 _ a l _ => if l && a == 0 then some .lastUseOfG0 else none
  | .bfi _ a l _ w => if l && a == 0 then some .lastUseOfG0 else if decide (64 < w.toNat) then some .fieldWidth else none
  | .bfxReg _ a l b m => if l && a == 0 then some .lastUseOfG0 else if m && b == 0 then some .lastUseOfG0 else none
  | .bfxsReg _ a l b m => if l && a == 0 then some .lastUseOfG0 else if m && b == 0 then some .lastUseOfG0 else none
  | .bfiReg _ a l b m => if l && a == 0 then some .lastUseOfG0 else if m && b == 0 then some .lastUseOfG0 else none
  | .mul _ a l b m => if l && a == 0 then some .lastUseOfG0 else if m && b == 0 then some .lastUseOfG0 else none
  | .mulh _ a l b m => if l && a == 0 then some .lastUseOfG0 else if m && b == 0 then some .lastUseOfG0 else none
  | .mulhu _ a l b m => if l && a == 0 then some .lastUseOfG0 else if m && b == 0 then some .lastUseOfG0 else none
  | .div _ a l b m => if l && a == 0 then some .lastUseOfG0 else if m && b == 0 then some .lastUseOfG0 else none
  | .divu _ a l b m => if l && a == 0 then some .lastUseOfG0 else if m && b == 0 then some .lastUseOfG0 else none
  | .rem _ a l b m => if l && a == 0 then some .lastUseOfG0 else if m && b == 0 then some .lastUseOfG0 else none
  | .remu _ a l b m => if l && a == 0 then some .lastUseOfG0 else if m && b == 0 then some .lastUseOfG0 else none
  | .mulW _ a l b m => if l && a == 0 then some .lastUseOfG0 else if m && b == 0 then some .lastUseOfG0 else none
  | .mulhW _ a l b m => if l && a == 0 then some .lastUseOfG0 else if m && b == 0 then some .lastUseOfG0 else none
  | .mulhuW _ a l b m => if l && a == 0 then some .lastUseOfG0 else if m && b == 0 then some .lastUseOfG0 else none
  | .divW _ a l b m => if l && a == 0 then some .lastUseOfG0 else if m && b == 0 then some .lastUseOfG0 else none
  | .divuW _ a l b m => if l && a == 0 then some .lastUseOfG0 else if m && b == 0 then some .lastUseOfG0 else none
  | .remW _ a l b m => if l && a == 0 then some .lastUseOfG0 else if m && b == 0 then some .lastUseOfG0 else none
  | .remuW _ a l b m => if l && a == 0 then some .lastUseOfG0 else if m && b == 0 then some .lastUseOfG0 else none
  | .cAdd d b l => if l && b == 0 then some .lastUseOfG0 else if d == 0 then some .compactG0 else none
  | .cAddi d _ => if d == 0 then some .compactG0 else none
  | .cMov d b l => if l && b == 0 then some .lastUseOfG0 else if d == 0 then some .compactG0 else none
  | .cLi d _ => if d == 0 then some .compactG0 else none
  | .cLd _ _ _ _ => none
  | .cSt _ _ _ _ _ => none
  | .cBz _ _ _ => none
  | .cBnz _ _ _ => none
  | .cJ _ => none
  | .cSub _ _ _ => none
  | .cAnd _ _ _ => none
  | .cOr _ _ _ => none
  | .cXor _ _ _ => none
  | .cShl _ _ _ => none
  | .cShr _ _ _ => none
  | .cWait m => if m == 0 then some .mask else none
  | .cRecv d => if d == 0 then some .compactG0 else none
  | .cJr a l => if l && a == 0 then some .lastUseOfG0 else if a == 0 then some .compactG0 else none
  | .cPadd d b l => if l && b == 0 then some .lastUseOfG0 else if d == 0 then some .compactG0 else none
  | .cNop => none
  | .cYield => none
  | .cHhalt => none
  | .claimGrant _ => none
  | .lsplitWrite _ _ => none
  | .vgroupWrite _ _ => none
  | .homeAccept _ => none
  | .retryReplay _ => none
  | .loadDataReturn _ _ => none
  | .storeAck _ => none
  | .releaseSend _ => none
  | .barComplete _ _ => none
  | .messageArrival _ => none
  | .messageReplay _ => none
  | .handlerStart _ => none
  | .resumeMessage _ => none
  | .stopMessage _ => none
  | .forwardRequest _ => none
  | .forwardExpire _ _ => none
  | .registerPreempt _ _ => none
  | .registerGrant _ => none
  | .engineCommandAccept _ => none
  | .engineCommandStart _ => none
  | .engineCommandComplete _ => none
  | .engineCommandMigrate _ _ => none
  | .engraveStart _ => none
  | .engraveComplete _ => none
  | .copyStart _ => none
  | .copyComplete _ => none
  | .copyqResume _ => none
  | .surveyorRun _ _ => none
  | .surveyorGatherReturn _ _ => none
  | .memoryStreamRead _ _ _ => none
  | .launchDistribute => none
  | .launchEntryPlace _ => none
  | .dispatch _ => none
  | .placementDecision _ => none
  | .heldTaskResume _ => none
  | .spillRefill _ => none
  | .spillOfferRetry _ => none
  | .queueAgeing _ => none
  | .pressureSample _ => none
  | .contourStep _ => none
  | .crewGrant _ => none
  | .crewTarget _ => none
  | .crewSwap _ => none
  | .crewRestore _ => none
  | .heatSweep _ => none
  | .memoryDoubleUpset _ => none
  | .dieLost _ => none
  | .routerCycle _ _ => none
  | .linkDead _ _ => none
  | .drainWrite _ => none
  | .fabricTimedReplay _ => none
  | .fabricTransit _ => none
  | .lossPacket _ _ => none
  | .timeExchange _ _ _ => none
  | .flitArrival _ _ => none
  | .linkNakResend _ _ => none
  | .sendWindowDoubleUpset _ _ => none
  | .replayNotice _ => none
  | .portDown _ => none
  | .orteWrite _ _ => none
  | .oparkWrite _ _ => none
  | .oheatWrite _ _ => none
  | .oasgnWrite _ _ => none
  | .opticalWakeTrigger _ => none
  | .ringSettleDone _ => none
  | .ringLocked _ => none
  | .ringLockTimeout _ => none
  | .ringDeskewDone _ => none
  | .stripeWiden _ => none
  | .monitorSample _ => none
  | .parkFlit _ _ => none
  | .wakeFlit _ _ => none
  | .lockReport _ => none
  | .hostLaunchWrite _ _ => none
  | .hostCommandWrite _ _ => none
  | .hostQueueDeliver _ => none
  | .hqsizeWrite _ _ => none
  | .hqheadWrite _ _ => none
  | .hqbaseWrite _ _ => none
  | .powerGood _ _ _ => none
  | .thermalThrottle => none
  | .thermalTrip => none
  | .d3hotRequest => none
  | .getVersion _ => none
  | .getCapabilities _ => none
  | .negotiateAlgorithms _ => none
  | .getDigests _ => none
  | .getCertificate _ => none
  | .challenge _ => none
  | .getMeasurements _ => none
  | .keyExchange _ => none
  | .finish _ => none
  | .create _ => none
  | .destroy _ => none
  | .setKey _ => none
  | .setPkg _ => none
  | .log _ => none
  | .route _ => none
  | .packageLoss _ => none
  | .illegalEncoding _ _ => none
  | .fetchFault _ _ => none
  | .vendorDefinedRequest _ => none

/-- An instruction of the machine: every field has a value its encoding allows. -/
abbrev Instr.WellFormed (i : Instr) : Prop := i.check = none

end Sys2Proof
end

