-- ==== Sys2Proof/Decode.lean ====
section
/-! DEFINITION. The decoder, total on any halfwords (03_encoding.md R74, R75, R91, R92), and after it the encoder, both
written from the encoding tables of the spec. A 32-bit instruction is read as the number of its bits [31:0], a compact
form as the number of its halfword. -/

namespace Sys2Proof

-- Lean's compiler cannot build values of an inductive type of more than 244 constructors with fields; the kernel can.
noncomputable section

/-- Bits [lo + n - 1 : lo] of an encoding. -/
def fld (w lo n : Nat) : Nat := w / 2 ^ lo % 2 ^ n

/-- Compact opcode 1 (R92). -/
def decodeCompact01 (w : Nat) : Except Reject Instr :=
  .ok (.cAdd (BitVec.ofNat 5 (fld w 6 5)) (BitVec.ofNat 5 (fld w 1 5)) (fld w 0 1 == 1))

/-- Compact opcode 2 (R92). -/
def decodeCompact02 (w : Nat) : Except Reject Instr :=
  .ok (.cAddi (BitVec.ofNat 5 (fld w 6 5)) (BitVec.ofNat 6 (fld w 0 6)))

/-- Compact opcode 3 (R92). -/
def decodeCompact03 (w : Nat) : Except Reject Instr :=
  .ok (.cMov (BitVec.ofNat 5 (fld w 6 5)) (BitVec.ofNat 5 (fld w 1 5)) (fld w 0 1 == 1))

/-- Compact opcode 4 (R92). -/
def decodeCompact04 (w : Nat) : Except Reject Instr :=
  .ok (.cLi (BitVec.ofNat 5 (fld w 6 5)) (BitVec.ofNat 6 (fld w 0 6)))

/-- Compact opcode 5 (R92). -/
def decodeCompact05 (w : Nat) : Except Reject Instr :=
  .ok (.cLd (BitVec.ofNat 3 (fld w 8 3)) (BitVec.ofNat 3 (fld w 5 3)) (fld w 4 1 == 1) (BitVec.ofNat 4 (fld w 0 4)))

/-- Compact opcode 6 (R92). -/
def decodeCompact06 (w : Nat) : Except Reject Instr :=
  .ok (.cSt (BitVec.ofNat 3 (fld w 8 3)) (fld w 7 1 == 1) (BitVec.ofNat 3 (fld w 4 3)) (fld w 3 1 == 1) (BitVec.ofNat 3 (fld w 0 3)))

/-- Compact opcode 7 (R92). -/
def decodeCompact07 (w : Nat) : Except Reject Instr :=
  if fld w 10 1 = 0 then .ok (.cBz (BitVec.ofNat 3 (fld w 7 3)) (fld w 6 1 == 1) (BitVec.ofNat 6 (fld w 0 6)))
  else if fld w 10 1 = 1 then .ok (.cBnz (BitVec.ofNat 3 (fld w 7 3)) (fld w 6 1 == 1) (BitVec.ofNat 6 (fld w 0 6)))
  else .error .unassignedMinor

/-- Compact opcode 8 (R92). -/
def decodeCompact08 (w : Nat) : Except Reject Instr :=
  .ok (.cJ (BitVec.ofNat 11 (fld w 0 11)))

/-- Compact opcode 9 (R92). -/
def decodeCompact09 (w : Nat) : Except Reject Instr :=
  if fld w 0 1 = 0 ∧ fld w 8 3 = 0 then .ok (.cSub (BitVec.ofNat 3 (fld w 5 3)) (BitVec.ofNat 3 (fld w 2 3)) (fld w 1 1 == 1))
  else if fld w 0 1 = 0 ∧ fld w 8 3 = 1 then .ok (.cAnd (BitVec.ofNat 3 (fld w 5 3)) (BitVec.ofNat 3 (fld w 2 3)) (fld w 1 1 == 1))
  else if fld w 0 1 = 0 ∧ fld w 8 3 = 2 then .ok (.cOr (BitVec.ofNat 3 (fld w 5 3)) (BitVec.ofNat 3 (fld w 2 3)) (fld w 1 1 == 1))
  else if fld w 0 1 = 0 ∧ fld w 8 3 = 3 then .ok (.cXor (BitVec.ofNat 3 (fld w 5 3)) (BitVec.ofNat 3 (fld w 2 3)) (fld w 1 1 == 1))
  else if fld w 0 1 = 0 ∧ fld w 8 3 = 4 then .ok (.cShl (BitVec.ofNat 3 (fld w 5 3)) (BitVec.ofNat 3 (fld w 2 3)) (fld w 1 1 == 1))
  else if fld w 0 1 = 0 ∧ fld w 8 3 = 5 then .ok (.cShr (BitVec.ofNat 3 (fld w 5 3)) (BitVec.ofNat 3 (fld w 2 3)) (fld w 1 1 == 1))
  else .error .unassignedMinor

/-- Compact opcode 10 (R92). -/
def decodeCompact0A (w : Nat) : Except Reject Instr :=
  if fld w 4 7 = 0 then .ok (.cWait (BitVec.ofNat 4 (fld w 0 4)))
  else .error .unassignedMinor

/-- Compact opcode 11 (R92). -/
def decodeCompact0B (w : Nat) : Except Reject Instr :=
  if fld w 0 6 = 0 then .ok (.cRecv (BitVec.ofNat 5 (fld w 6 5)))
  else .error .unassignedMinor

/-- Compact opcode 12 (R92). -/
def decodeCompact0C (w : Nat) : Except Reject Instr :=
  if fld w 0 5 = 0 then .ok (.cJr (BitVec.ofNat 5 (fld w 6 5)) (fld w 5 1 == 1))
  else .error .unassignedMinor

/-- Compact opcode 13 (R92). -/
def decodeCompact0D (w : Nat) : Except Reject Instr :=
  .ok (.cPadd (BitVec.ofNat 5 (fld w 6 5)) (BitVec.ofNat 5 (fld w 1 5)) (fld w 0 1 == 1))

/-- Compact opcode 14 (R92). -/
def decodeCompact0E (w : Nat) : Except Reject Instr :=
  if fld w 0 11 = 0 then .ok .cNop
  else if fld w 0 11 = 256 then .ok .cYield
  else if fld w 0 11 = 512 then .ok .cHhalt
  else .error .unassignedMinor

/-- Compact opcode 15 (R92). -/
def decodeCompact0F (w : Nat) : Except Reject Instr :=
  if fld w 10 1 = 0 then .ok (.svFetch (BitVec.ofNat 3 (fld w 7 3)) (BitVec.ofNat 3 (fld w 4 3)) (BitVec.ofNat 4 (fld w 0 4)))
  else if fld w 10 1 = 1 then .ok (.svEmit (BitVec.ofNat 3 (fld w 7 3)) (BitVec.ofNat 3 (fld w 4 3)) (BitVec.ofNat 4 (fld w 0 4)))
  else .error .unassignedMinor

/-- Major opcode 0x00 (R91). -/
def decodeMajor00 (w : Nat) : Except Reject Instr :=
  if fld w 0 8 = 0 then .ok (.add (BitVec.ofNat 5 (fld w 20 5)) (BitVec.ofNat 5 (fld w 15 5)) (fld w 14 1 == 1) (BitVec.ofNat 5 (fld w 9 5)) (fld w 8 1 == 1))
  else if fld w 0 8 = 1 then .ok (.sub (BitVec.ofNat 5 (fld w 20 5)) (BitVec.ofNat 5 (fld w 15 5)) (fld w 14 1 == 1) (BitVec.ofNat 5 (fld w 9 5)) (fld w 8 1 == 1))
  else if fld w 0 8 = 2 then .ok (.and (BitVec.ofNat 5 (fld w 20 5)) (BitVec.ofNat 5 (fld w 15 5)) (fld w 14 1 == 1) (BitVec.ofNat 5 (fld w 9 5)) (fld w 8 1 == 1))
  else if fld w 0 8 = 3 then .ok (.or (BitVec.ofNat 5 (fld w 20 5)) (BitVec.ofNat 5 (fld w 15 5)) (fld w 14 1 == 1) (BitVec.ofNat 5 (fld w 9 5)) (fld w 8 1 == 1))
  else if fld w 0 8 = 4 then .ok (.xor (BitVec.ofNat 5 (fld w 20 5)) (BitVec.ofNat 5 (fld w 15 5)) (fld w 14 1 == 1) (BitVec.ofNat 5 (fld w 9 5)) (fld w 8 1 == 1))
  else if fld w 0 8 = 5 then .ok (.andn (BitVec.ofNat 5 (fld w 20 5)) (BitVec.ofNat 5 (fld w 15 5)) (fld w 14 1 == 1) (BitVec.ofNat 5 (fld w 9 5)) (fld w 8 1 == 1))
  else if fld w 0 8 = 6 then .ok (.shl (BitVec.ofNat 5 (fld w 20 5)) (BitVec.ofNat 5 (fld w 15 5)) (fld w 14 1 == 1) (BitVec.ofNat 5 (fld w 9 5)) (fld w 8 1 == 1))
  else if fld w 0 8 = 7 then .ok (.shr (BitVec.ofNat 5 (fld w 20 5)) (BitVec.ofNat 5 (fld w 15 5)) (fld w 14 1 == 1) (BitVec.ofNat 5 (fld w 9 5)) (fld w 8 1 == 1))
  else if fld w 0 8 = 8 then .ok (.sar (BitVec.ofNat 5 (fld w 20 5)) (BitVec.ofNat 5 (fld w 15 5)) (fld w 14 1 == 1) (BitVec.ofNat 5 (fld w 9 5)) (fld w 8 1 == 1))
  else if fld w 0 8 = 9 then .ok (.rot (BitVec.ofNat 5 (fld w 20 5)) (BitVec.ofNat 5 (fld w 15 5)) (fld w 14 1 == 1) (BitVec.ofNat 5 (fld w 9 5)) (fld w 8 1 == 1))
  else if fld w 0 8 = 10 then .ok (.min (BitVec.ofNat 5 (fld w 20 5)) (BitVec.ofNat 5 (fld w 15 5)) (fld w 14 1 == 1) (BitVec.ofNat 5 (fld w 9 5)) (fld w 8 1 == 1))
  else if fld w 0 8 = 11 then .ok (.max (BitVec.ofNat 5 (fld w 20 5)) (BitVec.ofNat 5 (fld w 15 5)) (fld w 14 1 == 1) (BitVec.ofNat 5 (fld w 9 5)) (fld w 8 1 == 1))
  else if fld w 0 8 = 12 then .ok (.minu (BitVec.ofNat 5 (fld w 20 5)) (BitVec.ofNat 5 (fld w 15 5)) (fld w 14 1 == 1) (BitVec.ofNat 5 (fld w 9 5)) (fld w 8 1 == 1))
  else if fld w 0 8 = 13 then .ok (.maxu (BitVec.ofNat 5 (fld w 20 5)) (BitVec.ofNat 5 (fld w 15 5)) (fld w 14 1 == 1) (BitVec.ofNat 5 (fld w 9 5)) (fld w 8 1 == 1))
  else if fld w 0 8 = 14 then .ok (.slt (BitVec.ofNat 5 (fld w 20 5)) (BitVec.ofNat 5 (fld w 15 5)) (fld w 14 1 == 1) (BitVec.ofNat 5 (fld w 9 5)) (fld w 8 1 == 1))
  else if fld w 0 8 = 15 then .ok (.sltu (BitVec.ofNat 5 (fld w 20 5)) (BitVec.ofNat 5 (fld w 15 5)) (fld w 14 1 == 1) (BitVec.ofNat 5 (fld w 9 5)) (fld w 8 1 == 1))
  else if fld w 0 8 = 16 then .ok (.sel (BitVec.ofNat 5 (fld w 20 5)) (BitVec.ofNat 5 (fld w 15 5)) (fld w 14 1 == 1) (BitVec.ofNat 5 (fld w 9 5)) (fld w 8 1 == 1))
  else if fld w 0 14 = 17 then .ok (.mov (BitVec.ofNat 5 (fld w 20 5)) (BitVec.ofNat 5 (fld w 15 5)) (fld w 14 1 == 1))
  else if fld w 0 14 = 32 then .ok (.clz (BitVec.ofNat 5 (fld w 20 5)) (BitVec.ofNat 5 (fld w 15 5)) (fld w 14 1 == 1))
  else if fld w 0 14 = 33 then .ok (.ctz (BitVec.ofNat 5 (fld w 20 5)) (BitVec.ofNat 5 (fld w 15 5)) (fld w 14 1 == 1))
  else if fld w 0 14 = 34 then .ok (.popc (BitVec.ofNat 5 (fld w 20 5)) (BitVec.ofNat 5 (fld w 15 5)) (fld w 14 1 == 1))
  else if fld w 0 14 = 35 then .ok (.brev (BitVec.ofNat 5 (fld w 20 5)) (BitVec.ofNat 5 (fld w 15 5)) (fld w 14 1 == 1))
  else if fld w 0 14 = 36 then .ok (.bswp (BitVec.ofNat 5 (fld w 20 5)) (BitVec.ofNat 5 (fld w 15 5)) (fld w 14 1 == 1))
  else .error .unassignedMinor

/-- Major opcode 0x01 (R91). -/
def decodeMajor01 (w : Nat) : Except Reject Instr :=
  if fld w 0 8 = 0 then .ok (.addW (BitVec.ofNat 5 (fld w 20 5)) (BitVec.ofNat 5 (fld w 15 5)) (fld w 14 1 == 1) (BitVec.ofNat 5 (fld w 9 5)) (fld w 8 1 == 1))
  else if fld w 0 8 = 1 then .ok (.subW (BitVec.ofNat 5 (fld w 20 5)) (BitVec.ofNat 5 (fld w 15 5)) (fld w 14 1 == 1) (BitVec.ofNat 5 (fld w 9 5)) (fld w 8 1 == 1))
  else if fld w 0 8 = 2 then .ok (.andW (BitVec.ofNat 5 (fld w 20 5)) (BitVec.ofNat 5 (fld w 15 5)) (fld w 14 1 == 1) (BitVec.ofNat 5 (fld w 9 5)) (fld w 8 1 == 1))
  else if fld w 0 8 = 3 then .ok (.orW (BitVec.ofNat 5 (fld w 20 5)) (BitVec.ofNat 5 (fld w 15 5)) (fld w 14 1 == 1) (BitVec.ofNat 5 (fld w 9 5)) (fld w 8 1 == 1))
  else if fld w 0 8 = 4 then .ok (.xorW (BitVec.ofNat 5 (fld w 20 5)) (BitVec.ofNat 5 (fld w 15 5)) (fld w 14 1 == 1) (BitVec.ofNat 5 (fld w 9 5)) (fld w 8 1 == 1))
  else if fld w 0 8 = 5 then .ok (.andnW (BitVec.ofNat 5 (fld w 20 5)) (BitVec.ofNat 5 (fld w 15 5)) (fld w 14 1 == 1) (BitVec.ofNat 5 (fld w 9 5)) (fld w 8 1 == 1))
  else if fld w 0 8 = 6 then .ok (.shlW (BitVec.ofNat 5 (fld w 20 5)) (BitVec.ofNat 5 (fld w 15 5)) (fld w 14 1 == 1) (BitVec.ofNat 5 (fld w 9 5)) (fld w 8 1 == 1))
  else if fld w 0 8 = 7 then .ok (.shrW (BitVec.ofNat 5 (fld w 20 5)) (BitVec.ofNat 5 (fld w 15 5)) (fld w 14 1 == 1) (BitVec.ofNat 5 (fld w 9 5)) (fld w 8 1 == 1))
  else if fld w 0 8 = 8 then .ok (.sarW (BitVec.ofNat 5 (fld w 20 5)) (BitVec.ofNat 5 (fld w 15 5)) (fld w 14 1 == 1) (BitVec.ofNat 5 (fld w 9 5)) (fld w 8 1 == 1))
  else if fld w 0 8 = 9 then .ok (.rotW (BitVec.ofNat 5 (fld w 20 5)) (BitVec.ofNat 5 (fld w 15 5)) (fld w 14 1 == 1) (BitVec.ofNat 5 (fld w 9 5)) (fld w 8 1 == 1))
  else if fld w 0 8 = 10 then .ok (.minW (BitVec.ofNat 5 (fld w 20 5)) (BitVec.ofNat 5 (fld w 15 5)) (fld w 14 1 == 1) (BitVec.ofNat 5 (fld w 9 5)) (fld w 8 1 == 1))
  else if fld w 0 8 = 11 then .ok (.maxW (BitVec.ofNat 5 (fld w 20 5)) (BitVec.ofNat 5 (fld w 15 5)) (fld w 14 1 == 1) (BitVec.ofNat 5 (fld w 9 5)) (fld w 8 1 == 1))
  else if fld w 0 8 = 12 then .ok (.minuW (BitVec.ofNat 5 (fld w 20 5)) (BitVec.ofNat 5 (fld w 15 5)) (fld w 14 1 == 1) (BitVec.ofNat 5 (fld w 9 5)) (fld w 8 1 == 1))
  else if fld w 0 8 = 13 then .ok (.maxuW (BitVec.ofNat 5 (fld w 20 5)) (BitVec.ofNat 5 (fld w 15 5)) (fld w 14 1 == 1) (BitVec.ofNat 5 (fld w 9 5)) (fld w 8 1 == 1))
  else if fld w 0 8 = 14 then .ok (.sltW (BitVec.ofNat 5 (fld w 20 5)) (BitVec.ofNat 5 (fld w 15 5)) (fld w 14 1 == 1) (BitVec.ofNat 5 (fld w 9 5)) (fld w 8 1 == 1))
  else if fld w 0 8 = 15 then .ok (.sltuW (BitVec.ofNat 5 (fld w 20 5)) (BitVec.ofNat 5 (fld w 15 5)) (fld w 14 1 == 1) (BitVec.ofNat 5 (fld w 9 5)) (fld w 8 1 == 1))
  else if fld w 0 14 = 32 then .ok (.clzW (BitVec.ofNat 5 (fld w 20 5)) (BitVec.ofNat 5 (fld w 15 5)) (fld w 14 1 == 1))
  else if fld w 0 14 = 33 then .ok (.ctzW (BitVec.ofNat 5 (fld w 20 5)) (BitVec.ofNat 5 (fld w 15 5)) (fld w 14 1 == 1))
  else if fld w 0 14 = 34 then .ok (.popcW (BitVec.ofNat 5 (fld w 20 5)) (BitVec.ofNat 5 (fld w 15 5)) (fld w 14 1 == 1))
  else .error .unassignedMinor

/-- Major opcode 0x02 (R91). -/
def decodeMajor02 (w : Nat) : Except Reject Instr :=
  if fld w 10 4 = 0 then .ok (.addImm (BitVec.ofNat 5 (fld w 20 5)) (BitVec.ofNat 5 (fld w 15 5)) (fld w 14 1 == 1) (BitVec.ofNat 10 (fld w 0 10)))
  else if fld w 10 4 = 1 then .ok (.andImm (BitVec.ofNat 5 (fld w 20 5)) (BitVec.ofNat 5 (fld w 15 5)) (fld w 14 1 == 1) (BitVec.ofNat 10 (fld w 0 10)))
  else if fld w 10 4 = 2 then .ok (.orImm (BitVec.ofNat 5 (fld w 20 5)) (BitVec.ofNat 5 (fld w 15 5)) (fld w 14 1 == 1) (BitVec.ofNat 10 (fld w 0 10)))
  else if fld w 10 4 = 3 then .ok (.xorImm (BitVec.ofNat 5 (fld w 20 5)) (BitVec.ofNat 5 (fld w 15 5)) (fld w 14 1 == 1) (BitVec.ofNat 10 (fld w 0 10)))
  else if fld w 6 8 = 64 then .ok (.shlImm (BitVec.ofNat 5 (fld w 20 5)) (BitVec.ofNat 5 (fld w 15 5)) (fld w 14 1 == 1) (BitVec.ofNat 6 (fld w 0 6)))
  else if fld w 6 8 = 80 then .ok (.shrImm (BitVec.ofNat 5 (fld w 20 5)) (BitVec.ofNat 5 (fld w 15 5)) (fld w 14 1 == 1) (BitVec.ofNat 6 (fld w 0 6)))
  else if fld w 6 8 = 96 then .ok (.sarImm (BitVec.ofNat 5 (fld w 20 5)) (BitVec.ofNat 5 (fld w 15 5)) (fld w 14 1 == 1) (BitVec.ofNat 6 (fld w 0 6)))
  else if fld w 6 8 = 112 then .ok (.rotImm (BitVec.ofNat 5 (fld w 20 5)) (BitVec.ofNat 5 (fld w 15 5)) (fld w 14 1 == 1) (BitVec.ofNat 6 (fld w 0 6)))
  else if fld w 10 4 = 8 then .ok (.sltImm (BitVec.ofNat 5 (fld w 20 5)) (BitVec.ofNat 5 (fld w 15 5)) (fld w 14 1 == 1) (BitVec.ofNat 10 (fld w 0 10)))
  else if fld w 10 4 = 9 then .ok (.sltuImm (BitVec.ofNat 5 (fld w 20 5)) (BitVec.ofNat 5 (fld w 15 5)) (fld w 14 1 == 1) (BitVec.ofNat 10 (fld w 0 10)))
  else if fld w 10 4 = 10 then .ok (.minImm (BitVec.ofNat 5 (fld w 20 5)) (BitVec.ofNat 5 (fld w 15 5)) (fld w 14 1 == 1) (BitVec.ofNat 10 (fld w 0 10)))
  else if fld w 10 4 = 11 then .ok (.maxImm (BitVec.ofNat 5 (fld w 20 5)) (BitVec.ofNat 5 (fld w 15 5)) (fld w 14 1 == 1) (BitVec.ofNat 10 (fld w 0 10)))
  else if fld w 10 4 = 12 then .ok (.addWImm (BitVec.ofNat 5 (fld w 20 5)) (BitVec.ofNat 5 (fld w 15 5)) (fld w 14 1 == 1) (BitVec.ofNat 10 (fld w 0 10)))
  else .error .unassignedMinor

/-- Major opcode 0x03 (R91). -/
def decodeMajor03 (w : Nat) : Except Reject Instr :=
  if fld w 19 1 = 0 then .ok (.li (BitVec.ofNat 5 (fld w 20 5)) (BitVec.ofNat 19 (fld w 0 19)))
  else if fld w 0 1 = 0 ∧ fld w 19 1 = 1 then .ok (.lih (BitVec.ofNat 5 (fld w 20 5)) (BitVec.ofNat 2 (fld w 17 2)) (BitVec.ofNat 16 (fld w 1 16)))
  else .error .unassignedMinor

/-- Major opcode 0x04 (R91). -/
def decodeMajor04 (w : Nat) : Except Reject Instr :=
  if fld w 13 1 = 0 then
    if fld w 0 7 ≤ 64 then .ok (.bfx (BitVec.ofNat 5 (fld w 20 5)) (BitVec.ofNat 5 (fld w 15 5)) (fld w 14 1 == 1) (BitVec.ofNat 6 (fld w 7 6)) (BitVec.ofNat 7 (fld w 0 7)))
    else .ok (.bfxs (BitVec.ofNat 5 (fld w 20 5)) (BitVec.ofNat 5 (fld w 15 5)) (fld w 14 1 == 1) (BitVec.ofNat 6 (fld w 7 6)) (BitVec.ofNat 7 (fld w 0 7)))
  else if fld w 0 7 ≤ 64 then .ok (.bfi (BitVec.ofNat 5 (fld w 20 5)) (BitVec.ofNat 5 (fld w 15 5)) (fld w 14 1 == 1) (BitVec.ofNat 6 (fld w 7 6)) (BitVec.ofNat 7 (fld w 0 7)))
  else if fld w 0 7 = 124 then .ok (.bfxs64 (BitVec.ofNat 5 (fld w 20 5)) (BitVec.ofNat 5 (fld w 15 5)) (fld w 14 1 == 1) (BitVec.ofNat 6 (fld w 7 6)))
  else if fld w 0 7 = 125 then .ok (.bfxReg (BitVec.ofNat 5 (fld w 20 5)) (BitVec.ofNat 5 (fld w 15 5)) (fld w 14 1 == 1) (BitVec.ofNat 5 (fld w 8 5)) (fld w 7 1 == 1))
  else if fld w 0 7 = 126 then .ok (.bfxsReg (BitVec.ofNat 5 (fld w 20 5)) (BitVec.ofNat 5 (fld w 15 5)) (fld w 14 1 == 1) (BitVec.ofNat 5 (fld w 8 5)) (fld w 7 1 == 1))
  else if fld w 0 7 = 127 then .ok (.bfiReg (BitVec.ofNat 5 (fld w 20 5)) (BitVec.ofNat 5 (fld w 15 5)) (fld w 14 1 == 1) (BitVec.ofNat 5 (fld w 8 5)) (fld w 7 1 == 1))
  else .error .fieldWidth

/-- Major opcode 0x05 (R91). -/
def decodeMajor05 (w : Nat) : Except Reject Instr :=
  if fld w 0 8 = 0 then .ok (.mul (BitVec.ofNat 5 (fld w 20 5)) (BitVec.ofNat 5 (fld w 15 5)) (fld w 14 1 == 1) (BitVec.ofNat 5 (fld w 9 5)) (fld w 8 1 == 1))
  else if fld w 0 8 = 1 then .ok (.mulh (BitVec.ofNat 5 (fld w 20 5)) (BitVec.ofNat 5 (fld w 15 5)) (fld w 14 1 == 1) (BitVec.ofNat 5 (fld w 9 5)) (fld w 8 1 == 1))
  else if fld w 0 8 = 2 then .ok (.mulhu (BitVec.ofNat 5 (fld w 20 5)) (BitVec.ofNat 5 (fld w 15 5)) (fld w 14 1 == 1) (BitVec.ofNat 5 (fld w 9 5)) (fld w 8 1 == 1))
  else if fld w 0 8 = 3 then .ok (.div (BitVec.ofNat 5 (fld w 20 5)) (BitVec.ofNat 5 (fld w 15 5)) (fld w 14 1 == 1) (BitVec.ofNat 5 (fld w 9 5)) (fld w 8 1 == 1))
  else if fld w 0 8 = 4 then .ok (.divu (BitVec.ofNat 5 (fld w 20 5)) (BitVec.ofNat 5 (fld w 15 5)) (fld w 14 1 == 1) (BitVec.ofNat 5 (fld w 9 5)) (fld w 8 1 == 1))
  else if fld w 0 8 = 5 then .ok (.rem (BitVec.ofNat 5 (fld w 20 5)) (BitVec.ofNat 5 (fld w 15 5)) (fld w 14 1 == 1) (BitVec.ofNat 5 (fld w 9 5)) (fld w 8 1 == 1))
  else if fld w 0 8 = 6 then .ok (.remu (BitVec.ofNat 5 (fld w 20 5)) (BitVec.ofNat 5 (fld w 15 5)) (fld w 14 1 == 1) (BitVec.ofNat 5 (fld w 9 5)) (fld w 8 1 == 1))
  else if fld w 0 8 = 16 then .ok (.mulW (BitVec.ofNat 5 (fld w 20 5)) (BitVec.ofNat 5 (fld w 15 5)) (fld w 14 1 == 1) (BitVec.ofNat 5 (fld w 9 5)) (fld w 8 1 == 1))
  else if fld w 0 8 = 17 then .ok (.mulhW (BitVec.ofNat 5 (fld w 20 5)) (BitVec.ofNat 5 (fld w 15 5)) (fld w 14 1 == 1) (BitVec.ofNat 5 (fld w 9 5)) (fld w 8 1 == 1))
  else if fld w 0 8 = 18 then .ok (.mulhuW (BitVec.ofNat 5 (fld w 20 5)) (BitVec.ofNat 5 (fld w 15 5)) (fld w 14 1 == 1) (BitVec.ofNat 5 (fld w 9 5)) (fld w 8 1 == 1))
  else if fld w 0 8 = 19 then .ok (.divW (BitVec.ofNat 5 (fld w 20 5)) (BitVec.ofNat 5 (fld w 15 5)) (fld w 14 1 == 1) (BitVec.ofNat 5 (fld w 9 5)) (fld w 8 1 == 1))
  else if fld w 0 8 = 20 then .ok (.divuW (BitVec.ofNat 5 (fld w 20 5)) (BitVec.ofNat 5 (fld w 15 5)) (fld w 14 1 == 1) (BitVec.ofNat 5 (fld w 9 5)) (fld w 8 1 == 1))
  else if fld w 0 8 = 21 then .ok (.remW (BitVec.ofNat 5 (fld w 20 5)) (BitVec.ofNat 5 (fld w 15 5)) (fld w 14 1 == 1) (BitVec.ofNat 5 (fld w 9 5)) (fld w 8 1 == 1))
  else if fld w 0 8 = 22 then .ok (.remuW (BitVec.ofNat 5 (fld w 20 5)) (BitVec.ofNat 5 (fld w 15 5)) (fld w 14 1 == 1) (BitVec.ofNat 5 (fld w 9 5)) (fld w 8 1 == 1))
  else .error .unassignedMinor

/-- Major opcode 0x06 (R91). -/
def decodeMajor06 (w : Nat) : Except Reject Instr :=
  if fld w 0 8 = 0 then .ok (.padd (BitVec.ofNat 5 (fld w 20 5)) (BitVec.ofNat 5 (fld w 15 5)) (fld w 14 1 == 1) (BitVec.ofNat 5 (fld w 9 5)) (fld w 8 1 == 1))
  else if fld w 0 8 = 16 then .ok (.pidx (BitVec.ofNat 5 (fld w 20 5)) (BitVec.ofNat 5 (fld w 15 5)) (fld w 14 1 == 1) (BitVec.ofNat 5 (fld w 9 5)) (fld w 8 1 == 1))
  else if fld w 2 6 = 8 then .ok (.pset (BitVec.ofNat 5 (fld w 20 5)) (BitVec.ofNat 5 (fld w 15 5)) (fld w 14 1 == 1) (BitVec.ofNat 5 (fld w 9 5)) (fld w 8 1 == 1) (BitVec.ofNat 2 (fld w 0 2)))
  else if fld w 2 12 = 12 then .ok (.pget (BitVec.ofNat 5 (fld w 20 5)) (BitVec.ofNat 5 (fld w 15 5)) (fld w 14 1 == 1) (BitVec.ofNat 2 (fld w 0 2)))
  else if fld w 0 8 = 64 then .ok (.pcore (BitVec.ofNat 5 (fld w 20 5)) (BitVec.ofNat 5 (fld w 15 5)) (fld w 14 1 == 1) (BitVec.ofNat 5 (fld w 9 5)) (fld w 8 1 == 1))
  else if fld w 0 8 = 80 then .ok (.pshrd (BitVec.ofNat 5 (fld w 20 5)) (BitVec.ofNat 5 (fld w 15 5)) (fld w 14 1 == 1) (BitVec.ofNat 5 (fld w 9 5)) (fld w 8 1 == 1))
  else if fld w 0 8 = 96 then .ok (.ext (BitVec.ofNat 5 (fld w 20 5)) (BitVec.ofNat 5 (fld w 15 5)) (fld w 14 1 == 1) (BitVec.ofNat 5 (fld w 9 5)) (fld w 8 1 == 1))
  else .error .unassignedMinor

/-- Major opcode 0x07 (R91). -/
def decodeMajor07 (w : Nat) : Except Reject Instr :=
  .ok (.bc (BitVec.ofNat 5 (fld w 20 5)) (fld w 19 1 == 1) (BitVec.ofNat 5 (fld w 14 5)) (fld w 13 1 == 1) (BitVec.ofNat 3 (fld w 10 3)) (BitVec.ofNat 10 (fld w 0 10)))

/-- Major opcode 0x08 (R91). -/
def decodeMajor08 (w : Nat) : Except Reject Instr :=
  .ok (.j (BitVec.ofNat 25 (fld w 0 25)))

/-- Major opcode 0x09 (R91). -/
def decodeMajor09 (w : Nat) : Except Reject Instr :=
  .ok (.jal (BitVec.ofNat 25 (fld w 0 25)))

/-- Major opcode 0x0A (R91). -/
def decodeMajor0A (w : Nat) : Except Reject Instr :=
  if fld w 10 4 = 0 then .ok (.jr (BitVec.ofNat 5 (fld w 20 5)) (BitVec.ofNat 5 (fld w 15 5)) (fld w 14 1 == 1) (BitVec.ofNat 10 (fld w 0 10)))
  else if fld w 10 10 = 1 then .ok (.loop (BitVec.ofNat 5 (fld w 20 5)) (BitVec.ofNat 10 (fld w 0 10)))
  else .error .unassignedMinor

/-- Major opcode 0x0B (R91). -/
def decodeMajor0B (w : Nat) : Except Reject Instr :=
  if fld w 7 2 = 0 then .ok (.ld (BitVec.ofNat 5 (fld w 20 5)) (BitVec.ofNat 5 (fld w 15 5)) (fld w 14 1 == 1) (fld w 13 1 == 1) (BitVec.ofNat 2 (fld w 11 2)) (BitVec.ofNat 2 (fld w 9 2)) (BitVec.ofNat 7 (fld w 0 7)))
  else if fld w 7 2 = 1 ∧ fld w 11 3 = 3 then .ok (.ldFut (BitVec.ofNat 5 (fld w 20 5)) (BitVec.ofNat 5 (fld w 15 5)) (fld w 14 1 == 1) (BitVec.ofNat 2 (fld w 9 2)) (BitVec.ofNat 7 (fld w 0 7)))
  else if fld w 7 2 = 2 ∧ fld w 11 3 = 3 then .ok (.ldTake (BitVec.ofNat 5 (fld w 20 5)) (BitVec.ofNat 5 (fld w 15 5)) (fld w 14 1 == 1) (BitVec.ofNat 2 (fld w 9 2)) (BitVec.ofNat 7 (fld w 0 7)))
  else .error .unassignedMinor

/-- Major opcode 0x0C (R91). -/
def decodeMajor0C (w : Nat) : Except Reject Instr :=
  if fld w 7 2 = 0 then .ok (.st (BitVec.ofNat 5 (fld w 20 5)) (BitVec.ofNat 5 (fld w 15 5)) (fld w 14 1 == 1) (fld w 13 1 == 1) (BitVec.ofNat 2 (fld w 11 2)) (BitVec.ofNat 2 (fld w 9 2)) (BitVec.ofNat 7 (fld w 0 7)))
  else if fld w 7 2 = 1 ∧ fld w 11 2 = 3 then .ok (.stFill (BitVec.ofNat 5 (fld w 20 5)) (BitVec.ofNat 5 (fld w 15 5)) (fld w 14 1 == 1) (fld w 13 1 == 1) (BitVec.ofNat 2 (fld w 9 2)) (BitVec.ofNat 7 (fld w 0 7)))
  else if fld w 7 2 = 2 ∧ fld w 11 2 = 3 then .ok (.stGive (BitVec.ofNat 5 (fld w 20 5)) (BitVec.ofNat 5 (fld w 15 5)) (fld w 14 1 == 1) (fld w 13 1 == 1) (BitVec.ofNat 2 (fld w 9 2)) (BitVec.ofNat 7 (fld w 0 7)))
  else .error .unassignedMinor

/-- Major opcode 0x0D (R91). -/
def decodeMajor0D (w : Nat) : Except Reject Instr :=
  if fld w 2 1 = 0 then .ok (.ldx (BitVec.ofNat 5 (fld w 20 5)) (BitVec.ofNat 5 (fld w 15 5)) (fld w 14 1 == 1) (BitVec.ofNat 5 (fld w 9 5)) (fld w 8 1 == 1) (fld w 7 1 == 1) (BitVec.ofNat 2 (fld w 5 2)) (BitVec.ofNat 2 (fld w 3 2)) (BitVec.ofNat 2 (fld w 0 2)))
  else if fld w 2 1 = 1 then .ok (.stx (BitVec.ofNat 5 (fld w 20 5)) (BitVec.ofNat 5 (fld w 15 5)) (fld w 14 1 == 1) (BitVec.ofNat 5 (fld w 9 5)) (fld w 8 1 == 1) (fld w 7 1 == 1) (BitVec.ofNat 2 (fld w 5 2)) (BitVec.ofNat 2 (fld w 3 2)) (BitVec.ofNat 2 (fld w 0 2)))
  else .error .unassignedMinor

/-- Major opcode 0x0E (R91). -/
def decodeMajor0E (w : Nat) : Except Reject Instr :=
  if fld w 0 3 = 0 ∧ fld w 5 3 = 3 then .ok (.ldtVeq (BitVec.ofNat 5 (fld w 20 5)) (BitVec.ofNat 5 (fld w 15 5)) (fld w 14 1 == 1) (BitVec.ofNat 5 (fld w 9 5)) (fld w 8 1 == 1) (BitVec.ofNat 2 (fld w 3 2)))
  else if fld w 0 3 = 1 ∧ fld w 5 3 = 3 then .ok (.ldtVge (BitVec.ofNat 5 (fld w 20 5)) (BitVec.ofNat 5 (fld w 15 5)) (fld w 14 1 == 1) (BitVec.ofNat 5 (fld w 9 5)) (fld w 8 1 == 1) (BitVec.ofNat 2 (fld w 3 2)))
  else if fld w 0 3 = 4 ∧ fld w 5 2 = 3 ∧ fld w 8 6 = 0 then .ok (.sttVnx (BitVec.ofNat 5 (fld w 20 5)) (BitVec.ofNat 5 (fld w 15 5)) (fld w 14 1 == 1) (fld w 7 1 == 1) (BitVec.ofNat 2 (fld w 3 2)))
  else if fld w 0 3 = 5 ∧ fld w 5 2 = 3 then .ok (.sttVset (BitVec.ofNat 5 (fld w 20 5)) (BitVec.ofNat 5 (fld w 15 5)) (fld w 14 1 == 1) (BitVec.ofNat 5 (fld w 9 5)) (fld w 8 1 == 1) (fld w 7 1 == 1) (BitVec.ofNat 2 (fld w 3 2)))
  else .error .unassignedMinor

/-- Major opcode 0x0F (R91). -/
def decodeMajor0F (w : Nat) : Except Reject Instr :=
  if fld w 0 3 = 0 then .ok (.lds (BitVec.ofNat 5 (fld w 20 5)) (BitVec.ofNat 5 (fld w 15 5)) (fld w 14 1 == 1) (BitVec.ofNat 5 (fld w 9 5)) (fld w 8 1 == 1) (fld w 7 1 == 1) (BitVec.ofNat 2 (fld w 5 2)) (BitVec.ofNat 2 (fld w 3 2)))
  else if fld w 0 3 = 4 then .ok (.sts (BitVec.ofNat 5 (fld w 20 5)) (BitVec.ofNat 5 (fld w 15 5)) (fld w 14 1 == 1) (BitVec.ofNat 5 (fld w 9 5)) (fld w 8 1 == 1) (fld w 7 1 == 1) (BitVec.ofNat 2 (fld w 5 2)) (BitVec.ofNat 2 (fld w 3 2)))
  else .error .unassignedMinor

/-- Major opcode 0x10 (R91). -/
def decodeMajor10 (w : Nat) : Except Reject Instr :=
  if fld w 3 5 = 0 then .ok (.amoSwap (BitVec.ofNat 5 (fld w 20 5)) (BitVec.ofNat 5 (fld w 15 5)) (fld w 14 1 == 1) (BitVec.ofNat 5 (fld w 9 5)) (fld w 8 1 == 1) (BitVec.ofNat 1 (fld w 2 1)) (BitVec.ofNat 2 (fld w 0 2)))
  else if fld w 3 5 = 1 then .ok (.amoAdd (BitVec.ofNat 5 (fld w 20 5)) (BitVec.ofNat 5 (fld w 15 5)) (fld w 14 1 == 1) (BitVec.ofNat 5 (fld w 9 5)) (fld w 8 1 == 1) (BitVec.ofNat 1 (fld w 2 1)) (BitVec.ofNat 2 (fld w 0 2)))
  else if fld w 3 5 = 2 then .ok (.amoAnd (BitVec.ofNat 5 (fld w 20 5)) (BitVec.ofNat 5 (fld w 15 5)) (fld w 14 1 == 1) (BitVec.ofNat 5 (fld w 9 5)) (fld w 8 1 == 1) (BitVec.ofNat 1 (fld w 2 1)) (BitVec.ofNat 2 (fld w 0 2)))
  else if fld w 3 5 = 3 then .ok (.amoOr (BitVec.ofNat 5 (fld w 20 5)) (BitVec.ofNat 5 (fld w 15 5)) (fld w 14 1 == 1) (BitVec.ofNat 5 (fld w 9 5)) (fld w 8 1 == 1) (BitVec.ofNat 1 (fld w 2 1)) (BitVec.ofNat 2 (fld w 0 2)))
  else if fld w 3 5 = 4 then .ok (.amoXor (BitVec.ofNat 5 (fld w 20 5)) (BitVec.ofNat 5 (fld w 15 5)) (fld w 14 1 == 1) (BitVec.ofNat 5 (fld w 9 5)) (fld w 8 1 == 1) (BitVec.ofNat 1 (fld w 2 1)) (BitVec.ofNat 2 (fld w 0 2)))
  else if fld w 3 5 = 5 then .ok (.amoMin (BitVec.ofNat 5 (fld w 20 5)) (BitVec.ofNat 5 (fld w 15 5)) (fld w 14 1 == 1) (BitVec.ofNat 5 (fld w 9 5)) (fld w 8 1 == 1) (BitVec.ofNat 1 (fld w 2 1)) (BitVec.ofNat 2 (fld w 0 2)))
  else if fld w 3 5 = 6 then .ok (.amoMax (BitVec.ofNat 5 (fld w 20 5)) (BitVec.ofNat 5 (fld w 15 5)) (fld w 14 1 == 1) (BitVec.ofNat 5 (fld w 9 5)) (fld w 8 1 == 1) (BitVec.ofNat 1 (fld w 2 1)) (BitVec.ofNat 2 (fld w 0 2)))
  else if fld w 3 5 = 7 then .ok (.amoMinu (BitVec.ofNat 5 (fld w 20 5)) (BitVec.ofNat 5 (fld w 15 5)) (fld w 14 1 == 1) (BitVec.ofNat 5 (fld w 9 5)) (fld w 8 1 == 1) (BitVec.ofNat 1 (fld w 2 1)) (BitVec.ofNat 2 (fld w 0 2)))
  else if fld w 3 5 = 8 then .ok (.amoMaxu (BitVec.ofNat 5 (fld w 20 5)) (BitVec.ofNat 5 (fld w 15 5)) (fld w 14 1 == 1) (BitVec.ofNat 5 (fld w 9 5)) (fld w 8 1 == 1) (BitVec.ofNat 1 (fld w 2 1)) (BitVec.ofNat 2 (fld w 0 2)))
  else if fld w 3 5 = 16 then .ok (.cas (BitVec.ofNat 5 (fld w 20 5)) (BitVec.ofNat 5 (fld w 15 5)) (fld w 14 1 == 1) (BitVec.ofNat 5 (fld w 9 5)) (fld w 8 1 == 1) (BitVec.ofNat 1 (fld w 2 1)) (BitVec.ofNat 2 (fld w 0 2)))
  else .error .unassignedMinor

/-- Major opcode 0x11 (R91). -/
def decodeMajor11 (w : Nat) : Except Reject Instr :=
  if fld w 6 2 = 0 then .ok (.redo (BitVec.ofNat 5 (fld w 20 5)) (BitVec.ofNat 5 (fld w 15 5)) (fld w 14 1 == 1) (BitVec.ofNat 5 (fld w 9 5)) (fld w 8 1 == 1) (BitVec.ofNat 6 (fld w 0 6)))
  else if fld w 6 2 = 1 ∧ fld w 20 5 = 0 then .ok (.reda (BitVec.ofNat 5 (fld w 15 5)) (fld w 14 1 == 1) (BitVec.ofNat 5 (fld w 9 5)) (fld w 8 1 == 1) (BitVec.ofNat 6 (fld w 0 6)))
  else if fld w 6 8 = 2 then .ok (.redr (BitVec.ofNat 5 (fld w 20 5)) (BitVec.ofNat 5 (fld w 15 5)) (fld w 14 1 == 1) (BitVec.ofNat 6 (fld w 0 6)))
  else if fld w 6 8 = 3 then .ok (.redc (BitVec.ofNat 5 (fld w 20 5)) (BitVec.ofNat 5 (fld w 15 5)) (fld w 14 1 == 1) (BitVec.ofNat 6 (fld w 0 6)))
  else .error .unassignedMinor

/-- Major opcode 0x12 (R91). -/
def decodeMajor12 (w : Nat) : Except Reject Instr :=
  if fld w 0 8 = 0 then .ok (.jinit (BitVec.ofNat 5 (fld w 20 5)) (BitVec.ofNat 5 (fld w 15 5)) (fld w 14 1 == 1) (BitVec.ofNat 5 (fld w 9 5)) (fld w 8 1 == 1))
  else if fld w 0 8 = 1 then .ok (.join (BitVec.ofNat 5 (fld w 20 5)) (BitVec.ofNat 5 (fld w 15 5)) (fld w 14 1 == 1) (BitVec.ofNat 5 (fld w 9 5)) (fld w 8 1 == 1))
  else .error .unassignedMinor

/-- Major opcode 0x13 (R91). -/
def decodeMajor13 (w : Nat) : Except Reject Instr :=
  if fld w 0 14 = 0 then .ok (.fence (BitVec.ofNat 5 (fld w 20 5)) (BitVec.ofNat 5 (fld w 15 5)) (fld w 14 1 == 1))
  else if fld w 0 8 = 1 ∧ fld w 20 5 = 0 then .ok (.flush (BitVec.ofNat 5 (fld w 15 5)) (fld w 14 1 == 1) (BitVec.ofNat 5 (fld w 9 5)) (fld w 8 1 == 1))
  else if fld w 0 8 = 2 ∧ fld w 20 5 = 0 then .ok (.cinv (BitVec.ofNat 5 (fld w 15 5)) (fld w 14 1 == 1) (BitVec.ofNat 5 (fld w 9 5)) (fld w 8 1 == 1))
  else if fld w 0 9 = 3 then .ok (.wait (BitVec.ofNat 4 (fld w 21 4)) (BitVec.ofNat 4 (fld w 17 4)) (BitVec.ofNat 4 (fld w 13 4)) (BitVec.ofNat 4 (fld w 9 4)))
  else if fld w 0 8 = 4 ∧ fld w 22 3 = 0 then .ok (.pref (BitVec.ofNat 2 (fld w 20 2)) (BitVec.ofNat 5 (fld w 15 5)) (fld w 14 1 == 1) (BitVec.ofNat 5 (fld w 9 5)) (fld w 8 1 == 1))
  else if fld w 0 8 = 5 ∧ fld w 20 5 = 0 then .ok (.vrecl (BitVec.ofNat 5 (fld w 15 5)) (fld w 14 1 == 1) (BitVec.ofNat 5 (fld w 9 5)) (fld w 8 1 == 1))
  else if fld w 0 14 = 6 then .ok (.tagr (BitVec.ofNat 5 (fld w 20 5)) (BitVec.ofNat 5 (fld w 15 5)) (fld w 14 1 == 1))
  else if fld w 0 8 = 7 ∧ fld w 20 5 = 0 then .ok (.tagw (BitVec.ofNat 5 (fld w 15 5)) (fld w 14 1 == 1) (BitVec.ofNat 5 (fld w 9 5)) (fld w 8 1 == 1))
  else .error .unassignedMinor

/-- Major opcode 0x14 (R91). -/
def decodeMajor14 (w : Nat) : Except Reject Instr :=
  if fld w 0 8 = 0 then .ok (.mcast (BitVec.ofNat 5 (fld w 20 5)) (BitVec.ofNat 5 (fld w 15 5)) (fld w 14 1 == 1) (BitVec.ofNat 5 (fld w 9 5)) (fld w 8 1 == 1))
  else .error .unassignedMinor

/-- Major opcode 0x15 (R91). -/
def decodeMajor15 (w : Nat) : Except Reject Instr :=
  if fld w 0 8 = 0 ∧ fld w 20 5 = 0 then .ok (.spawn (BitVec.ofNat 5 (fld w 15 5)) (fld w 14 1 == 1) (BitVec.ofNat 5 (fld w 9 5)) (fld w 8 1 == 1))
  else if fld w 0 14 = 1 then .ok (.launch (BitVec.ofNat 5 (fld w 20 5)) (BitVec.ofNat 5 (fld w 15 5)) (fld w 14 1 == 1))
  else if fld w 0 25 = 2 then .ok .yield
  else if fld w 0 14 = 3 then .ok (.prio (BitVec.ofNat 5 (fld w 20 5)) (BitVec.ofNat 5 (fld w 15 5)) (fld w 14 1 == 1))
  else .error .unassignedMinor

/-- Major opcode 0x16 (R91). -/
def decodeMajor16 (w : Nat) : Except Reject Instr :=
  if fld w 0 8 = 0 ∧ fld w 20 5 = 0 then .ok (.sendm (BitVec.ofNat 5 (fld w 15 5)) (fld w 14 1 == 1) (BitVec.ofNat 5 (fld w 9 5)) (fld w 8 1 == 1))
  else if fld w 0 14 = 1 then .ok (.recv (BitVec.ofNat 5 (fld w 20 5)) (BitVec.ofNat 5 (fld w 15 5)) (fld w 14 1 == 1))
  else if fld w 0 20 = 2 then .ok (.peek (BitVec.ofNat 5 (fld w 20 5)))
  else if fld w 0 14 = 3 ∧ fld w 20 5 = 0 then .ok (.reply (BitVec.ofNat 5 (fld w 15 5)) (fld w 14 1 == 1))
  else .error .unassignedMinor

/-- Major opcode 0x17 (R91). -/
def decodeMajor17 (w : Nat) : Except Reject Instr :=
  if fld w 0 8 = 0 then .ok (.hstart (BitVec.ofNat 5 (fld w 20 5)) (BitVec.ofNat 5 (fld w 15 5)) (fld w 14 1 == 1) (BitVec.ofNat 5 (fld w 9 5)) (fld w 8 1 == 1))
  else if fld w 0 14 = 1 ∧ fld w 20 5 = 0 then .ok (.hhalt (BitVec.ofNat 5 (fld w 15 5)) (fld w 14 1 == 1))
  else if fld w 0 8 = 129 ∧ fld w 20 5 = 0 then .ok (.hhaltRetain (BitVec.ofNat 5 (fld w 15 5)) (fld w 14 1 == 1) (BitVec.ofNat 5 (fld w 9 5)) (fld w 8 1 == 1))
  else if fld w 0 14 = 2 then .ok (.hwait (BitVec.ofNat 5 (fld w 20 5)) (BitVec.ofNat 5 (fld w 15 5)) (fld w 14 1 == 1))
  else .error .unassignedMinor

/-- Major opcode 0x18 (R91). -/
def decodeMajor18 (w : Nat) : Except Reject Instr :=
  if fld w 0 8 = 0 ∧ fld w 20 5 = 0 then .ok (.crew (BitVec.ofNat 5 (fld w 15 5)) (fld w 14 1 == 1) (BitVec.ofNat 5 (fld w 9 5)) (fld w 8 1 == 1))
  else if fld w 0 20 = 1 then .ok (.crewx (BitVec.ofNat 5 (fld w 20 5)))
  else if fld w 0 9 = 2 then .ok (.bar (BitVec.ofNat 5 (fld w 20 5)) (BitVec.ofNat 5 (fld w 15 5)) (fld w 14 1 == 1) (BitVec.ofNat 5 (fld w 9 5)))
  else .error .unassignedMinor

/-- Major opcode 0x19 (R91). -/
def decodeMajor19 (w : Nat) : Except Reject Instr :=
  if fld w 3 5 = 0 ∧ fld w 20 5 = 0 then .ok (.qbind (BitVec.ofNat 5 (fld w 15 5)) (fld w 14 1 == 1) (BitVec.ofNat 5 (fld w 9 5)) (fld w 8 1 == 1) (BitVec.ofNat 3 (fld w 0 3)))
  else if fld w 3 22 = 1 then .ok (.qfree (BitVec.ofNat 3 (fld w 0 3)))
  else if fld w 3 17 = 2 then .ok (.qctlPop (BitVec.ofNat 5 (fld w 20 5)) (BitVec.ofNat 3 (fld w 0 3)))
  else if fld w 3 11 = 66 ∧ fld w 20 5 = 0 then .ok (.qctlPush (BitVec.ofNat 5 (fld w 15 5)) (fld w 14 1 == 1) (BitVec.ofNat 3 (fld w 0 3)))
  else if fld w 3 11 = 130 ∧ fld w 20 5 = 0 then .ok (.qctlPushc (BitVec.ofNat 5 (fld w 15 5)) (fld w 14 1 == 1) (BitVec.ofNat 3 (fld w 0 3)))
  else if fld w 3 22 = 194 then .ok (.qctlFlush (BitVec.ofNat 3 (fld w 0 3)))
  else if fld w 3 17 = 3 then .ok (.qstat (BitVec.ofNat 5 (fld w 20 5)) (BitVec.ofNat 3 (fld w 0 3)))
  else if fld w 0 14 = 32 ∧ fld w 20 5 = 0 then .ok (.qhnd (BitVec.ofNat 5 (fld w 15 5)) (fld w 14 1 == 1))
  else if fld w 0 25 = 40 then .ok .qret
  else .error .unassignedMinor

/-- Major opcode 0x1A (R91). -/
def decodeMajor1A (w : Nat) : Except Reject Instr :=
  if fld w 0 14 = 0 then .ok (.vclaim (BitVec.ofNat 5 (fld w 20 5)) (BitVec.ofNat 5 (fld w 15 5)) (fld w 14 1 == 1))
  else if fld w 0 14 = 16 then .ok (.vreneg (BitVec.ofNat 5 (fld w 20 5)) (BitVec.ofNat 5 (fld w 15 5)) (fld w 14 1 == 1))
  else if fld w 0 25 = 32 then .ok .vrel
  else if fld w 0 2 = 0 ∧ fld w 4 16 = 3 then .ok (.pcnt (BitVec.ofNat 5 (fld w 20 5)) (BitVec.ofNat 2 (fld w 2 2)))
  else if fld w 0 2 = 0 ∧ fld w 4 4 = 4 then .ok (.pwhile (BitVec.ofNat 5 (fld w 20 5)) (BitVec.ofNat 5 (fld w 15 5)) (fld w 14 1 == 1) (BitVec.ofNat 5 (fld w 9 5)) (fld w 8 1 == 1) (BitVec.ofNat 2 (fld w 2 2)))
  else if fld w 4 10 = 5 ∧ fld w 20 5 = 0 then .ok (.pmin (BitVec.ofNat 5 (fld w 15 5)) (fld w 14 1 == 1) (BitVec.ofNat 2 (fld w 2 2)) (BitVec.ofNat 2 (fld w 0 2)))
  else .error .unassignedMinor

/-- Major opcode 0x1B (R91). -/
def decodeMajor1B (w : Nat) : Except Reject Instr :=
  if fld w 0 2 = 0 ∧ fld w 4 3 = 0 ∧ fld w 9 6 = 0 then .ok (.vld (BitVec.ofNat 4 (fld w 21 4)) (BitVec.ofNat 5 (fld w 16 5)) (fld w 15 1 == 1) (BitVec.ofNat 2 (fld w 7 2)) (BitVec.ofNat 2 (fld w 2 2)))
  else if fld w 0 2 = 0 ∧ fld w 4 3 = 1 ∧ fld w 9 6 = 0 then .ok (.vst (BitVec.ofNat 4 (fld w 21 4)) (BitVec.ofNat 5 (fld w 16 5)) (fld w 15 1 == 1) (BitVec.ofNat 2 (fld w 7 2)) (BitVec.ofNat 2 (fld w 2 2)))
  else if fld w 0 2 = 0 ∧ fld w 4 3 = 2 ∧ fld w 9 6 = 0 then .ok (.vldf (BitVec.ofNat 4 (fld w 21 4)) (BitVec.ofNat 5 (fld w 16 5)) (fld w 15 1 == 1) (BitVec.ofNat 2 (fld w 7 2)) (BitVec.ofNat 2 (fld w 2 2)))
  else if fld w 0 2 = 0 ∧ fld w 4 3 = 3 then .ok (.vlds (BitVec.ofNat 4 (fld w 21 4)) (BitVec.ofNat 5 (fld w 16 5)) (fld w 15 1 == 1) (BitVec.ofNat 5 (fld w 10 5)) (fld w 9 1 == 1) (BitVec.ofNat 2 (fld w 7 2)) (BitVec.ofNat 2 (fld w 2 2)))
  else if fld w 0 2 = 0 ∧ fld w 4 3 = 4 then .ok (.vsts (BitVec.ofNat 4 (fld w 21 4)) (BitVec.ofNat 5 (fld w 16 5)) (fld w 15 1 == 1) (BitVec.ofNat 5 (fld w 10 5)) (fld w 9 1 == 1) (BitVec.ofNat 2 (fld w 7 2)) (BitVec.ofNat 2 (fld w 2 2)))
  else .error .unassignedMinor

/-- Major opcode 0x1C (R91). -/
def decodeMajor1C (w : Nat) : Except Reject Instr :=
  if fld w 0 2 = 0 ∧ fld w 4 3 = 0 ∧ fld w 9 1 = 0 ∧ fld w 14 1 = 0 then .ok (.vgth (BitVec.ofNat 4 (fld w 21 4)) (BitVec.ofNat 5 (fld w 16 5)) (fld w 15 1 == 1) (BitVec.ofNat 4 (fld w 10 4)) (BitVec.ofNat 2 (fld w 7 2)) (BitVec.ofNat 2 (fld w 2 2)))
  else if fld w 0 2 = 0 ∧ fld w 4 3 = 1 ∧ fld w 9 1 = 0 ∧ fld w 14 1 = 0 then .ok (.vsct (BitVec.ofNat 4 (fld w 21 4)) (BitVec.ofNat 5 (fld w 16 5)) (fld w 15 1 == 1) (BitVec.ofNat 4 (fld w 10 4)) (BitVec.ofNat 2 (fld w 7 2)) (BitVec.ofNat 2 (fld w 2 2)))
  else .error .unassignedMinor

/-- Major opcode 0x1D (R91). -/
def decodeMajor1D (w : Nat) : Except Reject Instr :=
  if fld w 7 4 = 0 then .ok (.vadd (BitVec.ofNat 4 (fld w 21 4)) (BitVec.ofNat 4 (fld w 17 4)) (BitVec.ofNat 4 (fld w 13 4)) (BitVec.ofNat 2 (fld w 11 2)) (BitVec.ofNat 4 (fld w 3 4)) (BitVec.ofNat 3 (fld w 0 3)))
  else if fld w 7 4 = 1 then .ok (.vsub (BitVec.ofNat 4 (fld w 21 4)) (BitVec.ofNat 4 (fld w 17 4)) (BitVec.ofNat 4 (fld w 13 4)) (BitVec.ofNat 2 (fld w 11 2)) (BitVec.ofNat 4 (fld w 3 4)) (BitVec.ofNat 3 (fld w 0 3)))
  else if fld w 7 4 = 2 then .ok (.vmul (BitVec.ofNat 4 (fld w 21 4)) (BitVec.ofNat 4 (fld w 17 4)) (BitVec.ofNat 4 (fld w 13 4)) (BitVec.ofNat 2 (fld w 11 2)) (BitVec.ofNat 4 (fld w 3 4)) (BitVec.ofNat 3 (fld w 0 3)))
  else if fld w 7 4 = 3 then .ok (.vdiv (BitVec.ofNat 4 (fld w 21 4)) (BitVec.ofNat 4 (fld w 17 4)) (BitVec.ofNat 4 (fld w 13 4)) (BitVec.ofNat 2 (fld w 11 2)) (BitVec.ofNat 4 (fld w 3 4)) (BitVec.ofNat 3 (fld w 0 3)))
  else if fld w 7 4 = 4 then .ok (.vmin (BitVec.ofNat 4 (fld w 21 4)) (BitVec.ofNat 4 (fld w 17 4)) (BitVec.ofNat 4 (fld w 13 4)) (BitVec.ofNat 2 (fld w 11 2)) (BitVec.ofNat 4 (fld w 3 4)) (BitVec.ofNat 3 (fld w 0 3)))
  else if fld w 7 4 = 5 then .ok (.vmax (BitVec.ofNat 4 (fld w 21 4)) (BitVec.ofNat 4 (fld w 17 4)) (BitVec.ofNat 4 (fld w 13 4)) (BitVec.ofNat 2 (fld w 11 2)) (BitVec.ofNat 4 (fld w 3 4)) (BitVec.ofNat 3 (fld w 0 3)))
  else if fld w 7 4 = 6 then .ok (.vabsd (BitVec.ofNat 4 (fld w 21 4)) (BitVec.ofNat 4 (fld w 17 4)) (BitVec.ofNat 4 (fld w 13 4)) (BitVec.ofNat 2 (fld w 11 2)) (BitVec.ofNat 4 (fld w 3 4)) (BitVec.ofNat 3 (fld w 0 3)))
  else if fld w 7 4 = 7 then .ok (.vmulh (BitVec.ofNat 4 (fld w 21 4)) (BitVec.ofNat 4 (fld w 17 4)) (BitVec.ofNat 4 (fld w 13 4)) (BitVec.ofNat 2 (fld w 11 2)) (BitVec.ofNat 4 (fld w 3 4)) (BitVec.ofNat 3 (fld w 0 3)))
  else .error .unassignedMinor

/-- Major opcode 0x1E (R91). -/
def decodeMajor1E (w : Nat) : Except Reject Instr :=
  if fld w 7 4 = 0 then .ok (.vfma (BitVec.ofNat 4 (fld w 21 4)) (BitVec.ofNat 4 (fld w 17 4)) (BitVec.ofNat 4 (fld w 13 4)) (BitVec.ofNat 2 (fld w 11 2)) (BitVec.ofNat 4 (fld w 3 4)) (BitVec.ofNat 3 (fld w 0 3)))
  else if fld w 7 4 = 1 then .ok (.vfms (BitVec.ofNat 4 (fld w 21 4)) (BitVec.ofNat 4 (fld w 17 4)) (BitVec.ofNat 4 (fld w 13 4)) (BitVec.ofNat 2 (fld w 11 2)) (BitVec.ofNat 4 (fld w 3 4)) (BitVec.ofNat 3 (fld w 0 3)))
  else .error .unassignedMinor

/-- Major opcode 0x1F (R91). -/
def decodeMajor1F (w : Nat) : Except Reject Instr :=
  if fld w 7 4 = 0 then .ok (.vcvt (BitVec.ofNat 4 (fld w 21 4)) (BitVec.ofNat 4 (fld w 17 4)) (BitVec.ofNat 4 (fld w 13 4)) (BitVec.ofNat 2 (fld w 11 2)) (BitVec.ofNat 4 (fld w 3 4)) (BitVec.ofNat 3 (fld w 0 3)))
  else if fld w 7 4 = 1 ∧ fld w 13 4 = 0 then .ok (.vabs (BitVec.ofNat 4 (fld w 21 4)) (BitVec.ofNat 4 (fld w 17 4)) (BitVec.ofNat 2 (fld w 11 2)) (BitVec.ofNat 4 (fld w 3 4)) (BitVec.ofNat 3 (fld w 0 3)))
  else if fld w 7 4 = 2 ∧ fld w 13 4 = 0 then .ok (.vneg (BitVec.ofNat 4 (fld w 21 4)) (BitVec.ofNat 4 (fld w 17 4)) (BitVec.ofNat 2 (fld w 11 2)) (BitVec.ofNat 4 (fld w 3 4)) (BitVec.ofNat 3 (fld w 0 3)))
  else if fld w 7 4 = 3 ∧ fld w 13 4 = 0 then .ok (.vsqrt (BitVec.ofNat 4 (fld w 21 4)) (BitVec.ofNat 4 (fld w 17 4)) (BitVec.ofNat 2 (fld w 11 2)) (BitVec.ofNat 4 (fld w 3 4)) (BitVec.ofNat 3 (fld w 0 3)))
  else if fld w 7 4 = 4 ∧ fld w 13 4 = 0 then .ok (.vrcp (BitVec.ofNat 4 (fld w 21 4)) (BitVec.ofNat 4 (fld w 17 4)) (BitVec.ofNat 2 (fld w 11 2)) (BitVec.ofNat 4 (fld w 3 4)) (BitVec.ofNat 3 (fld w 0 3)))
  else if fld w 7 4 = 5 ∧ fld w 13 4 = 0 then .ok (.vrsq (BitVec.ofNat 4 (fld w 21 4)) (BitVec.ofNat 4 (fld w 17 4)) (BitVec.ofNat 2 (fld w 11 2)) (BitVec.ofNat 4 (fld w 3 4)) (BitVec.ofNat 3 (fld w 0 3)))
  else if fld w 7 4 = 6 ∧ fld w 13 4 = 0 then .ok (.vexp (BitVec.ofNat 4 (fld w 21 4)) (BitVec.ofNat 4 (fld w 17 4)) (BitVec.ofNat 2 (fld w 11 2)) (BitVec.ofNat 4 (fld w 3 4)) (BitVec.ofNat 3 (fld w 0 3)))
  else if fld w 7 4 = 7 ∧ fld w 13 4 = 0 then .ok (.vlog (BitVec.ofNat 4 (fld w 21 4)) (BitVec.ofNat 4 (fld w 17 4)) (BitVec.ofNat 2 (fld w 11 2)) (BitVec.ofNat 4 (fld w 3 4)) (BitVec.ofNat 3 (fld w 0 3)))
  else if fld w 7 4 = 8 ∧ fld w 13 4 = 0 then .ok (.vsin (BitVec.ofNat 4 (fld w 21 4)) (BitVec.ofNat 4 (fld w 17 4)) (BitVec.ofNat 2 (fld w 11 2)) (BitVec.ofNat 4 (fld w 3 4)) (BitVec.ofNat 3 (fld w 0 3)))
  else if fld w 7 4 = 9 ∧ fld w 13 4 = 0 then .ok (.vcos (BitVec.ofNat 4 (fld w 21 4)) (BitVec.ofNat 4 (fld w 17 4)) (BitVec.ofNat 2 (fld w 11 2)) (BitVec.ofNat 4 (fld w 3 4)) (BitVec.ofNat 3 (fld w 0 3)))
  else if fld w 7 4 = 10 ∧ fld w 13 4 = 0 then .ok (.vtanh (BitVec.ofNat 4 (fld w 21 4)) (BitVec.ofNat 4 (fld w 17 4)) (BitVec.ofNat 2 (fld w 11 2)) (BitVec.ofNat 4 (fld w 3 4)) (BitVec.ofNat 3 (fld w 0 3)))
  else .error .unassignedMinor

/-- Major opcode 0x20 (R91). -/
def decodeMajor20 (w : Nat) : Except Reject Instr :=
  if fld w 7 4 = 0 then .ok (.vand (BitVec.ofNat 4 (fld w 21 4)) (BitVec.ofNat 4 (fld w 17 4)) (BitVec.ofNat 4 (fld w 13 4)) (BitVec.ofNat 2 (fld w 11 2)) (BitVec.ofNat 4 (fld w 3 4)) (BitVec.ofNat 3 (fld w 0 3)))
  else if fld w 7 4 = 1 then .ok (.vor (BitVec.ofNat 4 (fld w 21 4)) (BitVec.ofNat 4 (fld w 17 4)) (BitVec.ofNat 4 (fld w 13 4)) (BitVec.ofNat 2 (fld w 11 2)) (BitVec.ofNat 4 (fld w 3 4)) (BitVec.ofNat 3 (fld w 0 3)))
  else if fld w 7 4 = 2 then .ok (.vxor (BitVec.ofNat 4 (fld w 21 4)) (BitVec.ofNat 4 (fld w 17 4)) (BitVec.ofNat 4 (fld w 13 4)) (BitVec.ofNat 2 (fld w 11 2)) (BitVec.ofNat 4 (fld w 3 4)) (BitVec.ofNat 3 (fld w 0 3)))
  else if fld w 7 4 = 3 then .ok (.vandn (BitVec.ofNat 4 (fld w 21 4)) (BitVec.ofNat 4 (fld w 17 4)) (BitVec.ofNat 4 (fld w 13 4)) (BitVec.ofNat 2 (fld w 11 2)) (BitVec.ofNat 4 (fld w 3 4)) (BitVec.ofNat 3 (fld w 0 3)))
  else if fld w 7 4 = 4 then .ok (.vshl (BitVec.ofNat 4 (fld w 21 4)) (BitVec.ofNat 4 (fld w 17 4)) (BitVec.ofNat 4 (fld w 13 4)) (BitVec.ofNat 2 (fld w 11 2)) (BitVec.ofNat 4 (fld w 3 4)) (BitVec.ofNat 3 (fld w 0 3)))
  else if fld w 7 4 = 5 then .ok (.vshr (BitVec.ofNat 4 (fld w 21 4)) (BitVec.ofNat 4 (fld w 17 4)) (BitVec.ofNat 4 (fld w 13 4)) (BitVec.ofNat 2 (fld w 11 2)) (BitVec.ofNat 4 (fld w 3 4)) (BitVec.ofNat 3 (fld w 0 3)))
  else if fld w 7 4 = 6 then .ok (.vsar (BitVec.ofNat 4 (fld w 21 4)) (BitVec.ofNat 4 (fld w 17 4)) (BitVec.ofNat 4 (fld w 13 4)) (BitVec.ofNat 2 (fld w 11 2)) (BitVec.ofNat 4 (fld w 3 4)) (BitVec.ofNat 3 (fld w 0 3)))
  else if fld w 7 4 = 7 then .ok (.vcmp (BitVec.ofNat 4 (fld w 21 4)) (BitVec.ofNat 4 (fld w 17 4)) (BitVec.ofNat 4 (fld w 13 4)) (BitVec.ofNat 2 (fld w 11 2)) (BitVec.ofNat 4 (fld w 3 4)) (BitVec.ofNat 3 (fld w 0 3)))
  else if fld w 7 4 = 8 then .ok (.vsel (BitVec.ofNat 4 (fld w 21 4)) (BitVec.ofNat 4 (fld w 17 4)) (BitVec.ofNat 4 (fld w 13 4)) (BitVec.ofNat 2 (fld w 11 2)) (BitVec.ofNat 4 (fld w 3 4)) (BitVec.ofNat 3 (fld w 0 3)))
  else .error .unassignedMinor

/-- Major opcode 0x21 (R91). -/
def decodeMajor21 (w : Nat) : Except Reject Instr :=
  if fld w 7 4 = 0 ∧ fld w 13 3 = 0 then .ok (.vsum (BitVec.ofNat 4 (fld w 21 4)) (BitVec.ofNat 5 (fld w 16 5)) (BitVec.ofNat 2 (fld w 11 2)) (BitVec.ofNat 4 (fld w 3 4)) (BitVec.ofNat 3 (fld w 0 3)))
  else if fld w 7 4 = 1 ∧ fld w 13 3 = 0 then .ok (.vrmax (BitVec.ofNat 4 (fld w 21 4)) (BitVec.ofNat 5 (fld w 16 5)) (BitVec.ofNat 2 (fld w 11 2)) (BitVec.ofNat 4 (fld w 3 4)) (BitVec.ofNat 3 (fld w 0 3)))
  else if fld w 7 4 = 2 ∧ fld w 13 3 = 0 then .ok (.vrmin (BitVec.ofNat 4 (fld w 21 4)) (BitVec.ofNat 5 (fld w 16 5)) (BitVec.ofNat 2 (fld w 11 2)) (BitVec.ofNat 4 (fld w 3 4)) (BitVec.ofNat 3 (fld w 0 3)))
  else if fld w 7 4 = 3 ∧ fld w 13 4 = 0 then .ok (.vscan (BitVec.ofNat 4 (fld w 21 4)) (BitVec.ofNat 4 (fld w 17 4)) (BitVec.ofNat 2 (fld w 11 2)) (BitVec.ofNat 4 (fld w 3 4)) (BitVec.ofNat 3 (fld w 0 3)))
  else .error .unassignedMinor

/-- Major opcode 0x22 (R91). -/
def decodeMajor22 (w : Nat) : Except Reject Instr :=
  if fld w 7 4 = 0 then .ok (.vperm (BitVec.ofNat 4 (fld w 21 4)) (BitVec.ofNat 4 (fld w 17 4)) (BitVec.ofNat 4 (fld w 13 4)) (BitVec.ofNat 2 (fld w 11 2)) (BitVec.ofNat 4 (fld w 3 4)) (BitVec.ofNat 3 (fld w 0 3)))
  else if fld w 7 4 = 1 ∧ fld w 13 2 = 0 then .ok (.vbc (BitVec.ofNat 4 (fld w 21 4)) (BitVec.ofNat 5 (fld w 16 5)) (fld w 15 1 == 1) (BitVec.ofNat 2 (fld w 11 2)) (BitVec.ofNat 4 (fld w 3 4)) (BitVec.ofNat 3 (fld w 0 3)))
  else if fld w 7 4 = 2 ∧ fld w 13 3 = 0 then .ok (.vext (BitVec.ofNat 4 (fld w 21 4)) (BitVec.ofNat 5 (fld w 16 5)) (BitVec.ofNat 2 (fld w 11 2)) (BitVec.ofNat 4 (fld w 3 4)) (BitVec.ofNat 3 (fld w 0 3)))
  else if fld w 7 4 = 3 ∧ fld w 13 2 = 0 then .ok (.vins (BitVec.ofNat 4 (fld w 21 4)) (BitVec.ofNat 5 (fld w 16 5)) (fld w 15 1 == 1) (BitVec.ofNat 2 (fld w 11 2)) (BitVec.ofNat 4 (fld w 3 4)) (BitVec.ofNat 3 (fld w 0 3)))
  else if fld w 7 4 = 4 ∧ fld w 13 8 = 0 then .ok (.viota (BitVec.ofNat 4 (fld w 21 4)) (BitVec.ofNat 2 (fld w 11 2)) (BitVec.ofNat 4 (fld w 3 4)) (BitVec.ofNat 3 (fld w 0 3)))
  else if fld w 7 4 = 5 ∧ fld w 13 4 = 0 then .ok (.vmov (BitVec.ofNat 4 (fld w 21 4)) (BitVec.ofNat 4 (fld w 17 4)) (BitVec.ofNat 2 (fld w 11 2)) (BitVec.ofNat 4 (fld w 3 4)) (BitVec.ofNat 3 (fld w 0 3)))
  else if fld w 7 4 = 6 ∧ fld w 13 4 = 0 ∧ fld w 20 1 = 0 then .ok (.vqmovPop (BitVec.ofNat 4 (fld w 21 4)) (BitVec.ofNat 3 (fld w 17 3)) (BitVec.ofNat 2 (fld w 11 2)) (BitVec.ofNat 4 (fld w 3 4)) (BitVec.ofNat 3 (fld w 0 3)))
  else if fld w 7 4 = 6 ∧ fld w 13 4 = 1 ∧ fld w 24 1 = 0 then .ok (.vqmovPush (BitVec.ofNat 3 (fld w 21 3)) (BitVec.ofNat 4 (fld w 17 4)) (BitVec.ofNat 2 (fld w 11 2)) (BitVec.ofNat 4 (fld w 3 4)) (BitVec.ofNat 3 (fld w 0 3)))
  else .error .unassignedMinor

/-- Major opcode 0x23 (R91). -/
def decodeMajor23 (w : Nat) : Except Reject Instr :=
  if fld w 7 4 = 0 ∧ fld w 16 1 = 0 ∧ fld w 20 1 = 0 then .ok (.vmrg (BitVec.ofNat 4 (fld w 21 4)) (BitVec.ofNat 3 (fld w 17 3)) (BitVec.ofNat 3 (fld w 13 3)) (BitVec.ofNat 2 (fld w 11 2)) (BitVec.ofNat 4 (fld w 3 4)) (BitVec.ofNat 3 (fld w 0 3)))
  else .error .unassignedMinor

/-- Major opcode 0x24 (R91). -/
def decodeMajor24 (w : Nat) : Except Reject Instr :=
  if fld w 0 4 = 0 ∧ fld w 8 6 = 0 then .ok (.mma (BitVec.ofNat 5 (fld w 20 5)) (BitVec.ofNat 5 (fld w 15 5)) (fld w 14 1 == 1) (BitVec.ofNat 4 (fld w 4 4)))
  else if fld w 0 4 = 1 ∧ fld w 8 6 = 0 then .ok (.mmaz (BitVec.ofNat 5 (fld w 20 5)) (BitVec.ofNat 5 (fld w 15 5)) (fld w 14 1 == 1) (BitVec.ofNat 4 (fld w 4 4)))
  else .error .unassignedMinor

/-- Major opcode 0x25 (R91). -/
def decodeMajor25 (w : Nat) : Except Reject Instr :=
  if fld w 0 4 = 0 ∧ fld w 8 6 = 0 then .ok (.mbs (BitVec.ofNat 5 (fld w 20 5)) (BitVec.ofNat 5 (fld w 15 5)) (fld w 14 1 == 1) (BitVec.ofNat 4 (fld w 4 4)))
  else if fld w 0 4 = 1 ∧ fld w 8 6 = 0 then .ok (.mbsz (BitVec.ofNat 5 (fld w 20 5)) (BitVec.ofNat 5 (fld w 15 5)) (fld w 14 1 == 1) (BitVec.ofNat 4 (fld w 4 4)))
  else .error .unassignedMinor

/-- Major opcode 0x26 (R91). -/
def decodeMajor26 (w : Nat) : Except Reject Instr :=
  if fld w 0 4 = 0 ∧ fld w 8 6 = 0 then .ok (.msp (BitVec.ofNat 5 (fld w 20 5)) (BitVec.ofNat 5 (fld w 15 5)) (fld w 14 1 == 1) (BitVec.ofNat 4 (fld w 4 4)))
  else if fld w 0 14 = 1 then .ok (.mpre (BitVec.ofNat 5 (fld w 20 5)) (BitVec.ofNat 5 (fld w 15 5)) (fld w 14 1 == 1))
  else if fld w 0 14 = 2 ∧ fld w 20 5 = 0 then .ok (.mpinv (BitVec.ofNat 5 (fld w 15 5)) (fld w 14 1 == 1))
  else .error .unassignedMinor

/-- Major opcode 0x27 (R91). -/
def decodeMajor27 (w : Nat) : Except Reject Instr :=
  if fld w 0 4 = 0 then .ok (.mld (BitVec.ofNat 5 (fld w 20 5)) (BitVec.ofNat 5 (fld w 15 5)) (fld w 14 1 == 1) (BitVec.ofNat 5 (fld w 9 5)) (fld w 8 1 == 1) (BitVec.ofNat 4 (fld w 4 4)))
  else if fld w 0 4 = 1 then .ok (.mst (BitVec.ofNat 5 (fld w 20 5)) (BitVec.ofNat 5 (fld w 15 5)) (fld w 14 1 == 1) (BitVec.ofNat 5 (fld w 9 5)) (fld w 8 1 == 1) (BitVec.ofNat 4 (fld w 4 4)))
  else if fld w 0 4 = 2 ∧ fld w 8 17 = 0 then .ok (.mzero (BitVec.ofNat 4 (fld w 4 4)))
  else if fld w 0 4 = 3 ∧ fld w 8 6 = 0 then .ok (.mrd (BitVec.ofNat 5 (fld w 20 5)) (BitVec.ofNat 5 (fld w 15 5)) (fld w 14 1 == 1) (BitVec.ofNat 4 (fld w 4 4)))
  else if fld w 0 4 = 5 then .ok (.mstFill (BitVec.ofNat 5 (fld w 20 5)) (BitVec.ofNat 5 (fld w 15 5)) (fld w 14 1 == 1) (BitVec.ofNat 5 (fld w 9 5)) (fld w 8 1 == 1) (BitVec.ofNat 4 (fld w 4 4)))
  else if fld w 0 4 = 6 then .ok (.mstVnx (BitVec.ofNat 5 (fld w 20 5)) (BitVec.ofNat 5 (fld w 15 5)) (fld w 14 1 == 1) (BitVec.ofNat 5 (fld w 9 5)) (fld w 8 1 == 1) (BitVec.ofNat 4 (fld w 4 4)))
  else if fld w 0 4 = 7 then .ok (.mstVset (BitVec.ofNat 5 (fld w 20 5)) (BitVec.ofNat 5 (fld w 15 5)) (fld w 14 1 == 1) (BitVec.ofNat 5 (fld w 9 5)) (fld w 8 1 == 1) (BitVec.ofNat 4 (fld w 4 4)))
  else .error .unassignedMinor

/-- Major opcode 0x28 (R91). -/
def decodeMajor28 (w : Nat) : Except Reject Instr :=
  if fld w 0 8 = 0 then .ok (.mcmd (BitVec.ofNat 5 (fld w 20 5)) (BitVec.ofNat 5 (fld w 15 5)) (fld w 14 1 == 1) (BitVec.ofNat 5 (fld w 9 5)) (fld w 8 1 == 1))
  else if fld w 0 14 = 1 then .ok (.mqry (BitVec.ofNat 5 (fld w 20 5)) (BitVec.ofNat 5 (fld w 15 5)) (fld w 14 1 == 1))
  else .error .unassignedMinor

/-- Major opcode 0x29 (R91). -/
def decodeMajor29 (w : Nat) : Except Reject Instr :=
  if fld w 0 8 = 0 then .ok (.hacc (BitVec.ofNat 5 (fld w 20 5)) (BitVec.ofNat 5 (fld w 15 5)) (fld w 14 1 == 1) (BitVec.ofNat 5 (fld w 9 5)) (fld w 8 1 == 1))
  else if fld w 0 8 = 1 then .ok (.hdrn (BitVec.ofNat 5 (fld w 20 5)) (BitVec.ofNat 5 (fld w 15 5)) (fld w 14 1 == 1) (BitVec.ofNat 5 (fld w 9 5)) (fld w 8 1 == 1))
  else if fld w 0 8 = 2 ∧ fld w 20 5 = 0 then .ok (.sbnd (BitVec.ofNat 5 (fld w 15 5)) (fld w 14 1 == 1) (BitVec.ofNat 5 (fld w 9 5)) (fld w 8 1 == 1))
  else if fld w 0 8 = 3 then .ok (.carry (BitVec.ofNat 5 (fld w 20 5)) (BitVec.ofNat 5 (fld w 15 5)) (fld w 14 1 == 1) (BitVec.ofNat 5 (fld w 9 5)) (fld w 8 1 == 1))
  else .error .unassignedMinor

/-- Major opcode 0x2A (R91). -/
def decodeMajor2A (w : Nat) : Except Reject Instr :=
  if fld w 0 8 = 0 then .ok (.survBind (BitVec.ofNat 5 (fld w 20 5)) (BitVec.ofNat 5 (fld w 15 5)) (fld w 14 1 == 1) (BitVec.ofNat 5 (fld w 9 5)) (fld w 8 1 == 1))
  else if fld w 0 14 = 1 ∧ fld w 20 5 = 0 then .ok (.survUnbind (BitVec.ofNat 5 (fld w 15 5)) (fld w 14 1 == 1))
  else if fld w 0 14 = 2 ∧ fld w 20 5 = 0 then .ok (.survStart (BitVec.ofNat 5 (fld w 15 5)) (fld w 14 1 == 1))
  else if fld w 0 14 = 3 ∧ fld w 20 5 = 0 then .ok (.survStop (BitVec.ofNat 5 (fld w 15 5)) (fld w 14 1 == 1))
  else .error .unassignedMinor

/-- Major opcode 0x2B (R91). -/
def decodeMajor2B (w : Nat) : Except Reject Instr :=
  if fld w 0 4 = 0 ∧ fld w 7 7 = 0 ∧ fld w 20 5 = 0 then .ok (.tmld (BitVec.ofNat 5 (fld w 15 5)) (fld w 14 1 == 1) (BitVec.ofNat 3 (fld w 4 3)))
  else if fld w 0 4 = 1 ∧ fld w 7 2 = 0 ∧ fld w 12 2 = 0 ∧ fld w 20 5 = 0 then .ok (.tmset (BitVec.ofNat 5 (fld w 15 5)) (fld w 14 1 == 1) (BitVec.ofNat 3 (fld w 9 3)) (BitVec.ofNat 3 (fld w 4 3)))
  else if fld w 0 4 = 2 ∧ fld w 7 2 = 0 ∧ fld w 12 8 = 0 then .ok (.tmget (BitVec.ofNat 5 (fld w 20 5)) (BitVec.ofNat 3 (fld w 9 3)) (BitVec.ofNat 3 (fld w 4 3)))
  else .error .unassignedMinor

/-- Major opcode 0x2C (R91). -/
def decodeMajor2C (w : Nat) : Except Reject Instr :=
  if fld w 0 4 = 0 ∧ fld w 7 2 = 0 ∧ fld w 12 8 = 0 then .ok (.cpy (BitVec.ofNat 5 (fld w 20 5)) (BitVec.ofNat 3 (fld w 9 3)) (BitVec.ofNat 3 (fld w 4 3)))
  else if fld w 0 4 = 1 ∧ fld w 7 2 = 0 ∧ fld w 12 2 = 0 then .ok (.cpyg (BitVec.ofNat 5 (fld w 20 5)) (BitVec.ofNat 5 (fld w 15 5)) (fld w 14 1 == 1) (BitVec.ofNat 3 (fld w 9 3)) (BitVec.ofNat 3 (fld w 4 3)))
  else if fld w 0 4 = 2 ∧ fld w 7 2 = 0 ∧ fld w 12 2 = 0 then .ok (.cpys (BitVec.ofNat 5 (fld w 20 5)) (BitVec.ofNat 5 (fld w 15 5)) (fld w 14 1 == 1) (BitVec.ofNat 3 (fld w 9 3)) (BitVec.ofNat 3 (fld w 4 3)))
  else if fld w 0 4 = 3 ∧ fld w 7 2 = 0 ∧ fld w 12 8 = 0 then .ok (.cpyq (BitVec.ofNat 5 (fld w 20 5)) (BitVec.ofNat 3 (fld w 9 3)) (BitVec.ofNat 3 (fld w 4 3)))
  else if fld w 0 4 = 4 ∧ fld w 7 1 = 0 then .ok (.cpyf (BitVec.ofNat 5 (fld w 20 5)) (BitVec.ofNat 5 (fld w 15 5)) (fld w 14 1 == 1) (BitVec.ofNat 5 (fld w 9 5)) (fld w 8 1 == 1) (BitVec.ofNat 3 (fld w 4 3)))
  else .error .unassignedMinor

/-- Major opcode 0x38 (R91). -/
def decodeMajor38 (w : Nat) : Except Reject Instr :=
  if fld w 12 5 = 0 ∧ fld w 22 3 = 0 then .ok (.srd (BitVec.ofNat 5 (fld w 17 5)) (BitVec.ofNat 12 (fld w 0 12)))
  else if fld w 12 4 = 0 ∧ fld w 22 3 = 1 then .ok (.swr (BitVec.ofNat 5 (fld w 17 5)) (fld w 16 1 == 1) (BitVec.ofNat 12 (fld w 0 12)))
  else .error .unassignedMinor

/-- Major opcode 0x39 (R91). -/
def decodeMajor39 (w : Nat) : Except Reject Instr :=
  if fld w 0 25 = 2048 then .ok .capMint
  else if fld w 0 25 = 2049 then .ok .capNewGeneration
  else if fld w 12 13 = 0 then .ok (.trap (BitVec.ofNat 12 (fld w 0 12)))
  else if fld w 0 25 = 4194304 then .ok .xret
  else if fld w 12 13 = 2048 then .ok (.brk (BitVec.ofNat 12 (fld w 0 12)))
  else if fld w 0 25 = 12582912 then .ok .nop
  else if fld w 0 25 = 16777216 then .ok .synci
  else .error .unassignedMinor

/-- Major opcode 0x3A (R91). -/
def decodeMajor3A (w : Nat) : Except Reject Instr :=
  if fld w 0 8 = 0 ∧ fld w 20 5 = 0 then .ok (.ptinv (BitVec.ofNat 5 (fld w 15 5)) (fld w 14 1 == 1) (BitVec.ofNat 5 (fld w 9 5)) (fld w 8 1 == 1))
  else if fld w 0 8 = 1 ∧ fld w 20 5 = 0 then .ok (.atset (BitVec.ofNat 5 (fld w 15 5)) (fld w 14 1 == 1) (BitVec.ofNat 5 (fld w 9 5)) (fld w 8 1 == 1))
  else if fld w 0 20 = 2 then .ok (.atsync (BitVec.ofNat 5 (fld w 20 5)))
  else if fld w 0 8 = 3 then .ok (.migr (BitVec.ofNat 5 (fld w 20 5)) (BitVec.ofNat 5 (fld w 15 5)) (fld w 14 1 == 1) (BitVec.ofNat 5 (fld w 9 5)) (fld w 8 1 == 1))
  else if fld w 0 14 = 4 then .ok (.gstop (BitVec.ofNat 5 (fld w 20 5)) (BitVec.ofNat 5 (fld w 15 5)) (fld w 14 1 == 1))
  else .error .unassignedMinor

/-- The instruction of a 32-bit pattern, its fields not yet checked. -/
def decodeFields32 (w : Nat) : Except Reject Instr :=
  match fld w 25 6 with
  | 0 => decodeMajor00 w
  | 1 => decodeMajor01 w
  | 2 => decodeMajor02 w
  | 3 => decodeMajor03 w
  | 4 => decodeMajor04 w
  | 5 => decodeMajor05 w
  | 6 => decodeMajor06 w
  | 7 => decodeMajor07 w
  | 8 => decodeMajor08 w
  | 9 => decodeMajor09 w
  | 10 => decodeMajor0A w
  | 11 => decodeMajor0B w
  | 12 => decodeMajor0C w
  | 13 => decodeMajor0D w
  | 14 => decodeMajor0E w
  | 15 => decodeMajor0F w
  | 16 => decodeMajor10 w
  | 17 => decodeMajor11 w
  | 18 => decodeMajor12 w
  | 19 => decodeMajor13 w
  | 20 => decodeMajor14 w
  | 21 => decodeMajor15 w
  | 22 => decodeMajor16 w
  | 23 => decodeMajor17 w
  | 24 => decodeMajor18 w
  | 25 => decodeMajor19 w
  | 26 => decodeMajor1A w
  | 27 => decodeMajor1B w
  | 28 => decodeMajor1C w
  | 29 => decodeMajor1D w
  | 30 => decodeMajor1E w
  | 31 => decodeMajor1F w
  | 32 => decodeMajor20 w
  | 33 => decodeMajor21 w
  | 34 => decodeMajor22 w
  | 35 => decodeMajor23 w
  | 36 => decodeMajor24 w
  | 37 => decodeMajor25 w
  | 38 => decodeMajor26 w
  | 39 => decodeMajor27 w
  | 40 => decodeMajor28 w
  | 41 => decodeMajor29 w
  | 42 => decodeMajor2A w
  | 43 => decodeMajor2B w
  | 44 => decodeMajor2C w
  | 56 => decodeMajor38 w
  | 57 => decodeMajor39 w
  | 58 => decodeMajor3A w
  | _ => .error .unassignedOpcode

/-- The instruction of a compact halfword, its fields not yet checked. -/
def decodeFields16 (w : Nat) : Except Reject Instr :=
  match fld w 11 4 with
  | 0 => .error .forever
  | 1 => decodeCompact01 w
  | 2 => decodeCompact02 w
  | 3 => decodeCompact03 w
  | 4 => decodeCompact04 w
  | 5 => decodeCompact05 w
  | 6 => decodeCompact06 w
  | 7 => decodeCompact07 w
  | 8 => decodeCompact08 w
  | 9 => decodeCompact09 w
  | 10 => decodeCompact0A w
  | 11 => decodeCompact0B w
  | 12 => decodeCompact0C w
  | 13 => decodeCompact0D w
  | 14 => decodeCompact0E w
  | 15 => decodeCompact0F w
  | _ => .error .unassignedOpcode

/-- The checks of the field values. -/
def checked : Except Reject Instr → Except Reject Instr
  | .error r => .error r
  | .ok i => match i.check with
    | none => .ok i
    | some r => .error r

/-- The instruction of 32 bits whose bit 31 is 1 (R74, R75). -/
def decode32 (w : Nat) : Except Reject Instr :=
  if w = 0xFFFFFFFF then .error .forever else checked (decodeFields32 w)

/-- The instruction of a halfword whose bit 15 is 0. -/
def decode16 (w : Nat) : Except Reject Instr := checked (decodeFields16 w)

/-- R74: bit 15 of the first halfword says whether the instruction has 32 bits. -/
def isWide (first : BitVec 16) : Bool := first.getLsbD 15

/-- The instruction that begins a list of halfwords, with the halfwords left over. -/
def decode : List (BitVec 16) → Except Reject (Instr × List (BitVec 16))
  | [] => .error .truncated
  | h :: rest =>
    if isWide h then
      match rest with
      | [] => .error .truncated
      | h2 :: rest2 => (decode32 (h.toNat * 65536 + h2.toNat)).map (·, rest2)
    else (decode16 h.toNat).map (·, rest)

/-- Halfwords as the memory holds them, the low byte first (R74); an odd last byte makes no halfword. -/
def halfwords : List Byte → List (BitVec 16)
  | lo :: hi :: rest => (hi ++ lo) :: halfwords rest
  | _ => []

/-- The bits of an instruction as a number, from the encoding tables; 0 for an event, which has no encoding. -/
def Instr.encodeNat : Instr → Nat
  | .padd d a l b m => 0x8C000000 + d.toNat * 1048576 + a.toNat * 32768 + l.toNat * 16384 + b.toNat * 512 + m.toNat * 256
  | .pidx d a l b m => 0x8C000010 + d.toNat * 1048576 + a.toNat * 32768 + l.toNat * 16384 + b.toNat * 512 + m.toNat * 256
  | .pset d a l b m f => 0x8C000020 + d.toNat * 1048576 + a.toNat * 32768 + l.toNat * 16384 + b.toNat * 512 + m.toNat * 256 + f.toNat
  | .pget d a l f => 0x8C000030 + d.toNat * 1048576 + a.toNat * 32768 + l.toNat * 16384 + f.toNat
  | .pcore d a l b m => 0x8C000040 + d.toNat * 1048576 + a.toNat * 32768 + l.toNat * 16384 + b.toNat * 512 + m.toNat * 256
  | .pshrd d a l b m => 0x8C000050 + d.toNat * 1048576 + a.toNat * 32768 + l.toNat * 16384 + b.toNat * 512 + m.toNat * 256
  | .ext d a l b m => 0x8C000060 + d.toNat * 1048576 + a.toNat * 32768 + l.toNat * 16384 + b.toNat * 512 + m.toNat * 256
  | .bc a l b m c o => 0x8E000000 + a.toNat * 1048576 + l.toNat * 524288 + b.toNat * 16384 + m.toNat * 8192 + c.toNat * 1024 + o.toNat
  | .j o => 0x90000000 + o.toNat
  | .jal o => 0x92000000 + o.toNat
  | .jr d a l i => 0x94000000 + d.toNat * 1048576 + a.toNat * 32768 + l.toNat * 16384 + i.toNat
  | .loop d i => 0x94000400 + d.toNat * 1048576 + i.toNat
  | .ld d a l s z h i => 0x96000000 + d.toNat * 1048576 + a.toNat * 32768 + l.toNat * 16384 + s.toNat * 8192 + z.toNat * 2048 + h.toNat * 512 + i.toNat
  | .ldFut d a l h i => 0x96001880 + d.toNat * 1048576 + a.toNat * 32768 + l.toNat * 16384 + h.toNat * 512 + i.toNat
  | .ldTake d a l h i => 0x96001900 + d.toNat * 1048576 + a.toNat * 32768 + l.toNat * 16384 + h.toNat * 512 + i.toNat
  | .st d a l e z h i => 0x98000000 + d.toNat * 1048576 + a.toNat * 32768 + l.toNat * 16384 + e.toNat * 8192 + z.toNat * 2048 + h.toNat * 512 + i.toNat
  | .stFill d a l e h i => 0x98001880 + d.toNat * 1048576 + a.toNat * 32768 + l.toNat * 16384 + e.toNat * 8192 + h.toNat * 512 + i.toNat
  | .stGive d a l e h i => 0x98001900 + d.toNat * 1048576 + a.toNat * 32768 + l.toNat * 16384 + e.toNat * 8192 + h.toNat * 512 + i.toNat
  | .ldx d a l b m s z h x => 0x9A000000 + d.toNat * 1048576 + a.toNat * 32768 + l.toNat * 16384 + b.toNat * 512 + m.toNat * 256 + s.toNat * 128 + z.toNat * 32 + h.toNat * 8 + x.toNat
  | .stx d a l b m e z h x => 0x9A000004 + d.toNat * 1048576 + a.toNat * 32768 + l.toNat * 16384 + b.toNat * 512 + m.toNat * 256 + e.toNat * 128 + z.toNat * 32 + h.toNat * 8 + x.toNat
  | .ldtVeq d a l b m h => 0x9C000060 + d.toNat * 1048576 + a.toNat * 32768 + l.toNat * 16384 + b.toNat * 512 + m.toNat * 256 + h.toNat * 8
  | .ldtVge d a l b m h => 0x9C000061 + d.toNat * 1048576 + a.toNat * 32768 + l.toNat * 16384 + b.toNat * 512 + m.toNat * 256 + h.toNat * 8
  | .sttVnx d a l e h => 0x9C000064 + d.toNat * 1048576 + a.toNat * 32768 + l.toNat * 16384 + e.toNat * 128 + h.toNat * 8
  | .sttVset d a l b m e h => 0x9C000065 + d.toNat * 1048576 + a.toNat * 32768 + l.toNat * 16384 + b.toNat * 512 + m.toNat * 256 + e.toNat * 128 + h.toNat * 8
  | .lds d a l b m s z h => 0x9E000000 + d.toNat * 1048576 + a.toNat * 32768 + l.toNat * 16384 + b.toNat * 512 + m.toNat * 256 + s.toNat * 128 + z.toNat * 32 + h.toNat * 8
  | .sts d a l b m e z h => 0x9E000004 + d.toNat * 1048576 + a.toNat * 32768 + l.toNat * 16384 + b.toNat * 512 + m.toNat * 256 + e.toNat * 128 + z.toNat * 32 + h.toNat * 8
  | .amoSwap d a l b m z h => 0xA0000000 + d.toNat * 1048576 + a.toNat * 32768 + l.toNat * 16384 + b.toNat * 512 + m.toNat * 256 + z.toNat * 4 + h.toNat
  | .amoAdd d a l b m z h => 0xA0000008 + d.toNat * 1048576 + a.toNat * 32768 + l.toNat * 16384 + b.toNat * 512 + m.toNat * 256 + z.toNat * 4 + h.toNat
  | .amoAnd d a l b m z h => 0xA0000010 + d.toNat * 1048576 + a.toNat * 32768 + l.toNat * 16384 + b.toNat * 512 + m.toNat * 256 + z.toNat * 4 + h.toNat
  | .amoOr d a l b m z h => 0xA0000018 + d.toNat * 1048576 + a.toNat * 32768 + l.toNat * 16384 + b.toNat * 512 + m.toNat * 256 + z.toNat * 4 + h.toNat
  | .amoXor d a l b m z h => 0xA0000020 + d.toNat * 1048576 + a.toNat * 32768 + l.toNat * 16384 + b.toNat * 512 + m.toNat * 256 + z.toNat * 4 + h.toNat
  | .amoMin d a l b m z h => 0xA0000028 + d.toNat * 1048576 + a.toNat * 32768 + l.toNat * 16384 + b.toNat * 512 + m.toNat * 256 + z.toNat * 4 + h.toNat
  | .amoMax d a l b m z h => 0xA0000030 + d.toNat * 1048576 + a.toNat * 32768 + l.toNat * 16384 + b.toNat * 512 + m.toNat * 256 + z.toNat * 4 + h.toNat
  | .amoMinu d a l b m z h => 0xA0000038 + d.toNat * 1048576 + a.toNat * 32768 + l.toNat * 16384 + b.toNat * 512 + m.toNat * 256 + z.toNat * 4 + h.toNat
  | .amoMaxu d a l b m z h => 0xA0000040 + d.toNat * 1048576 + a.toNat * 32768 + l.toNat * 16384 + b.toNat * 512 + m.toNat * 256 + z.toNat * 4 + h.toNat
  | .cas d a l b m z h => 0xA0000080 + d.toNat * 1048576 + a.toNat * 32768 + l.toNat * 16384 + b.toNat * 512 + m.toNat * 256 + z.toNat * 4 + h.toNat
  | .redo d a l b m f => 0xA2000000 + d.toNat * 1048576 + a.toNat * 32768 + l.toNat * 16384 + b.toNat * 512 + m.toNat * 256 + f.toNat
  | .reda a l b m f => 0xA2000040 + a.toNat * 32768 + l.toNat * 16384 + b.toNat * 512 + m.toNat * 256 + f.toNat
  | .redr d a l f => 0xA2000080 + d.toNat * 1048576 + a.toNat * 32768 + l.toNat * 16384 + f.toNat
  | .redc d a l f => 0xA20000C0 + d.toNat * 1048576 + a.toNat * 32768 + l.toNat * 16384 + f.toNat
  | .jinit d a l b m => 0xA4000000 + d.toNat * 1048576 + a.toNat * 32768 + l.toNat * 16384 + b.toNat * 512 + m.toNat * 256
  | .join d a l b m => 0xA4000001 + d.toNat * 1048576 + a.toNat * 32768 + l.toNat * 16384 + b.toNat * 512 + m.toNat * 256
  | .fence d a l => 0xA6000000 + d.toNat * 1048576 + a.toNat * 32768 + l.toNat * 16384
  | .flush a l b m => 0xA6000001 + a.toNat * 32768 + l.toNat * 16384 + b.toNat * 512 + m.toNat * 256
  | .cinv a l b m => 0xA6000002 + a.toNat * 32768 + l.toNat * 16384 + b.toNat * 512 + m.toNat * 256
  | .wait a b c d => 0xA6000003 + a.toNat * 2097152 + b.toNat * 131072 + c.toNat * 8192 + d.toNat * 512
  | .pref h a l b m => 0xA6000004 + h.toNat * 1048576 + a.toNat * 32768 + l.toNat * 16384 + b.toNat * 512 + m.toNat * 256
  | .vrecl a l b m => 0xA6000005 + a.toNat * 32768 + l.toNat * 16384 + b.toNat * 512 + m.toNat * 256
  | .tagr d a l => 0xA6000006 + d.toNat * 1048576 + a.toNat * 32768 + l.toNat * 16384
  | .tagw a l b m => 0xA6000007 + a.toNat * 32768 + l.toNat * 16384 + b.toNat * 512 + m.toNat * 256
  | .mcast d a l b m => 0xA8000000 + d.toNat * 1048576 + a.toNat * 32768 + l.toNat * 16384 + b.toNat * 512 + m.toNat * 256
  | .spawn a l b m => 0xAA000000 + a.toNat * 32768 + l.toNat * 16384 + b.toNat * 512 + m.toNat * 256
  | .launch d a l => 0xAA000001 + d.toNat * 1048576 + a.toNat * 32768 + l.toNat * 16384
  | .yield => 0xAA000002
  | .prio d a l => 0xAA000003 + d.toNat * 1048576 + a.toNat * 32768 + l.toNat * 16384
  | .sendm a l b m => 0xAC000000 + a.toNat * 32768 + l.toNat * 16384 + b.toNat * 512 + m.toNat * 256
  | .recv d a l => 0xAC000001 + d.toNat * 1048576 + a.toNat * 32768 + l.toNat * 16384
  | .peek d => 0xAC000002 + d.toNat * 1048576
  | .reply a l => 0xAC000003 + a.toNat * 32768 + l.toNat * 16384
  | .hstart d a l b m => 0xAE000000 + d.toNat * 1048576 + a.toNat * 32768 + l.toNat * 16384 + b.toNat * 512 + m.toNat * 256
  | .hhalt a l => 0xAE000001 + a.toNat * 32768 + l.toNat * 16384
  | .hhaltRetain a l b m => 0xAE000081 + a.toNat * 32768 + l.toNat * 16384 + b.toNat * 512 + m.toNat * 256
  | .hwait d a l => 0xAE000002 + d.toNat * 1048576 + a.toNat * 32768 + l.toNat * 16384
  | .crew a l b m => 0xB0000000 + a.toNat * 32768 + l.toNat * 16384 + b.toNat * 512 + m.toNat * 256
  | .crewx d => 0xB0000001 + d.toNat * 1048576
  | .bar d a l n => 0xB0000002 + d.toNat * 1048576 + a.toNat * 32768 + l.toNat * 16384 + n.toNat * 512
  | .qbind a l b m q => 0xB2000000 + a.toNat * 32768 + l.toNat * 16384 + b.toNat * 512 + m.toNat * 256 + q.toNat
  | .qfree q => 0xB2000008 + q.toNat
  | .qctlPop d q => 0xB2000010 + d.toNat * 1048576 + q.toNat
  | .qctlPush a l q => 0xB2000210 + a.toNat * 32768 + l.toNat * 16384 + q.toNat
  | .qctlPushc a l q => 0xB2000410 + a.toNat * 32768 + l.toNat * 16384 + q.toNat
  | .qctlFlush q => 0xB2000610 + q.toNat
  | .qstat d q => 0xB2000018 + d.toNat * 1048576 + q.toNat
  | .qhnd a l => 0xB2000020 + a.toNat * 32768 + l.toNat * 16384
  | .qret => 0xB2000028
  | .vclaim d a l => 0xB4000000 + d.toNat * 1048576 + a.toNat * 32768 + l.toNat * 16384
  | .vreneg d a l => 0xB4000010 + d.toNat * 1048576 + a.toNat * 32768 + l.toNat * 16384
  | .vrel => 0xB4000020
  | .pcnt d k => 0xB4000030 + d.toNat * 1048576 + k.toNat * 4
  | .pwhile d a l b m k => 0xB4000040 + d.toNat * 1048576 + a.toNat * 32768 + l.toNat * 16384 + b.toNat * 512 + m.toNat * 256 + k.toNat * 4
  | .pmin a l k kb => 0xB4000050 + a.toNat * 32768 + l.toNat * 16384 + k.toNat * 4 + kb.toNat
  | .vld d a l k h => 0xB6000000 + d.toNat * 2097152 + a.toNat * 65536 + l.toNat * 32768 + k.toNat * 128 + h.toNat * 4
  | .vst d a l k h => 0xB6000010 + d.toNat * 2097152 + a.toNat * 65536 + l.toNat * 32768 + k.toNat * 128 + h.toNat * 4
  | .vldf d a l k h => 0xB6000020 + d.toNat * 2097152 + a.toNat * 65536 + l.toNat * 32768 + k.toNat * 128 + h.toNat * 4
  | .vlds d a l b m k h => 0xB6000030 + d.toNat * 2097152 + a.toNat * 65536 + l.toNat * 32768 + b.toNat * 1024 + m.toNat * 512 + k.toNat * 128 + h.toNat * 4
  | .vsts d a l b m k h => 0xB6000040 + d.toNat * 2097152 + a.toNat * 65536 + l.toNat * 32768 + b.toNat * 1024 + m.toNat * 512 + k.toNat * 128 + h.toNat * 4
  | .vgth d a l w k h => 0xB8000000 + d.toNat * 2097152 + a.toNat * 65536 + l.toNat * 32768 + w.toNat * 1024 + k.toNat * 128 + h.toNat * 4
  | .vsct d a l w k h => 0xB8000010 + d.toNat * 2097152 + a.toNat * 65536 + l.toNat * 32768 + w.toNat * 1024 + k.toNat * 128 + h.toNat * 4
  | .vadd d a b k t x => 0xBA000000 + d.toNat * 2097152 + a.toNat * 131072 + b.toNat * 8192 + k.toNat * 2048 + t.toNat * 8 + x.toNat
  | .vsub d a b k t x => 0xBA000080 + d.toNat * 2097152 + a.toNat * 131072 + b.toNat * 8192 + k.toNat * 2048 + t.toNat * 8 + x.toNat
  | .vmul d a b k t x => 0xBA000100 + d.toNat * 2097152 + a.toNat * 131072 + b.toNat * 8192 + k.toNat * 2048 + t.toNat * 8 + x.toNat
  | .vdiv d a b k t x => 0xBA000180 + d.toNat * 2097152 + a.toNat * 131072 + b.toNat * 8192 + k.toNat * 2048 + t.toNat * 8 + x.toNat
  | .vmin d a b k t x => 0xBA000200 + d.toNat * 2097152 + a.toNat * 131072 + b.toNat * 8192 + k.toNat * 2048 + t.toNat * 8 + x.toNat
  | .vmax d a b k t x => 0xBA000280 + d.toNat * 2097152 + a.toNat * 131072 + b.toNat * 8192 + k.toNat * 2048 + t.toNat * 8 + x.toNat
  | .vabsd d a b k t x => 0xBA000300 + d.toNat * 2097152 + a.toNat * 131072 + b.toNat * 8192 + k.toNat * 2048 + t.toNat * 8 + x.toNat
  | .vmulh d a b k t x => 0xBA000380 + d.toNat * 2097152 + a.toNat * 131072 + b.toNat * 8192 + k.toNat * 2048 + t.toNat * 8 + x.toNat
  | .vfma d a b k t x => 0xBC000000 + d.toNat * 2097152 + a.toNat * 131072 + b.toNat * 8192 + k.toNat * 2048 + t.toNat * 8 + x.toNat
  | .vfms d a b k t x => 0xBC000080 + d.toNat * 2097152 + a.toNat * 131072 + b.toNat * 8192 + k.toNat * 2048 + t.toNat * 8 + x.toNat
  | .vcvt d a s k t x => 0xBE000000 + d.toNat * 2097152 + a.toNat * 131072 + s.toNat * 8192 + k.toNat * 2048 + t.toNat * 8 + x.toNat
  | .vabs d a k t x => 0xBE000080 + d.toNat * 2097152 + a.toNat * 131072 + k.toNat * 2048 + t.toNat * 8 + x.toNat
  | .vneg d a k t x => 0xBE000100 + d.toNat * 2097152 + a.toNat * 131072 + k.toNat * 2048 + t.toNat * 8 + x.toNat
  | .vsqrt d a k t x => 0xBE000180 + d.toNat * 2097152 + a.toNat * 131072 + k.toNat * 2048 + t.toNat * 8 + x.toNat
  | .vrcp d a k t x => 0xBE000200 + d.toNat * 2097152 + a.toNat * 131072 + k.toNat * 2048 + t.toNat * 8 + x.toNat
  | .vrsq d a k t x => 0xBE000280 + d.toNat * 2097152 + a.toNat * 131072 + k.toNat * 2048 + t.toNat * 8 + x.toNat
  | .vexp d a k t x => 0xBE000300 + d.toNat * 2097152 + a.toNat * 131072 + k.toNat * 2048 + t.toNat * 8 + x.toNat
  | .vlog d a k t x => 0xBE000380 + d.toNat * 2097152 + a.toNat * 131072 + k.toNat * 2048 + t.toNat * 8 + x.toNat
  | .vsin d a k t x => 0xBE000400 + d.toNat * 2097152 + a.toNat * 131072 + k.toNat * 2048 + t.toNat * 8 + x.toNat
  | .vcos d a k t x => 0xBE000480 + d.toNat * 2097152 + a.toNat * 131072 + k.toNat * 2048 + t.toNat * 8 + x.toNat
  | .vtanh d a k t x => 0xBE000500 + d.toNat * 2097152 + a.toNat * 131072 + k.toNat * 2048 + t.toNat * 8 + x.toNat
  | .vand d a b k t x => 0xC0000000 + d.toNat * 2097152 + a.toNat * 131072 + b.toNat * 8192 + k.toNat * 2048 + t.toNat * 8 + x.toNat
  | .vor d a b k t x => 0xC0000080 + d.toNat * 2097152 + a.toNat * 131072 + b.toNat * 8192 + k.toNat * 2048 + t.toNat * 8 + x.toNat
  | .vxor d a b k t x => 0xC0000100 + d.toNat * 2097152 + a.toNat * 131072 + b.toNat * 8192 + k.toNat * 2048 + t.toNat * 8 + x.toNat
  | .vandn d a b k t x => 0xC0000180 + d.toNat * 2097152 + a.toNat * 131072 + b.toNat * 8192 + k.toNat * 2048 + t.toNat * 8 + x.toNat
  | .vshl d a b k t x => 0xC0000200 + d.toNat * 2097152 + a.toNat * 131072 + b.toNat * 8192 + k.toNat * 2048 + t.toNat * 8 + x.toNat
  | .vshr d a b k t x => 0xC0000280 + d.toNat * 2097152 + a.toNat * 131072 + b.toNat * 8192 + k.toNat * 2048 + t.toNat * 8 + x.toNat
  | .vsar d a b k t x => 0xC0000300 + d.toNat * 2097152 + a.toNat * 131072 + b.toNat * 8192 + k.toNat * 2048 + t.toNat * 8 + x.toNat
  | .vcmp d a b k t c => 0xC0000380 + d.toNat * 2097152 + a.toNat * 131072 + b.toNat * 8192 + k.toNat * 2048 + t.toNat * 8 + c.toNat
  | .vsel d a b k t x => 0xC0000400 + d.toNat * 2097152 + a.toNat * 131072 + b.toNat * 8192 + k.toNat * 2048 + t.toNat * 8 + x.toNat
  | .vsum a g k t x => 0xC2000000 + a.toNat * 2097152 + g.toNat * 65536 + k.toNat * 2048 + t.toNat * 8 + x.toNat
  | .vrmax a g k t x => 0xC2000080 + a.toNat * 2097152 + g.toNat * 65536 + k.toNat * 2048 + t.toNat * 8 + x.toNat
  | .vrmin a g k t x => 0xC2000100 + a.toNat * 2097152 + g.toNat * 65536 + k.toNat * 2048 + t.toNat * 8 + x.toNat
  | .vscan d a k t x => 0xC2000180 + d.toNat * 2097152 + a.toNat * 131072 + k.toNat * 2048 + t.toNat * 8 + x.toNat
  | .vperm d a b k t x => 0xC4000000 + d.toNat * 2097152 + a.toNat * 131072 + b.toNat * 8192 + k.toNat * 2048 + t.toNat * 8 + x.toNat
  | .vbc d g l k t x => 0xC4000080 + d.toNat * 2097152 + g.toNat * 65536 + l.toNat * 32768 + k.toNat * 2048 + t.toNat * 8 + x.toNat
  | .vext a g k t x => 0xC4000100 + a.toNat * 2097152 + g.toNat * 65536 + k.toNat * 2048 + t.toNat * 8 + x.toNat
  | .vins d g l k t x => 0xC4000180 + d.toNat * 2097152 + g.toNat * 65536 + l.toNat * 32768 + k.toNat * 2048 + t.toNat * 8 + x.toNat
  | .viota d k t x => 0xC4000200 + d.toNat * 2097152 + k.toNat * 2048 + t.toNat * 8 + x.toNat
  | .vmov d a k t x => 0xC4000280 + d.toNat * 2097152 + a.toNat * 131072 + k.toNat * 2048 + t.toNat * 8 + x.toNat
  | .vqmovPop d q k t x => 0xC4000300 + d.toNat * 2097152 + q.toNat * 131072 + k.toNat * 2048 + t.toNat * 8 + x.toNat
  | .vqmovPush q a k t x => 0xC4002300 + q.toNat * 2097152 + a.toNat * 131072 + k.toNat * 2048 + t.toNat * 8 + x.toNat
  | .vmrg d a b k t x => 0xC6000000 + d.toNat * 2097152 + a.toNat * 131072 + b.toNat * 8192 + k.toNat * 2048 + t.toNat * 8 + x.toNat
  | .mma d a l p => 0xC8000000 + d.toNat * 1048576 + a.toNat * 32768 + l.toNat * 16384 + p.toNat * 16
  | .mmaz d a l p => 0xC8000001 + d.toNat * 1048576 + a.toNat * 32768 + l.toNat * 16384 + p.toNat * 16
  | .mbs d a l p => 0xCA000000 + d.toNat * 1048576 + a.toNat * 32768 + l.toNat * 16384 + p.toNat * 16
  | .mbsz d a l p => 0xCA000001 + d.toNat * 1048576 + a.toNat * 32768 + l.toNat * 16384 + p.toNat * 16
  | .msp d a l p => 0xCC000000 + d.toNat * 1048576 + a.toNat * 32768 + l.toNat * 16384 + p.toNat * 16
  | .mpre d a l => 0xCC000001 + d.toNat * 1048576 + a.toNat * 32768 + l.toNat * 16384
  | .mpinv a l => 0xCC000002 + a.toNat * 32768 + l.toNat * 16384
  | .mld d a l b m p => 0xCE000000 + d.toNat * 1048576 + a.toNat * 32768 + l.toNat * 16384 + b.toNat * 512 + m.toNat * 256 + p.toNat * 16
  | .mst d a l b m p => 0xCE000001 + d.toNat * 1048576 + a.toNat * 32768 + l.toNat * 16384 + b.toNat * 512 + m.toNat * 256 + p.toNat * 16
  | .mzero p => 0xCE000002 + p.toNat * 16
  | .mrd d a l p => 0xCE000003 + d.toNat * 1048576 + a.toNat * 32768 + l.toNat * 16384 + p.toNat * 16
  | .mstFill d a l b m p => 0xCE000005 + d.toNat * 1048576 + a.toNat * 32768 + l.toNat * 16384 + b.toNat * 512 + m.toNat * 256 + p.toNat * 16
  | .mstVnx d a l b m p => 0xCE000006 + d.toNat * 1048576 + a.toNat * 32768 + l.toNat * 16384 + b.toNat * 512 + m.toNat * 256 + p.toNat * 16
  | .mstVset d a l b m p => 0xCE000007 + d.toNat * 1048576 + a.toNat * 32768 + l.toNat * 16384 + b.toNat * 512 + m.toNat * 256 + p.toNat * 16
  | .mcmd d a l b m => 0xD0000000 + d.toNat * 1048576 + a.toNat * 32768 + l.toNat * 16384 + b.toNat * 512 + m.toNat * 256
  | .mqry d a l => 0xD0000001 + d.toNat * 1048576 + a.toNat * 32768 + l.toNat * 16384
  | .hacc d a l b m => 0xD2000000 + d.toNat * 1048576 + a.toNat * 32768 + l.toNat * 16384 + b.toNat * 512 + m.toNat * 256
  | .hdrn d a l b m => 0xD2000001 + d.toNat * 1048576 + a.toNat * 32768 + l.toNat * 16384 + b.toNat * 512 + m.toNat * 256
  | .sbnd a l b m => 0xD2000002 + a.toNat * 32768 + l.toNat * 16384 + b.toNat * 512 + m.toNat * 256
  | .carry d a l b m => 0xD2000003 + d.toNat * 1048576 + a.toNat * 32768 + l.toNat * 16384 + b.toNat * 512 + m.toNat * 256
  | .survBind d a l b m => 0xD4000000 + d.toNat * 1048576 + a.toNat * 32768 + l.toNat * 16384 + b.toNat * 512 + m.toNat * 256
  | .survUnbind a l => 0xD4000001 + a.toNat * 32768 + l.toNat * 16384
  | .survStart a l => 0xD4000002 + a.toNat * 32768 + l.toNat * 16384
  | .survStop a l => 0xD4000003 + a.toNat * 32768 + l.toNat * 16384
  | .tmld a l p => 0xD6000000 + a.toNat * 32768 + l.toNat * 16384 + p.toNat * 16
  | .tmset a l n p => 0xD6000001 + a.toNat * 32768 + l.toNat * 16384 + n.toNat * 512 + p.toNat * 16
  | .tmget d n p => 0xD6000002 + d.toNat * 1048576 + n.toNat * 512 + p.toNat * 16
  | .cpy d s p => 0xD8000000 + d.toNat * 1048576 + s.toNat * 512 + p.toNat * 16
  | .cpyg d a l s p => 0xD8000001 + d.toNat * 1048576 + a.toNat * 32768 + l.toNat * 16384 + s.toNat * 512 + p.toNat * 16
  | .cpys d a l s p => 0xD8000002 + d.toNat * 1048576 + a.toNat * 32768 + l.toNat * 16384 + s.toNat * 512 + p.toNat * 16
  | .cpyq d q p => 0xD8000003 + d.toNat * 1048576 + q.toNat * 512 + p.toNat * 16
  | .cpyf d a l b m p => 0xD8000004 + d.toNat * 1048576 + a.toNat * 32768 + l.toNat * 16384 + b.toNat * 512 + m.toNat * 256 + p.toNat * 16
  | .srd g n => 0xF0000000 + g.toNat * 131072 + n.toNat
  | .swr g l n => 0xF0400000 + g.toNat * 131072 + l.toNat * 65536 + n.toNat
  | .trap n => 0xF2000000 + n.toNat
  | .capMint => 0xF2000800
  | .capNewGeneration => 0xF2000801
  | .xret => 0xF2400000
  | .brk n => 0xF2800000 + n.toNat
  | .nop => 0xF2C00000
  | .synci => 0xF3000000
  | .ptinv a l b m => 0xF4000000 + a.toNat * 32768 + l.toNat * 16384 + b.toNat * 512 + m.toNat * 256
  | .atset a l b m => 0xF4000001 + a.toNat * 32768 + l.toNat * 16384 + b.toNat * 512 + m.toNat * 256
  | .atsync d => 0xF4000002 + d.toNat * 1048576
  | .migr d a l b m => 0xF4000003 + d.toNat * 1048576 + a.toNat * 32768 + l.toNat * 16384 + b.toNat * 512 + m.toNat * 256
  | .gstop d a l => 0xF4000004 + d.toNat * 1048576 + a.toNat * 32768 + l.toNat * 16384
  | .svFetch a b i => 0x7800 + a.toNat * 128 + b.toNat * 16 + i.toNat
  | .svEmit a b i => 0x7C00 + a.toNat * 128 + b.toNat * 16 + i.toNat
  | .add d a l b m => 0x80000000 + d.toNat * 1048576 + a.toNat * 32768 + l.toNat * 16384 + b.toNat * 512 + m.toNat * 256
  | .sub d a l b m => 0x80000001 + d.toNat * 1048576 + a.toNat * 32768 + l.toNat * 16384 + b.toNat * 512 + m.toNat * 256
  | .and d a l b m => 0x80000002 + d.toNat * 1048576 + a.toNat * 32768 + l.toNat * 16384 + b.toNat * 512 + m.toNat * 256
  | .or d a l b m => 0x80000003 + d.toNat * 1048576 + a.toNat * 32768 + l.toNat * 16384 + b.toNat * 512 + m.toNat * 256
  | .xor d a l b m => 0x80000004 + d.toNat * 1048576 + a.toNat * 32768 + l.toNat * 16384 + b.toNat * 512 + m.toNat * 256
  | .andn d a l b m => 0x80000005 + d.toNat * 1048576 + a.toNat * 32768 + l.toNat * 16384 + b.toNat * 512 + m.toNat * 256
  | .shl d a l b m => 0x80000006 + d.toNat * 1048576 + a.toNat * 32768 + l.toNat * 16384 + b.toNat * 512 + m.toNat * 256
  | .shr d a l b m => 0x80000007 + d.toNat * 1048576 + a.toNat * 32768 + l.toNat * 16384 + b.toNat * 512 + m.toNat * 256
  | .sar d a l b m => 0x80000008 + d.toNat * 1048576 + a.toNat * 32768 + l.toNat * 16384 + b.toNat * 512 + m.toNat * 256
  | .rot d a l b m => 0x80000009 + d.toNat * 1048576 + a.toNat * 32768 + l.toNat * 16384 + b.toNat * 512 + m.toNat * 256
  | .min d a l b m => 0x8000000A + d.toNat * 1048576 + a.toNat * 32768 + l.toNat * 16384 + b.toNat * 512 + m.toNat * 256
  | .max d a l b m => 0x8000000B + d.toNat * 1048576 + a.toNat * 32768 + l.toNat * 16384 + b.toNat * 512 + m.toNat * 256
  | .minu d a l b m => 0x8000000C + d.toNat * 1048576 + a.toNat * 32768 + l.toNat * 16384 + b.toNat * 512 + m.toNat * 256
  | .maxu d a l b m => 0x8000000D + d.toNat * 1048576 + a.toNat * 32768 + l.toNat * 16384 + b.toNat * 512 + m.toNat * 256
  | .slt d a l b m => 0x8000000E + d.toNat * 1048576 + a.toNat * 32768 + l.toNat * 16384 + b.toNat * 512 + m.toNat * 256
  | .sltu d a l b m => 0x8000000F + d.toNat * 1048576 + a.toNat * 32768 + l.toNat * 16384 + b.toNat * 512 + m.toNat * 256
  | .sel d a l b m => 0x80000010 + d.toNat * 1048576 + a.toNat * 32768 + l.toNat * 16384 + b.toNat * 512 + m.toNat * 256
  | .mov d a l => 0x80000011 + d.toNat * 1048576 + a.toNat * 32768 + l.toNat * 16384
  | .clz d a l => 0x80000020 + d.toNat * 1048576 + a.toNat * 32768 + l.toNat * 16384
  | .ctz d a l => 0x80000021 + d.toNat * 1048576 + a.toNat * 32768 + l.toNat * 16384
  | .popc d a l => 0x80000022 + d.toNat * 1048576 + a.toNat * 32768 + l.toNat * 16384
  | .brev d a l => 0x80000023 + d.toNat * 1048576 + a.toNat * 32768 + l.toNat * 16384
  | .bswp d a l => 0x80000024 + d.toNat * 1048576 + a.toNat * 32768 + l.toNat * 16384
  | .addW d a l b m => 0x82000000 + d.toNat * 1048576 + a.toNat * 32768 + l.toNat * 16384 + b.toNat * 512 + m.toNat * 256
  | .subW d a l b m => 0x82000001 + d.toNat * 1048576 + a.toNat * 32768 + l.toNat * 16384 + b.toNat * 512 + m.toNat * 256
  | .andW d a l b m => 0x82000002 + d.toNat * 1048576 + a.toNat * 32768 + l.toNat * 16384 + b.toNat * 512 + m.toNat * 256
  | .orW d a l b m => 0x82000003 + d.toNat * 1048576 + a.toNat * 32768 + l.toNat * 16384 + b.toNat * 512 + m.toNat * 256
  | .xorW d a l b m => 0x82000004 + d.toNat * 1048576 + a.toNat * 32768 + l.toNat * 16384 + b.toNat * 512 + m.toNat * 256
  | .andnW d a l b m => 0x82000005 + d.toNat * 1048576 + a.toNat * 32768 + l.toNat * 16384 + b.toNat * 512 + m.toNat * 256
  | .shlW d a l b m => 0x82000006 + d.toNat * 1048576 + a.toNat * 32768 + l.toNat * 16384 + b.toNat * 512 + m.toNat * 256
  | .shrW d a l b m => 0x82000007 + d.toNat * 1048576 + a.toNat * 32768 + l.toNat * 16384 + b.toNat * 512 + m.toNat * 256
  | .sarW d a l b m => 0x82000008 + d.toNat * 1048576 + a.toNat * 32768 + l.toNat * 16384 + b.toNat * 512 + m.toNat * 256
  | .rotW d a l b m => 0x82000009 + d.toNat * 1048576 + a.toNat * 32768 + l.toNat * 16384 + b.toNat * 512 + m.toNat * 256
  | .minW d a l b m => 0x8200000A + d.toNat * 1048576 + a.toNat * 32768 + l.toNat * 16384 + b.toNat * 512 + m.toNat * 256
  | .maxW d a l b m => 0x8200000B + d.toNat * 1048576 + a.toNat * 32768 + l.toNat * 16384 + b.toNat * 512 + m.toNat * 256
  | .minuW d a l b m => 0x8200000C + d.toNat * 1048576 + a.toNat * 32768 + l.toNat * 16384 + b.toNat * 512 + m.toNat * 256
  | .maxuW d a l b m => 0x8200000D + d.toNat * 1048576 + a.toNat * 32768 + l.toNat * 16384 + b.toNat * 512 + m.toNat * 256
  | .sltW d a l b m => 0x8200000E + d.toNat * 1048576 + a.toNat * 32768 + l.toNat * 16384 + b.toNat * 512 + m.toNat * 256
  | .sltuW d a l b m => 0x8200000F + d.toNat * 1048576 + a.toNat * 32768 + l.toNat * 16384 + b.toNat * 512 + m.toNat * 256
  | .clzW d a l => 0x82000020 + d.toNat * 1048576 + a.toNat * 32768 + l.toNat * 16384
  | .ctzW d a l => 0x82000021 + d.toNat * 1048576 + a.toNat * 32768 + l.toNat * 16384
  | .popcW d a l => 0x82000022 + d.toNat * 1048576 + a.toNat * 32768 + l.toNat * 16384
  | .addImm d a l i => 0x84000000 + d.toNat * 1048576 + a.toNat * 32768 + l.toNat * 16384 + i.toNat
  | .andImm d a l i => 0x84000400 + d.toNat * 1048576 + a.toNat * 32768 + l.toNat * 16384 + i.toNat
  | .orImm d a l i => 0x84000800 + d.toNat * 1048576 + a.toNat * 32768 + l.toNat * 16384 + i.toNat
  | .xorImm d a l i => 0x84000C00 + d.toNat * 1048576 + a.toNat * 32768 + l.toNat * 16384 + i.toNat
  | .shlImm d a l c => 0x84001000 + d.toNat * 1048576 + a.toNat * 32768 + l.toNat * 16384 + c.toNat
  | .shrImm d a l c => 0x84001400 + d.toNat * 1048576 + a.toNat * 32768 + l.toNat * 16384 + c.toNat
  | .sarImm d a l c => 0x84001800 + d.toNat * 1048576 + a.toNat * 32768 + l.toNat * 16384 + c.toNat
  | .rotImm d a l c => 0x84001C00 + d.toNat * 1048576 + a.toNat * 32768 + l.toNat * 16384 + c.toNat
  | .sltImm d a l i => 0x84002000 + d.toNat * 1048576 + a.toNat * 32768 + l.toNat * 16384 + i.toNat
  | .sltuImm d a l i => 0x84002400 + d.toNat * 1048576 + a.toNat * 32768 + l.toNat * 16384 + i.toNat
  | .minImm d a l i => 0x84002800 + d.toNat * 1048576 + a.toNat * 32768 + l.toNat * 16384 + i.toNat
  | .maxImm d a l i => 0x84002C00 + d.toNat * 1048576 + a.toNat * 32768 + l.toNat * 16384 + i.toNat
  | .addWImm d a l i => 0x84003000 + d.toNat * 1048576 + a.toNat * 32768 + l.toNat * 16384 + i.toNat
  | .li d i => 0x86000000 + d.toNat * 1048576 + i.toNat
  | .lih d h i => 0x86080000 + d.toNat * 1048576 + h.toNat * 131072 + i.toNat * 2
  | .bfx d a l o w => 0x88000000 + d.toNat * 1048576 + a.toNat * 32768 + l.toNat * 16384 + o.toNat * 128 + w.toNat
  | .bfxs d a l o w => 0x88000000 + d.toNat * 1048576 + a.toNat * 32768 + l.toNat * 16384 + o.toNat * 128 + w.toNat
  | .bfxs64 d a l o => 0x8800207C + d.toNat * 1048576 + a.toNat * 32768 + l.toNat * 16384 + o.toNat * 128
  | .bfi d a l o w => 0x88002000 + d.toNat * 1048576 + a.toNat * 32768 + l.toNat * 16384 + o.toNat * 128 + w.toNat
  | .bfxReg d a l b m => 0x8800207D + d.toNat * 1048576 + a.toNat * 32768 + l.toNat * 16384 + b.toNat * 256 + m.toNat * 128
  | .bfxsReg d a l b m => 0x8800207E + d.toNat * 1048576 + a.toNat * 32768 + l.toNat * 16384 + b.toNat * 256 + m.toNat * 128
  | .bfiReg d a l b m => 0x8800207F + d.toNat * 1048576 + a.toNat * 32768 + l.toNat * 16384 + b.toNat * 256 + m.toNat * 128
  | .mul d a l b m => 0x8A000000 + d.toNat * 1048576 + a.toNat * 32768 + l.toNat * 16384 + b.toNat * 512 + m.toNat * 256
  | .mulh d a l b m => 0x8A000001 + d.toNat * 1048576 + a.toNat * 32768 + l.toNat * 16384 + b.toNat * 512 + m.toNat * 256
  | .mulhu d a l b m => 0x8A000002 + d.toNat * 1048576 + a.toNat * 32768 + l.toNat * 16384 + b.toNat * 512 + m.toNat * 256
  | .div d a l b m => 0x8A000003 + d.toNat * 1048576 + a.toNat * 32768 + l.toNat * 16384 + b.toNat * 512 + m.toNat * 256
  | .divu d a l b m => 0x8A000004 + d.toNat * 1048576 + a.toNat * 32768 + l.toNat * 16384 + b.toNat * 512 + m.toNat * 256
  | .rem d a l b m => 0x8A000005 + d.toNat * 1048576 + a.toNat * 32768 + l.toNat * 16384 + b.toNat * 512 + m.toNat * 256
  | .remu d a l b m => 0x8A000006 + d.toNat * 1048576 + a.toNat * 32768 + l.toNat * 16384 + b.toNat * 512 + m.toNat * 256
  | .mulW d a l b m => 0x8A000010 + d.toNat * 1048576 + a.toNat * 32768 + l.toNat * 16384 + b.toNat * 512 + m.toNat * 256
  | .mulhW d a l b m => 0x8A000011 + d.toNat * 1048576 + a.toNat * 32768 + l.toNat * 16384 + b.toNat * 512 + m.toNat * 256
  | .mulhuW d a l b m => 0x8A000012 + d.toNat * 1048576 + a.toNat * 32768 + l.toNat * 16384 + b.toNat * 512 + m.toNat * 256
  | .divW d a l b m => 0x8A000013 + d.toNat * 1048576 + a.toNat * 32768 + l.toNat * 16384 + b.toNat * 512 + m.toNat * 256
  | .divuW d a l b m => 0x8A000014 + d.toNat * 1048576 + a.toNat * 32768 + l.toNat * 16384 + b.toNat * 512 + m.toNat * 256
  | .remW d a l b m => 0x8A000015 + d.toNat * 1048576 + a.toNat * 32768 + l.toNat * 16384 + b.toNat * 512 + m.toNat * 256
  | .remuW d a l b m => 0x8A000016 + d.toNat * 1048576 + a.toNat * 32768 + l.toNat * 16384 + b.toNat * 512 + m.toNat * 256
  | .cAdd d b l => 0x0800 + d.toNat * 64 + b.toNat * 2 + l.toNat
  | .cAddi d i => 0x1000 + d.toNat * 64 + i.toNat
  | .cMov d b l => 0x1800 + d.toNat * 64 + b.toNat * 2 + l.toNat
  | .cLi d i => 0x2000 + d.toNat * 64 + i.toNat
  | .cLd d a l i => 0x2800 + d.toNat * 256 + a.toNat * 32 + l.toNat * 16 + i.toNat
  | .cSt b m a l i => 0x3000 + b.toNat * 256 + m.toNat * 128 + a.toNat * 16 + l.toNat * 8 + i.toNat
  | .cBz a l o => 0x3800 + a.toNat * 128 + l.toNat * 64 + o.toNat
  | .cBnz a l o => 0x3C00 + a.toNat * 128 + l.toNat * 64 + o.toNat
  | .cJ o => 0x4000 + o.toNat
  | .cSub d a l => 0x4800 + d.toNat * 32 + a.toNat * 4 + l.toNat * 2
  | .cAnd d a l => 0x4900 + d.toNat * 32 + a.toNat * 4 + l.toNat * 2
  | .cOr d a l => 0x4A00 + d.toNat * 32 + a.toNat * 4 + l.toNat * 2
  | .cXor d a l => 0x4B00 + d.toNat * 32 + a.toNat * 4 + l.toNat * 2
  | .cShl d a l => 0x4C00 + d.toNat * 32 + a.toNat * 4 + l.toNat * 2
  | .cShr d a l => 0x4D00 + d.toNat * 32 + a.toNat * 4 + l.toNat * 2
  | .cWait m => 0x5000 + m.toNat
  | .cRecv d => 0x5800 + d.toNat * 64
  | .cJr a l => 0x6000 + a.toNat * 64 + l.toNat * 32
  | .cPadd d b l => 0x6800 + d.toNat * 64 + b.toNat * 2 + l.toNat
  | .cNop => 0x7000
  | .cYield => 0x7100
  | .cHhalt => 0x7200
  | .claimGrant _ => 0
  | .lsplitWrite _ _ => 0
  | .vgroupWrite _ _ => 0
  | .homeAccept _ => 0
  | .retryReplay _ => 0
  | .loadDataReturn _ _ => 0
  | .storeAck _ => 0
  | .releaseSend _ => 0
  | .barComplete _ _ => 0
  | .messageArrival _ => 0
  | .messageReplay _ => 0
  | .handlerStart _ => 0
  | .resumeMessage _ => 0
  | .stopMessage _ => 0
  | .forwardRequest _ => 0
  | .forwardExpire _ _ => 0
  | .registerPreempt _ _ => 0
  | .registerGrant _ => 0
  | .engineCommandAccept _ => 0
  | .engineCommandStart _ => 0
  | .engineCommandComplete _ => 0
  | .engineCommandMigrate _ _ => 0
  | .engraveStart _ => 0
  | .engraveComplete _ => 0
  | .copyStart _ => 0
  | .copyComplete _ => 0
  | .copyqResume _ => 0
  | .surveyorRun _ _ => 0
  | .surveyorGatherReturn _ _ => 0
  | .memoryStreamRead _ _ _ => 0
  | .launchDistribute => 0
  | .launchEntryPlace _ => 0
  | .dispatch _ => 0
  | .placementDecision _ => 0
  | .heldTaskResume _ => 0
  | .spillRefill _ => 0
  | .spillOfferRetry _ => 0
  | .queueAgeing _ => 0
  | .pressureSample _ => 0
  | .contourStep _ => 0
  | .crewGrant _ => 0
  | .crewTarget _ => 0
  | .crewSwap _ => 0
  | .crewRestore _ => 0
  | .heatSweep _ => 0
  | .memoryDoubleUpset _ => 0
  | .dieLost _ => 0
  | .routerCycle _ _ => 0
  | .linkDead _ _ => 0
  | .drainWrite _ => 0
  | .fabricTimedReplay _ => 0
  | .fabricTransit _ => 0
  | .lossPacket _ _ => 0
  | .timeExchange _ _ _ => 0
  | .flitArrival _ _ => 0
  | .linkNakResend _ _ => 0
  | .sendWindowDoubleUpset _ _ => 0
  | .replayNotice _ => 0
  | .portDown _ => 0
  | .orteWrite _ _ => 0
  | .oparkWrite _ _ => 0
  | .oheatWrite _ _ => 0
  | .oasgnWrite _ _ => 0
  | .opticalWakeTrigger _ => 0
  | .ringSettleDone _ => 0
  | .ringLocked _ => 0
  | .ringLockTimeout _ => 0
  | .ringDeskewDone _ => 0
  | .stripeWiden _ => 0
  | .monitorSample _ => 0
  | .parkFlit _ _ => 0
  | .wakeFlit _ _ => 0
  | .lockReport _ => 0
  | .hostLaunchWrite _ _ => 0
  | .hostCommandWrite _ _ => 0
  | .hostQueueDeliver _ => 0
  | .hqsizeWrite _ _ => 0
  | .hqheadWrite _ _ => 0
  | .hqbaseWrite _ _ => 0
  | .powerGood _ _ _ => 0
  | .thermalThrottle => 0
  | .thermalTrip => 0
  | .d3hotRequest => 0
  | .getVersion _ => 0
  | .getCapabilities _ => 0
  | .negotiateAlgorithms _ => 0
  | .getDigests _ => 0
  | .getCertificate _ => 0
  | .challenge _ => 0
  | .getMeasurements _ => 0
  | .keyExchange _ => 0
  | .finish _ => 0
  | .create _ => 0
  | .destroy _ => 0
  | .setKey _ => 0
  | .setPkg _ => 0
  | .log _ => 0
  | .route _ => 0
  | .packageLoss _ => 0
  | .illegalEncoding _ _ => 0
  | .fetchFault _ _ => 0
  | .vendorDefinedRequest _ => 0

/-- The length of an instruction in bytes: 2 for a compact form, 4 for a 32-bit form, 0 for an event. -/
def Instr.length : Instr → Nat
  | .padd _ _ _ _ _ => 4
  | .pidx _ _ _ _ _ => 4
  | .pset _ _ _ _ _ _ => 4
  | .pget _ _ _ _ => 4
  | .pcore _ _ _ _ _ => 4
  | .pshrd _ _ _ _ _ => 4
  | .ext _ _ _ _ _ => 4
  | .bc _ _ _ _ _ _ => 4
  | .j _ => 4
  | .jal _ => 4
  | .jr _ _ _ _ => 4
  | .loop _ _ => 4
  | .ld _ _ _ _ _ _ _ => 4
  | .ldFut _ _ _ _ _ => 4
  | .ldTake _ _ _ _ _ => 4
  | .st _ _ _ _ _ _ _ => 4
  | .stFill _ _ _ _ _ _ => 4
  | .stGive _ _ _ _ _ _ => 4
  | .ldx _ _ _ _ _ _ _ _ _ => 4
  | .stx _ _ _ _ _ _ _ _ _ => 4
  | .ldtVeq _ _ _ _ _ _ => 4
  | .ldtVge _ _ _ _ _ _ => 4
  | .sttVnx _ _ _ _ _ => 4
  | .sttVset _ _ _ _ _ _ _ => 4
  | .lds _ _ _ _ _ _ _ _ => 4
  | .sts _ _ _ _ _ _ _ _ => 4
  | .amoSwap _ _ _ _ _ _ _ => 4
  | .amoAdd _ _ _ _ _ _ _ => 4
  | .amoAnd _ _ _ _ _ _ _ => 4
  | .amoOr _ _ _ _ _ _ _ => 4
  | .amoXor _ _ _ _ _ _ _ => 4
  | .amoMin _ _ _ _ _ _ _ => 4
  | .amoMax _ _ _ _ _ _ _ => 4
  | .amoMinu _ _ _ _ _ _ _ => 4
  | .amoMaxu _ _ _ _ _ _ _ => 4
  | .cas _ _ _ _ _ _ _ => 4
  | .redo _ _ _ _ _ _ => 4
  | .reda _ _ _ _ _ => 4
  | .redr _ _ _ _ => 4
  | .redc _ _ _ _ => 4
  | .jinit _ _ _ _ _ => 4
  | .join _ _ _ _ _ => 4
  | .fence _ _ _ => 4
  | .flush _ _ _ _ => 4
  | .cinv _ _ _ _ => 4
  | .wait _ _ _ _ => 4
  | .pref _ _ _ _ _ => 4
  | .vrecl _ _ _ _ => 4
  | .tagr _ _ _ => 4
  | .tagw _ _ _ _ => 4
  | .mcast _ _ _ _ _ => 4
  | .spawn _ _ _ _ => 4
  | .launch _ _ _ => 4
  | .yield => 4
  | .prio _ _ _ => 4
  | .sendm _ _ _ _ => 4
  | .recv _ _ _ => 4
  | .peek _ => 4
  | .reply _ _ => 4
  | .hstart _ _ _ _ _ => 4
  | .hhalt _ _ => 4
  | .hhaltRetain _ _ _ _ => 4
  | .hwait _ _ _ => 4
  | .crew _ _ _ _ => 4
  | .crewx _ => 4
  | .bar _ _ _ _ => 4
  | .qbind _ _ _ _ _ => 4
  | .qfree _ => 4
  | .qctlPop _ _ => 4
  | .qctlPush _ _ _ => 4
  | .qctlPushc _ _ _ => 4
  | .qctlFlush _ => 4
  | .qstat _ _ => 4
  | .qhnd _ _ => 4
  | .qret => 4
  | .vclaim _ _ _ => 4
  | .vreneg _ _ _ => 4
  | .vrel => 4
  | .pcnt _ _ => 4
  | .pwhile _ _ _ _ _ _ => 4
  | .pmin _ _ _ _ => 4
  | .vld _ _ _ _ _ => 4
  | .vst _ _ _ _ _ => 4
  | .vldf _ _ _ _ _ => 4
  | .vlds _ _ _ _ _ _ _ => 4
  | .vsts _ _ _ _ _ _ _ => 4
  | .vgth _ _ _ _ _ _ => 4
  | .vsct _ _ _ _ _ _ => 4
  | .vadd _ _ _ _ _ _ => 4
  | .vsub _ _ _ _ _ _ => 4
  | .vmul _ _ _ _ _ _ => 4
  | .vdiv _ _ _ _ _ _ => 4
  | .vmin _ _ _ _ _ _ => 4
  | .vmax _ _ _ _ _ _ => 4
  | .vabsd _ _ _ _ _ _ => 4
  | .vmulh _ _ _ _ _ _ => 4
  | .vfma _ _ _ _ _ _ => 4
  | .vfms _ _ _ _ _ _ => 4
  | .vcvt _ _ _ _ _ _ => 4
  | .vabs _ _ _ _ _ => 4
  | .vneg _ _ _ _ _ => 4
  | .vsqrt _ _ _ _ _ => 4
  | .vrcp _ _ _ _ _ => 4
  | .vrsq _ _ _ _ _ => 4
  | .vexp _ _ _ _ _ => 4
  | .vlog _ _ _ _ _ => 4
  | .vsin _ _ _ _ _ => 4
  | .vcos _ _ _ _ _ => 4
  | .vtanh _ _ _ _ _ => 4
  | .vand _ _ _ _ _ _ => 4
  | .vor _ _ _ _ _ _ => 4
  | .vxor _ _ _ _ _ _ => 4
  | .vandn _ _ _ _ _ _ => 4
  | .vshl _ _ _ _ _ _ => 4
  | .vshr _ _ _ _ _ _ => 4
  | .vsar _ _ _ _ _ _ => 4
  | .vcmp _ _ _ _ _ _ => 4
  | .vsel _ _ _ _ _ _ => 4
  | .vsum _ _ _ _ _ => 4
  | .vrmax _ _ _ _ _ => 4
  | .vrmin _ _ _ _ _ => 4
  | .vscan _ _ _ _ _ => 4
  | .vperm _ _ _ _ _ _ => 4
  | .vbc _ _ _ _ _ _ => 4
  | .vext _ _ _ _ _ => 4
  | .vins _ _ _ _ _ _ => 4
  | .viota _ _ _ _ => 4
  | .vmov _ _ _ _ _ => 4
  | .vqmovPop _ _ _ _ _ => 4
  | .vqmovPush _ _ _ _ _ => 4
  | .vmrg _ _ _ _ _ _ => 4
  | .mma _ _ _ _ => 4
  | .mmaz _ _ _ _ => 4
  | .mbs _ _ _ _ => 4
  | .mbsz _ _ _ _ => 4
  | .msp _ _ _ _ => 4
  | .mpre _ _ _ => 4
  | .mpinv _ _ => 4
  | .mld _ _ _ _ _ _ => 4
  | .mst _ _ _ _ _ _ => 4
  | .mzero _ => 4
  | .mrd _ _ _ _ => 4
  | .mstFill _ _ _ _ _ _ => 4
  | .mstVnx _ _ _ _ _ _ => 4
  | .mstVset _ _ _ _ _ _ => 4
  | .mcmd _ _ _ _ _ => 4
  | .mqry _ _ _ => 4
  | .hacc _ _ _ _ _ => 4
  | .hdrn _ _ _ _ _ => 4
  | .sbnd _ _ _ _ => 4
  | .carry _ _ _ _ _ => 4
  | .survBind _ _ _ _ _ => 4
  | .survUnbind _ _ => 4
  | .survStart _ _ => 4
  | .survStop _ _ => 4
  | .tmld _ _ _ => 4
  | .tmset _ _ _ _ => 4
  | .tmget _ _ _ => 4
  | .cpy _ _ _ => 4
  | .cpyg _ _ _ _ _ => 4
  | .cpys _ _ _ _ _ => 4
  | .cpyq _ _ _ => 4
  | .cpyf _ _ _ _ _ _ => 4
  | .srd _ _ => 4
  | .swr _ _ _ => 4
  | .trap _ => 4
  | .capMint => 4
  | .capNewGeneration => 4
  | .xret => 4
  | .brk _ => 4
  | .nop => 4
  | .synci => 4
  | .ptinv _ _ _ _ => 4
  | .atset _ _ _ _ => 4
  | .atsync _ => 4
  | .migr _ _ _ _ _ => 4
  | .gstop _ _ _ => 4
  | .svFetch _ _ _ => 2
  | .svEmit _ _ _ => 2
  | .add _ _ _ _ _ => 4
  | .sub _ _ _ _ _ => 4
  | .and _ _ _ _ _ => 4
  | .or _ _ _ _ _ => 4
  | .xor _ _ _ _ _ => 4
  | .andn _ _ _ _ _ => 4
  | .shl _ _ _ _ _ => 4
  | .shr _ _ _ _ _ => 4
  | .sar _ _ _ _ _ => 4
  | .rot _ _ _ _ _ => 4
  | .min _ _ _ _ _ => 4
  | .max _ _ _ _ _ => 4
  | .minu _ _ _ _ _ => 4
  | .maxu _ _ _ _ _ => 4
  | .slt _ _ _ _ _ => 4
  | .sltu _ _ _ _ _ => 4
  | .sel _ _ _ _ _ => 4
  | .mov _ _ _ => 4
  | .clz _ _ _ => 4
  | .ctz _ _ _ => 4
  | .popc _ _ _ => 4
  | .brev _ _ _ => 4
  | .bswp _ _ _ => 4
  | .addW _ _ _ _ _ => 4
  | .subW _ _ _ _ _ => 4
  | .andW _ _ _ _ _ => 4
  | .orW _ _ _ _ _ => 4
  | .xorW _ _ _ _ _ => 4
  | .andnW _ _ _ _ _ => 4
  | .shlW _ _ _ _ _ => 4
  | .shrW _ _ _ _ _ => 4
  | .sarW _ _ _ _ _ => 4
  | .rotW _ _ _ _ _ => 4
  | .minW _ _ _ _ _ => 4
  | .maxW _ _ _ _ _ => 4
  | .minuW _ _ _ _ _ => 4
  | .maxuW _ _ _ _ _ => 4
  | .sltW _ _ _ _ _ => 4
  | .sltuW _ _ _ _ _ => 4
  | .clzW _ _ _ => 4
  | .ctzW _ _ _ => 4
  | .popcW _ _ _ => 4
  | .addImm _ _ _ _ => 4
  | .andImm _ _ _ _ => 4
  | .orImm _ _ _ _ => 4
  | .xorImm _ _ _ _ => 4
  | .shlImm _ _ _ _ => 4
  | .shrImm _ _ _ _ => 4
  | .sarImm _ _ _ _ => 4
  | .rotImm _ _ _ _ => 4
  | .sltImm _ _ _ _ => 4
  | .sltuImm _ _ _ _ => 4
  | .minImm _ _ _ _ => 4
  | .maxImm _ _ _ _ => 4
  | .addWImm _ _ _ _ => 4
  | .li _ _ => 4
  | .lih _ _ _ => 4
  | .bfx _ _ _ _ _ => 4
  | .bfxs _ _ _ _ _ => 4
  | .bfxs64 _ _ _ _ => 4
  | .bfi _ _ _ _ _ => 4
  | .bfxReg _ _ _ _ _ => 4
  | .bfxsReg _ _ _ _ _ => 4
  | .bfiReg _ _ _ _ _ => 4
  | .mul _ _ _ _ _ => 4
  | .mulh _ _ _ _ _ => 4
  | .mulhu _ _ _ _ _ => 4
  | .div _ _ _ _ _ => 4
  | .divu _ _ _ _ _ => 4
  | .rem _ _ _ _ _ => 4
  | .remu _ _ _ _ _ => 4
  | .mulW _ _ _ _ _ => 4
  | .mulhW _ _ _ _ _ => 4
  | .mulhuW _ _ _ _ _ => 4
  | .divW _ _ _ _ _ => 4
  | .divuW _ _ _ _ _ => 4
  | .remW _ _ _ _ _ => 4
  | .remuW _ _ _ _ _ => 4
  | .cAdd _ _ _ => 2
  | .cAddi _ _ => 2
  | .cMov _ _ _ => 2
  | .cLi _ _ => 2
  | .cLd _ _ _ _ => 2
  | .cSt _ _ _ _ _ => 2
  | .cBz _ _ _ => 2
  | .cBnz _ _ _ => 2
  | .cJ _ => 2
  | .cSub _ _ _ => 2
  | .cAnd _ _ _ => 2
  | .cOr _ _ _ => 2
  | .cXor _ _ _ => 2
  | .cShl _ _ _ => 2
  | .cShr _ _ _ => 2
  | .cWait _ => 2
  | .cRecv _ => 2
  | .cJr _ _ => 2
  | .cPadd _ _ _ => 2
  | .cNop => 2
  | .cYield => 2
  | .cHhalt => 2
  | .claimGrant _ => 0
  | .lsplitWrite _ _ => 0
  | .vgroupWrite _ _ => 0
  | .homeAccept _ => 0
  | .retryReplay _ => 0
  | .loadDataReturn _ _ => 0
  | .storeAck _ => 0
  | .releaseSend _ => 0
  | .barComplete _ _ => 0
  | .messageArrival _ => 0
  | .messageReplay _ => 0
  | .handlerStart _ => 0
  | .resumeMessage _ => 0
  | .stopMessage _ => 0
  | .forwardRequest _ => 0
  | .forwardExpire _ _ => 0
  | .registerPreempt _ _ => 0
  | .registerGrant _ => 0
  | .engineCommandAccept _ => 0
  | .engineCommandStart _ => 0
  | .engineCommandComplete _ => 0
  | .engineCommandMigrate _ _ => 0
  | .engraveStart _ => 0
  | .engraveComplete _ => 0
  | .copyStart _ => 0
  | .copyComplete _ => 0
  | .copyqResume _ => 0
  | .surveyorRun _ _ => 0
  | .surveyorGatherReturn _ _ => 0
  | .memoryStreamRead _ _ _ => 0
  | .launchDistribute => 0
  | .launchEntryPlace _ => 0
  | .dispatch _ => 0
  | .placementDecision _ => 0
  | .heldTaskResume _ => 0
  | .spillRefill _ => 0
  | .spillOfferRetry _ => 0
  | .queueAgeing _ => 0
  | .pressureSample _ => 0
  | .contourStep _ => 0
  | .crewGrant _ => 0
  | .crewTarget _ => 0
  | .crewSwap _ => 0
  | .crewRestore _ => 0
  | .heatSweep _ => 0
  | .memoryDoubleUpset _ => 0
  | .dieLost _ => 0
  | .routerCycle _ _ => 0
  | .linkDead _ _ => 0
  | .drainWrite _ => 0
  | .fabricTimedReplay _ => 0
  | .fabricTransit _ => 0
  | .lossPacket _ _ => 0
  | .timeExchange _ _ _ => 0
  | .flitArrival _ _ => 0
  | .linkNakResend _ _ => 0
  | .sendWindowDoubleUpset _ _ => 0
  | .replayNotice _ => 0
  | .portDown _ => 0
  | .orteWrite _ _ => 0
  | .oparkWrite _ _ => 0
  | .oheatWrite _ _ => 0
  | .oasgnWrite _ _ => 0
  | .opticalWakeTrigger _ => 0
  | .ringSettleDone _ => 0
  | .ringLocked _ => 0
  | .ringLockTimeout _ => 0
  | .ringDeskewDone _ => 0
  | .stripeWiden _ => 0
  | .monitorSample _ => 0
  | .parkFlit _ _ => 0
  | .wakeFlit _ _ => 0
  | .lockReport _ => 0
  | .hostLaunchWrite _ _ => 0
  | .hostCommandWrite _ _ => 0
  | .hostQueueDeliver _ => 0
  | .hqsizeWrite _ _ => 0
  | .hqheadWrite _ _ => 0
  | .hqbaseWrite _ _ => 0
  | .powerGood _ _ _ => 0
  | .thermalThrottle => 0
  | .thermalTrip => 0
  | .d3hotRequest => 0
  | .getVersion _ => 0
  | .getCapabilities _ => 0
  | .negotiateAlgorithms _ => 0
  | .getDigests _ => 0
  | .getCertificate _ => 0
  | .challenge _ => 0
  | .getMeasurements _ => 0
  | .keyExchange _ => 0
  | .finish _ => 0
  | .create _ => 0
  | .destroy _ => 0
  | .setKey _ => 0
  | .setPkg _ => 0
  | .log _ => 0
  | .route _ => 0
  | .packageLoss _ => 0
  | .illegalEncoding _ _ => 0
  | .fetchFault _ _ => 0
  | .vendorDefinedRequest _ => 0

/-- The halfwords of an instruction, in ascending address order; none for an event. -/
def encode (i : Instr) : List (BitVec 16) :=
  match i.length with
  | 2 => [BitVec.ofNat 16 i.encodeNat]
  | 4 => [BitVec.ofNat 16 (i.encodeNat / 65536), BitVec.ofNat 16 i.encodeNat]
  | _ => []

/-- The encoding, zero-extended, as FADDR holds it for ILLEGAL and PRIV (R77). -/
def Instr.encoding (i : Instr) : Word := wordOf i.encodeNat

/-- The instruction the decoder reads from the bits w of a row of spec/opcode_table.json: a 32-bit row's bits [31:16]
are the first halfword; a shorter row is its first halfword with zeros above. -/
def decodeTableWord (nbits w : Nat) : Option Instr :=
  let hs : List (BitVec 16) :=
    if nbits ≤ 16 then [BitVec.ofNat 16 w, 0] else [BitVec.ofNat 16 (w / 65536), BitVec.ofNat 16 w]
  match decode hs with
  | .ok (i, _) => some i
  | .error _ => none

end

end Sys2Proof
end

