-- ==== Sys2Proof/Machine/Crypto.lean ====
section
/-! DEFINITION. The published algorithms that 25_package.md R468 to R470 name: SHAKE256 (FIPS 202), KMAC256 (NIST SP
800-185), AES-256 (FIPS 197) and XTS-AES-256 decryption (IEEE 1619). -/

namespace Sys2Proof.Machine

/-! ### Keccak -/

/-- The round constants of Keccak-f[1600]. -/
def keccakRounds : List Word :=
  [0x1, 0x8082, 0x800000000000808A, 0x8000000080008000, 0x808B, 0x80000001, 0x8000000080008081, 0x8000000000008009,
   0x8A, 0x88, 0x80008009, 0x8000000A, 0x8000808B, 0x800000000000008B, 0x8000000000008089, 0x8000000000008003,
   0x8000000000008002, 0x8000000000000080, 0x800A, 0x800000008000000A, 0x8000000080008081, 0x8000000000008080,
   0x80000001, 0x8000000080008008]

/-- The rotation of lane (x, y), listed by x + 5y. -/
def keccakRotations : List Nat :=
  [0, 1, 62, 28, 27, 36, 44, 6, 55, 20, 3, 10, 43, 25, 39, 41, 45, 15, 21, 8, 18, 2, 61, 56, 14]

/-- One round on the 25 lanes, listed by x + 5y. -/
def keccakRound (a : List Word) (rc : Word) : List Word :=
  let at_ (l : List Word) (i : Nat) : Word := l.getD i 0
  let c := (List.range 5).map fun x =>
    at_ a x ^^^ at_ a (x + 5) ^^^ at_ a (x + 10) ^^^ at_ a (x + 15) ^^^ at_ a (x + 20)
  let d := (List.range 5).map fun x => at_ c ((x + 4) % 5) ^^^ (at_ c ((x + 1) % 5)).rotateLeft 1
  let t := (List.range 25).map fun i => (at_ a i ^^^ at_ d (i % 5)).rotateLeft (keccakRotations.getD i 0)
  -- lane (x, y) moves to (y, 2x + 3y)
  let b := (List.range 25).map fun i =>
    let x' := i % 5
    let y' := i / 5
    at_ t ((x' + 3 * y') % 5 + 5 * x')
  let e := (List.range 25).map fun i =>
    let row := i / 5 * 5
    at_ b i ^^^ (~~~(at_ b (row + (i + 1) % 5)) &&& at_ b (row + (i + 2) % 5))
  match e with
  | h :: rest => (h ^^^ rc) :: rest
  | [] => []

/-- Keccak-f[1600]. -/
def keccakF (a : List Word) : List Word := keccakRounds.foldl keccakRound a

/-- A lane of a block: 8 bytes, least significant first. -/
def keccakLane (block : List Byte) (i : Nat) : Word :=
  wordOf ((List.range 8).foldl (fun n k => n + ((block.drop (8 * i)).getD k 0).toNat * 256 ^ k) 0)

/-- Absorbing padded input, a block of 136 bytes at a time. -/
def keccakAbsorb (st : List Word) (input : List Byte) : Nat → List Word
  | 0 => st
  | n + 1 =>
    let block := input.take 136
    let mixed := (List.range 25).map fun i => if i < 17 then st.getD i 0 ^^^ keccakLane block i else st.getD i 0
    keccakAbsorb (keccakF mixed) (input.drop 136) n

/-- Squeezing n blocks. -/
def keccakSqueeze (st : List Word) : Nat → List Byte
  | 0 => []
  | n + 1 =>
    ((List.range 136).map fun i => BitVec.ofNat 8 ((st.getD (i / 8) 0).toNat / 256 ^ (i % 8)))
      ++ keccakSqueeze (keccakF st) n

/-- A sponge of rate 136 bytes: the input, the first padding byte, and the number of output bytes. -/
def sponge (input : List Byte) (pad : Byte) (out : Nat) : List Byte :=
  let fill := 136 - input.length % 136
  let padding : List Byte := if fill = 1 then [pad ||| 0x80] else pad :: (List.replicate (fill - 2) 0 ++ [0x80])
  let padded := input ++ padding
  (keccakSqueeze (keccakAbsorb (List.replicate 25 0) padded (padded.length / 136)) (out / 136 + 1)).take out

/-- SHAKE256 with `out` bytes of output (FIPS 202). -/
def shake256 (input : List Byte) (out : Nat) : List Byte := sponge input 0x1F out

/-- The bytes of a number, most significant first, at least one. -/
def beBytes (n : Nat) : List Byte :=
  if n < 256 then [BitVec.ofNat 8 n]
  else if n < 65536 then [BitVec.ofNat 8 (n / 256), BitVec.ofNat 8 n]
  else [BitVec.ofNat 8 (n / 65536), BitVec.ofNat 8 (n / 256), BitVec.ofNat 8 n]

/-- left_encode, right_encode, encode_string and bytepad of NIST SP 800-185. -/
def leftEncode (n : Nat) : List Byte := BitVec.ofNat 8 (beBytes n).length :: beBytes n
def rightEncode (n : Nat) : List Byte := beBytes n ++ [BitVec.ofNat 8 (beBytes n).length]
def encodeString (s : List Byte) : List Byte := leftEncode (8 * s.length) ++ s
def bytepad (s : List Byte) (w : Nat) : List Byte :=
  let t := leftEncode w ++ s
  t ++ List.replicate ((w - t.length % w) % w) 0

/-- The bytes of a string of ASCII characters. -/
def ascii (s : String) : List Byte := s.toList.map (fun c => BitVec.ofNat 8 c.toNat)

/-- KMAC256(K, X, L, S) of NIST SP 800-185, with L = 8 × out bits. -/
def kmac256 (key input : List Byte) (out : Nat) (custom : List Byte) : List Byte :=
  sponge (bytepad (encodeString (ascii "KMAC") ++ encodeString custom) 136
    ++ bytepad (encodeString key) 136 ++ input ++ rightEncode (8 * out)) 0x04 out

/-! ### AES-256 -/

/-- Multiplication by x in GF(2^8). -/
def gfDouble (b : Byte) : Byte := if b.getLsbD 7 then (b <<< 1) ^^^ 0x1B else b <<< 1

/-- Multiplication in GF(2^8). -/
def gfMul (a b : Byte) : Byte :=
  ((List.range 8).foldl (fun (acc, p) i => (if b.getLsbD i then acc ^^^ p else acc, gfDouble p)) ((0 : Byte), a)).1

/-- The inverse in GF(2^8), the 254th power; 0 for 0. -/
def gfInv (a : Byte) : Byte :=
  ((List.range 7).foldl (fun (acc, p) _ => let q := gfMul p p; (gfMul acc q, q)) ((1 : Byte), a)).1

/-- The S-box of AES. -/
def subByte (a : Byte) : Byte :=
  let b := gfInv a
  b ^^^ b.rotateLeft 1 ^^^ b.rotateLeft 2 ^^^ b.rotateLeft 3 ^^^ b.rotateLeft 4 ^^^ 0x63

/-- The inverse S-box. -/
def invSubByte (a : Byte) : Byte :=
  gfInv (a.rotateLeft 1 ^^^ a.rotateLeft 3 ^^^ a.rotateLeft 6 ^^^ 0x05)

def xorBytes (a b : List Byte) : List Byte := List.zipWith (· ^^^ ·) a b

/-- The key schedule: 60 words of 4 bytes. -/
def aesSchedule (key : List Byte) : List (List Byte) :=
  let w0 := (List.range 8).map fun i => (key.drop (4 * i)).take 4
  (List.range 52).foldl (fun ws k =>
    let i := k + 8
    let prev := ws.getD (i - 1) []
    let t :=
      if i % 8 = 0 then
        let r := (prev.drop 1 ++ prev.take 1).map subByte
        xorBytes r [BitVec.ofNat 8 (2 ^ (i / 8 - 1)), 0, 0, 0]
      else if i % 8 = 4 then prev.map subByte
      else prev
    ws ++ [xorBytes (ws.getD (i - 8) []) t]) w0

/-- The round key of a round. -/
def roundKey (ws : List (List Byte)) (r : Nat) : List Byte := ((ws.drop (4 * r)).take 4).flatten

/-- A column times the circulant matrix with the given first row. -/
def mixColumn (m0 m1 m2 m3 : Byte) (c : List Byte) : List Byte :=
  (List.range 4).map fun i =>
    let a (k : Nat) := c.getD ((i + k) % 4) 0
    gfMul m0 (a 0) ^^^ gfMul m1 (a 1) ^^^ gfMul m2 (a 2) ^^^ gfMul m3 (a 3)

def mixColumns (m0 m1 m2 m3 : Byte) (s : List Byte) : List Byte :=
  (List.range 4).flatMap fun k => mixColumn m0 m1 m2 m3 ((s.drop (4 * k)).take 4)

/-- Row r of column c comes from column c + r. -/
def shiftRows (s : List Byte) : List Byte := (List.range 16).map fun i => s.getD ((i + 4 * (i % 4)) % 16) 0
def invShiftRows (s : List Byte) : List Byte := (List.range 16).map fun i => s.getD ((i + 12 * (i % 4)) % 16) 0

/-- AES-256 encryption of a block. -/
def aesEncrypt (key block : List Byte) : List Byte :=
  let ws := aesSchedule key
  let s := (List.range 13).foldl (fun s r =>
    xorBytes (mixColumns 2 3 1 1 (shiftRows (s.map subByte))) (roundKey ws (r + 1))) (xorBytes block (roundKey ws 0))
  xorBytes (shiftRows (s.map subByte)) (roundKey ws 14)

/-- AES-256 decryption of a block. -/
def aesDecrypt (key block : List Byte) : List Byte :=
  let ws := aesSchedule key
  let s := (List.range 13).foldl (fun s r =>
    mixColumns 14 11 13 9 (xorBytes ((invShiftRows s).map invSubByte) (roundKey ws (13 - r))))
    (xorBytes block (roundKey ws 14))
  xorBytes ((invShiftRows s).map invSubByte) (roundKey ws 0)

/-- The tweak times α: the block as a little-endian number, doubled modulo x^128 + x^7 + x^2 + x + 1. -/
def tweakNext (t : List Byte) : List Byte :=
  let n := t.foldr (fun b n => b.toNat + 256 * n) 0
  let d := n * 2 % 2 ^ 128 ^^^ (if n < 2 ^ 127 then 0 else 0x87)
  (List.range 16).map fun i => BitVec.ofNat 8 (d / 256 ^ i)

/-- XTS-AES-256 decryption of whole blocks under a tweak (IEEE 1619). -/
def xtsBlocks (key1 : List Byte) (tweak data : List Byte) : Nat → List Byte
  | 0 => []
  | n + 1 =>
    xorBytes (aesDecrypt key1 (xorBytes (data.take 16) tweak)) tweak
      ++ xtsBlocks key1 (tweakNext tweak) (data.drop 16) n

/-- XTS-AES-256 decryption of a 512-byte data unit with its sequence number. -/
def xtsDecrypt (key1 key2 : List Byte) (seq : Nat) (data : List Byte) : List Byte :=
  let t := aesEncrypt key2 ((List.range 16).map fun i => BitVec.ofNat 8 (seq / 256 ^ i))
  xtsBlocks key1 t data (data.length / 16)

end Sys2Proof.Machine
end

