-- ==== Sys2Proof/Config.lean ====
section
/-! DEFINITION. What this manual leaves open: opaque constants that nothing can evaluate (a free value is one of them
applied to the counter of State, or to the operands it depends on), and the few plain values the model chooses, each
named in the assumption log. -/

namespace Sys2Proof

/-- A free value: applied to the counter `State.choice` and to a slot number that tells apart the free values of one
step (00_scope.md R9, log 7). -/
opaque Config.choice : Nat → Nat → Nat

/-- The set of an L2 slice that a line of a partition falls into (15_memory_map.md R351 gives the ways and no set function; log 79). -/
opaque Config.sliceSet : Nat → Nat → Nat

/-- The set of a core's cache portion of CW units that a virtual line falls into (15_memory_map.md R348; log 79). -/
opaque Config.nearSet : Nat → Nat → Nat

/-- Which core of its tile keeps the victim-pool copy of a virtual line (15_memory_map.md R349: chosen by the line address; log 79). -/
opaque Config.poolCore : Nat → Nat

/-- The bits of a transcendental result (02_numbers.md R60, 07_vector_instr.md R195): operation, type code and operand.
The model keeps R60's bound with it (log 8). -/
opaque Config.transcendental : Nat → Nat → Nat → Nat

/-- The heater code H* at which a ring sits on its wavelength: ring, wavelength, and the moment (23_program_optics.md
R437 gives none; log 9). -/
opaque Config.resonance : Nat → Nat → Nat → Nat

/-- Random bytes of the root of trust (25_package.md R470, R471): the moment, a slot, and the byte's index (log 9). -/
opaque Config.random : Nat → Nat → Nat → BitVec 8

/-- The certificate chain of the device's identity key (25_package.md R471 gives none; log 9). -/
opaque Config.certificates : List (BitVec 8)

/-- A signature of XMSS-SHAKE256_20_256 under the identity key: the state index and the message (25_package.md R471;
the key is the device's own; log 9). -/
opaque Config.xmssSign : Nat → List (BitVec 8) → List (BitVec 8)

/-- The key exchange of an SPDM session: the random value and the requester's share give the responder's share and the
shared secret (25_package.md R471 names no group; log 9). -/
opaque Config.keyExchange : List (BitVec 8) → List (BitVec 8) → List (BitVec 8) × List (BitVec 8)

/-- The requester's verify data that FINISH must carry: the shared secret and the transcript (25_package.md R471). -/
opaque Config.finishMac : List (BitVec 8) → List (BitVec 8) → List (BitVec 8)

/-- The 2-byte vendor ID that the PCIe configuration space reports (25_package.md R472; log 9). -/
opaque Config.vendorId : BitVec 16

/-- The entry of a router's productive-direction table for hub and I/O node 4,096 + n as bring-up loads it (24_fabric.md R459,
25_package.md R477 give no values; log 21). -/
opaque Config.nodeEntry : Nat → Nat → BitVec 4

/-- The router of its die, by number, that a hub or I/O node is attached to (24_fabric.md R457 gives none; log 21). -/
opaque Config.nodeRouter : Nat → Nat

/-- The physical address in firmware memory at which the service cores start (25_package.md R481: fixed in the firmware
image, which this manual does not give). DESIGN CHOICE, unsafe: 0 (log 3). -/
def Config.firmwareEntry : Word := 0

end Sys2Proof
end

