-- ==== Sys2Proof/Machine/State.lean ====
section
/-! DEFINITION. The state of the whole package as plain data, its reset value, and the reasons a step can stop.
Tables over the units of the package (cores, tiles, partitions, ports, rings, routers) are lists of pairs in ascending
key order; a unit that is not listed stands in the state `reset` gives it. -/

namespace Sys2Proof.Machine

/-- Why the machine stops with a fault. No instruction of a correct run raises one. -/
inductive Fault where
  /-- The package is held in reset or stopped (25_package.md R477, R478): raised by step only. Safe: nothing runs. -/
  | stopped
  deriving DecidableEq, Repr

/-- Why an instruction has no meaning. -/
inductive Refusal where
  /-- The instruction of this mnemonic is not modelled yet: raised by arms of exec only. Safe. -/
  | notModelled (mnemonic : String)
  deriving DecidableEq, Repr

/-- A table from unit numbers to their states, in ascending order of the number. -/
abbrev Table (α : Type) := List (Nat × α)

/-- The trap causes of 10_system_instr.md R275. -/
inductive Cause where
  | illegal | priv | deadreg | ptrovf | address | format | page | verovr | layout | hovf | bound | brk | step | trap
  deriving DecidableEq, Repr

/-- Where a context stands (22_faults.md R419, CSTATE): `free` when no context is live there. -/
inductive RunState where
  | free | ready | faulted | preempted | swapped | migrating | gangStopped
  deriving DecidableEq, Repr

/-- What a ready context waits for. -/
inductive Wait where
  /-- Nothing: it may issue. -/
  | none
  /-- Its instruction executes again from the start when the core turns to it. -/
  | retry
  /-- YIELD (06_task_instr.md R157): skipped at the next issue slot in which another context is ready. -/
  | yielded
  /-- A blocking request at its home (05_memory_instr.md R120). -/
  | request (rid : Nat)
  /-- A physical register (01_assembly.md R30). -/
  | register
  /-- A lane claim in the claim queue (07_vector_instr.md R187). -/
  | claim
  /-- A barrier at which it has arrived (06_task_instr.md R171). -/
  | barrier
  deriving DecidableEq, Repr

/-- The 64-byte message of 06_task_instr.md R149: the header and seven payload doublewords. -/
structure Message where
  header : Word := 0
  arg0 : Word := 0
  arg1 : Word := 0
  arg2 : Word := 0
  arg3 : Word := 0
  arg4 : Word := 0
  arg5 : Word := 0
  arg6 : Word := 0
  /-- in an inbox: the GTC of its arrival and its source number, for the order of 00_scope.md R12 -/
  came : Word := 0
  sender : Nat := 0
  deriving DecidableEq, Repr, Inhabited

/-- An entry of a channel: 64 data bits and the control mark (06_task_instr.md R172); a surveyor's gather reserves its
entry before its data is there (18_sparse.md R387). -/
structure Entry where
  control : Bool := false
  data : Word := 0
  /-- the gather still to be read, as a fat pointer -/
  reserved : Option Word := none
  deriving DecidableEq, Repr, Inhabited

/-- A bound channel register (06_task_instr.md R172, R173). -/
structure Channel where
  kind : BitVec 3
  dir : BitVec 2 := 0
  /-- the rs2 operand of QBIND -/
  operand : Word := 0
  entries : List Entry := []
  /-- a memory stream: its pointer, its count, and the doublewords delivered -/
  pointer : Word := 0
  count : Nat := 0
  delivered : Nat := 0
  /-- a memory stream: its closing control value has been delivered -/
  closed : Bool := false
  deriving DecidableEq, Repr, Inhabited

/-- A lane claim (07_vector_instr.md R182 to R188): grant, request, floor, k1 to k3, v0 to v15 of g lanes, and the lane-group in which
each of its units stands: fewer than g/16 of them once the pool has taken some while the context is stopped, none while the claim waits to
be restored. -/
structure Claim where
  g : Nat
  req : Nat
  floor : Nat
  k1 : Nat
  k2 : Nat
  k3 : Nat
  v : Vector (List Lane) 16
  groups : List Nat := []
  deriving DecidableEq, Repr

/-- A load that returned no value (16_ordering.md R373, 22_faults.md R428): its address, the REASON of the PAGE trap that a read of the
destination takes, and the REASON and sequence number of the KIND 3 report that a discarded lost load gives. -/
structure LostLoad where
  address : Word
  page : Nat
  why : Nat := 0
  seq : Nat := 0
  deriving DecidableEq, Repr

/-- What a context runs (12_execution.md R295). -/
inductive Role where
  | none | control | task | root (launch die : Nat) | member (crew : Nat) | handler | hstart
  deriving DecidableEq, Repr

/-- Four counters, one for each outstanding-operation class or acknowledgement counter (03_encoding.md R94). -/
structure Four where
  c0 : Nat := 0
  c1 : Nat := 0
  c2 : Nat := 0
  c3 : Nat := 0
  deriving DecidableEq, Repr, Inhabited

/-- A context of a core: context 0 is the control context, 1 to 10 the helpers. -/
structure Ctx where
  run : RunState := .free
  wait : Wait := .none
  /-- the stop that a gang stop was laid upon (22_faults.md R434) -/
  under : RunState := .ready
  pc : Word := 0
  regs : Vector Word 32 := Vector.replicate 32 0
  /-- bit i: gi is live (01_assembly.md R27) -/
  live : BitVec 32 := 0
  /-- every value a scalar register of this context has held, for dead reads (01_assembly.md R27) -/
  past : List Word := []
  trapShadow : Vector Word 4 := Vector.replicate 4 0
  lightShadow : Vector Word 4 := Vector.replicate 4 0
  /-- 10_system_instr.md R270: LUT and SAT8 are 1 at reset -/
  status : Word := 0x180
  cause : Word := 0
  faddr : Word := 0
  xpc : Word := 0
  fpflags : Word := 0
  dext : Word := 0xFFFF000FFF000000
  taskix : Word := 0
  launchix : Word := 0
  hprog : Word := 0
  mrgst : Word := 0
  ctlw : Word := 0
  prio : BitVec 3 := 0
  /-- QHND address, the instruction kept for QRET, and whether the light handler runs (06_task_instr.md R177) -/
  lightAddr : Word := 0
  lightKept : Word := 0
  inLight : Bool := false
  role : Role := .none
  joinPtr : Word := 0
  /-- REPLY's target (06_task_instr.md R165): package, core, context -/
  replyTo : Option (Nat × Nat × Nat) := none
  outstanding : Four := {}
  acks : Four := {}
  /-- the lost mark of each acknowledgement counter (05_memory_instr.md R134) -/
  lost : BitVec 4 := 0
  opNumber : BitVec 16 := 0
  claim : Option Claim := none
  /-- when the context stopped, for the order of R188; 0 while it runs -/
  stopOrder : Nat := 0
  /-- the lanes of the VMRG type at which the context stopped (07_vector_instr.md R188): 1 or 2, 0 for no VMRG -/
  stopMerge : Nat := 0
  /-- the VMRG that has paused last: its address, and its lanes per element (07_vector_instr.md R188, R207) -/
  mergeAt : Option (Word × Nat) := none
  channels : Table Channel := []
  maps : Vector (Vector Word 8) 8 := Vector.replicate 8 (Vector.replicate 8 0)
  pend : Word := 0
  /-- MODEL: what its save area held, at its offsets, of the fields that a supervisor may not change (22_faults.md R420) -/
  savedOwn : Table Word := []
  /-- the level and XPL at which the context stopped (22_faults.md R420) -/
  stopLevel : Nat := 0
  stopXpl : Nat := 0
  /-- destinations of loads that returned no value (16_ordering.md R373, 22_faults.md R428): a scalar place, or 64 + v for a vector
  register -/
  lostLoads : Table LostLoad := []
  /-- a gang stop or a migration that waits until the context is below level 2 or can be saved (22_faults.md R420, R480) -/
  pendingStop : Option RunState := none
  /-- the physical registers set aside for the waiting instruction at which the context stands (01_assembly.md R30) -/
  reserve : Nat := 0
  /-- the light handler was entered inside a trap handler: its g28 to g31 are the light shadow registers (06_task_instr.md R177) -/
  lightNested : Bool := false
  deriving DecidableEq, Repr

/-- A helper waiting for shared physical registers (01_assembly.md R30, R31). -/
structure Waiter where
  ctx : Nat
  preempted : Bool
  need : Nat
  /-- the cycle in which it stalled (01_assembly.md R31) -/
  since : Nat := 0
  deriving DecidableEq, Repr

/-- The kind of an engine command (08_matrix_instr.md R215, R216). -/
inductive CmdKind where
  | mma | mbs | msp | mld | mst | mzero | mpre
  deriving DecidableEq, Repr

/-- What kind of entry the plate cache holds (08_matrix_instr.md R233). -/
inductive PlateKind where
  | plate | empty | dense
  deriving DecidableEq, Repr

/-- A plate-cache entry (18_sparse.md R384, R385): identity, kind, L, NNZ and the pattern it was built from. -/
structure Plate where
  /-- MODEL: tells apart the entries that an identity has had (18_sparse.md R384) -/
  id : Nat := 0
  part : Nat
  address : Nat
  version : BitVec 7
  kind : PlateKind
  l : Nat
  nnz : Nat
  bitmap : Vector Word 64
  doomed : Bool := false
  used : Nat := 0
  deriving DecidableEq, Repr

/-- An engine command: a command block for MMA, MBS, MSP; pointer and stride for MLD and MST. -/
structure Command where
  id : Nat
  kind : CmdKind
  /-- the engine it was sent to, and the context that issued it -/
  target : Nat
  issuer : Nat
  issuerCtx : Nat
  part : Nat
  opNumber : BitVec 16
  block : Vector Word 8 := Vector.replicate 8 0
  zero : Bool := false
  patch : Nat := 0
  pointer : Word := 0
  stride : Nat := 0
  /-- the tag effect of MST: 0 none, 1 fill, 2 vnx, 3 vset -/
  tagEffect : Nat := 0
  version : BitVec 7 := 0
  sat8 : Bool := true
  level : Nat := 0
  viaMcmd : Bool := false
  moved : Bool := false
  /-- for MSP and MPRE: the version read by the identity step (08_matrix_instr.md R231) -/
  plateVersion : Option (BitVec 7) := none
  /-- for MSP: the plate-cache entry it uses (18_sparse.md R384) -/
  plate : Option Plate := none
  /-- for MSP and MPRE: how the engraver failed it (18_sparse.md R383): code, cause, address -/
  plateFailed : Option (Nat × Nat × Word) := none
  /-- acknowledgement counter of an MCMD not yet accepted -/
  counter : Option Nat := none
  /-- every step is applied and the stores for another package are on their way: the flags raised -/
  finished : Option Nat := none
  deriving DecidableEq, Repr

/-- A slice that an engine has forwarded (08_matrix_instr.md R223): its elements by row of A or column of B, or the mark of poison. -/
structure Slice where
  elements : List (List Nat)
  bad : Bool := false
  deriving DecidableEq, Repr

/-- A stream that an engine forwards (08_matrix_instr.md R223): its sender's K and format, and the slices that its receiver has still to
take. -/
structure EngineStream where
  k : Nat
  fmt : Nat
  slices : List Slice := []
  /-- its sender sends no more slices -/
  ended : Bool := false
  /-- its receiver has ended: what still comes is discarded -/
  dropped : Bool := false
  deriving DecidableEq, Repr

/-- The streams of one direction, oldest first. -/
structure Inlet where
  streams : List EngineStream := []
  /-- streams still to come whose receivers have ended without them -/
  skip : Nat := 0
  deriving DecidableEq, Repr

/-- How far the running command of an engine has come (08_matrix_instr.md R222 to R225). -/
structure EngineRun where
  /-- the format code of A, the k of a slice, and the number of slices -/
  fmt : Nat := 0
  k : Nat := 1
  steps : Nat := 0
  /-- no slice is applied: an empty plate that only forwards (R231) -/
  idle : Bool := false
  /-- a stream of another K or format: it is taken whole and ends the command (R223) -/
  wrong : Bool := false
  step : Nat := 0
  acc : List (List Nat) := []
  flags : BitVec 6 := 0
  /-- the elements that the fetch unit has read and no slice has used yet, by number: A's even, B's odd -/
  ahead : Table Nat := []
  /-- the lines that the fetch unit pins, by space and number (R224) -/
  pins : List Nat := []
  /-- the elements of the output that are stored already -/
  written : Option (List Nat) := none
  deriving DecidableEq, Repr

/-- The matrix engine of a core (08_matrix_instr.md R218, R223, R224). -/
structure Engine where
  /-- accepted commands, oldest first -/
  queue : List Command := []
  running : Option Command := none
  run : Option EngineRun := none
  aIn : Inlet := {}
  bIn : Inlet := {}
  deriving DecidableEq, Repr

/-- An index line that a surveyor has read ahead of its run: its 64 bytes, or the completion code and arguments of the fault that it met
(08_matrix_instr.md R243, 18_sparse.md R386). -/
inductive IndexLine where
  | bytes (b : List Byte)
  | failed (code : Nat) (args : List Word)
  deriving DecidableEq, Repr

/-- A surveyor stream (08_matrix_instr.md R241 to R243). -/
structure Stream where
  ctx : Nat
  kernel : List (BitVec 16)
  pointer : Word
  lines : Nat
  base : Word
  /-- the level of the context that bound it: that of its loads -/
  level : Nat := 0
  /-- a0 to a7 -/
  regs : Vector Word 8 := Vector.replicate 8 0
  started : Bool := false
  ended : Bool := false
  nextLine : Nat := 0
  /-- a run in progress: the halfword index, the instructions executed, and the 64 bytes of its line -/
  at_ : Option (Nat × Nat) := none
  line : List Byte := []
  /-- the index lines that have arrived, from nextLine on (18_sparse.md R386) -/
  ahead : List IndexLine := []
  queue : List Entry := []
  deriving DecidableEq, Repr

/-- A forwarding entry of a live migration (22_faults.md R427). -/
structure Forward where
  helper : Nat
  banks : BitVec 32
  toCore : Nat
  toHelper : Nat
  /-- the cycle of its last forward, or of its installation -/
  since : Nat := 0
  deriving DecidableEq, Repr

/-- A V-copy: a line of an L2 slice tagged by partition and virtual line (15_memory_map.md R338); `part` is the partition number, plus 16 for
a line that the secure world filled (25_package.md R467). -/
structure VCopy where
  part : Nat
  line : Nat
  /-- the frame it was filled from, as a line of the linear window -/
  frame : Nat
  data : BitVec 1024
  /-- the bytes written since its fill -/
  dirty : BitVec 128 := 0
  /-- the key slot under which it was deciphered (25_package.md R468) -/
  slot : Option Nat := none
  /-- the recorded residency hint (15_memory_map.md R351) -/
  hint : BitVec 2 := 0
  /-- the running engine commands that pin it (08_matrix_instr.md R224, 15_memory_map.md R352) -/
  pins : List Nat := []
  /-- flushed while pinned: it is dropped when its last pin is released (R352) -/
  flushed : Bool := false
  deriving DecidableEq, Repr

/-- A line of the cache portion of a core (15_memory_map.md R348), or one that the victim pool of its tile keeps there (R349). -/
structure NearLine where
  line : Nat
  data : BitVec 1024
  /-- the recorded residency hint (15_memory_map.md R351) -/
  hint : BitVec 2 := 0
  /-- a pool line: the tile epoch at which it entered -/
  epoch : Option (BitVec 32) := none
  /-- another core of the tile has read or written the line at L2 since: it may not enter the pool (16_ordering.md R357) -/
  behind : Bool := false
  deriving DecidableEq, Repr

/-- A line of a core's instruction cache: a line of the linear window as it was fetched (00_scope.md R4, 03_encoding.md R76). -/
structure CodeLine where
  line : Nat
  data : BitVec 1024
  deriving DecidableEq, Repr

/-- A core or a service core, keyed by its source number (22_faults.md R418). -/
structure Core where
  ctxs : Table Ctx := []
  /-- the context it last issued from (12_execution.md R297) -/
  last : Nat := 0
  lsplit : BitVec 3 := 0
  hres : BitVec 4 := 1
  saveb : Word := 0
  inbox : List Message := []
  waiters : List Waiter := []
  engine : Engine := {}
  streams : Table Stream := []
  servedStream : Nat := 0
  /-- the instruction cache: the lines as fetched (03_encoding.md R76, 10_system_instr.md R280) -/
  icache : List CodeLine := []
  /-- the cache portion, with the pool lines it keeps for its tile, newest first (15_memory_map.md R348, R349) -/
  lines : List NearLine := []
  /-- the tile's epoch at its latest acquire (15_memory_map.md R349) -/
  acquired : BitVec 32 := 0
  /-- bank -> owning context (12_execution.md R306) -/
  banks : Table Nat := []
  /-- the queues of the neighbour receive directions +X, -X, +Y, -Y (05_memory_instr.md R117) -/
  neighbours : Table (List Entry) := []
  sent : Nat := 0
  received : Nat := 0
  stopGtc : Word := 0
  releaseGtc : Word := 0
  gangStops : Nat := 0
  forwards : List Forward := []
  /-- service cores: OSEL, ORIDX, PDSEL (23_program_optics.md R436, 24_fabric.md R448, R459) -/
  osel : Word := 0
  oridx : Word := 0
  pdsel : Word := 0
  deriving DecidableEq, Repr

/-- Operations a home performs (05_memory_instr.md, 08_matrix_instr.md R240). -/
inductive AmoOp where
  | swap | add | and | or | xor | min | max | minu | maxu
  deriving DecidableEq, Repr

/-- What a request asks of its home. Sizes are in bytes. -/
inductive MemOp where
  | load (size : Nat) (signed : Bool)
  | store (size : Nat)
  | loadFut | loadTake | storeFill | storeGive
  | loadVeq (v : BitVec 7) | loadVge (v : BitVec 7)
  | storeVnx | storeVset (v : BitVec 7)
  | tagRead | tagWrite (tag : Byte)
  | amo (op : AmoOp) (size : Nat)
  | cas (size : Nat)
  | jinit | join
  | reduceOpen (e : Int) | reduceAdd (fmt : Nat) | reduceRead (fmt : Nat) | reduceClose (fmt : Nat)
  | retire (base : BitVec 7) (words : Nat)
  | carry
  | flush (bytes : Nat)
  deriving DecidableEq, Repr

/-- Where a reply goes: nowhere, a scalar register by its place (0 to 31 the pool, 32 to 35 g28 to g31 of the trap
shadow, 36 to 39 those of the light handler's), or an element of a vector register (register, first lane, type). -/
inductive Target where
  | none
  | reg (place : Nat)
  | element (v : Nat) (lane : Nat) (ty : Nat)
  deriving DecidableEq, Repr

/-- How far a request has come. -/
inductive Stage where
  /-- on its way to the home -/
  | sent
  /-- answered with NACK, to be replayed (05_memory_instr.md R127) -/
  | nacked
  /-- in the retry list of its home: the ahead and passed counts of R126 -/
  | waiting (ahead : Nat) (passed : Nat)
  /-- performed; its data is on the way back -/
  | returned (data : Word)
  /-- performed; its acknowledgement is on the way back -/
  | acked
  /-- it ends without effect: the cause and FADDR of the trap it gives, and for PAGE the reason and detail of its report -/
  | failed (cause : Cause) (reason : Nat) (faddr : Word) (detail : Word)
  deriving DecidableEq, Repr

/-- A request from a context to a home. -/
structure Request where
  id : Nat
  /-- requests of one instruction share a group, which is one operation of its class -/
  grp : Nat
  core : Nat
  /-- the issuing context; a number of 16 or more once it has been stopped: its counts then belong to no context
  (06_task_instr.md R159) -/
  ctx : Nat
  /-- the context waits for it (05_memory_instr.md R120) -/
  blocking : Bool := false
  op : MemOp
  /-- the memory key of the first byte -/
  key : Nat
  /-- the pointer, for reports -/
  pointer : Word
  part : Nat
  level : Nat
  data : Word := 0
  expected : Word := 0
  target : Target := .none
  /-- the destination of another package (24_fabric.md R443), with its sequence number -/
  remote : Option Nat := none
  /-- the home: an L2 slice as 4352 + slice, or a core number -/
  home : Nat
  seq : Nat := 0
  cls : Option Nat
  counter : Option Nat := none
  stage : Stage := .sent
  /-- the order in which its home accepted it into the retry list -/
  accepted : Nat := 0
  /-- the instruction's length, address and last-use marks, for an instruction that retires when satisfied -/
  length : Nat := 4
  pc : Word := 0
  dies : List Reg := []
  /-- the key slot of a sealed page (25_package.md R468) -/
  sealSlot : Option Nat := none
  /-- a store of a multicast: its operation number, and whether a store of its group was lost (05_memory_instr.md R146) -/
  mcast : Option (BitVec 16) := none
  groupLost : Bool := false
  /-- a request of another package: its package, source number, partition number there, and the port it came through
  (24_fabric.md R444, 25_package.md R466) -/
  origin : Option (Nat × Nat × Nat × Nat) := none
  /-- the sharded access: tensor, generation and the epoch of its lookup (20_layout.md R408, R409) -/
  tensor : Option (Nat × Nat × Nat) := none
  /-- the partition and virtual line through which it reaches memory; none for SYS and CORE (15_memory_map.md R332) -/
  line : Option (Nat × Nat) := none
  /-- the residency hint (05_memory_instr.md R121) -/
  hint : BitVec 2 := 0
  deriving DecidableEq, Repr

/-- Where a message goes. -/
inductive Dest where
  | core (n : Nat)
  | hostQueue (part q : Nat)
  | remote (pkg core : Nat)
  deriving DecidableEq, Repr

/-- A message on its way (06_task_instr.md R161). -/
structure Flight where
  id : Nat
  dest : Dest
  msg : Message
  /-- the source number of the sender -/
  source : Nat
  /-- the issuing context, its class st and its acknowledgement counter, when a program sent it -/
  issuer : Option (Nat × Nat × Nat) := none
  /-- a completion: the context and the class whose count drops when it has been placed (03_encoding.md R94) -/
  ends : Option (Nat × Nat × Nat) := none
  nacked : Bool := false
  part : Nat := 0
  seq : Nat := 0
  gtc : Word := 0
  /-- the order of sending -/
  order : Nat := 0
  /-- placed by a unit of the source core or by a home, which holds and replays it itself (06_task_instr.md R161) -/
  byUnit : Bool := false
  deriving DecidableEq, Repr

/-- A task on its way to a helper (06_task_instr.md R147, R154). -/
structure Task where
  entry : Word
  prio : BitVec 3
  cost : Nat
  join : Word
  args : Vector Word 4
  operands : List Word
  pull : Nat
  anchor : Option Nat
  part : Nat
  hops : Nat := 0
  /-- the context whose class st it holds until a tile accepts it -/
  issuer : Option (Nat × Nat) := none
  /-- a retained successor: its core and the banks it keeps -/
  pinned : Option (Nat × List Nat) := none
  /-- the spawner's or home's source number, and the moment it reached its tile, for the order of R12 -/
  source : Nat := 0
  gtc : Word := 0
  deriving DecidableEq, Repr

/-- What stands in a tile queue (12_execution.md R299, R300). -/
inductive QKind where
  | task (t : Task)
  /-- the launch and the indices of its roots on this tile not yet dispatched: the next and the step -/
  | roots (launch : Nat) (next : Nat)
  deriving DecidableEq, Repr

/-- An entry of a tile queue. -/
structure QEntry where
  kind : QKind
  level : Nat
  resident : Bool
  joined : Word
  deriving DecidableEq, Repr

/-- A claim request that waits (07_vector_instr.md R187). -/
structure ClaimRequest where
  core : Nat
  ctx : Nat
  req : Nat
  minreq : Nat
  /-- resuming after it left its core: the grant is restored from the save area -/
  resuming : Bool := false
  deriving DecidableEq, Repr

/-- The copy instructions (09_copy_instr.md R251). -/
inductive CopyKind where
  | cpy | cpyg | cpys | cpyq | cpyf
  deriving DecidableEq, Repr

/-- A leaf translation that a slice caches, with its heat counts (15_memory_map.md R344, R346). -/
structure Translation where
  part : Nat
  /-- the slice, as a home number -/
  slice : Nat := 0
  page : Nat
  leaf : Word
  /-- the physical address of the leaf entry, and the base and size of its page -/
  entry : Nat
  size : Nat
  reads : Nat := 0
  writes : Nat := 0
  deriving DecidableEq, Repr

/-- The place of an access: key, home, acknowledgement counter, partition whose page table serves it, the package when
it is another, the key slot of a sealed page, the translation it used, and whether its home or memory is lost. -/
structure Place where
  key : Nat
  home : Nat
  counter : Nat
  part : Nat
  remote : Option Nat := none
  sealSlot : Option Nat := none
  seen : Option Translation := none
  lost : Bool := false
  /-- the tag of the partition and world, and the virtual line, of a VIRT or SHRD access (15_memory_map.md R332, 25_package.md R467) -/
  line : Option (Nat × Nat) := none
  /-- the core named by a CORE pointer whose bank a forwarding entry of it covers (22_faults.md R427) -/
  via : Option Nat := none
  /-- a sharded access: tensor, generation, and the epoch of its lookup (20_layout.md R408, R409) -/
  tensor : Option (Nat × Nat × Nat) := none
  deriving DecidableEq, Repr

/-- A position that a copy has read and checked (09_copy_instr.md R254 to R258): the value it writes or pushes, where it goes, its index in
a packed destination, whether it is padding, what is counted, and for CPYG the window of the list and the source coordinate, which
other positions may share (R256). -/
structure Taken where
  value : Nat := 0
  place : Option (Word × Place) := none
  index : Nat := 0
  pad : Bool := false
  oob : Bool := false
  flags : BitVec 6 := 0
  shared : Option (Nat × List Int) := none
  deriving DecidableEq, Repr

/-- Where and why a copy stops early (09_copy_instr.md R261): the position, the cause of FAULT or none for POISON, and the address. -/
structure CopyEnd where
  at_ : Nat
  cause : Option Cause
  address : Word
  deriving DecidableEq, Repr

/-- An accepted copy (09_copy_instr.md R253). -/
structure Copy where
  id : Nat
  kind : CopyKind
  core : Nat
  ctx : Nat
  part : Nat
  level : Nat
  opNumber : BitVec 16
  dst : Vector Word 8
  src : Vector Word 8
  list : Word := 0
  value : Word := 0
  tagControl : Word := 0
  channel : Nat := 0
  rm : Nat
  sat8 : Bool
  /-- the atlas entry looked up at its start (20_layout.md R401) -/
  entry : Option (Vector Word 8) := none
  epoch : Nat := 0
  started : Bool := false
  aside : Bool := false
  /-- the cause of the lookup that failed at its start (20_layout.md R405) -/
  failed : Option Cause := none
  /-- the positions that a CPYQ has pushed -/
  progress : Nat := 0
  /-- the list entries read, the positions read, the earliest position found to stop the copy, and the positions written (for a packed
  destination the bytes), in no fixed order (R262) -/
  lists : Table Int := []
  taken : Table Taken := []
  stop : Option CopyEnd := none
  written : List Nat := []
  /-- a store has been declared lost -/
  lost : Bool := false
  deriving DecidableEq, Repr

/-- An entry of a tile's shard cache (20_layout.md R405): the tensor, the shard, the atlas entry it was read under (19_program_atlas.md
R396), and its two doublewords. -/
structure ShardEntry where
  tensor : Nat
  shard : Nat
  under : Vector Word 8
  words : Word × Word
  deriving DecidableEq, Repr

/-- A tile: its queue, pressure, contour unit, lane pool and copy engine. -/
structure Tile where
  vgroup : Bool := false
  /-- the epoch E of the victim pool (15_memory_map.md R349) -/
  acquires : BitVec 32 := 0
  queue : List QEntry := []
  s0 : BitVec 16 := 0
  s1 : BitVec 16 := 0
  s2 : BitVec 16 := 0
  s3 : BitVec 16 := 0
  raw : BitVec 16 := 0
  p : BitVec 16 := 0
  /-- the held (d, Pmin) of +X, -X, +Y, -Y, and the pairs that this step's update will take (13_relief.md R318, R319) -/
  pairs : Vector (Nat × Nat) 4 := Vector.replicate 4 (255, 0xFFFF)
  arrived : Vector (Nat × Nat) 4 := Vector.replicate 4 (255, 0xFFFF)
  /-- the pair the tile reports, and the steps its contour unit has made -/
  own : Nat × Nat := (255, 0xFFFF)
  steps : Nat := 0
  /-- tasks to be decided, tasks held by a pause, tasks offered to a full spill area -/
  deciding : List Task := []
  held : List Task := []
  offered : List Task := []
  claimQueue : List ClaimRequest := []
  copies : List Copy := []
  /-- the atlas cache, by tensor, and the shard cache, the most recently used first (20_layout.md R405) -/
  atlasCache : List (Nat × Vector Word 8) := []
  shardCache : List ShardEntry := []
  /-- the epoch of the last ATSYNC invalidation (20_layout.md R408) -/
  epoch : Nat := 0
  deriving DecidableEq, Repr

/-- A rectangle of cores: origin and extent. -/
structure Rect where
  x : Nat
  y : Nat
  w : Nat
  h : Nat
  deriving DecidableEq, Repr

/-- A crew request at its arbiter (12_execution.md R309, R310). -/
structure CrewRequest where
  task : Task
  w : Nat
  h : Nat
  level : Nat
  joined : Word
  /-- a swapped-out crew that asks to return -/
  restore : Option Nat := none
  /-- when its target was fixed -/
  targeted : Option Word := none
  deriving DecidableEq, Repr

/-- A request to the engraver (18_sparse.md R382). -/
structure Engrave where
  part : Nat
  address : Nat
  version : BitVec 7
  level : Nat := 0
  started : Bool := false
  /-- the header word as read first, and the bitmap doublewords read so far (18_sparse.md R382) -/
  header : Word := 0
  rows : Table Word := []
  /-- dropped by MPINV while compiling (08_matrix_instr.md R235) -/
  drop : Bool := false
  deriving DecidableEq, Repr

/-- A super-group: crew arbiter, plate cache and engraver. -/
structure SuperGroup where
  requests : List CrewRequest := []
  /-- crew requests in the spill area -/
  spilled : List CrewRequest := []
  target : Option Rect := none
  plates : List Plate := []
  engraver : List Engrave := []
  deriving DecidableEq, Repr

/-- A member of a crew. -/
structure Member where
  core : Nat
  ctx : Nat
  halted : Bool := false
  deriving DecidableEq, Repr

/-- A context that has arrived at a barrier. -/
structure Arrival where
  core : Nat
  ctx : Nat
  epoch : Nat
  rd : Reg
  status : Word
  length : Nat := 4
  dies : List Reg := []
  deriving DecidableEq, Repr

/-- A barrier (06_task_instr.md R171): the extent value, the cores it names, and for each core the epoch it counts, the arrivals
in it and its n. -/
structure Barrier where
  extent : Word
  cores : List Nat
  part : Nat
  counts : Table (Nat × Nat × Nat) := []
  arrivals : List Arrival := []
  deriving DecidableEq, Repr

/-- A crew (06_task_instr.md R169, 12_execution.md R311, 22_faults.md R429). -/
structure Crew where
  id : Nat
  part : Nat
  sg : Nat
  rect : Rect
  members : List Member
  join : Word
  level : Nat
  firstError : Nat := 0
  granted : Nat := 0
  /-- the swap slot it is saved in -/
  swapped : Option Nat := none
  /-- the saved contexts and arrivals of a swapped crew, in crew-relative order -/
  saved : List Ctx := []
  savedBanks : List (Table Nat) := []
  savedNeighbours : List (Table (List Entry)) := []
  /-- the class 0 messages of the members' inboxes -/
  savedInboxes : List (List Message) := []
  /-- its barriers, the cores numbered by member -/
  savedBarriers : List Barrier := []
  deriving DecidableEq, Repr

/-- A launch at the distributor (06_task_instr.md R155, R156, 25_package.md R474). -/
structure LaunchRequest where
  packet : Vector Word 16
  part : Nat
  entry : Word
  /-- the core, context and operation number of a device launch -/
  issuer : Option (Nat × Nat × BitVec 16) := none
  deriving DecidableEq, Repr

/-- A launch in progress. -/
structure Launch where
  id : Nat
  part : Nat
  entry : Word
  packet : Vector Word 16
  stride : Nat
  tiles : Nat
  /-- dies whose launch unit has still to place its entries -/
  toPlace : List Nat
  /-- for each die: roots not yet halted, first non-zero code, its core -/
  dies : Table (Nat × Nat × Nat) := []
  deriving DecidableEq, Repr

/-- What a context has handed on but may not be sent before its counters drain (05_memory_instr.md R128). -/
inductive HeldWhat where
  | request (r : Request)
  | message (f : Flight)
  | task (tile : Nat) (t : Task)
  | launch (l : LaunchRequest)
  | crew (sg : Nat) (c : CrewRequest)
  | command (c : Command)
  | copy (tile : Nat) (c : Copy)
  /-- an ATSYNC that waits for the accesses of earlier epochs (10_system_instr.md R284); its mask collects the counters of lost
  stores -/
  | admin (epoch : Nat)
  deriving DecidableEq, Repr

/-- A held release: the counters it drains, in the context's program order. -/
structure Held where
  id : Nat
  core : Nat
  ctx : Nat
  mask : BitVec 4
  what : HeldWhat
  deriving DecidableEq, Repr

/-- An exact accumulator (02_numbers.md R71, 05_memory_instr.md R139). -/
structure Accumulator where
  part : Nat
  home : Nat
  e : Int
  sum : Int := 0
  nanf : Bool := false
  pinf : Bool := false
  ninf : Bool := false
  ovf : Bool := false
  nxf : Bool := false
  contributions : Nat := 0
  deriving DecidableEq, Repr

/-- The registers of a partition (10_system_instr.md R274), with their reset values. -/
structure PartRegs where
  plow : Word := 0x100
  phigh : Word := 0x400
  pshift : Word := 4
  tmove : Word := 0x40
  hopcost : Word := 8
  pullk : Word := 1
  ageus : Word := 100
  lstride : Word := 1
  mmigt : Word := 0
  xvec : Word := 0
  rdir : Word := 0
  atlas : Word := 0
  deriving DecidableEq, Repr, Inhabited

/-- A gang stop of a partition (10_system_instr.md R286, 22_faults.md R430): when the halt tree was entered, the context that
issued it, and whether it is still stopping contexts. -/
structure Gang where
  entered : Word
  core : Nat
  ctx : Nat
  stopping : Bool := true
  deriving DecidableEq, Repr

/-- A partition: its record (25_package.md R464), its registers and its capability keys (R470). -/
structure Partition where
  record : Vector Word 64
  regs : PartRegs := {}
  generation : BitVec 8 := 0
  /-- the keys of this generation and of the one before it -/
  key : List Byte := []
  oldKey : List Byte := []
  destroying : Bool := false
  gang : Option Gang := none
  measurement : List Byte := []
  /-- the bytes that an atlas entry held when ATSET last wrote it, or a tile first read it, by its linear address (20_layout.md R406) -/
  entries : Table (Vector Word 8) := []
  deriving DecidableEq, Repr

/-- A key slot (25_package.md R469). -/
structure KeySlot where
  part : Nat
  data1 : List Byte
  data2 : List Byte
  mac : List Byte
  deriving DecidableEq, Repr

/-- A host queue (25_package.md R475). -/
structure HostQueue where
  base : Word := 0
  logSize : Nat := 0
  vec : Nat := 0
  tail : Nat := 0
  head : Nat := 0
  /-- interrupts sent -/
  interrupts : Nat := 0
  deriving DecidableEq, Repr, Inhabited

/-- An entry of the fault log (25_package.md R472). -/
structure LogEntry where
  gtc : Word
  source : Nat
  kind : Nat
  part : Nat
  address : Word := 0
  detail : Word := 0
  deriving DecidableEq, Repr

/-- A fabric port (23_program_optics.md R436, 24_fabric.md R448 to R454). -/
structure Port where
  up : Bool := false
  fpkg : BitVec 8 := 0
  fport : BitVec 4 := 0
  units : Nat := 0
  naks : Nat := 0
  corrected : Nat := 0
  opark : BitVec 16 := 0xFFFF
  oqthr : BitVec 16 := 0
  /-- data of the flits queued for the port -/
  queued : List (BitVec 256) := []
  wk : Bool := false
  oflits : Word := 0
  owake : Word := 0
  /-- wavelengths of the wake in progress, and those parked when their last flit is through -/
  waking : BitVec 16 := 0
  /-- a wake waits for the far end's lock report (24_fabric.md R454) -/
  awaitLock : Bool := false
  /-- sent and not yet acknowledged: LSEQ, type and data; `lost` marks a double upset -/
  window : List (BitVec 16 × BitVec 4 × BitVec 256) := []
  nextSeq : BitVec 16 := 0
  expected : BitVec 16 := 0
  later : List (BitVec 16 × BitVec 4 × BitVec 256) := []
  /-- data flits received in order and not yet assembled -/
  received : List (BitVec 256) := []
  /-- ORTE: package -> HOPS, for the entries with V = 1 -/
  routes : Table (Bool × Nat) := []
  deriving DecidableEq, Repr

/-- The state of a ring (23_program_optics.md R436, OSTAT.STATE). -/
structure Ring where
  heat : BitVec 12 := 0x800
  mon : BitVec 12 := 0
  wfail : Bool := false
  state : BitVec 3 := 0
  lambda : BitVec 5 := 31
  /-- its wavelength is being moved to it (R440) -/
  moving : Bool := false
  /-- it has passed deskew and waits for the stripe to widen (R438) -/
  deskewed : Bool := false
  deriving DecidableEq, Repr

/-- A torus flit (24_fabric.md R456). -/
structure Flit where
  header : Word
  data : BitVec 256
  deriving DecidableEq, Repr

/-- A torus router (24_fabric.md R457 to R460). -/
structure Router where
  /-- flits that arrived this cycle and those that arrive in the next -/
  arriving : List Flit := []
  injecting : List Flit := []
  ejected : List Flit := []
  /-- the copy kept of each flit sent in the last cycle, by direction -/
  kept : Table Flit := []
  dead : BitVec 4 := 0
  /-- table entries written over their reset values -/
  entries : Table (BitVec 4) := []
  deriving DecidableEq, Repr

/-- A packet in transit to another package (24_fabric.md R447). -/
structure Transit where
  dest : Nat
  hopLimit : Nat
  /-- the source's package and source number -/
  source : Nat
  seq : Nat
  homekey : Nat := 0
  /-- its payload flits -/
  flits : Nat := 0
  deriving DecidableEq, Repr

/-- The SPDM responder (25_package.md R471). -/
structure Spdm where
  versioned : Bool := false
  capable : Bool := false
  negotiated : Bool := false
  handshake : Bool := false
  session : Bool := false
  transcript : List Byte := []
  secret : List Byte := []
  xmssIndex : Nat := 0
  /-- the responses sent, newest first -/
  responses : List (List Byte) := []
  deriving DecidableEq, Repr

/-- Whose turn it is: the agenda of State is a list of these (log 1). -/
inductive Turn where
  /-- a context issues, where it is the one its core turns to -/
  | issue (core ctx : Nat)
  /-- a core issues from the context it turns to -/
  | slot (core : Nat)
  | event (i : Instr)
  /-- GTC counts -/
  | tick
  deriving DecidableEq, Repr

/-- The whole package. -/
structure State where
  /-- MODEL: the core and context that issue (log 1) -/
  cur : Nat × Nat
  /-- MODEL: whose turns come next; when it is empty a new cycle begins (log 1) -/
  agenda : List Turn := []
  /-- MODEL: what may come next, with the cycles until it does (log 1) -/
  delays : List (Turn × Nat) := []
  /-- MODEL: in this cycle requests are accepted, answered and acknowledged within the step that sends them, and long instructions do
  all of their parts (log 6) -/
  eager : Bool := true
  /-- the cycles of the core clock since the model's start, for the count of a forwarding entry (22_faults.md R427) -/
  cycle : Nat := 0
  /-- MODEL: the counter of the free values (log 7) -/
  choice : Nat := 0
  /-- MODEL: identifiers for requests, messages, commands, launches and crews -/
  nextId : Nat := 0
  /-- MODEL: the order of acceptances and stops -/
  nextOrder : Nat := 1
  /-- the bytes of memory, of every core's local SRAM and of the host's memory, by key -/
  mem : List Host.Cell := []
  /-- tag bytes other than 0x80, by doubleword key (15_memory_map.md R336) -/
  tags : Table Byte := []
  /-- the stamps other than none, by 4 KiB region (09_copy_instr.md R250) -/
  stamps : Table Nat := []
  /-- poisoned doublewords (22_faults.md R428) -/
  poison : List Nat := []
  /-- the V-copies that L2 holds, newest first (15_memory_map.md R338); P-copies equal memory -/
  vcopies : List VCopy := []
  translations : List Translation := []
  accumulators : Table Accumulator := []
  requests : List Request := []
  held : List Held := []
  flights : List Flight := []
  cores : Table Core
  tiles : Table Tile := []
  superGroups : Table SuperGroup := []
  /-- the neighbour queues' and barriers' package-wide tables -/
  barriers : List Barrier := []
  crews : List Crew := []
  launchQueue : List LaunchRequest := []
  launches : List Launch := []
  parts : Table Partition := []
  keySlots : Table KeySlot := []
  gtc : Word := 0
  heatfade : Word := 0x100000
  fwvec : Word := 0
  pkg : BitVec 8 := 0
  lostDies : BitVec 8 := 0
  /-- engine commands sent by MCMD and not yet accepted -/
  commands : List Command := []
  /-- fabric sequence numbers per source and home, and those expected from other packages -/
  seqs : Table Nat := []
  ports : Table Port := []
  rings : Table Ring := []
  routers : Table Router := []
  paused : BitVec 8 := 0
  /-- the tables have been written since the drain began (24_fabric.md R460) -/
  drainWritten : Bool := false
  /-- packets of which a drain has discarded a flit: PART, SRC and TAG (24_fabric.md R460) -/
  lostPackets : List (Nat × Nat × Nat) := []
  transits : List Transit := []
  hostQueues : Table HostQueue := []
  log : List LogEntry := []
  logNext : Nat := 0
  spdm : Spdm := {}
  firmware : List Byte := []
  ready : Bool := false
  heldInReset : Bool := false
  halted : Bool := false
  throttled : Nat := 0
  d3hot : Bool := false
  /-- reports over I3C and the management bus: kind and detail, newest first -/
  reports : List (Nat × Nat) := []
  deriving DecidableEq, Repr

/-- The control context of a service core right after reset: live, at level 2, at the firmware entry. -/
def Ctx.serviceReset : Ctx :=
  { run := .ready, status := 0x2180, pc := Config.firmwareEntry, role := .control }

/-- A service core right after reset. -/
def Core.serviceReset : Core := { ctxs := [(0, Ctx.serviceReset)] }

/-- The source numbers of the 20 service cores (22_faults.md R418). -/
def serviceCores : List Nat :=
  [4108, 4109, 4110, 4111, 4112, 4113, 4114, 4115, 4116, 4117, 4118, 4119, 4120, 4121, 4122, 4123, 4124, 4125, 4126, 4127]

/-- The machine right after package reset: no partition exists, the service cores stand at the firmware entry
(25_package.md R477, R481). The issuing context is the control context of cache-die service core 0 (log 1). -/
def State.reset : State :=
  { cur := (4108, 0), cores := serviceCores.map (fun n => (n, Core.serviceReset)) }

end Sys2Proof.Machine
end

