-- ==== Sys2Proof/Machine/Ops.lean ====
section
/-! DEFINITION. The named operations over State: tables, memory, tags and stamps, physical windows, partitions,
translation, contexts and scalar registers, retirement, messages, fault reports, save areas, and taking an exception
and returning from one. -/

namespace Sys2Proof.Machine

/-! ### Tables -/

/-- The entry of a table, if listed. -/
def Table.look {α : Type} : Table α → Nat → Option α
  | [], _ => none
  | (k, v) :: rest, n => if k = n then some v else Table.look rest n

/-- The entry of a table, with what an unlisted unit holds. -/
def Table.get {α : Type} (t : Table α) (n : Nat) (d : α) : α := (Table.look t n).getD d

/-- A table with one entry written. -/
def Table.put {α : Type} : Table α → Nat → α → Table α
  | [], n, x => [(n, x)]
  | (k, v) :: rest, n, x =>
    if n < k then (n, x) :: (k, v) :: rest
    else if n = k then (n, x) :: rest
    else (k, v) :: Table.put rest n x

/-- A table without one entry. -/
def Table.drop {α : Type} : Table α → Nat → Table α
  | [], _ => []
  | (k, v) :: rest, n => if k = n then rest else (k, v) :: Table.drop rest n

/-! ### Sorting -/

/-- An element put before the first that it does not follow. -/
def insertBy {α : Type} (le : α → α → Bool) (x : α) : List α → List α
  | [] => [x]
  | y :: ys => if le x y then x :: y :: ys else y :: insertBy le x ys

/-- A list in ascending order; equal elements keep their order. -/
def sortBy {α : Type} (le : α → α → Bool) (l : List α) : List α := l.foldr (insertBy le) []

/-! ### Memory: one canonical list of cells -/

/-- What an unlisted byte of memory reads as: scrubbed memory reads 0 (15_memory_map.md R336, 25_package.md R465,
log 4). -/
def blankByte : Byte := 0

/-- The byte at a key. -/
def readByte : List Host.Cell → Nat → Byte
  | [], _ => blankByte
  | (k, v) :: rest, a => if k = a then v else readByte rest a

/-- One byte written; the canonical form lists no blank byte. -/
def writeByte : List Host.Cell → Nat → Byte → List Host.Cell
  | [], a, b => if b = blankByte then [] else [(a, b)]
  | (k, v) :: rest, a, b =>
    if a < k then (if b = blankByte then (k, v) :: rest else (a, b) :: (k, v) :: rest)
    else if a = k then (if b = blankByte then rest else (a, b) :: rest)
    else (k, v) :: writeByte rest a b

/-- The canonical form: keys strictly rising, no blank byte listed. -/
def Memory.wf : List Host.Cell → Bool
  | [] => true
  | [(_, v)] => v != blankByte
  | (k, v) :: (k', v') :: rest => v != blankByte && decide (k < k') && Memory.wf ((k', v') :: rest)

/-- n bytes from a key upwards, the lowest byte least significant (00_scope.md R5). -/
def readBytes (m : List Host.Cell) (a : Nat) : Nat → Nat
  | 0 => 0
  | n + 1 => (readByte m a).toNat + 256 * readBytes m (a + 1) n

/-- The low n bytes of a number written from a key upwards. -/
def writeBytes (m : List Host.Cell) (a : Nat) : Nat → Nat → List Host.Cell
  | 0, _ => m
  | n + 1, v => writeBytes (writeByte m a (BitVec.ofNat 8 v)) (a + 1) n (v / 256)

/-- n bytes from a key upwards, as a list. -/
def byteList (m : List Host.Cell) (a n : Nat) : List Byte := (List.range n).map (fun i => readByte m (a + i))

/-- A list of bytes written from a key upwards. -/
def writeList (m : List Host.Cell) (a : Nat) : List Byte → List Host.Cell
  | [] => m
  | b :: rest => writeList (writeByte m a b) (a + 1) rest

/-- The n bytes of a number, the lowest first. -/
def bytesOf (v n : Nat) : List Byte := (List.range n).map (fun i => BitVec.ofNat 8 (v / 256 ^ i))

/-- A number from its bytes, the lowest first. -/
def ofBytes : List Byte → Nat
  | [] => 0
  | b :: rest => b.toNat + 256 * ofBytes rest

/-! ### Where things lie: keys -/

/-- The key of offset 0 of a core's local SRAM. -/
def sramKey (core off : Nat) : Nat := 2 ^ 45 + core * 2 ^ 18 + off

/-- Whether a key lies in some core's local SRAM. -/
def isSram (key : Nat) : Bool := decide (2 ^ 45 ≤ key) && decide (key < 2 ^ 46)

/-- The key of host memory (25_package.md R475). -/
def hostKey (address : Nat) : Nat := 2 ^ 64 + address

/-- Die, column, row, tile and super-group of a core (00_scope.md R2, R3). -/
def coreX (n : Nat) : Nat := n / 32
def coreY (n : Nat) : Nat := n % 32
def coreDie (n : Nat) : Nat := coreX n / 16
def coreTile (n : Nat) : Nat := coreX n / 2 * 8 + coreY n / 4
def superGroupOf (n : Nat) : Nat := 4 * (coreX n / 16) + 2 * (coreY n / 16) + coreX n / 8 % 2
def coreAt (x y : Nat) : Nat := x * 32 + y

/-- The eight cores of a tile, in ascending number. -/
def tileCores (t : Nat) : List Nat :=
  let x := t / 8 * 2
  let y := t % 8 * 4
  [coreAt x y, coreAt x (y + 1), coreAt x (y + 2), coreAt x (y + 3),
   coreAt (x + 1) y, coreAt (x + 1) (y + 1), coreAt (x + 1) (y + 2), coreAt (x + 1) (y + 3)]

def tileDie (t : Nat) : Nat := t / 64
def tileSuperGroup (t : Nat) : Nat := superGroupOf (coreAt (t / 8 * 2) (t % 8 * 4))

/-- The service cores (22_faults.md R418). -/
def isService (core : Nat) : Bool := decide (4108 ≤ core) && decide (core < 4128)

/-- The linear equivalent of a physical address (15_memory_map.md R333, R334); none outside the windows. -/
def linearOf (a : Nat) : Option Nat :=
  if a < 0x14000000000 then some a
  else if 0x40000000000 ≤ a ∧ a < 0x54000000000 then
    let lpddr := decide (0x44000000000 ≤ a)
    let o := if lpddr then a - 0x44000000000 else a - 0x40000000000
    let base := if lpddr then 0x4000000000 else 0
    let span := if lpddr then 0x2000000000 else 0x800000000
    let n := o / 4096
    some (base + n % 8 * span + n / 8 * 4096 + o % 4096)
  else none

/-- The die that holds a linear address. -/
def linearDie (a : Nat) : Nat :=
  if a < 0x4000000000 then a / 0x800000000 else (a - 0x4000000000) / 0x2000000000

/-- The gigabytes of the linear window that a physical range of a whole page touches (15_memory_map.md R334, R343). -/
def pageGigabytes (frame size : Nat) : List Nat :=
  if frame < 0x14000000000 then
    (List.range (size / 2 ^ 30 + 1)).map (fun i => frame / 2 ^ 30 + i) |>.filter (fun g => g * 2 ^ 30 < frame + size)
  else
    let lpddr := decide (0x44000000000 ≤ frame)
    let o := if lpddr then frame - 0x44000000000 else frame - 0x40000000000
    let base := if lpddr then 0x4000000000 else 0
    let span := if lpddr then 0x2000000000 else 0x800000000
    let n0 := o / 4096
    let n1 := (o + size - 1) / 4096
    let dies := if n1 - n0 < 7 then (List.range (n1 - n0 + 1)).map (fun i => (n0 + i) % 8) else List.range 8
    dies.flatMap fun d =>
      let lo := base + d * span + n0 / 8 * 4096
      let hi := base + d * span + n1 / 8 * 4096 + 4095
      (List.range (hi / 2 ^ 30 - lo / 2 ^ 30 + 1)).map (fun i => lo / 2 ^ 30 + i)

/-! ### Units -/

def State.core (s : State) (n : Nat) : Core := Table.get s.cores n {}
def State.setCore (s : State) (n : Nat) (c : Core) : State := { s with cores := Table.put s.cores n c }
def Core.ctx (c : Core) (k : Nat) : Ctx := Table.get c.ctxs k {}
def Core.setCtx (c : Core) (k : Nat) (x : Ctx) : Core := { c with ctxs := Table.put c.ctxs k x }
def State.ctx (s : State) (n k : Nat) : Ctx := (s.core n).ctx k
def State.setCtx (s : State) (n k : Nat) (x : Ctx) : State := s.setCore n ((s.core n).setCtx k x)
/-- The issuing context. -/
def State.me (s : State) : Ctx := s.ctx s.cur.1 s.cur.2
def State.setMe (s : State) (x : Ctx) : State := s.setCtx s.cur.1 s.cur.2 x
/-- The issuing core. -/
def State.mine (s : State) : Core := s.core s.cur.1
def State.setMine (s : State) (c : Core) : State := s.setCore s.cur.1 c
def State.tile (s : State) (n : Nat) : Tile := Table.get s.tiles n {}
def State.setTile (s : State) (n : Nat) (t : Tile) : State := { s with tiles := Table.put s.tiles n t }
def State.superGroup (s : State) (n : Nat) : SuperGroup := Table.get s.superGroups n {}
def State.setSuperGroup (s : State) (n : Nat) (g : SuperGroup) : State :=
  { s with superGroups := Table.put s.superGroups n g }
def State.setPart (s : State) (n : Nat) (p : Partition) : State := { s with parts := Table.put s.parts n p }
/-- A fresh identifier. -/
def State.fresh (s : State) : Nat × State := (s.nextId, { s with nextId := s.nextId + 1 })

/-! ### Free values (log 7) -/

/-- The free value of a slot in this step, below a bound. Free values of one step that may differ stand in slots of their own. -/
def State.free (s : State) (slot bound : Nat) : Nat := Config.choice s.choice slot % bound

/-- A free 64-bit value. -/
def State.freeWord (s : State) (slot : Nat) : Word := wordOf (Config.choice s.choice slot)

/-! ### Partitions -/

/-- Bit i of doubleword w of a record. -/
def Partition.bit (p : Partition) (dw i : Nat) : Bool := (p.record.toList.getD (dw + i / 64) 0).getLsbD (i % 64)
def Partition.dw (p : Partition) (i : Nat) : Word := p.record.toList.getD i 0
def Partition.holdsSuperGroup (p : Partition) (g : Nat) : Bool := decide (g < 32) && p.bit 0 g
def Partition.holdsSlice (p : Partition) (n : Nat) : Bool := decide (n < 256) && p.bit 1 n
def Partition.holdsPort (p : Partition) (n : Nat) : Bool := decide (n < 16) && p.bit 5 n
def Partition.holdsKey (p : Partition) (n : Nat) : Bool := decide (n < 64) && p.bit 6 n
/-- Whether a linear gigabyte is the partition's (15_memory_map.md R335). -/
def Partition.holdsGigabyte (p : Partition) (g : Nat) : Bool := decide (g < 1280) && p.bit 16 g
def Partition.slices (p : Partition) : List Nat := (List.range 256).filter p.holdsSlice
def Partition.peer (p : Partition) : Nat := bitsOf (p.dw 12) 3 0

/-- The partition that holds a super-group. -/
def State.partOfGroup (s : State) (g : Nat) : Option Nat := (s.parts.find? (fun e => e.2.holdsSuperGroup g)).map (·.1)

/-- The partition of a core; none for a service core. -/
def State.partOf (s : State) (core : Nat) : Option Nat :=
  if core < 4096 then s.partOfGroup (superGroupOf core) else none

def State.part (s : State) (n : Nat) : Option Partition := Table.look s.parts n

/-- The registers of a partition; those of no partition read 0 (25_package.md R481). -/
def State.partRegs (s : State) (n : Option Nat) : PartRegs :=
  match n.bind s.part with
  | some p => p.regs
  | none => ⟨0, 0, 0, 0, 0, 0, 0, 0, 0, 0, 0, 0⟩

/-- The issuing partition. -/
def State.myPart (s : State) : Option Nat := s.partOf s.cur.1

/-- Whether a linear gigabyte belongs to firmware (15_memory_map.md R335). -/
def State.isFirmware (s : State) (linear : Nat) : Bool :=
  !(s.parts.any (fun e => e.2.holdsGigabyte (linear / 2 ^ 30)))

/-- Whether a die is lost (22_faults.md R433). -/
def State.dieLost (s : State) (d : Nat) : Bool := s.lostDies.getLsbD d

/-- The canonical tiles of a partition (12_execution.md R298), in ascending tile index. -/
def State.tilesOf (s : State) (p : Nat) : List Nat :=
  match s.part p with
  | none => []
  | some r => (List.range 512).filter (fun t => r.holdsSuperGroup (tileSuperGroup t))

/-! ### Tags, stamps, poison -/

/-- The tag byte of the doubleword that holds a key (15_memory_map.md R336): full at version 0 unless listed. -/
def State.tag (s : State) (key : Nat) : Byte := Table.get s.tags (key / 8) 0x80

/-- A tag byte written; the table lists no tag that is full at version 0. -/
def State.setTag (s : State) (key : Nat) (t : Byte) : State :=
  { s with tags := if t = 0x80 then Table.drop s.tags (key / 8) else Table.put s.tags (key / 8) t }

/-- FE and VER of a tag byte (15_memory_map.md R336). -/
def tagFE (t : Byte) : Bool := t.getLsbD 7
def tagVer (t : Byte) : BitVec 7 := t.truncate 7
def mkTag (fe : Bool) (v : BitVec 7) : Byte := BitVec.ofBool fe ++ v

/-- The stamp of the 4 KiB region that holds a key (09_copy_instr.md R250). -/
def State.stamp (s : State) (key : Nat) : Option Nat := Table.look s.stamps (key / 4096)
def State.setStamp (s : State) (key : Nat) (v : Option Nat) : State :=
  { s with stamps := match v with
    | none => Table.drop s.stamps (key / 4096)
    | some n => Table.put s.stamps (key / 4096) n }

/-- Whether a byte range meets a poisoned doubleword (22_faults.md R428). -/
def State.poisoned (s : State) (key n : Nat) : Bool :=
  s.poison.any (fun d => decide (d * 8 < key + n) && decide (key < d * 8 + 8))

/-- Data written by a store or an engine (not by a copy): the bytes, the stamp set to none (R250), and the poison of
every doubleword wholly written cleared (R428). -/
def State.storeBytes (s : State) (key n v : Nat) : State :=
  { s with
    mem := writeBytes s.mem key n v
    stamps := (Table.drop (Table.drop s.stamps (key / 4096)) ((key + n - 1) / 4096))
    poison := s.poison.filter (fun d => !(decide (key ≤ d * 8) && decide (d * 8 + 8 ≤ key + n))) }

/-- A doubleword of memory. -/
def State.dword (s : State) (key : Nat) : Word := wordOf (readBytes s.mem key 8)

/-! ### Copies of lines (15_memory_map.md R338) -/

/-- n bytes from offset o of a line. -/
def lineBytes (d : BitVec 1024) (o n : Nat) : Nat := d.toNat / 256 ^ o % 256 ^ n

/-- n bytes from offset o of a line written. -/
def setLineBytes (d : BitVec 1024) (o n v : Nat) : BitVec 1024 :=
  BitVec.ofNat 1024 (d.toNat - lineBytes d o n * 256 ^ o + v % 256 ^ n * 256 ^ o)

/-- The V-copy through which an access sees a linear address: that of its virtual line, filled from the frame of the address. -/
def State.copyOf (s : State) (line : Option (Nat × Nat)) (key : Nat) : Option VCopy :=
  match line with
  | none => none
  | some l => s.vcopies.find? (fun v => v.part == l.1 && v.line == l.2 && v.frame == key / 128)

/-- Whether L2 holds the only copy of a line: a modified V-copy (16_ordering.md R374). -/
def State.onlyCopy (s : State) (line : Option (Nat × Nat)) (key : Nat) : Bool :=
  match s.copyOf line key with
  | some v => v.dirty != 0
  | none => false

/-- n bytes at a linear address as an access through a virtual line sees them: its V-copy, otherwise memory. -/
def State.viewBytes (s : State) (line : Option (Nat × Nat)) (key n : Nat) : Nat :=
  match s.copyOf line key with
  | some v => lineBytes v.data (key % 128) n
  | none => readBytes s.mem key n

/-- A doubleword as an access through a virtual line sees it. -/
def State.viewDword (s : State) (line : Option (Nat × Nat)) (key : Nat) : Word := wordOf (s.viewBytes line key 8)

/-- The hint a line records: `.byp` fills as `.str` (05_memory_instr.md R121, 15_memory_map.md R351). -/
def recordedHint (h : BitVec 2) : BitVec 2 := if h = 3 then 1 else h

/-- What a hit with a hint leaves recorded: hint 0 leaves the line's (R351). -/
def hitHint (old h : BitVec 2) : BitVec 2 := if h = 0 then old else recordedHint h

/-- The victim among the lines of a set, given newest first: `.str`, then default, then `.stk`, the oldest of its class (R351). -/
def victimOf {α : Type} (hint : α → BitVec 2) (set : List α) : Option α :=
  let old := set.reverse
  match old.find? (fun x => hint x == 1) with
  | some x => some x
  | none => match old.find? (fun x => hint x != 2) with
    | some x => some x
    | none => old.head?

/-- The `.stk` line that becomes default: the oldest of a set, newest first, that holds more than its limit (R351). -/
def overStuck {α : Type} (hint : α → BitVec 2) (limit : Nat) (set : List α) : Option α :=
  let stuck := set.filter (fun x => hint x == 2)
  if limit < stuck.length then stuck.getLast? else none

/-- n bytes stored through a virtual line: into its V-copy, which becomes modified, or into memory where the slice holds none
(a line filled, modified and written back at once). -/
def State.putBytes (s : State) (line : Option (Nat × Nat)) (key n v : Nat) : State :=
  match s.copyOf line key with
  | none => s.storeBytes key n v
  | some c =>
    let u : VCopy := { c with
      data := setLineBytes c.data (key % 128) n v
      dirty := c.dirty ||| BitVec.ofNat 128 ((2 ^ n - 1) * 2 ^ (key % 128)) }
    { s.storeBytes key n v with mem := s.mem, vcopies := s.vcopies.map (fun x => if x = c then u else x) }

/-! ### Fat pointers (01_assembly.md R34, R37, R38) -/

def ptrFmt (p : Word) : Nat := bitsOf p 63 58
def ptrBlk (p : Word) : Nat := bitsOf p 57 55
def ptrSpace (p : Word) : Nat := bitsOf p 54 52
def ptrAddr (p : Word) : Nat := bitsOf p 51 0
def ptrPkg (p : Word) : Nat := bitsOf p 51 44
def ptrCore (p : Word) : Nat := bitsOf p 43 32
def ptrOff (p : Word) : Nat := bitsOf p 31 0

/-- A reserved format code (02_numbers.md R44). -/
def fmtReserved (f : Nat) : Bool :=
  (decide (0x09 ≤ f) && decide (f ≤ 0x0F)) || (decide (0x18 ≤ f) && decide (f ≤ 0x1F)) || decide (0x23 ≤ f)

/-- The highest bit of the address field of a pointer's space (04_scalar.md R107). -/
def addrTop (p : Word) : Nat := if ptrSpace p = 1 then 31 else if ptrSpace p = 2 then 39 else 51

/-- A pointer advanced by a signed delta within its address field; none when it leaves the field (PTROVF, R107). -/
def advance (p : Word) (delta : Int) : Option Word :=
  let hi := addrTop p
  let t : Int := (bitsOf p hi 0 : Int) + delta
  if t < 0 ∨ t ≥ (2 : Int) ^ (hi + 1) then none else some (setBits p hi 0 t.toNat)

/-- The bytes of an element of an unpacked format (R107); 0 for the others. -/
def fmtBytes (f : Nat) : Nat :=
  match f with
  | 0x00 | 0x01 | 0x05 | 0x14 | 0x15 => 1
  | 0x02 | 0x06 | 0x12 | 0x13 => 2
  | 0x03 | 0x07 | 0x11 => 4
  | 0x04 | 0x08 | 0x10 => 8
  | _ => 0


/-! ### How a meaning ends -/

/-- A trap (10_system_instr.md R275): cause, CODE, FADDR, and XPC where it is not the instruction itself; for PAGE, the
REASON and DETAIL of the fault report (22_faults.md R423). -/
structure TrapInfo where
  cause : Cause
  faddr : Word := 0
  code : Nat := 0
  xpc : Option Word := none
  reason : Nat := 0
  detail4 : Word := 0
  detail5 : Word := 0
  /-- The instruction's own address, where the pc has already passed it (STEP). -/
  iaddr : Option Word := none
  deriving DecidableEq, Repr

/-- Why an instruction does not retire: a trap or a wait, with the state as it stood, or with the part of its effect
that stays. -/
inductive Stop where
  | trap (t : TrapInfo)
  | trapIn (s : State) (t : TrapInfo)
  | wait (w : Wait)
  | waitIn (s : State) (w : Wait)
  deriving DecidableEq, Repr

/-- What executing an instruction gives: the state after it retires, or why it does not. -/
abbrev Run := Except Stop State

def trapWith {α : Type} (c : Cause) (faddr : Word) : Except Stop α := .error (.trap { cause := c, faddr := faddr })
def pageTrap {α : Type} (faddr : Word) (reason : Nat) : Except Stop α :=
  .error (.trap { cause := .page, faddr := faddr, reason := reason })
def stall {α : Type} (w : Wait) : Except Stop α := .error (.wait w)

/-! ### Contexts and their scalar registers -/

/-- STATUS.PL, XPL, XH, STEP, LUT, SAT8 and RM (10_system_instr.md R270). -/
def Ctx.level (c : Ctx) : Nat := bitsOf c.status 13 12
def Ctx.xpl (c : Ctx) : Nat := bitsOf c.status 15 14
def Ctx.inTrap (c : Ctx) : Bool := bitAt c.status 11
def Ctx.stepping (c : Ctx) : Bool := bitAt c.status 9
def Ctx.trapsDead (c : Ctx) : Bool := bitAt c.status 8
def Ctx.sat8 (c : Ctx) : Bool := bitAt c.status 7
def Ctx.rm (c : Ctx) : Nat := bitsOf c.status 2 0

/-- Where register r stands: its pool place, or a shadow of g28 to g31 (06_task_instr.md R177, 10_system_instr.md
R276). -/
def Ctx.place (c : Ctx) (r : Reg) : Nat :=
  if r.toNat < 28 then r.toNat
  else if c.inTrap ∧ ¬ (c.inLight ∧ c.lightNested) then r.toNat + 4
  else if c.inLight then r.toNat + 8
  else r.toNat

/-- The value at a place. -/
def Ctx.at_ (c : Ctx) (p : Nat) : Word :=
  if p < 32 then c.regs.toList.getD p 0
  else if p < 36 then c.trapShadow.toList.getD (p - 32) 0
  else c.lightShadow.toList.getD (p - 36) 0

/-- A value joins the earlier contents that a dead read may return; one of the secure world does not (00_scope.md R9). -/
def Ctx.remember (c : Ctx) (v : Word) : List Word := if c.level = 2 then c.past else v :: c.past

/-- A place written: the register becomes live (01_assembly.md R28). -/
def Ctx.write (c : Ctx) (p : Nat) (v : Word) : Ctx :=
  if p < 32 then
    { c with regs := c.regs.setIfInBounds p v, live := c.live ||| ((1 : BitVec 32) <<< p), past := c.remember v }
  else if p < 36 then { c with trapShadow := c.trapShadow.setIfInBounds (p - 32) v, past := c.remember v }
  else { c with lightShadow := c.lightShadow.setIfInBounds (p - 36) v, past := c.remember v }

/-- The values of the live registers of the pool. -/
def Ctx.liveValues (c : Ctx) : List Word :=
  ((List.range 32).filter (fun i => c.live.getLsbD i)).map (fun i => c.regs.toList.getD i 0)

/-- g registers written, g0 discarding what is written to it (01_assembly.md R25). -/
def Ctx.setReg (c : Ctx) (r : Reg) (v : Word) : Ctx := if r = 0 then c else c.write (c.place r) v

/-- A register made dead by a last-use mark; the shadow registers stay live (06_task_instr.md R177, 10_system_instr.md
R276). -/
def Ctx.kill (c : Ctx) (r : Reg) : Ctx :=
  if c.place r < 32 then { c with live := c.live &&& ~~~((1 : BitVec 32) <<< c.place r) } else c

/-- The physical registers a context holds (01_assembly.md R29). -/
def Ctx.holds (c : Ctx) : Nat := ((List.range 32).filter (fun i => c.live.getLsbD i)).length

/-- Whether a context is live on its core (12_execution.md R303: waiting, FAULTED and pre-empted contexts count, and one that has
still to leave its core). -/
def Ctx.isLive (c : Ctx) : Bool := c.run != .free

/-- Whether a context has been pre-empted for registers, a gang stop laid over it or not (R31, 22_faults.md R434). -/
def Ctx.isPreempted (c : Ctx) : Bool := c.run == .preempted || (c.run == .gangStopped && c.under == .preempted)

/-- The shared physical registers of a core in use (01_assembly.md R29), those set aside for a waiting instruction among them (R30);
a pre-empted helper holds none (R31). -/
def Core.sharedUsed (k : Core) : Nat :=
  (k.ctxs.map (fun e => if e.1 = 0 ∨ e.2.isPreempted ∨ ¬ e.2.isLive then 0 else max e.2.holds e.2.reserve - 16)).sum

/-- Whether the issuing context may hold the registers of c after this write: the control context always; a helper
within its reserve or what it holds already; otherwise the shared part must have room and no other helper may wait
(01_assembly.md R29, R30). -/
def State.poolFits (s : State) (c : Ctx) : Bool :=
  decide (s.cur.2 = 0) || decide (c.holds ≤ 16) || decide (c.holds ≤ max s.me.holds s.me.reserve)
    || (decide ((s.setMe c).mine.sharedUsed ≤ 64)
        && (match s.mine.waiters with
            | [] => true
            | w :: _ => decide (w.ctx = s.cur.2)))

/-- Whether a load whose data is still to come writes this place of the issuing context (05_memory_instr.md R119). A blocking access
is the instruction at which the context stands, and holds back no register of its own; a release held at the core waits for its
result too (R128). -/
def State.awaited (s : State) (p : Nat) : Bool :=
  s.requests.any (fun q => !q.blocking && q.core == s.cur.1 && q.ctx == s.cur.2 && q.target == .reg p)
    || s.held.any (fun h => h.core == s.cur.1 && h.ctx == s.cur.2 && (match h.what with
      | .request q => q.target == .reg p
      | _ => false))

/-- The value of a scalar source (01_assembly.md R27; 05_memory_instr.md R119; 16_ordering.md R373). A dead read with
LUT = 0 gives a free choice among the earlier contents of the context's own registers, or 0. -/
def State.readReg (s : State) (r : Reg) : Except Stop Word :=
  if r = 0 then .ok 0
  else
    let c := s.me
    let p := c.place r
    if s.awaited p then stall .retry
    else match Table.look c.lostLoads p with
    | some e => pageTrap e.address e.page
    | none =>
      if p < 32 ∧ ¬ c.live.getLsbD p then
        if c.trapsDead then trapWith .deadreg (wordOf r.toNat)
        else .ok (c.past.getD (s.free r.toNat c.past.length) 0)
      else .ok (c.at_ p)

/-- The registers whose last-use mark is set. -/
def used (l : Bool) (r : Reg) : List Reg := if l then [r] else []

/-! ### Translation (15_memory_map.md R337, R340 to R343) -/

/-- What an access needs of its page. -/
structure Need where
  read : Bool := false
  write : Bool := false
  exec : Bool := false
  /-- a plain load or a fetch -/
  plain : Bool := false
  deriving DecidableEq, Repr

def Need.load : Need := { read := true, plain := true }
def Need.store : Need := { write := true }
def Need.both : Need := { read := true, write := true }
def Need.read_ : Need := { read := true }
def Need.fetch : Need := { read := true, exec := true, plain := true }

/-- Whether the page [frame, frame + size) lies inside one window of R333. -/
def inWindows (frame size : Nat) : Bool :=
  decide (frame + size ≤ 0x14000000000)
    || (decide (0x40000000000 ≤ frame) && decide (frame + size ≤ 0x44000000000))
    || (decide (0x44000000000 ≤ frame) && decide (frame + size ≤ 0x54000000000))

/-- What an entry with k levels below it says: the table it leads to, or the size of the page that its leaf maps; or the reason it fails
(R341 to R343), in the order 0 not present, 2 malformed, 3 foreign. -/
def State.tableEntry (s : State) (p : Partition) (k : Nat) (e : Word) : Except Nat (Nat ⊕ Nat) :=
  if !bitAt e 0 then .error 0
  else if bitAt e 1 then
    let size := if bitAt e 7 then 2 ^ (16 + 8 * k) else 2 ^ (12 + 8 * k)
    let frame := bitsOf e 51 12 * 4096
    if bitsOf e 63 58 ≠ 0 ∨ k = 4 ∨ (k = 3 ∧ bitAt e 7) ∨ frame % size ≠ 0 ∨ (bitsOf e 57 52 ≠ 0 ∧ ¬ bitAt e 6)
        ∨ (bitAt e 6 ∧ bitAt e 3) ∨ ¬ inWindows frame size then .error 2
    else if (pageGigabytes frame size).all (fun g => p.holdsGigabyte g || (bitAt e 5 && s.isFirmware (g * 2 ^ 30))) then .ok (.inr size)
    else .error 3
  else
    let next := bitsOf e 51 11 * 2048
    match linearOf next with
    | none => .error 2
    | some nl =>
      if bitsOf e 63 52 ≠ 0 ∨ bitsOf e 10 2 ≠ 0 ∨ k = 0 then .error 2
      else if !p.holdsGigabyte (nl / 2 ^ 30) then .error 3
      else .ok (.inl next)

/-- The walk (R340 to R343) over a table with `k + 1` levels to go: the leaf, or the reason it fails. -/
def walkFrom (s : State) (n : Nat) (p : Partition) (va : Nat) : Nat → Nat → Except Nat Translation
  | 0, _ => .error 2
  | k + 1, table =>
    let entry := table + 8 * (va / 2 ^ (12 + 8 * k) % 256)
    match linearOf entry with
    | none => .error 2
    | some lin => match s.tableEntry p k (s.dword lin) with
      | .error r => .error r
      | .ok (.inr size) => .ok { part := n, page := va / size * size, leaf := s.dword lin, entry := entry, size := size }
      | .ok (.inl next) => walkFrom s n p va k next

/-- The slice at the set position of a key (R337), as a home number. -/
def Partition.sliceOf (p : Partition) (k : Nat) : Nat :=
  let sl := p.slices
  let h := k * 0x9E3779B97F4A7C15 % 2 ^ 64 / 2 ^ 32
  4352 + sl.getD (h * sl.length / 2 ^ 32) 0

def State.sliceOf (s : State) (n k : Nat) : Nat :=
  match s.part n with
  | some p => p.sliceOf k
  | none => 4352

/-- The root table of a partition's record (R340): it lies in the partition's memory as every other table does (R343, reasons 2 and 3). -/
def Partition.root (p : Partition) : Except Nat Nat :=
  let root := bitsOf (p.dw 7) 51 11 * 2048
  match linearOf root with
  | none => .error 2
  | some lin => if p.holdsGigabyte (lin / 2 ^ 30) then .ok root else .error 3

/-- A walk from the root. -/
def State.walk (s : State) (n va : Nat) (p : Partition) : Except Nat Translation :=
  match p.root with
  | .error r => .error r
  | .ok root => walkFrom s n p va 5 root

/-- The leaf for a virtual address: one that its virtual-hash slice caches, or walked (R344). -/
def State.leafFor (s : State) (n va : Nat) : Except Nat Translation :=
  match s.part n with
  | none => .error 0
  | some p =>
    let slice := p.sliceOf (va / 4096)
    match s.translations.find? (fun t => t.part == n && t.slice == slice && decide (t.page ≤ va) && decide (va < t.page + t.size)) with
    | some t => .ok t
    | none => (s.walk n va p).map (fun t => { t with slice := slice })

/-- Whether a key slot can serve a partition (25_package.md R468). -/
def State.keyUsable (s : State) (n slot : Nat) : Bool :=
  (match s.part n with
    | some p => p.holdsKey slot
    | none => false)
    && (match Table.look s.keySlots slot with
        | some k => k.part == n
        | none => false)

/-- The permissions of R343: false means reason 1. -/
def State.permits (s : State) (n level : Nat) (need : Need) (leaf : Word) : Bool :=
  (!need.read || bitAt leaf 2) && (!need.write || bitAt leaf 3) && (!need.exec || bitAt leaf 4)
    && (!bitAt leaf 5 || decide (level = 2))
    && (!bitAt leaf 6 || (need.plain && s.keyUsable n (bitsOf leaf 57 52)))

/-- A virtual address translated: its physical address, its leaf, and its linear equivalent; or the reason of R343. -/
def State.translate (s : State) (n level : Nat) (need : Need) (va : Nat) : Except Nat (Translation × Nat) :=
  match s.leafFor n va with
  | .error r => .error r
  | .ok t =>
    if s.permits n level need t.leaf then
      match linearOf (bitsOf t.leaf 51 12 * 4096 / t.size * t.size + va % t.size) with
      | some lin => .ok (t, lin)
      | none => .error 2
    else .error 1

/-- The partition that holds a linear byte (R335). -/
def State.ownerOf (s : State) (lin : Nat) : Option Nat :=
  (s.parts.find? (fun e => e.2.holdsGigabyte (lin / 2 ^ 30))).map (·.1)

/-! ### Where an access goes (01_assembly.md R34 to R42) -/

/-- The tag under which L2 keeps the lines of a partition for a world: the secure world's, at level 2, are its own (25_package.md R467). A
request hits only lines of its own world, and the other world's copies of the line stay as they are (log 89). -/
def worldTag (part level : Nat) : Nat := if level = 2 then part + 16 else part
/-- The partition of a tag. -/
def tagPart (tag : Nat) : Nat := tag % 16

/-- A claim with a new number of lanes: lanes above are lost, new lanes read 0 (07_vector_instr.md R185). -/
def Claim.resize (c : Claim) (gn : Nat) : Claim :=
  { c with g := gn, k1 := min c.k1 gn, k2 := min c.k2 gn, k3 := min c.k3 gn
           v := c.v.map (fun r => (List.range gn).map (fun j => r.getD j 0)) }

/-- A claim whose context resumes: the lanes whose units the pool has taken are lost (R188). -/
def Claim.settled (c : Claim) : Claim := if 16 * c.groups.length < c.g then c.resize (16 * c.groups.length) else c

/-- A context that resumes: its claim is renegotiated to the lanes it still holds (R188). -/
def Ctx.resumed (c : Ctx) : Ctx :=
  if c.stopOrder = 0 then c else { c with stopOrder := 0, stopMerge := 0, claim := c.claim.map Claim.settled }

/-- A context that stops, as the `order`-th of the package, at the instruction at `pc` (R188): a stop upon a stop is none for its claim. -/
def Ctx.stopped (c : Ctx) (order : Nat) : Ctx :=
  if c.stopOrder ≠ 0 then c
  else { c with
    stopOrder := order
    stopMerge := match c.mergeAt with
      | some (pc, lanes) => if pc = c.pc then lanes else 0
      | none => 0 }

/-- The crew of a context. -/
def State.crewOf (s : State) (core ctx : Nat) : Option Crew :=
  match (s.ctx core ctx).role with
  | .member id => s.crews.find? (fun c => c.id == id)
  | _ => none

/-- The core a CORE pointer names on this package, crew-relative addresses resolved against the crew (R40, R41); `inr`
another package. `none` is an address that traps with ADDRESS. -/
def State.coreNamed (s : State) (p : Word) : Option (Nat ⊕ Nat) :=
  if ptrPkg p = 0xFE then none
  else if ptrPkg p = 0xFD then
    match s.crewOf s.cur.1 s.cur.2 with
    | none => none
    | some c =>
      if coreX (ptrCore p) < c.rect.w ∧ coreY (ptrCore p) < c.rect.h then
        some (.inl (coreAt (c.rect.x + coreX (ptrCore p)) (c.rect.y + coreY (ptrCore p))))
      else none
  else if ptrPkg p = 0xFF ∨ ptrPkg p = s.pkg.toNat then some (.inl (ptrCore p))
  else some (.inr (ptrPkg p))

/-- Whether a core of this package may be named by the issuing context (R40; a service core names any, 25_package.md
R481). -/
def State.mayName (s : State) (core : Nat) : Bool :=
  isService s.cur.1 || (s.partOf core).isSome && s.partOf core == s.myPart

/-- The acknowledgement counter of a CORE store (05_memory_instr.md R120). -/
def State.coreCounter (s : State) (core : Nat) : Nat :=
  if !isService s.cur.1 && superGroupOf core == superGroupOf s.cur.1 then 1 else 2

/-- Where an offset of a core lies while a forwarding entry covers its bank (22_faults.md R427): at the destination of the
migration, along the chain. -/
def State.forwardedCore (s : State) (off : Nat) : Nat → Nat → Nat
  | 0, core => core
  | fuel + 1, core =>
    match (s.core core).forwards.reverse.find? (fun f => f.banks.getLsbD (off / 8192)) with
    | some f => s.forwardedCore off fuel f.toCore
    | none => core

/-- Whether an offset of a core's local SRAM may be reached by a program (01_assembly.md R39, 10_system_instr.md R271):
inside the 256 KiB, outside the cache units, and outside the reserved area but for the routine table at level 1. -/
def State.offsetOk (s : State) (core off level : Nat) : Bool :=
  let unit := off / 0x8000
  let cw := (s.core core).lsplit.toNat
  decide (off < 0x40000) && !(decide (7 - cw ≤ unit) && decide (unit < 7))
    && (decide (off < 0x3C000) || (decide (1 ≤ level) && decide (0x3D000 ≤ off) && decide (off < 0x3D100)))

/-- The place of an access of the issuing context through pointer p: the checks of R35 and R37 to R42 with the
alignment of 05_memory_instr.md R115, then, for VIRT, the translation (R119). `sync` takes the home of synchronising
accesses (R118), and `bonded` refuses firmware memory (15_memory_map.md R335: synchronising accesses, atomics, reductions and joins;
not TAGW and VRECL). A SHRD pointer traps here; LDS, STS and copies have their own lookup. -/
def State.placeOf (s : State) (p : Word) (align : Nat) (need : Need) (sync : Bool) (bonded : Bool := sync) : Except Stop Place :=
  let level := s.me.level
  if fmtReserved (ptrFmt p) then trapWith .format p
  else if ptrSpace p = 0 then
    match s.myPart with
    | none => trapWith .address p
    | some n =>
      if ptrAddr p % align ≠ 0 then trapWith .address p
      else match s.translate n level need (ptrAddr p) with
        | .error r => pageTrap p r
        | .ok (t, lin) =>
          let firm := s.isFirmware lin
          if firm ∧ bonded then trapWith .address p
          else
            let line := some (worldTag n level, ptrAddr p / 128)
            .ok { key := lin, part := n, counter := 0, seen := some t, line := line
                  home := if sync then s.sliceOf n (lin / 128) else s.sliceOf n (ptrAddr p / 4096)
                  sealSlot := if bitAt t.leaf 6 then some (bitsOf t.leaf 57 52) else none
                  lost := s.dieLost (linearDie lin) && (sync || !(s.onlyCopy line lin)) }
  else if ptrSpace p = 1 then
    match s.coreNamed p with
    | none => trapWith .address p
    | some (.inr pkg) =>
      -- the reserved and port ranges of R39 are refused at issue; the rest is checked by the owner (R40)
      if 0x40000 ≤ ptrOff p then trapWith .address p
      else if ptrOff p % align ≠ 0 then trapWith .address p
      else .ok { key := sramKey (ptrCore p) (ptrOff p), home := ptrCore p, counter := 3, part := s.myPart.getD 0, remote := some pkg }
    | some (.inl core) =>
      if !s.offsetOk core (ptrOff p) level then trapWith .address p
      else if !s.mayName core then trapWith .address p
      else if s.dieLost (coreDie core) then pageTrap p 4
      else if ptrOff p % align ≠ 0 then trapWith .address p
      else
        let at_ := s.forwardedCore (ptrOff p) 4096 core
        .ok { key := sramKey at_ (ptrOff p), home := at_, counter := s.coreCounter core, part := s.myPart.getD 0
              via := if at_ = core then none else some core }
  else if ptrSpace p = 3 then
    if level = 0 then trapWith .priv p
    else match linearOf (ptrAddr p) with
      | none => trapWith .address p
      | some lin =>
        let owner := s.ownerOf lin
        if level < 2 ∧ owner = none then trapWith .priv p
        else if level < 2 ∧ owner ≠ s.myPart then trapWith .address p
        else if ptrAddr p % align ≠ 0 then trapWith .address p
        else if bonded ∧ owner = none then trapWith .address p
        else .ok { key := lin, home := s.sliceOf (owner.getD 0) (lin / 128), counter := 0, part := owner.getD 0
                   lost := s.dieLost (linearDie lin) }
  else trapWith .address p

/-- A used translation enters the translation cache of its slice: 4,096 entries, of which a full cache loses a free one with its
counts (15_memory_map.md R344, R346). -/
def State.note (s : State) (pl : Place) : State :=
  match pl.seen with
  | none => s
  | some t =>
    let same (x : Translation) : Bool := x.part == t.part && x.slice == t.slice && x.page == t.page
    if s.translations.any same then s
    else
      let mates := s.translations.filter (fun x => x.slice == t.slice)
      let kept := if mates.length < 4096 then s.translations
        else s.translations.erase (mates.getD (s.free (2 ^ 51 + t.page) mates.length) t)
      { s with translations := { t with reads := 0, writes := 0 } :: kept }

/-- An event that heats a page counted with the translation that its slice caches: a fill that a read makes, or a write-back or
write-through (R346). -/
def State.countHeat (s : State) (tag va : Nat) (write : Bool) : State :=
  let part := tagPart tag
  let slice := s.sliceOf part (va / 4096)
  let seen (t : Translation) : Bool := t.part == part && t.slice == slice && decide (t.page ≤ va) && decide (va < t.page + t.size)
  if s.translations.any seen then
    { s with translations := s.translations.map (fun t =>
        if seen t then (if write then { t with writes := t.writes + 1 } else { t with reads := t.reads + 1 }) else t) }
  else s

/-! ### Busy patches (08_matrix_instr.md R214) -/

/-- The patch a command names: none for a command that starts from zero and writes back (R218). -/
def Command.patchNamed (c : Command) : Option Nat :=
  match c.kind with
  | .mpre => none
  | .mma | .mbs | .msp => if c.zero ∧ bitAt (c.block.toList.getD 0 0) 58 then none else some c.patch
  | _ => some c.patch

/-- The commands an engine has accepted and not ended, oldest first (R218). -/
def Engine.accepted (e : Engine) : List Command := e.running.toList ++ e.queue

/-- Whether a byte lies in a busy patch: an access that is not the engine's own is held (R214). -/
def State.patchBusy (s : State) (key : Nat) : Bool :=
  isSram key && decide (key % 2 ^ 18 < 0x10000)
    && (s.core ((key - 2 ^ 45) / 2 ^ 18)).engine.accepted.any (fun c => c.patchNamed == some (key % 2 ^ 18 / 0x1000))

/-- Where a byte lies once the forwarding entries that stand have been followed (22_faults.md R427). -/
def State.finalKey (s : State) (key : Nat) : Nat :=
  if isSram key then sramKey (s.forwardedCore (key % 2 ^ 18) 4096 ((key - 2 ^ 45) / 2 ^ 18)) (key % 2 ^ 18) else key

/-- Whether a request of a core that it has still to see accepted may stand before another access of the core to a byte: at
memory, any of its requests to memory; at a core, one to the same doubleword, at its old place or its new one (05_memory_instr.md R118,
16_ordering.md R370, R372). -/
def State.unaccepted (s : State) (core key : Nat) : Bool :=
  s.requests.any (fun q => q.core == core && q.origin.isNone && q.remote.isNone && (match q.stage with
      | .sent | .nacked => true
      | _ => false)
    && (if isSram key then s.finalKey q.key / 8 == s.finalKey key / 8 else !isSram q.key))

/-- Whether a forwarding entry of a core covers the bank of a byte: its requests are answered there with NACK-with-forward
(22_faults.md R427). -/
def State.bankMoved (s : State) (key : Nat) : Bool :=
  isSram key && (s.core ((key - 2 ^ 45) / 2 ^ 18)).forwards.any (fun f => f.banks.getLsbD (key % 2 ^ 18 / 8192))

/-- Whether an access of a core to a byte is performed as it is sent. -/
def State.nowFor (s : State) (core key : Nat) : Bool :=
  s.eager && !s.patchBusy key && !s.unaccepted core key && !s.bankMoved key

/-- Whether an access of the issuing core to a byte is performed as it is sent. -/
def State.nowAt (s : State) (key : Nat) : Bool := s.nowFor s.cur.1 key

/-- The state as a context of a given level sees it: for the checks of an access made for it later. -/
def State.asIssuer (s : State) (core ctx level : Nat) : State :=
  { s with cur := (core, ctx) }.setCtx core ctx { s.ctx core ctx with status := setBits (s.ctx core ctx).status 13 12 level }

/-! ### Reading memory -/

/-- The 512 bytes of a sealed unit, deciphered (25_package.md R468); none where its MAC does not match. -/
def State.unsealed (s : State) (n slot lin : Nat) : Option (List Byte) :=
  match s.part n, Table.look s.keySlots slot with
  | some p, some k =>
    let unit := lin / 512 * 512
    let data := byteList s.mem unit 512
    let index := ((List.range (lin / 2 ^ 30)).filter p.holdsGigabyte).length
    let macAt := bitsOf (p.dw 11) 51 12 * 4096 + 8 * (index * 2 ^ 21 + unit % 2 ^ 30 / 512)
    let want := match linearOf macAt with
      | some m => byteList s.mem m 8
      | none => []
    if kmac256 k.mac (data ++ bytesOf unit 8) 8 (ascii "EXNUM-SEAL") = want then
      some (xtsDecrypt k.data1 k.data2 (unit / 512) data)
    else none
  | _, _ => none

/-- The bytes of the V-copies of its world that other aliases of a line hold (15_memory_map.md R339, 25_package.md R467). -/
def State.aliasValues (s : State) (line : Option (Nat × Nat)) (key n : Nat) : List Nat :=
  (s.vcopies.filter (fun v => v.frame == key / 128 && line != some (v.part, v.line)
    && (match line with
      | some l => l.1 / 16 == v.part / 16
      | none => true))).map (fun v => lineBytes v.data (key % 128) n)

/-- n bytes read at a place as a plain load or fetch reads them at L2; none where they are poisoned (22_faults.md R428). Where a
program mixes aliases of the line, the value is a free choice among what they hold (15_memory_map.md R339). -/
def State.plainRead (s : State) (pl : Place) (n : Nat) : Option Nat :=
  if s.poisoned pl.key n then none
  else
    let own := match s.copyOf pl.line pl.key with
      | some v => some (lineBytes v.data (pl.key % 128) n)
      | none => match pl.sealSlot with
        | none => some (readBytes s.mem pl.key n)
        | some slot => (s.unsealed pl.part slot pl.key).map (fun u => ofBytes ((u.drop (pl.key % 512)).take n))
    match s.aliasValues pl.line pl.key n with
    | [] => own
    | others => own.map (fun v =>
        let all := (v :: others) ++ (if pl.sealSlot.isNone then [readBytes s.mem pl.key n] else [])
        all.getD (s.free (2 ^ 52 + pl.key) all.length) v)

/-- The line of a core's own cache portion. -/
def Core.ownLine (k : Core) (line : Nat) : Option NearLine := k.lines.find? (fun e => e.line == line && e.epoch.isNone)

/-- The pool line at which a core that misses in its own portion hits: one older than its latest acquire is a miss (15_memory_map.md
R349). -/
def State.poolLine (s : State) (core line : Nat) : Option NearLine :=
  let since := (s.core core).acquired
  (tileCores (coreTile core)).findSome? (fun n => (s.core n).lines.find? (fun e => e.line == line && (match e.epoch with
    | some t => !(t.ult since)
    | none => false)))

/-- The line of the core cache or victim pool at which a plain load of the core hits (15_memory_map.md R348, R349). -/
def State.nearLine (s : State) (core line : Nat) : Option (BitVec 1024) :=
  let k := s.core core
  if k.lsplit = 0 then none
  else match k.ownLine line with
    | some e => some e.data
    | none => (s.poolLine core line).map (·.data)

/-- The near line of a plain load of the issuing context; `.byp` and other spaces have none (05_memory_instr.md R121). -/
def State.nearHit (s : State) (p : Word) (pl : Place) (hint : BitVec 2) : Option (BitVec 1024) :=
  match pl.line with
  | none => none
  | some l => if hint = 3 ∨ ptrSpace p ≠ 0 then none else s.nearLine s.cur.1 l.2

/-- n bytes read at a place by the issuing core's own plain load: at a near hit, otherwise at L2. -/
def State.ownRead (s : State) (p : Word) (pl : Place) (n : Nat) (hint : BitVec 2) : Option Nat :=
  match s.nearHit p pl hint with
  | some d => some (lineBytes d (pl.key % 128) n)
  | none => s.plainRead pl n

/-- The pointer of the doubleword of a byte: FADDR of a poisoned read (22_faults.md R428). -/
def dwordPtr (p : Word) : Word := setBits p 2 0 0

/-! ### Packets to other packages (24_fabric.md R443 to R446) -/

/-- Ports that carry a partition's requests to a package: its own ports that are up, with a valid entry of the smallest
HOPS (24_fabric.md R446, 25_package.md R466). -/
def State.routePorts (s : State) (part pkg : Nat) : List Nat :=
  let hops (n : Nat) : Nat := match Table.look (Table.get s.ports n {}).routes pkg with
    | some (true, h) => if (Table.get s.ports n {}).up then h else 0
    | _ => 0
  match s.part part with
  | none => []
  | some p =>
    let c := (List.range 16).filter (fun n => p.holdsPort n && decide (hops n ≠ 0))
    let best := c.foldl (fun m n => min m (hops n)) 16
    c.filter (fun n => decide (hops n = best))

/-- The port of a packet (R446). -/
def State.portFor (s : State) (part pkg source homekey : Nat) : Option Nat :=
  let ports := s.routePorts part pkg
  let k := (source * 2 ^ 48) ^^^ homekey
  let h := k * 0x9E3779B97F4A7C15 % 2 ^ 64 / 2 ^ 32
  ports[h * ports.length / 2 ^ 32]?

/-- homekey (R446): the destination core of a CORE request, otherwise the address that the request carries, shifted right by 7. -/
def homekeyOf (home key : Nat) : Nat := if home < 4096 then home else key / 128

/-- Flits of a packet queued at a port; the manual gives no layout for their data, which is free (log 15). -/
def State.queueFlits (s : State) (port n : Nat) : State :=
  let p := Table.get s.ports port {}
  { s with ports := Table.put s.ports port { p with
      queued := p.queued ++ (List.range n).map (fun i =>
        BitVec.ofNat 256 (Config.choice s.choice (2 ^ 40 + port * 2 ^ 32 + p.queued.length + i))) } }

/-- The sequence number of a request from a source to a home of another package, and the counter after it (R444). -/
def State.takeSeq (s : State) (source pkg home : Nat) : Nat × State :=
  let pair := (source * 256 + pkg) * 8192 + home
  let n := Table.get s.seqs pair 0
  (n, { s with seqs := Table.put s.seqs pair ((n + 1) % 2 ^ 32) })

/-- A request to an L2 slice of this package takes its sequence number, which counts per pair of source and slice; one to a local memory
unit has none (24_fabric.md R445). -/
def State.countSeq (s : State) (source home : Nat) : State := if home < 4096 then s else (s.takeSeq source 0xFF home).2

/-- The number that the latest request of a source to a home of this package took. -/
def State.lastSeq (s : State) (source home : Nat) : Nat :=
  if home < 4096 then 0 else (Table.get s.seqs ((source * 256 + 0xFF) * 8192 + home) 0 + 2 ^ 32 - 1) % 2 ^ 32

/-- The forwarding entries that an offset of a core goes through have forwarded: each starts its count again (22_faults.md R427). -/
def State.touchForwards (s : State) (off : Nat) : Nat → Nat → State
  | 0, _ => s
  | fuel + 1, core =>
    let k := s.core core
    match k.forwards.reverse.find? (fun f => f.banks.getLsbD (off / 8192)) with
    | none => s
    | some f => (s.setCore core { k with forwards := k.forwards.map (fun x => if x = f then { f with since := s.cycle } else x)
        }).touchForwards off fuel f.toCore

/-- The same for an access that goes to the core at the end of a chain. -/
def State.forwarded (s : State) (pl : Place) : State :=
  match pl.via with
  | none => s
  | some core => s.touchForwards (pl.key % 2 ^ 18) 4096 core

/-- A request of the issuing core leaves for a place of this package: its translation is cached, and it takes its number. -/
def State.depart (s : State) (pl : Place) : State := ((s.note pl).forwarded pl).countSeq s.cur.1 pl.home

/-- What an instruction of the issuing context has asked of another package through a pointer. -/
def State.asked (s : State) (p : Word) : Option Stage :=
  (s.requests.find? (fun q => q.blocking && q.cls.isNone && q.core == s.cur.1 && q.ctx == s.cur.2 && q.pc == s.me.pc
    && q.pointer == p)).map (·.stage)

/-- A load from another package on behalf of the instruction, which waits for it: PAGE with reason 4 where no route is valid
(16_ordering.md R373). -/
def State.ask (s : State) (p : Word) (pl : Place) (pkg n : Nat) : Stop :=
  match s.portFor pl.part pkg s.cur.1 (homekeyOf pl.home pl.key) with
  | none => .trap { cause := .page, faddr := p, reason := 4 }
  | some port =>
    let (seq, t) := s.takeSeq s.cur.1 pkg pl.home
    let r : Request :=
      { id := s.nextId, grp := s.nextId, core := s.cur.1, ctx := s.cur.2, blocking := true, op := .load n false, key := pl.key
        pointer := p, part := pl.part, level := s.me.level, remote := some pkg, home := pl.home, seq := seq, cls := none
        pc := s.me.pc }
    .waitIn ({ t with nextId := s.nextId + 1, requests := t.requests ++ [r] }.queueFlits port 1) (.request r.id)

/-- How many bytes from its address an operation touches. -/
def opBytes (op : MemOp) : Nat :=
  match op with
  | .load n _ | .store n | .amo _ n | .cas n => n
  | .loadFut | .loadTake | .storeFill | .storeGive | .loadVeq _ | .loadVge _ | .storeVnx | .storeVset _ | .tagRead | .tagWrite _ => 8
  | .carry => 16
  | .jinit | .join => 32
  | .reduceOpen _ | .reduceAdd _ | .reduceRead _ | .reduceClose _ => 64
  | .retire _ n => 8 * n
  | .flush n => n

/-- Whether a request or held release of the context numbered below `id` still has to be performed at a doubleword that an access
touches: the access waits for it, so that accesses of one context to one location keep their order (R122, R355). -/
def State.conflictsUpTo (s : State) (id key n : Nat) : Bool :=
  let key := s.finalKey key
  let near (r : Request) : Bool :=
    let at_ := s.finalKey r.key
    decide (at_ / 8 ≤ (key + max n 1 - 1) / 8) && decide (key / 8 ≤ (at_ + max (opBytes r.op) 1 - 1) / 8)
  s.requests.any (fun q => decide (q.id < id) && q.core == s.cur.1 && q.ctx == s.cur.2 && q.remote.isNone && near q
      && (match q.stage with
          | .sent | .nacked | .waiting _ _ => true
          | _ => false))
    || s.held.any (fun h => decide (h.id < id) && h.core == s.cur.1 && h.ctx == s.cur.2 && (match h.what with
        | .request r => near r
        | _ => false))

/-- The same for an access of the instruction in hand, to which every request is an earlier one. -/
def State.conflicts (s : State) (key n : Nat) : Bool := s.conflictsUpTo s.nextId key n

/-- A doubleword (or n bytes) read now through a pointer, as a plain load: what reads images and descriptors. It waits for the earlier
accesses of the context to the same location (05_memory_instr.md R122, 16_ordering.md R355). -/
def State.fetchData (s : State) (p : Word) (n : Nat) : Except Stop Nat := do
  let pl ← s.placeOf p n Need.load false
  match pl.remote with
  | some pkg =>
    match s.asked p with
    | some (.returned d) => pure (bitsOf d (8 * n - 1) 0)
    | some (.failed _ reason _ _) => pageTrap p reason
    | some _ => stall .retry
    | none => .error (s.ask p pl pkg n)
  | none =>
    if pl.lost then pageTrap p 4
    if s.patchBusy pl.key ∨ s.conflicts pl.key n then stall .retry
    match s.ownRead p pl n 0 with
    | some v => pure v
    | none => pageTrap (dwordPtr p) 5

/-- A pointer advanced within its address field, trapping with PTROVF (04_scalar.md R107). -/
def advanceOr (p : Word) (delta : Int) : Except Stop Word :=
  match advance p delta with
  | some q => .ok q
  | none => trapWith .ptrovf p

/-- The doublewords of an image read as plain `.d` loads. -/
def State.fetchImage (s : State) (p : Word) : Nat → Nat → Except Stop (List Word)
  | _, 0 => .ok []
  | i, n + 1 => do
    let q ← advanceOr p (8 * i)
    let v ← s.fetchData q 8
    let rest ← s.fetchImage p (i + 1) n
    pure (wordOf v :: rest)

/-! ### Banks of local SRAM (12_execution.md R306, R307) -/

/-- The bank a core's own instruction takes by writing to it. -/
def State.takeBank (s : State) (core ctx key : Nat) : State :=
  if isSram key then
    let n := (key - 2 ^ 45) / 2 ^ 18
    let bank := key % 2 ^ 18 / 8192
    if n = core ∧ 8 ≤ bank ∧ bank < 30 then
      let c := s.core core
      if (Table.look c.banks bank).isNone then s.setCore core { c with banks := Table.put c.banks bank ctx } else s
    else s
  else s

/-- A byte range scrubbed: it reads 0, with tags full at version 0, stamp none and no poison. -/
def State.scrub (s : State) (key n : Nat) : State :=
  { s with
    mem := s.mem.filter (fun c => !(decide (key ≤ c.1) && decide (c.1 < key + n)))
    tags := s.tags.filter (fun c => !(decide (key / 8 ≤ c.1) && decide (c.1 < (key + n) / 8)))
    stamps := s.stamps.filter (fun c => !(decide (key / 4096 ≤ c.1) && decide (c.1 < (key + n) / 4096)))
    poison := s.poison.filter (fun d => !(decide (key / 8 ≤ d) && decide (d < (key + n) / 8))) }

/-! ### Messages (06_task_instr.md R149, R159 to R161) -/

def Message.cls (m : Message) : Nat := bitsOf m.header 4 0
def Message.dctx (m : Message) : Nat := bitsOf m.header 39 36

/-- Where a message addressed to a context of a core goes while a forwarding entry names the context (22_faults.md R427). -/
def Core.forwardOf (k : Core) (m : Message) : Option Forward :=
  if m.cls = 0 ∨ m.cls = 3 ∨ m.cls = 5 then k.forwards.reverse.find? (fun f => f.helper == m.dctx) else none

/-- A header (R149): V = 1. -/
def headerOf (spkg score sctx dctx tag code cls : Nat) : Word :=
  wordOf (spkg * 2 ^ 56 + score % 4096 * 2 ^ 44 + sctx % 16 * 2 ^ 40 + dctx % 16 * 2 ^ 36 + 2 ^ 35 + tag % 65536 * 2 ^ 16
    + code % 256 * 2 ^ 8 + cls % 32)

/-- A user message: its inbox share is 56 (12_execution.md R308). -/
def Message.isUser (m : Message) : Bool := decide (8 ≤ m.cls)

/-- Whether an inbox refuses a message (R161, R308). -/
def inboxFull (box : List Message) (m : Message) : Bool :=
  decide (64 ≤ box.length) || (m.isUser && decide (56 ≤ (box.filter Message.isUser).length))

/-- One count of an outstanding-operation class (03_encoding.md R94): 0 ld, 1 st, 2 cp, 3 tl. -/
def Four.get (f : Four) (i : Nat) : Nat :=
  match i with
  | 0 => f.c0
  | 1 => f.c1
  | 2 => f.c2
  | _ => f.c3
def Four.set (f : Four) (i n : Nat) : Four :=
  match i with
  | 0 => { f with c0 := n }
  | 1 => { f with c1 := n }
  | 2 => { f with c2 := n }
  | _ => { f with c3 := n }

/-- Counts of a context raised and lowered: an outstanding class, and an acknowledgement counter where there is one. -/
def Ctx.begin_ (c : Ctx) (cls : Nat) (ack : Option Nat) : Ctx :=
  { c with
    outstanding := c.outstanding.set cls (c.outstanding.get cls + 1)
    acks := match ack with
      | none => c.acks
      | some a => c.acks.set a (c.acks.get a + 1) }
def Ctx.end_ (c : Ctx) (cls : Nat) (ack : Option Nat) : Ctx :=
  { c with
    outstanding := c.outstanding.set cls (c.outstanding.get cls - 1)
    acks := match ack with
      | none => c.acks
      | some a => c.acks.set a (c.acks.get a - 1) }
def State.beginOp (s : State) (core ctx cls : Nat) (ack : Option Nat) : State :=
  s.setCtx core ctx ((s.ctx core ctx).begin_ cls ack)
/-- A change of a context; of one that has been stopped since (a number of 16 or more, 06_task_instr.md R159) none. -/
def State.alterCtx (s : State) (core ctx : Nat) (f : Ctx → Ctx) : State :=
  if ctx < 16 then s.setCtx core ctx (f (s.ctx core ctx)) else s
def State.endOp (s : State) (core ctx cls : Nat) (ack : Option Nat) : State :=
  s.alterCtx core ctx (fun c => c.end_ cls ack)

/-- Contexts of a core waiting for something that may now hold try again. -/
def State.wake (s : State) (core ctx : Nat) : State :=
  let c := s.ctx core ctx
  match c.wait with
  | .retry | .request _ => s.setCtx core ctx { c with wait := .retry }
  | _ => s

/-- A flight is over: its sender's class st and acknowledgement counter drop (R162), or the count of the operation that a
completion ends. -/
def State.landed (s : State) (f : Flight) : State :=
  let s := { s with flights := s.flights.filter (fun g => g.id ≠ f.id) }
  let s := match f.ends with
    | none => s
    | some (core, ctx, cls) => s.endOp core ctx cls none
  match f.issuer with
  | none => s
  | some (core, ctx, a) => s.endOp core ctx 1 (some a)

/-- Where a message to a context of a core goes along the chain of forwarding entries (22_faults.md R427). -/
def State.finalDest (s : State) : Nat → Nat → Message → Nat
  | 0, n, _ => n
  | fuel + 1, n, m => match (s.core n).forwardOf m with
    | none => n
    | some f => s.finalDest fuel f.toCore { m with header := setBits m.header 39 36 f.toHelper }

/-- Whether an earlier message of the same sender to the same destination, at its old place or its new one, is still on its way (R161,
16_ordering.md R372). -/
def State.behind (s : State) (f : Flight) : Bool :=
  s.flights.any (fun g => g.source == f.source && g.byUnit == f.byUnit && decide (g.order < f.order) && (g.dest == f.dest || (match g.dest, f.dest with
    | .core a, .core b => s.finalDest 4096 a g.msg == s.finalDest 4096 b f.msg
    | _, _ => false)))

/-- A message in its place of an inbox: after those that stand there, but before those that came at the same GTC from a higher source
(00_scope.md R12). -/
def enterInbox (box : List Message) (m : Message) : List Message :=
  let late (x : Message) : Bool := x.came == m.came && decide (m.sender < x.sender)
  box.takeWhile (fun x => !late x) ++ m :: box.dropWhile (fun x => !late x)

/-- A message reaches a core (R159 to R161, R308): on a lost die it is lost, that of a program under a name of its own; class 1 and 4 end
at the network interface; a class 0 message for a context that is not live is discarded; class 3 and 5 stay for RESUME_MESSAGE and
STOP_MESSAGE; a full inbox answers NACK; otherwise the message enters the inbox. -/
def State.arrive (s : State) (f : Flight) : State :=
  match f.dest with
  | .core n =>
    if s.behind f then s
    else if n < 4096 ∧ s.dieLost (coreDie n) then (if f.issuer.isSome then s else s.landed f)
    else if f.msg.cls = 1 ∨ f.msg.cls = 4 then s.landed f
    else if f.msg.cls = 3 ∨ f.msg.cls = 5 ∨ ((s.core n).forwardOf f.msg).isSome then s
    else if f.msg.cls = 0 ∧ ¬ (s.ctx n f.msg.dctx).isLive then s.landed f
    else
      let c := s.core n
      if inboxFull c.inbox f.msg then
        { s with flights := s.flights.map (fun g => if g.id = f.id then { g with nacked := true } else g) }
      else (s.setCore n { c with inbox := enterInbox c.inbox { f.msg with came := s.gtc, sender := f.source }, received := c.received + 1 }).landed f
  | _ => s

/-- A message goes on its way, and with `eager` a core's inbox is reached at once. A core's network interface counts what
it sends (22_faults.md R431). -/
def State.sendFlight (s : State) (f : Flight) : State :=
  let f := { f with order := s.nextOrder }
  let s := { s with flights := s.flights ++ [f], nextOrder := s.nextOrder + 1 }
  let s := if f.source < 4096 then s.setCore f.source { s.core f.source with sent := (s.core f.source).sent + 1 } else s
  match f.dest with
  | .core n => if s.eager && (decide (4096 ≤ n) || !s.dieLost (coreDie n)) then s.arrive f else s
  | _ => s

/-- A message sent by hardware or by a program. -/
def State.post (s : State) (dest : Dest) (msg : Message) (source : Nat) (part : Nat) (issuer : Option (Nat × Nat × Nat)) :
    State :=
  { s with nextId := s.nextId + 1 }.sendFlight
    { id := s.nextId, dest := dest, msg := msg, source := source, part := part, issuer := issuer, gtc := s.gtc }

/-- A class 0 completion to the context that issued an operation of a class, which counts until it has been placed (R149,
R150, R482). One for a context that has been stopped since is discarded (06_task_instr.md R159). -/
def State.complete (s : State) (core ctx part : Nat) (op : BitVec 16) (cls : Option Nat) (code : Nat) (args : List Word) :
    State :=
  let a (i : Nat) : Word := args.getD i 0
  let msg : Message :=
    { header := headerOf s.pkg.toNat core ctx ctx op.toNat code 0
      arg0 := a 0, arg1 := a 1, arg2 := a 2, arg3 := a 3, arg4 := a 4, arg5 := a 5, arg6 := a 6 }
  if 16 ≤ ctx then s
  else { s with nextId := s.nextId + 1 }.sendFlight
    { id := s.nextId, dest := .core core, msg := msg, source := core, part := part, gtc := s.gtc, byUnit := true
      ends := cls.map (fun c => (core, ctx, c)) }

/-! ### Fault reports (22_faults.md R421 to R423) -/

/-- The host queue of a host port pointer (25_package.md R475); none where OFF, X or Y is wrong. -/
def hostQueueOf (p : Word) : Option Nat :=
  if bitsOf p 43 32 = 0 ∧ ptrOff p % 0x1000 = 0 ∧ ptrOff p < 0x10000 then some (ptrOff p / 0x1000) else none

/-- Where the reports of a partition go (R421). -/
def State.pagerOf (s : State) (n : Nat) (core ctx : Nat) : Dest :=
  match s.part n with
  | none => .hostQueue n 0
  | some p =>
    let q := p.dw 8
    if ptrPkg q = 0xFE then .hostQueue n ((hostQueueOf q).getD 0)
    else if (ctx = 0 ∧ core = ptrCore q) ∨ s.dieLost (coreDie (ptrCore q)) then .hostQueue n 0
    else .core (ptrCore q)

/-- The core number of a report that concerns no context: CORE and CTX are then 0 (R423). -/
def noContext : Nat := 8192

/-- The number of a cause (10_system_instr.md R275). -/
def Cause.number : Cause → Nat
  | .illegal => 1
  | .priv => 2
  | .deadreg => 3
  | .ptrovf => 4
  | .address => 5
  | .format => 6
  | .page => 7
  | .verovr => 8
  | .layout => 9
  | .hovf => 10
  | .bound => 11
  | .brk => 12
  | .step => 13
  | .trap => 14

/-- A fault report (R422): a class 2 message to the pager. -/
def State.report (s : State) (n src core ctx kind reason cause : Nat) (addr iaddr d4 d5 : Word) : State :=
  s.post (s.pagerOf n core ctx)
    { header := headerOf s.pkg.toNat 0 0 0 0 0 2
      arg0 := wordOf (src * 2 ^ 48 + core % 4096 * 2 ^ 36 + ctx % 16 * 2 ^ 32 + kind * 2 ^ 24 + reason * 2 ^ 16 + cause)
      arg1 := addr, arg2 := iaddr, arg3 := s.gtc, arg4 := d4, arg5 := d5 } src n none

/-- A KIND 3 report (R423): a request declared lost, or a load discarded. -/
def State.reportLost (s : State) (core ctx : Nat) (reason : Nat) (addr : Word) (seq kind counter why : Nat) : State :=
  match s.partOf core with
  | none => s
  | some n =>
    s.report n core core ctx 3 reason 0 addr 0
      (wordOf (why * 2 ^ 44 + counter * 2 ^ 40 + kind * 2 ^ 32 + seq % 2 ^ 32)) 0

/-! ### Filling, writing back and dropping lines (15_memory_map.md R338, R344, R348, R349) -/

/-- Memory with the modified bytes of a V-copy written back to its frame. -/
def VCopy.writtenTo (v : VCopy) (m : List Host.Cell) : List Host.Cell :=
  (List.range 128).foldl (fun m i =>
    if v.dirty.getLsbD i then writeByte m (v.frame * 128 + i) (BitVec.ofNat 8 (lineBytes v.data i 1)) else m) m

/-- One V-copy written back where it is modified, and counted for the heat of its page (R346). Of a lost frame nothing can be
written. -/
def State.writeBack (s : State) (v : VCopy) : State :=
  if v.dirty = 0 ∨ s.dieLost (linearDie (v.frame * 128)) then s
  else { s with mem := v.writtenTo s.mem }.countHeat v.part (v.line * 128) true

/-- V-copies written back where they are modified, and dropped. Those of a lost frame are discarded and reported together
(16_ordering.md R374). -/
def State.dropLines (s : State) (hit : VCopy → Bool) : State :=
  if !s.vcopies.any hit then s
  else
    let lost := s.vcopies.filter (fun v => hit v && v.dirty != 0 && s.dieLost (linearDie (v.frame * 128)))
    let s := { (s.vcopies.filter hit).foldl State.writeBack s with vcopies := s.vcopies.filter (fun v => !hit v) }
    match lost with
    | [] => s
    | v :: _ =>
      s.report (tagPart v.part) (s.sliceOf (tagPart v.part) (v.line * 128 / 4096)) noContext 0 2 0 0 (wordOf (v.line * 128)) 0
        (wordOf s.lostDies.toNat) (wordOf lost.length)

/-- The V-copy of a virtual line written back and dropped: what a synchronising request does before it is forwarded (R338). -/
def State.dropLine (s : State) (part line : Nat) : State := s.dropLines (fun v => v.part == part && v.line == line)

/-- The V-copies of the set that a virtual line falls into at its slice, newest first (R351). -/
def State.copySet (s : State) (tag line : Nat) : List VCopy :=
  let at_ (tag line : Nat) : Nat × Nat := (s.sliceOf (tagPart tag) (line / 32), Config.sliceSet (tagPart tag) line % 1024)
  s.vcopies.filter (fun v => at_ v.part v.line == at_ tag line)

/-- A way freed in the set of a line: 16 lines fill it, and a pinned one is never chosen (R351, R352). -/
def State.makeRoom (s : State) (part line : Nat) : State :=
  if s.vcopies.length < 16 then s
  else
    let set := s.copySet part line
    if set.length < 16 then s
    else match victimOf VCopy.hint (set.filter (fun v => v.pins.isEmpty)) with
      | some v => s.dropLines (fun x => x == v)
      | none => s

/-- At most 12 ways of a set are `.stk` (R351). -/
def State.limitStuck (s : State) (part line : Nat) : State :=
  if s.vcopies.length ≤ 12 then s
  else match overStuck VCopy.hint 12 (s.copySet part line) with
    | some v => { s with vcopies := s.vcopies.map (fun x => if x = v then { v with hint := 0 } else x) }
    | none => s

/-- One line filled from memory, deciphered where the page is sealed; it records the hint of the access, and a fill that a read makes
is counted (R346, R351). A copy of another frame is written back first (R344). -/
def State.fillOne (s : State) (part line frame : Nat) (slot : Option Nat) (hint : BitVec 2) (read : Bool) : State :=
  if (s.copyOf (some (part, line)) (frame * 128)).isSome then s
  else
    let s := s.dropLine part line
    let data := match slot with
      | none => some (readBytes s.mem (frame * 128) 128)
      | some k => (s.unsealed (tagPart part) k (frame * 128)).map (fun u => ofBytes ((u.drop (frame * 128 % 512)).take 128))
    match data with
    | none => s
    | some d =>
      let s := s.makeRoom part line
      let v : VCopy := { part := part, line := line, frame := frame, data := BitVec.ofNat 1024 d, slot := slot, hint := recordedHint hint }
      let s := { s with vcopies := v :: s.vcopies }.limitStuck part line
      if read then s.countHeat part (line * 128) false else s

/-- A hit to a V-copy replaces its recorded hint, but for hint 0 (R351). -/
def State.hitCopy (s : State) (part line : Nat) (hint : BitVec 2) : State :=
  if hint = 0 then s
  else { s with vcopies := s.vcopies.map (fun (v : VCopy) =>
      if v.part = part ∧ v.line = line then { v with hint := hitHint v.hint hint } else v) }.limitStuck part line

/-- The line of an access in L2, filled where it is not there; of a sealed page, the four lines of its unit (25_package.md R468). -/
def State.fill (s : State) (line : Option (Nat × Nat)) (key : Nat) (slot : Option Nat) (hint : BitVec 2) (read : Bool) : State :=
  match line with
  | none => s
  | some (part, l) =>
    if (s.copyOf line key).isSome then s.hitCopy part l hint
    else match slot with
      | none => s.fillOne part l (key / 128) none hint read
      | some k => (List.range 4).foldl (fun (s : State) i =>
          s.fillOne part (l / 4 * 4 + i) (key / 512 * 4 + i) (some k) hint read) s

/-- Lines of a core's cache portion dropped. -/
def State.dropNear (s : State) (core : Nat) (hit : Nat → Bool) : State :=
  let k := s.core core
  if k.lines.any (fun e => hit e.line) then s.setCore core { k with lines := k.lines.filter (fun e => !hit e.line) } else s

/-- Lines of a tile's victim pool dropped. -/
def State.dropPool (s : State) (tile : Nat) (hit : Nat → Bool) : State :=
  (tileCores tile).foldl (fun (s : State) n =>
    let k := s.core n
    if k.lines.any (fun e => e.epoch.isSome && hit e.line) then
      s.setCore n { k with lines := k.lines.filter (fun e => !(e.epoch.isSome && hit e.line)) }
    else s) s

/-- A core of a tile has read or written a line at L2: the pool copy goes, and the lines that other cores of the tile hold may enter
the pool no more, so that no context sees the home order run backwards (16_ordering.md R357, log 80). -/
def State.passedAtL2 (s : State) (core line : Nat) : State :=
  (tileCores (coreTile core)).foldl (fun (s : State) n =>
    let k := s.core n
    if k.lines.any (fun e => e.line == line && (e.epoch.isSome || (n != core && !e.behind))) then
      s.setCore n { k with lines := (k.lines.filter (fun e => !(e.line == line && e.epoch.isSome))).map (fun e =>
        if e.line = line ∧ n ≠ core then { e with behind := true } else e) }
    else s) s

/-- The lines of a list that share the set of a virtual line in a portion of CW units. -/
def nearSet (cw line : Nat) (ls : List NearLine) : List NearLine :=
  ls.filter (fun e => Config.nearSet cw e.line % (32 * cw) == Config.nearSet cw line % (32 * cw))

/-- A line put into the portion of a core: 8 lines fill a set, and at most 6 of them are `.stk` (R348, R351). Also the line evicted. -/
def State.putNear (s : State) (core : Nat) (x : NearLine) : State × Option NearLine :=
  let k := s.core core
  let cw := k.lsplit.toNat
  let victim := if k.lines.length < 8 then none
    else
      let set := nearSet cw x.line k.lines
      if set.length < 8 then none else victimOf NearLine.hint set
  let left := match victim with
    | some v => k.lines.erase v
    | none => k.lines
  let new := x :: left
  let new := if new.length ≤ 6 then new else match overStuck NearLine.hint 6 (nearSet cw x.line new) with
    | some y => new.map (fun e => if e = y then { y with hint := 0 } else e)
    | none => new
  (s.setCore core { k with lines := new }, victim)

/-- The core that keeps the pool copy of a line: one of the tile's cores with a cache portion, by the line address (R349). -/
def State.poolKeeper (s : State) (tile line : Nat) : Nat :=
  let cs := (tileCores tile).filter (fun n => (s.core n).lsplit != 0)
  cs.getD (Config.poolCore line % cs.length) 0

/-- A line put into the portion of a core; with VGROUP.EN an own line that it evicts enters the victim pool with the epoch E, and so on
(R349). -/
def State.enterNear (s : State) (core : Nat) (x : NearLine) : Nat → State
  | 0 => s
  | fuel + 1 => match s.putNear core x with
    | (t, none) => t
    | (t, some v) =>
      let tile := coreTile core
      if (t.tile tile).vgroup ∧ v.epoch = none ∧ ¬ v.behind then
        t.enterNear (t.poolKeeper tile v.line) { v with epoch := some (t.tile tile).acquires } fuel
      else t

/-- How many lines the portions of a tile hold, which bounds the evictions of one entry. -/
def State.nearCount (s : State) (tile : Nat) : Nat := ((tileCores tile).map (fun n => (s.core n).lines.length)).sum

/-- A line filled into the cache portion of a core with the hint of its access. -/
def State.keepLine (s : State) (core line : Nat) (d : BitVec 1024) (hint : BitVec 2) : State :=
  let k := s.core core
  let old := k.ownLine line
  let s := s.setCore core { k with lines := k.lines.filter (fun e => !(e.line == line && e.epoch.isNone)) }
  let recorded := match old with
    | some e => hitHint e.hint hint
    | none => recordedHint hint
  s.enterNear core { line := line, data := d, hint := recorded } (s.nearCount (coreTile core) + 1)

/-- A plain load that hits near: a hit in the own portion records its hint; a line of the victim pool moves into the portion (R349). -/
def State.moveNear (s : State) (core line : Nat) (d : BitVec 1024) (hint : BitVec 2) : State :=
  match (s.core core).ownLine line with
  | some _ =>
    if hint = 0 then s
    else
      let k := s.core core
      s.setCore core { k with lines := k.lines.map (fun e =>
        if e.line = line ∧ e.epoch = none then { e with hint := hitHint e.hint hint } else e) }
  | none => (s.dropPool (coreTile core) (· == line)).keepLine core line d hint

/-- What a plain load performed at L2 leaves in its core's cache: the line, unless the core has no cache portion; under `.byp`
only a line that is present is written (05_memory_instr.md R121, 16_ordering.md R357). -/
def State.fillNear (s : State) (core line : Nat) (hint : BitVec 2) (v : Option VCopy) : State :=
  let s := s.passedAtL2 core line
  let k := s.core core
  match v with
  | none => s
  | some v => if k.lsplit = 0 ∨ (hint = 3 ∧ (k.ownLine line).isNone) then s else s.keepLine core line v.data hint

/-- n bytes of a line that is present in a core's portion written. -/
def Core.writeLine (k : Core) (line off n v : Nat) : Core :=
  { k with lines := k.lines.map (fun e =>
      if e.line = line ∧ e.epoch = none then { e with data := setLineBytes e.data off n v } else e) }

/-- What an access of a core performed at its home does near the core with n bytes of a line: a line that is present is written, and every
pool copy of the tile dropped (R348, R349). -/
def State.storeNear (s : State) (core line off n v : Nat) : State :=
  let s := s.passedAtL2 core line
  let k := s.core core
  if (k.ownLine line).isSome then s.setCore core (k.writeLine line off n v) else s

/-- An acquire of a context (05_memory_instr.md R128): its core's VIRT lines are invalidated, and with a victim pool the tile's
epoch rises and the core records it (15_memory_map.md R348, R349). -/
def State.acquire (s : State) (core : Nat) : State :=
  let k := s.core core
  let t := s.tile (coreTile core)
  let lines := k.lines.filter (fun e => e.epoch.isSome)
  if t.vgroup then
    (s.setTile (coreTile core) { t with acquires := t.acquires + 1 }).setCore core { k with lines := lines, acquired := t.acquires + 1 }
  else if k.lines = [] then s
  else s.setCore core { k with lines := lines }

/-- VIRT lines of a partition's core caches and victim pools dropped (R344, 05_memory_instr.md R135). -/
def State.dropFar (s : State) (part : Nat) (hit : Nat → Bool) : State :=
  (s.cores.filter (fun e => s.partOf e.1 == some part)).foldl (fun (s : State) e => s.dropNear e.1 hit) s

/-! ### Retirement -/

/-- The context after its instruction retires (01_assembly.md R28): the marked sources die, then the destinations are
written and live, and the next instruction is at pc'. -/
def Ctx.retired (c : Ctx) (pc' : Word) (dies : List Reg) (writes : List (Reg × Word)) : Ctx :=
  let k := dies.foldl Ctx.kill c
  let w := writes.foldl (fun c x => c.setReg x.1 x.2) k
  { w with pc := pc', wait := .none, reserve := 0, lostLoads := writes.foldl (fun t x => Table.drop t (c.place x.1)) c.lostLoads }

/-- The report of a lost load that no instruction will read any more (16_ordering.md R373); a poisoned one is not a lost one. -/
def State.discard (s : State) (core ctx : Nat) (e : LostLoad) : State :=
  if e.page = 4 then s.reportLost core ctx e.why e.address e.seq 7 0 0 else s

/-- The reports of loads that ended without a value and whose destination is now overwritten unread (16_ordering.md
R373). -/
def State.discards (s : State) (writes : List (Reg × Word)) : State :=
  writes.foldl (fun (s : State) (x : Reg × Word) =>
    match Table.look s.me.lostLoads (s.me.place x.1) with
    | some e => if x.1 = 0 then s else s.discard s.cur.1 s.cur.2 e
    | none => s) s

/-- Whether an instruction of the issuing context can retire now: no earlier load has still to write one of its destinations
(05_memory_instr.md R119), and the physical registers it needs are free (01_assembly.md R30). -/
def State.mayRetire (s : State) (dies : List Reg) (writes : List (Reg × Word)) : Bool :=
  !(writes.any (fun x => x.1 != 0 && s.awaited (s.me.place x.1))) && s.poolFits (s.me.retired s.me.pc dies writes)

/-- The state after an instruction has retired to pc'. A context that waited for a register waits no longer. -/
def State.retiredTo (s : State) (pc' : Word) (dies : List Reg) (writes : List (Reg × Word)) : State :=
  let s := s.discards writes
  let k := s.mine
  s.setMine { k.setCtx s.cur.2 (s.me.retired pc' dies writes) with waiters := k.waiters.filter (fun w => w.ctx ≠ s.cur.2) }

/-- The instruction retires to pc', or waits for a load or for a register. -/
def State.retireTo (s : State) (pc' : Word) (dies : List Reg) (writes : List (Reg × Word)) : Run :=
  if s.mayRetire dies writes then .ok (s.retiredTo pc' dies writes)
  else if writes.any (fun x => x.1 != 0 && s.awaited (s.me.place x.1)) then stall .retry
  else stall .register

/-- What an instruction that waits at its home, or at a barrier, needs before it has any effect: that it could retire now (R30). -/
def State.mayBegin (s : State) (dies : List Reg) (d : Reg) : Except Stop Unit :=
  if s.mayRetire dies [(d, 0)] then .ok ()
  else if d ≠ 0 ∧ s.awaited (s.me.place d) then stall .retry
  else stall .register

/-- The physical registers that a waiting instruction needs to retire, set aside for it (R30). -/
def State.setAside (s : State) (dies : List Reg) (d : Reg) : State :=
  s.setMe { s.me with reserve := (s.me.retired s.me.pc dies [(d, 0)]).holds }

/-- The instruction retires and the next one follows it. -/
def State.retire (s : State) (length : Nat) (dies : List Reg) (writes : List (Reg × Word)) : Run :=
  s.retireTo (s.me.pc + wordOf length) dies writes

/-! ### Channels (06_task_instr.md R172, R173) -/

/-- The core next to a core in a direction: 0 +X, 1 −X, 2 +Y, 3 −Y (R173). -/
def neighbour (core dir : Nat) : Nat :=
  match dir with
  | 0 => coreAt ((coreX core + 1) % 128) (coreY core)
  | 1 => coreAt ((coreX core + 127) % 128) (coreY core)
  | 2 => coreAt (coreX core) ((coreY core + 1) % 32)
  | _ => coreAt (coreX core) ((coreY core + 31) % 32)

/-- The opposite direction. -/
def opposite (dir : Nat) : Nat := if dir % 2 = 0 then dir + 1 else dir - 1

/-- The queue that a send binding of a core in a direction shares with its neighbour: the receiving core and its
direction. -/
def sendQueue (core dir : Nat) : Nat × Nat := (neighbour core dir, opposite dir)

/-- The stream number of a surveyor binding. A stream that has been unbound leaves its entries in the register, which is
then marked `closed`. -/
def Channel.stream (h : Channel) : Option Nat := if h.kind = 1 ∧ ¬ h.closed then some h.operand.toNat else none

/-- The entries a channel register reads or, for a send, the entries of the shared queue. -/
def State.entriesOf (s : State) (core : Nat) (h : Channel) : List Entry :=
  if h.kind = 2 then
    let q := sendQueue core h.dir.toNat
    Table.get (s.core q.1).neighbours q.2 []
  else if h.kind = 3 then Table.get (s.core core).neighbours h.dir.toNat []
  else match h.stream with
    | some n => match Table.look (s.core core).streams n with
      | some t => t.queue
      | none => []
    | none => h.entries

/-! ### Save areas (22_faults.md R419, R420, R480) -/

/-- The words of a save area: offset, size in bytes, value; `queue` gives the entries of a channel register. -/
def Ctx.image (c : Ctx) (lanes : Bool) (queue : Channel → List Entry) : List (Nat × Nat × Word) :=
  let state : Nat := match c.run with
    | .faulted => 1
    | .preempted => 2
    | .swapped => 3
    | .migrating => 4
    | .gangStopped => 5
    | _ => 0
  let b2n (b : Bool) : Nat := if b then 1 else 0
  let reply : Word := match c.replyTo with
    | none => 0
    | some (pkg, core, x) => wordOf (2 ^ 52 + pkg * 2 ^ 44 + core * 2 ^ 32 + x)
  let chan (q : Nat) : List (Nat × Nat × Word) :=
    let at_ := 0x200 + 0x100 * q
    match Table.look c.channels q with
    | none => (List.range 20).map (fun i => (at_ + 8 * i, 8, 0))
    | some h =>
      let es := queue h
      let head := match es with
        | e :: _ => b2n e.control
        | [] => 0
      let count := if h.kind = 2 then 16 - es.length else min 16 es.length
      let stat := wordOf (2 ^ 15 + h.kind.toNat * 2 ^ 12 + (if h.kind = 2 ∨ h.kind = 3 then h.dir.toNat * 2 ^ 10 else 0)
        + head * 2 ^ 9 + count)
      let mask := (List.range 16).foldl (fun n i => n + b2n ((es.map (·.control)).getD i false) * 2 ^ i) 0
      [(at_, 8, stat), (at_ + 8, 8, h.operand), (at_ + 16, 8, wordOf h.delivered), (at_ + 24, 8, wordOf mask)]
        ++ (List.range 16).map (fun i => (at_ + 32 + 8 * i, 8, (es.map (·.data)).getD i 0))
  let claim : List Word := match c.claim with
    | none => []
    | some k => [wordOf k.g, wordOf k.req, wordOf k.floor, wordOf k.k1, wordOf k.k2, wordOf k.k3]
  (List.range 32).map (fun i => (8 * i, 8, if c.live.getLsbD i then c.regs.toList.getD i 0 else 0))
    ++ [(0x100, 8, wordOf c.live.toNat), (0x108, 8, c.pc),
        (0x110, 8, wordOf (state + c.prio.toNat * 2 ^ 4 + b2n c.inLight * 2 ^ 8 + b2n c.replyTo.isSome * 2 ^ 9
          + c.lost.toNat * 2 ^ 10)),
        (0x118, 8, c.joinPtr), (0x120, 8, reply), (0x128, 8, c.lightAddr), (0x130, 8, c.lightKept), (0x138, 8, c.pend),
        (0x140, 8, c.status), (0x148, 8, c.cause), (0x150, 8, c.faddr), (0x158, 8, c.xpc), (0x160, 8, c.fpflags),
        (0x168, 8, c.dext), (0x170, 8, c.taskix), (0x178, 8, c.launchix), (0x180, 8, c.hprog), (0x188, 8, c.mrgst),
        (0x190, 8, c.ctlw)]
    ++ (List.range 4).map (fun i => (0x1A0 + 8 * i, 8, c.trapShadow.toList.getD i 0))
    ++ (List.range 4).map (fun i => (0x1C0 + 8 * i, 8, c.lightShadow.toList.getD i 0))
    ++ (List.range 8).flatMap chan
    ++ (List.range 64).map (fun i => (0xA00 + 8 * i, 8, (c.maps.toList.getD (i / 8) (Vector.replicate 8 0)).toList.getD (i % 8) 0))
    ++ (List.range 8).map (fun i => (0xC00 + 8 * i, 8, claim.getD i 0))
    ++ (List.range 120).map (fun i => (0xC40 + 8 * i, 8, 0))
    ++ (List.range 1536).map (fun i => (0x5000 + 8 * i, 8, 0))
    ++ (match c.claim with
        | none => []
        | some k => if lanes then (List.range 16).flatMap (fun r =>
            (List.range k.g).map (fun j => (0x1000 + 0x400 * r + 4 * j, 4, ((k.v.toList.getD r []).getD j 0).setWidth 64)))
          else [])

/-- Words written by the partition supervisor at virtual addresses (R480): at level 1, as plain stores. The error is the
address that failed. -/
def State.superWrite (s : State) (n : Nat) : Nat → List (Nat × Nat × Word) → Except Nat State
  | _, [] => .ok s
  | base, (off, size, v) :: rest =>
    match s.translate n 1 Need.store (base + off) with
    | .error _ => .error (base + off)
    | .ok (_, lin) => (s.putBytes (some (n, (base + off) / 128)) lin size v.toNat).superWrite n base rest

/-- The place of a plain access by virtual address through a partition's page table; reason 4 where its memory is lost with its die and
no copy of it is left (22_faults.md R423, 16_ordering.md R374). -/
def State.virtPlace (s : State) (n level : Nat) (need : Need) (va : Nat) : Except Nat Place :=
  match s.translate n level need va with
  | .error r => .error r
  | .ok (t, lin) =>
    let line := some (worldTag n level, va / 128)
    if s.dieLost (linearDie lin) && !s.onlyCopy line lin then .error 4
    else .ok { key := lin, home := s.sliceOf n (va / 4096), counter := 0, part := n, seen := some t, line := line
               sealSlot := if bitAt t.leaf 6 then some (bitsOf t.leaf 57 52) else none }

/-- A doubleword read by the partition supervisor. -/
def State.superRead (s : State) (n va : Nat) : Except Nat Word :=
  match s.virtPlace n 1 { read := true, plain := false } va with
  | .error _ => .error va
  | .ok pl => match s.plainRead pl 8 with
    | none => .error va
    | some v => .ok (wordOf v)

/-- The virtual address of a context's save area (R419); none while SAVEB = 0. -/
def State.saveArea (s : State) (core ctx : Nat) : Option Nat :=
  if (s.core core).saveb = 0 then none else some (bitsOf (s.core core).saveb 51 0 + 0x8000 * ctx)

/-- The fields of a save area that a supervisor may change, taken over by a resuming context (R420): g1 to g31, LIVE,
PC, the state registers and both sets of shadow registers. The level never rises above the one at which the context
stopped. -/
def Ctx.reloaded (c : Ctx) (w : Nat → Word) : Ctx :=
  let st := w 0x140
  let pl := if bitsOf st 13 12 > c.stopLevel then c.stopLevel else bitsOf st 13 12
  let xpl := if bitsOf st 15 14 > c.stopLevel then c.stopXpl else bitsOf st 15 14
  let rm := if bitsOf st 2 0 > 4 then c.rm else bitsOf st 2 0
  { c with
    regs := Vector.ofFn (fun i : Fin 32 => if i.val = 0 then 0 else w (8 * i.val))
    live := (w 0x100).setWidth 32 &&& 0xFFFFFFFE
    past := ((List.range 31).filter (fun i => bitAt (w 0x100) (i + 1))).map (fun i => w (8 * (i + 1))) ++ c.past
    pc := w 0x108
    status := wordOf (xpl * 2 ^ 14 + pl * 2 ^ 12 + (if bitAt st 11 then 2 ^ 11 else 0) + bitsOf st 9 7 * 2 ^ 7 + rm)
    cause := w 0x148 &&& 0xFFFFF
    faddr := w 0x150
    xpc := w 0x158
    fpflags := w 0x160 &&& 0x3F
    dext := w 0x168
    taskix := w 0x170
    launchix := w 0x178
    hprog := w 0x180 &&& 0xFFFFFFFFFF
    mrgst := w 0x188 &&& 0x80000000000001FF
    ctlw := w 0x190
    trapShadow := Vector.ofFn (fun i : Fin 4 => w (0x1A0 + 8 * i.val))
    lightShadow := Vector.ofFn (fun i : Fin 4 => w (0x1C0 + 8 * i.val)) }

/-- Doublewords of a save area that hold the fields a supervisor may change, and of those that it may not. -/
def reloadOffsets : List Nat := (List.range 34).map (8 * ·) ++ (List.range 19).map (fun i => 0x140 + 8 * i)
def ownOffsets : List Nat :=
  (List.range 6).map (fun i => 0x110 + 8 * i)
    ++ (List.range 8).flatMap (fun q => (List.range 20).map (fun i => 0x200 + 0x100 * q + 8 * i))
    ++ (List.range 64).map (fun i => 0xA00 + 8 * i) ++ (List.range 6).map (fun i => 0xC00 + 8 * i)

/-- The words of the save area of a context that stands on a core. -/
def State.imageOf (s : State) (core ctx : Nat) (lanes : Bool) : List (Nat × Nat × Word) := (s.ctx core ctx).image lanes (s.entriesOf core)

/-- A context with what its area holds of the fields that a supervisor may not change. -/
def Ctx.keepOwn (c : Ctx) (image : List (Nat × Nat × Word)) : Ctx :=
  { c with savedOwn := (image.filter (fun e => ownOffsets.contains e.1)).map (fun e => (e.1, e.2.2)) }

/-- A context written to an area at a virtual address (R419); the error is the address that failed. -/
def State.saveAt (s : State) (n va core ctx : Nat) (lanes : Bool) : Except Nat State :=
  let image := s.imageOf core ctx lanes
  match s.superWrite n va image with
  | .error a => .error a
  | .ok t => .ok (t.setCtx core ctx ((t.ctx core ctx).keepOwn image))

/-- A context written to its save area (R420); the error is the address that failed. -/
def State.save (s : State) (core ctx : Nat) (lanes : Bool) : Except Nat State :=
  match s.partOf core, s.saveArea core ctx with
  | some n, some va => s.saveAt n va core ctx lanes
  | _, none => .error 0
  | none, _ => .error 0

/-- A field of a context that a supervisor may not change, at its place in the save area, with a doubleword in its place (R419). Kinds,
counts and the lanes of a claim stay as they are. -/
def Ctx.setOwn (c : Ctx) (off : Nat) (v : Word) : Ctx :=
  if off = 0x110 then
    { c with prio := BitVec.ofNat 3 (bitsOf v 6 4), inLight := bitAt v 8, lost := BitVec.ofNat 4 (bitsOf v 13 10)
             replyTo := if bitAt v 9 then some (c.replyTo.getD (0, 0, 0)) else none }
  else if off = 0x118 then { c with joinPtr := v }
  else if off = 0x120 then { c with replyTo := c.replyTo.map (fun _ => (ptrPkg v, ptrCore v, bitsOf v 3 0)) }
  else if off = 0x128 then { c with lightAddr := v &&& ~~~1 }
  else if off = 0x130 then { c with lightKept := v }
  else if off = 0x138 then { c with pend := v }
  else if off < 0xA00 then
    let q := (off - 0x200) / 0x100
    let i := off % 0x100 / 8
    match Table.look c.channels q with
    | none => c
    | some h =>
      let h := if i = 1 then { h with operand := if h.kind = 1 then h.operand else v }
        else if 4 ≤ i then { h with entries := h.entries.modify (i - 4) (fun e => { e with data := v }) }
        else h
      { c with channels := Table.put c.channels q h }
  else if off < 0xC00 then
    let r := (off - 0xA00) / 64
    { c with maps := c.maps.setIfInBounds r ((c.maps.toList.getD r (Vector.replicate 8 0)).setIfInBounds (off % 64 / 8) v) }
  else match c.claim, (off - 0xC00) / 8 with
    | some k, 3 => { c with claim := some { k with k1 := min v.toNat k.g } }
    | some k, 4 => { c with claim := some { k with k2 := min v.toNat k.g } }
    | some k, 5 => { c with claim := some { k with k3 := min v.toNat k.g } }
    | _, _ => c

/-- The fields that a supervisor may not change, where it has changed them: an unpredictable value, drawn from the context's own saved
contents (R420, 00_scope.md R9). -/
def State.reloadedOwn (s : State) (c : Ctx) (w : Nat → Word) : Ctx :=
  let values := c.savedOwn.map (·.2)
  { c.savedOwn.foldl (fun (c : Ctx) e =>
      if w e.1 = e.2 then c else c.setOwn e.1 (values.getD (s.free (2 ^ 56 + e.1) values.length) e.2)) c with savedOwn := [] }

/-- The saved contents of a context taken over from a save area at a virtual address (R420); the error is the address that
failed. -/
def State.reloadFrom (s : State) (n va : Nat) (c : Ctx) : Except Nat Ctx :=
  match ((reloadOffsets ++ ownOffsets).map (fun o => (o, s.superRead n (va + o)))).find? (fun e => match e.2 with
      | .error _ => true
      | .ok _ => false) with
  | some (o, _) => .error (va + o)
  | none =>
    let w (o : Nat) : Word := match s.superRead n (va + o) with
      | .ok v => v
      | .error _ => 0
    .ok (s.reloadedOwn (c.reloaded w) w)

/-- A context reloaded from its save area, which acquires (R420); the error is the address that failed. -/
def State.reload (s : State) (core ctx : Nat) : Except Nat State :=
  match s.partOf core, s.saveArea core ctx with
  | some n, some va =>
    match s.reloadFrom n va (s.ctx core ctx) with
    | .error a => .error a
    | .ok c => .ok ((s.setCtx core ctx c).acquire core)
  | _, _ => .error 0

/-- A context FAULTED: it keeps its helper, claim and bindings (22_faults.md R424). -/
def Ctx.fault (c : Ctx) (order : Nat) : Ctx :=
  { c.stopped order with run := .faulted, wait := .none, reserve := 0, stopLevel := c.level, stopXpl := c.xpl }

/-- A save or a reload that fails (R420): the context is FAULTED as it stands, and the pager receives KIND 1. -/
def State.saveFailed (s : State) (core ctx : Nat) (reason va : Nat) : State :=
  let c := s.ctx core ctx
  let s := s.setCtx core ctx (c.fault s.nextOrder)
  match s.partOf core with
  | none => s
  | some n => { s.report n core core ctx 1 reason 0 0 c.pc (wordOf va) 0 with nextOrder := s.nextOrder + 1 }

/-! ### Taking an exception and returning from one (10_system_instr.md R276, R277) -/

/-- CAUSE, FADDR and XPC as a trap writes them. -/
def Ctx.record (c : Ctx) (t : TrapInfo) : Ctx :=
  { c with cause := wordOf (t.code % 4096 * 256 + t.cause.number), faddr := t.faddr, xpc := t.xpc.getD c.pc }

/-- The level a trap enters: 2 for TRAP with n ≥ 2,048 or from level 2, otherwise 1. -/
def Ctx.trapLevel (c : Ctx) (t : TrapInfo) : Nat :=
  if c.level = 2 ∨ (t.cause = .trap ∧ 2048 ≤ t.code) then 2 else 1

/-- The vector of a level, bit 0 ignored: XVEC of the partition, or FWVEC. -/
def State.vector (s : State) (level : Nat) : Word :=
  (if level = 2 then s.fwvec else (s.partRegs s.myPart).xvec) &&& ~~~1#64

/-- The context entering its handler: XPL := PL, PL := the level entered, XH := 1. -/
def Ctx.enter (c : Ctx) (t : TrapInfo) (vec : Word) : Ctx :=
  let r := c.record t
  { r with
    status := setBits (setBits (setBits c.status 15 14 c.level) 13 12 (c.trapLevel t)) 11 11 1
    pc := vec
    wait := .none
    reserve := 0 }

/-- The issuing context takes a trap (R276). -/
def State.takeTrap (s : State) (t : TrapInfo) : State :=
  let c := s.me
  if t.cause = .page ∧ c.level < 2 then
    let f := (c.fault s.nextOrder).record t
    let s1 := { s.setMe { f with pc := f.xpc } with nextOrder := s.nextOrder + 1 }
    match s1.save s.cur.1 s.cur.2 false, s.myPart with
    | .ok s2, some n =>
      s2.report n s.cur.1 s.cur.1 s.cur.2 0 t.reason t.cause.number t.faddr f.xpc t.detail4 t.detail5
    | .error va, _ => s1.saveFailed s.cur.1 s.cur.2 1 va
    | .ok s2, none => s2
  else if c.inTrap ∨ s.vector (c.trapLevel t) = 0 then
    let s1 := { s.setMe (c.fault s.nextOrder) with nextOrder := s.nextOrder + 1 }
    match s.myPart with
    | none => { s1 with reports := (1, s.cur.1) :: s1.reports }
    | some n =>
      let rep (s : State) : State :=
        s.report n s.cur.1 s.cur.1 s.cur.2 1 0 t.cause.number t.faddr (t.iaddr.getD c.pc) 0 0
      if c.level = 2 then rep s1
      else match s1.save s.cur.1 s.cur.2 false with
        | .ok s2 => rep s2
        | .error va => s1.saveFailed s.cur.1 s.cur.2 1 va
  else { s.setMe ((c.stopped s.nextOrder).enter t (s.vector (c.trapLevel t))) with nextOrder := s.nextOrder + 1 }

/-- The return from an exception: PL := XPL, XH := 0, PC := XPC (R277). The shadow registers switch with XH, and the lane claim of the
trapped context resumes. What the secure world leaves in live registers is from then on the context's own (01_assembly.md R27). -/
def Ctx.leave (c : Ctx) : Ctx :=
  { c.resumed with
           past := if c.level = 2 ∧ c.xpl < 2 then c.liveValues ++ c.past else c.past
           status := setBits (setBits c.status 13 12 c.xpl) 11 11 0, pc := c.xpc, wait := .none }

/-- The issuing context waits; a helper that waits for a register joins the waiters of its core (01_assembly.md R30). -/
def State.block (s : State) (w : Wait) : State :=
  let s := s.setMe { s.me with wait := w }
  if w = .register ∧ ¬ s.mine.waiters.any (fun x => x.ctx == s.cur.2) then
    s.setMine { s.mine with waiters := s.mine.waiters ++ [{ ctx := s.cur.2, preempted := false, need := 1, since := s.cycle }] }
  else s

/-- The STEP trap that follows an instruction retired with STATUS.STEP = 1 and XH = 0 (R279). -/
def State.afterStep (s s' : State) : State :=
  if s.me.stepping ∧ ¬ s.me.inTrap ∧ s'.me.run = .ready ∧ s'.cur = s.cur then
    s'.takeTrap { cause := .step, iaddr := some s.me.pc } else s'

/-- The STEP trap of a context that is stopped while its instruction completes (R279; 05_memory_instr.md R129, 22_faults.md R429): a double
trap stands under the stop. `pc` is the instruction. -/
def State.stepStopped (s : State) (core ctx : Nat) (pc : Word) : State :=
  let c := s.ctx core ctx
  if c.stepping ∧ ¬ c.inTrap then
    let t := { s with cur := (core, ctx) }.takeTrap { cause := .step, iaddr := some pc }
    let x := t.ctx core ctx
    let t := if x.run = .faulted ∧ c.run ≠ .ready then t.setCtx core ctx { x with run := c.run, under := .faulted } else t
    { t with cur := s.cur }
  else s

/-- How executing an instruction ends: it retires (and may be stepped), takes its trap, or waits. -/
def conclude (s : State) (r : Run) : Host.Outcome State Fault Refusal :=
  match r with
  | .ok s' => .next (s.afterStep s')
  | .error (.trap t) => .next (s.takeTrap t)
  | .error (.trapIn s' t) => .next (s'.takeTrap t)
  | .error (.wait w) => .next (s.block w)
  | .error (.waitIn s' w) => .next (s'.block w)

/-- FADDR of a trap with ILLEGAL or PRIV is the encoding (R275, 03_encoding.md R77); of any other, what the check gave. -/
def TrapInfo.encoded (t : TrapInfo) (encoding : Word) : TrapInfo :=
  if t.cause = .illegal ∨ t.cause = .priv then { t with faddr := encoding } else t

/-- How executing an instruction of a given encoding ends. -/
def concludeAs (encoding : Word) (s : State) (r : Run) : Host.Outcome State Fault Refusal :=
  conclude s (match r with
    | .error (.trap t) => .error (.trap (t.encoded encoding))
    | .error (.trapIn s' t) => .error (.trapIn s' (t.encoded encoding))
    | r => r)

/-- ILLEGAL or PRIV raised by a check of the instruction itself; `concludeAs` puts the encoding into FADDR. -/
def illegal {α : Type} : Except Stop α := trapWith .illegal 0

/-- A privileged instruction from a lower level traps with PRIV (03_encoding.md R77). -/
def State.needLevel (s : State) (level : Nat) : Except Stop Unit :=
  if s.me.level < level then trapWith .priv 0 else .ok ()

end Sys2Proof.Machine
end

