-- ==== Sys2Proof/Machine/Cycle.lean ====
section
/-! DEFINITION. What stands around an instruction in one step: the time, whose turn it is (12_execution.md R297, log 1), the
fetch (03_encoding.md R74, R76), the heat of pages (15_memory_map.md R346), and a program word placed for the next fetch. -/

namespace Sys2Proof.Machine

noncomputable section

/-! ### Time -/

/-- The start of a step: the counter of the free values moves on. -/
def State.tick (s : State) : State := { s with choice := s.choice + 1 }

/-- GTC counts 1 ns (00_scope.md R12; log 5). -/
def State.passTime (s : State) : State := { s with gtc := s.gtc + 1 }

/-- RH or WH of a leaf raised by 1, saturating at 3 (R346). -/
def hotter (leaf : Word) (write : Bool) : Word :=
  let hi := if write then 11 else 9
  let h := bitsOf leaf hi (hi - 1)
  if h < 3 then setBits leaf hi (hi - 1) (h + 1) else leaf

/-- One cached translation whose count of reads (or writes) has reached 64: the leaf in memory is raised, unless it has
changed since the walk. -/
def State.heatOne (s : State) (t : Translation) (write : Bool) : State :=
  let new := hotter t.leaf write
  let same (x : Translation) : Bool := x.part == t.part && x.slice == t.slice && x.page == t.page
  let hit := match linearOf t.entry with
    | some lin => s.dword lin == t.leaf
    | none => false
  let u : Translation := if write then { t with writes := t.writes - 64 } else { t with reads := t.reads - 64 }
  let u := if hit then { u with leaf := new } else u
  let s := if hit then s.storeBytes ((linearOf t.entry).getD 0) 8 new.toNat else s
  { s with translations := s.translations.map (fun x => if same x then u else x) }

/-- Every heat update that is due (R346). -/
def State.heat (s : State) : State :=
  let s := s.translations.foldl (fun s t => if 64 ≤ t.reads then s.heatOne t false else s) s
  s.translations.foldl (fun s t => if 64 ≤ t.writes then s.heatOne t true else s) s

/-! ### Replacement (15_memory_map.md R351; log 79) -/

/-- A line of a set of L2, or none, displaced by a fill that the model does not hold as a line: a P-copy, which equals memory
(15_memory_map.md R338). The set is a free choice, the victim R351's. -/
def State.replaceCopy (s : State) : State :=
  match s.vcopies with
  | [] => s
  | vs => match vs[s.free 101 (vs.length + 1)]? with
    | some v => match victimOf VCopy.hint ((s.copySet v.part v.line).filter (fun x => x.pins.isEmpty)) with
      | some x => s.dropLines (fun y => y == x)
      | none => s
    | none => s

/-! ### Whose turn it is -/

/-- Whether a context may issue (R297). A context that yielded is passed over while another of its core is ready
(06_task_instr.md R157). -/
def Ctx.canIssue (c : Ctx) (yields : Bool) : Bool :=
  c.run == .ready && (match c.wait with
    | .none | .retry => true
    | .yielded => yields
    | _ => false)

/-- The cyclic order in which a core turns to its contexts, after the one it last issued from (R297). -/
def Core.order (k : Core) : List Nat := (List.range 11).map (fun i => (k.last + 1 + i) % 11)

/-- Whose turn it is: the head of the agenda (log 1). -/
def State.turn (s : State) : Option Turn := s.agenda.head?

/-- Whether the package stands still (25_package.md R477, R478). -/
def State.stopped (s : State) : Bool := s.heldInReset || s.halted

/-- A yielded context has been passed over once another of its core issues (06_task_instr.md R157). -/
def Ctx.passedOver (c : Ctx) : Ctx := if c.wait = .yielded then { c with wait := .none } else c

/-- The context whose turn it is becomes the issuing one, and the last its core issued from (R297); the fetch of its next instruction is
still to come. It has resumed, but for one in a trap
handler, whose claim stays stopped until XRET (07_vector_instr.md R188, 22_faults.md R426). -/
def State.issueFrom (s : State) (core ctx : Nat) : State :=
  let k := s.core core
  let ctxs : Table Ctx := k.ctxs.map (fun e => (e.1, e.2.passedOver))
  -- what an earlier instruction asked of another package has been used
  let stale (q : Request) : Bool := (k.ctx ctx).wait == .none && q.blocking && q.cls.isNone && q.core == core && q.ctx == ctx
  let left := s.delays.filter (fun e => e.1 != .issue core ctx)
  let s := { s with cur := (core, ctx), delays := left, requests := s.requests.filter (fun q => !stale q) }.setCore core
    { k with last := ctx, ctxs := ctxs }
  if s.me.inTrap then s else s.setMe s.me.resumed

/-! ### Fetch -/

/-- Where an instruction halfword lies: key, key slot of a sealed page, and the partition; or the reason it cannot be
fetched. Level 2 fetches physical addresses, as SYS accesses do (25_package.md R481); 16 stands for an address outside the
windows of 15_memory_map.md R333, which gives ADDRESS. -/
def State.fetchPlace (s : State) (va : Word) : Except Nat Place :=
  if s.me.level = 2 then
    match linearOf (bitsOf va 51 0) with
    | none => .error 16
    | some lin => if s.dieLost (linearDie lin) then .error 4 else .ok { key := lin, home := 0, counter := 0, part := 0 }
  else match s.myPart with
    | none => .error 0
    | some n => s.virtPlace n s.me.level Need.fetch (bitsOf va 51 0)

/-- The line of a core's instruction cache that holds a key. -/
def Core.codeLine (k : Core) (key : Nat) : Option CodeLine := k.icache.find? (fun e => e.line == key / 128)

/-- A line of instructions kept by the current core: 256 lines fill its 32 KiB, and one of a full cache goes, a free choice
(00_scope.md R4; log 37). One that holds poison is not kept. -/
def State.keepCode (s : State) (pl : Place) (slot : Nat) (ls : List CodeLine) : List CodeLine :=
  if ls.any (fun e => e.line == pl.key / 128) then ls
  else match s.plainRead { pl with key := pl.key / 128 * 128 } 128 with
    | none => ls
    | some d =>
      let kept := if ls.length < 256 then ls else ls.eraseIdx (s.free slot ls.length)
      { line := pl.key / 128, data := BitVec.ofNat 1024 d } :: kept

/-- A line that the current core fetches ahead, or none: a free choice among all that it may fetch (10_system_instr.md R280; log 37). -/
def State.fetchAhead (s : State) (slot : Nat) (ls : List CodeLine) : List CodeLine :=
  match s.fetchPlace (s.freeWord slot &&& ~~~127) with
  | .error _ => ls
  | .ok pl => s.keepCode pl (slot + 1) ls

/-- A halfword fetched, with the state that keeps its line; or the address and reason of the fault. A line of the instruction cache is
fetched as it was when it entered: SYNCI alone makes stores visible (R76). Reason 16 stands for an odd address, which gives ADDRESS. -/
def State.fetchHalf (s : State) (va : Word) : Except (Word × Nat) (BitVec 16 × State) :=
  if va.getLsbD 0 then .error (va, 16)
  else match s.fetchPlace va with
  | .error r => .error (va, r)
  | .ok pl =>
    let k := s.mine
    match k.codeLine pl.key with
    | some e => .ok (BitVec.ofNat 16 (lineBytes e.data (pl.key % 128) 2), s)
    | none => match s.plainRead pl 2 with
      | none => .error (dwordPtr va, 5)
      | some v =>
        let s1 := ((s.note pl).fill pl.line pl.key pl.sealSlot 0 true)
        .ok (BitVec.ofNat 16 v, s1.setMine { s1.mine with icache := s.fetchAhead (2 ^ 60) (s.keepCode pl (2 ^ 60 + 2) k.icache) })

/-- What the current context executes (R74 to R77): the decoded instruction, an illegal encoding, or a fetch fault. -/
def State.fetchInstr (s : State) : Instr × State :=
  let pc := s.me.pc
  match s.fetchHalf pc with
  | .error (a, r) => (.fetchFault a r, s)
  | .ok (h0, s1) =>
    if h0.getLsbD 15 then
      match s1.fetchHalf (pc + 2) with
      | .error (a, r) => (.fetchFault a r, s1)
      | .ok (h1, s2) =>
        match decode [h0, h1] with
        | .ok (i, _) => (i, s2)
        | .error _ => (.illegalEncoding (h0 ++ h1) true, s2)
    else
      match decode [h0] with
      | .ok (i, _) => (i, s1)
      | .error _ => (.illegalEncoding (h0.setWidth 32) false, s1)

/-! ### A word placed for the next fetch -/

/-- A halfword stored where the current context would fetch it, and forgotten by its instruction cache. -/
def State.placeHalf (s : State) (va : Word) (h : BitVec 16) : State :=
  match s.fetchPlace va with
  | .error _ => s
  | .ok pl =>
    let k := s.mine
    let line (v : VCopy) : VCopy :=
      if some v = s.copyOf pl.line pl.key then { v with data := setLineBytes v.data (pl.key % 128) 2 h.toNat } else v
    { s with mem := writeBytes s.mem pl.key 2 h.toNat, vcopies := s.vcopies.map line }.setMine
      { k with icache := k.icache.filter (fun e => e.line != pl.key / 128) }

/-- The current context made ready, its turn next, and two halfwords at its pc. -/
def State.placeWord (s : State) (h0 h1 : BitVec 16) : State :=
  let s := { s with agenda := [.issue s.cur.1 s.cur.2], delays := [], heldInReset := false, halted := false }
  let s := s.setMe { s.me with run := .ready, wait := .none }
  let s := s.setMine { s.mine with last := (s.cur.2 + 10) % 11 }
  (s.placeHalf s.me.pc h0).placeHalf (s.me.pc + 2) h1

end

end Sys2Proof.Machine
end

