-- ==== Sys2Proof/Machine/Numbers.lean ====
section
/-! DEFINITION. Number formats, rounding and the floating-point operations of 02_numbers.md (R44 to R58): values are exact,
and every operation rounds once. Flags are the six bits of FPFLAGS. -/

namespace Sys2Proof.Machine

/-- Raised flags, laid out as FPFLAGS (R58). -/
abbrev FpFlags := BitVec 6
def flagIV : FpFlags := 1
def flagDZ : FpFlags := 2
def flagOF : FpFlags := 4
def flagUF : FpFlags := 8
def flagNX : FpFlags := 16
def flagRG : FpFlags := 32

/-- A rounding mode (R52). -/
inductive Rounding where
  | rne | rtz | rup | rdn | rna
  deriving DecidableEq, Repr

/-- The mode of a code 0 to 4. -/
def roundingOf (code : Nat) : Rounding :=
  match code with
  | 0 => .rne
  | 1 => .rtz
  | 2 => .rup
  | 3 => .rdn
  | _ => .rna

/-- A binary floating-point format (R47): exponent and mantissa widths and bias; F8A has no infinity. -/
structure FloatFmt where
  expBits : Nat
  man : Nat
  bias : Nat
  f8a : Bool := false
  deriving DecidableEq, Repr

def fmtF64 : FloatFmt := { expBits := 11, man := 52, bias := 1023 }
def fmtF32 : FloatFmt := { expBits := 8, man := 23, bias := 127 }
def fmtF16 : FloatFmt := { expBits := 5, man := 10, bias := 15 }
def fmtBF16 : FloatFmt := { expBits := 8, man := 7, bias := 127 }
def fmtF8A : FloatFmt := { expBits := 4, man := 3, bias := 7, f8a := true }
def fmtF8B : FloatFmt := { expBits := 5, man := 2, bias := 15 }

/-- What a format code names (R44). -/
inductive Fmt where
  | raw
  | int (signed : Bool) (bits : Nat)
  | flt (f : FloatFmt)
  /-- coded blocks of F8A or F8B -/
  | coded (f : FloatFmt)
  /-- bit planes -/
  | plane (p : Nat)
  deriving DecidableEq, Repr

/-- The format of a code; none for a reserved code (R44). -/
def fmtOf (code : Nat) : Option Fmt :=
  match code with
  | 0x00 => some .raw
  | 0x01 => some (.int true 8)
  | 0x02 => some (.int true 16)
  | 0x03 => some (.int true 32)
  | 0x04 => some (.int true 64)
  | 0x05 => some (.int false 8)
  | 0x06 => some (.int false 16)
  | 0x07 => some (.int false 32)
  | 0x08 => some (.int false 64)
  | 0x10 => some (.flt fmtF64)
  | 0x11 => some (.flt fmtF32)
  | 0x12 => some (.flt fmtF16)
  | 0x13 => some (.flt fmtBF16)
  | 0x14 => some (.flt fmtF8A)
  | 0x15 => some (.flt fmtF8B)
  | 0x16 => some (.coded fmtF8A)
  | 0x17 => some (.coded fmtF8B)
  | 0x20 => some (.plane 4)
  | 0x21 => some (.plane 2)
  | 0x22 => some (.plane 1)
  | _ => none

/-- A floating-point datum: (-1)^neg × mag × 2^exp when finite. -/
inductive Num where
  | nan (signalling : Bool)
  | inf (neg : Bool)
  | fin (neg : Bool) (mag : Nat) (exp : Int)
  deriving DecidableEq, Repr

/-- The datum of a bit pattern (R47). Every NaN of F8A and F8B is quiet. -/
def decodeFloat (f : FloatFmt) (x : Nat) : Num :=
  let m := x % 2 ^ f.man
  let e := x / 2 ^ f.man % 2 ^ f.expBits
  let neg := decide (x / 2 ^ (f.man + f.expBits) % 2 = 1)
  let emax := 2 ^ f.expBits - 1
  if e = 0 then .fin neg m (1 - (f.bias : Int) - f.man)
  else if e = emax ∧ f.f8a ∧ m = 7 then .nan false
  else if e = emax ∧ ¬ f.f8a then
    if m = 0 then .inf neg else .nan (decide (m < 2 ^ (f.man - 1)) && decide (5 ≤ f.man))
  else .fin neg (2 ^ f.man + m) ((e : Int) - f.bias - f.man)

/-- The default NaN (R50). -/
def defaultNaN (f : FloatFmt) : Nat :=
  if f.f8a then 0x7F else (2 ^ f.expBits - 1) * 2 ^ f.man + 2 ^ (f.man - 1)

/-- A signed bit pattern. -/
def signed (f : FloatFmt) (neg : Bool) (x : Nat) : Nat := if neg then x + 2 ^ (f.man + f.expBits) else x

def infBits (f : FloatFmt) (neg : Bool) : Nat := signed f neg ((2 ^ f.expBits - 1) * 2 ^ f.man)
def maxFinite (f : FloatFmt) (neg : Bool) : Nat :=
  signed f neg (if f.f8a then 0x7E else (2 ^ f.expBits - 1) * 2 ^ f.man - 1)

/-- Whether rounding a magnitude up: the quotient's parity, the remainder and the unit it is a remainder of. -/
def roundsUp (mode : Rounding) (neg odd : Bool) (rem unit : Nat) : Bool :=
  match mode with
  | .rne => decide (unit < 2 * rem) || (decide (2 * rem = unit) && odd)
  | .rna => decide (unit ≤ 2 * rem)
  | .rtz => false
  | .rup => decide (rem ≠ 0) && !neg
  | .rdn => decide (rem ≠ 0) && neg

/-- mag × 2^exp rounded to a multiple of 2^q: the multiple, and whether it is inexact. -/
def roundAt (mode : Rounding) (neg : Bool) (mag : Nat) (exp q : Int) : Nat × Bool :=
  if q ≤ exp then (mag * 2 ^ (exp - q).toNat, false)
  else
    let unit := 2 ^ (q - exp).toNat
    let n := mag / unit
    let rem := mag % unit
    (if roundsUp mode neg (decide (n % 2 = 1)) rem unit then n + 1 else n, decide (rem ≠ 0))

/-- What an overflow gives (R53), with the flags of the formats: SAT8 acts on F8A alone. -/
def overflowBits (f : FloatFmt) (mode : Rounding) (sat8 neg : Bool) : Nat :=
  if f.f8a then (if sat8 then maxFinite f neg else defaultNaN f)
  else match mode with
    | .rne | .rna => infBits f neg
    | .rtz => maxFinite f neg
    | .rup => if neg then maxFinite f neg else infBits f neg
    | .rdn => if neg then infBits f neg else maxFinite f neg

/-- (-1)^neg × mag × 2^exp rounded once to a format (R52, R53, R57), with the flags raised. -/
def roundNum (f : FloatFmt) (mode : Rounding) (sat8 neg : Bool) (mag : Nat) (exp : Int) : Nat × FpFlags :=
  if mag = 0 then (signed f neg 0, 0)
  else
    let e : Int := (Nat.log2 mag : Int) + exp
    let emin : Int := 1 - (f.bias : Int)
    let q0 := e - f.man
    let q := max q0 (emin - f.man)
    let (n, inexact) := roundAt mode neg mag exp q
    let top : Int := if f.f8a then 2 ^ f.expBits - 1 - f.bias else 2 ^ f.expBits - 2 - f.bias
    let maxN := if f.f8a then 14 else 2 ^ (f.man + 1) - 1
    if top - f.man < q ∨ (q = top - f.man ∧ maxN < n) then (overflowBits f mode sat8 neg, flagOF ||| flagNX)
    else
      let tiny := decide (e < emin) && !(decide (e = emin - 1) && decide ((roundAt mode neg mag exp q0).1 = 2 ^ (f.man + 1)))
      let bits := ((q + f.man + f.bias).toNat - 1) * 2 ^ f.man + n
      (signed f neg bits, if inexact then (if tiny then flagUF ||| flagNX else flagNX) else 0)

/-- A datum converted to a floating format (R54). -/
def encodeNum (f : FloatFmt) (mode : Rounding) (sat8 : Bool) (x : Num) : Nat × FpFlags :=
  match x with
  | .nan signalling => (defaultNaN f, if signalling then flagIV else 0)
  | .inf neg =>
    if f.f8a then
      if sat8 then (maxFinite f neg, flagOF ||| flagNX) else (defaultNaN f, flagIV)
    else (infBits f neg, 0)
  | .fin neg mag exp => roundNum f mode sat8 neg mag exp

/-- The result of an arithmetic operation in a format that is not F8A: an infinity is no overflow. -/
def resultNum (f : FloatFmt) (mode : Rounding) (x : Num) : Nat × FpFlags := encodeNum f mode true x

/-! ### Integers (R46, R55) -/

/-- The value of an In or Nn pattern. -/
def intValue (sgn : Bool) (bits x : Nat) : Int :=
  let v := x % 2 ^ bits
  if sgn ∧ 2 ^ (bits - 1) ≤ v then (v : Int) - 2 ^ bits else v

def intMin (sgn : Bool) (bits : Nat) : Int := if sgn then -(2 ^ (bits - 1)) else 0
def intMax (sgn : Bool) (bits : Nat) : Int := if sgn then 2 ^ (bits - 1) - 1 else 2 ^ bits - 1

/-- The pattern of an integer, wrapped to its width. -/
def intBits (bits : Nat) (z : Int) : Nat := (z % 2 ^ bits).toNat

/-- Saturation to a range: the bound, and whether it saturated. -/
def saturate (sgn : Bool) (bits : Nat) (z : Int) : Int × Bool :=
  if z < intMin sgn bits then (intMin sgn bits, true)
  else if intMax sgn bits < z then (intMax sgn bits, true)
  else (z, false)

/-- A datum rounded to an integer format (R55). -/
def numToInt (sgn : Bool) (bits : Nat) (mode : Rounding) (x : Num) : Nat × FpFlags :=
  match x with
  | .nan _ => (0, flagIV)
  | .inf neg => (intBits bits (if neg then intMin sgn bits else intMax sgn bits), flagIV)
  | .fin neg mag exp =>
    let (n, inexact) := roundAt mode neg mag exp 0
    let z : Int := if neg then -(n : Int) else n
    let (v, sat) := saturate sgn bits z
    (intBits bits v, if sat then flagIV else if inexact then flagNX else 0)

/-- An integer as a datum. -/
def intNum (z : Int) : Num := .fin (decide (z < 0)) z.natAbs 0

/-- The value of a bit-plane element as an integer from its bits, the most significant plane first (R66). -/
def planeValue (p : Nat) (v : Nat) : Int := if p = 1 then 2 * (v % 2 : Nat) - 1 else intValue true p v

/-! ### Conversion between formats (R46, R54, R55) -/

/-- A pattern of a format as a datum; raw bytes and coded blocks as their element's bits. -/
def toNum (f : Fmt) (x : Nat) : Num :=
  match f with
  | .raw => intNum (x : Int)
  | .int sgn bits => intNum (intValue sgn bits x)
  | .flt g => decodeFloat g x
  | .coded g => decodeFloat g x
  | .plane p => intNum (planeValue p x)

/-- Whether a format holds integers. -/
def Fmt.isInt : Fmt → Bool
  | .int _ _ | .plane _ => true
  | _ => false

/-- A bit-plane pattern of an integer: P4 and P2 saturate; P1 takes the sign, non-negative values giving +1. -/
def planeBits (p : Nat) (z : Int) : Nat × Bool :=
  if p = 1 then (if z < 0 then 0 else 1, decide (z ≠ 1 ∧ z ≠ -1))
  else
    let (v, sat) := saturate true p z
    (intBits p v, sat)

/-- A pattern converted from one format to another, with the flags it raises. -/
def convert (src dst : Fmt) (mode : Rounding) (sat8 : Bool) (x : Nat) : Nat × FpFlags :=
  match dst with
  | .raw => (x % 256, 0)
  | .int sgn bits =>
    if src.isInt then
      match toNum src x with
      | .fin neg mag _ => (intBits bits (saturate sgn bits (if neg then -(mag : Int) else mag)).1, 0)
      | _ => (0, 0)
    else numToInt sgn bits mode (toNum src x)
  | .flt g => encodeNum g mode sat8 (toNum src x)
  | .coded g => encodeNum g mode sat8 (toNum src x)
  | .plane p =>
    if src.isInt then
      match toNum src x with
      | .fin neg mag _ => ((planeBits p (if neg then -(mag : Int) else mag)).1, 0)
      | _ => (0, 0)
    else
      match toNum src x with
      | .nan _ => ((planeBits p 0).1, flagIV)
      | .inf neg => ((planeBits p (if neg then -1000 else 1000)).1, flagIV)
      | .fin neg mag exp =>
        let (n, inexact) := roundAt mode neg mag exp 0
        let (v, sat) := planeBits p (if neg then -(n : Int) else n)
        (v, if sat then flagIV else if inexact then flagNX else 0)

/-! ### Arithmetic (R50, R52, R56) -/

/-- Invalid raised for a signalling operand. -/
def snan (xs : List Num) : FpFlags := if xs.any (fun x => x == .nan true) then flagIV else 0
def anyNaN (xs : List Num) : Bool := xs.any (fun x => x == .nan true || x == .nan false)

/-- The exact sum of two finite values; the zero of opposite signs is -0 in RDN alone (R56). -/
def addFin (mode : Rounding) (na : Bool) (ma : Nat) (ea : Int) (nb : Bool) (mb : Nat) (eb : Int) : Num :=
  let e := min ea eb
  let a : Int := (if na then -1 else 1) * (ma * 2 ^ (ea - e).toNat : Nat)
  let b : Int := (if nb then -1 else 1) * (mb * 2 ^ (eb - e).toNat : Nat)
  let z := a + b
  if z = 0 then .fin (if na = nb then na else decide (mode = .rdn)) 0 0 else .fin (decide (z < 0)) z.natAbs e

/-- The exact sum, with the flags of special operands. -/
def addNum (mode : Rounding) (x y : Num) : Num × FpFlags :=
  if anyNaN [x, y] then (.nan false, snan [x, y])
  else match x, y with
    | .inf a, .inf b => if a = b then (.inf a, 0) else (.nan false, flagIV)
    | .inf a, _ => (.inf a, 0)
    | _, .inf b => (.inf b, 0)
    | .fin na ma ea, .fin nb mb eb => (addFin mode na ma ea nb mb eb, 0)
    | _, _ => (.nan false, 0)

def negNum : Num → Num
  | .nan s => .nan s
  | .inf n => .inf (!n)
  | .fin n m e => .fin (!n) m e

def absNum : Num → Num
  | .nan s => .nan s
  | .inf _ => .inf false
  | .fin _ m e => .fin false m e

/-- The exact product. -/
def mulNum (x y : Num) : Num × FpFlags :=
  if anyNaN [x, y] then (.nan false, snan [x, y])
  else match x, y with
    | .inf a, .inf b => (.inf (a != b), 0)
    | .inf a, .fin b m _ => if m = 0 then (.nan false, flagIV) else (.inf (a != b), 0)
    | .fin a m _, .inf b => if m = 0 then (.nan false, flagIV) else (.inf (a != b), 0)
    | .fin na ma ea, .fin nb mb eb => (.fin (na != nb) (ma * mb) (ea + eb), 0)
    | _, _ => (.nan false, 0)

/-- x × y + z, unrounded (R194's fused form). -/
def fmaNum (mode : Rounding) (x y z : Num) : Num × FpFlags :=
  let (p, f) := mulNum x y
  if anyNaN [x, y, z] then (.nan false, snan [x, y, z] ||| f)
  else
    let (r, g) := addNum mode p z
    (r, f ||| g)

/-- The quotient to 80 bits below the operands, a remainder leaving its mark in the last bit. -/
def divNum (x y : Num) : Num × FpFlags :=
  if anyNaN [x, y] then (.nan false, snan [x, y])
  else match x, y with
    | .inf _, .inf _ => (.nan false, flagIV)
    | .inf a, .fin b _ _ => (.inf (a != b), 0)
    | .fin a _ _, .inf b => (.fin (a != b) 0 0, 0)
    | .fin na ma ea, .fin nb mb eb =>
      if mb = 0 then (if ma = 0 then (.nan false, flagIV) else (.inf (na != nb), flagDZ))
      else
        let n := ma * 2 ^ 130
        let q := 2 * (n / mb) + (if n % mb = 0 then 0 else 1)
        (.fin (na != nb) q (ea - eb - 131), 0)
    | _, _ => (.nan false, 0)

/-- The square root to 100 bits, a remainder leaving its mark in the last bit. -/
def sqrtNum (x : Num) : Num × FpFlags :=
  match x with
  | .nan s => (.nan false, if s then flagIV else 0)
  | .inf false => (.inf false, 0)
  | .inf true => (.nan false, flagIV)
  | .fin neg m e =>
    if m = 0 then (.fin neg 0 0, 0)
    else if neg then (.nan false, flagIV)
    else
      let (m', e') := if e % 2 = 0 then (m, e) else (2 * m, e - 1)
      let n := m' * 2 ^ 200
      let r := Nat.sqrt n
      (.fin false (2 * r + (if r * r = n then 0 else 1)) (e' / 2 - 101), 0)

/-- Whether a < b, on data that are not NaN. -/
def numLt (x y : Num) : Bool :=
  match x, y with
  | .inf true, .inf true => false
  | .inf true, _ => true
  | _, .inf true => false
  | .inf false, _ => false
  | _, .inf false => true
  | .fin na ma ea, .fin nb mb eb =>
    let e := min ea eb
    let a : Int := (if na then -1 else 1) * (ma * 2 ^ (ea - e).toNat : Nat)
    let b : Int := (if nb then -1 else 1) * (mb * 2 ^ (eb - e).toNat : Nat)
    decide (a < b)
  | _, _ => false

/-- Whether a = b as values. -/
def numEq (x y : Num) : Bool := !anyNaN [x, y] && !numLt x y && !numLt y x

/-- The greater or the lesser of two data that are not NaN: +0 is above -0 (R69). -/
def numNeg : Num → Bool
  | .nan _ => false
  | .inf n => n
  | .fin n _ _ => n
def numMax (x y : Num) : Num := if numEq x y then (if numNeg x then y else x) else if numLt x y then y else x
def numMin (x y : Num) : Num := if numEq x y then (if numNeg x then x else y) else if numLt x y then x else y

end Sys2Proof.Machine
end

