-- ==== Sys2Proof/Machine/Operands.lean ====
section
/-! DEFINITION. The operand forms shared by the instructions: immediates, the register-to-register shapes, transfers of
control, and the effective addresses of the memory formats. -/

namespace Sys2Proof.Machine

/-- A signed immediate, extended to 64 bits (03_encoding.md). -/
def simm {n : Nat} (i : BitVec n) : Word := i.signExtend 64

/-- A compact register field of 3 bits names g4 to g11 (03_encoding.md R92). -/
def compactReg (r : BitVec 3) : Reg := BitVec.ofNat 5 (r.toNat + 4)

/-- rd := f(rs1, rs2). -/
def binary (s : State) (length : Nat) (d a : Reg) (l : Bool) (b : Reg) (m : Bool) (f : Word → Word → Word) :
    Host.Outcome State Fault Refusal :=
  conclude s (do
    let x ← s.readReg a
    let y ← s.readReg b
    s.retire length (used l a ++ used m b) [(d, f x y)])

/-- rd := f(rs1). -/
def unary (s : State) (length : Nat) (d a : Reg) (l : Bool) (f : Word → Word) : Host.Outcome State Fault Refusal :=
  conclude s (do
    let x ← s.readReg a
    s.retire length (used l a) [(d, f x)])

/-- rd := f(old rd, rs1, rs2). -/
def ternary (s : State) (length : Nat) (d a : Reg) (l : Bool) (b : Reg) (m : Bool) (f : Word → Word → Word → Word) :
    Host.Outcome State Fault Refusal :=
  conclude s (do
    let x ← s.readReg a
    let y ← s.readReg b
    let z ← s.readReg d
    s.retire length (used l a ++ used m b) [(d, f z x y)])

/-- rd := a constant. -/
def constant (s : State) (length : Nat) (d : Reg) (v : Word) : Host.Outcome State Fault Refusal :=
  conclude s (s.retire length [] [(d, v)])

/-- An instruction that only advances the pc. -/
def idle (s : State) (length : Nat) : Host.Outcome State Fault Refusal := conclude s (s.retire length [] [])

/-- A transfer of control (04_scalar.md R112, 03_encoding.md R76): an odd target traps with ADDRESS and nothing is
written. -/
def State.transfer (s : State) (target : Word) (dies : List Reg) (writes : List (Reg × Word)) : Run :=
  if bitAt target 0 then trapWith .address target else s.retireTo target dies writes

/-- The target of a branch: halfwords from the address of the branch (R112). -/
def State.branchTarget (s : State) {n : Nat} (o : BitVec n) : Word := s.me.pc + simm o * 2

/-- The effective address of format M: rs1 advanced by disp7 × 2^size bytes (05_memory_instr.md R115, R122). -/
def State.eaDisp (s : State) (a : Reg) (i : BitVec 7) (size : Nat) : Except Stop Word := do
  let p ← s.readReg a
  advanceOr p (i.toInt * 2 ^ size)

/-- The effective address of LDX and STX: rs1 advanced by rs2 × 2^s bytes, rs2 signed (R122). -/
def State.eaIndex (s : State) (a b : Reg) (sh : Nat) : Except Stop Word := do
  let p ← s.readReg a
  let x ← s.readReg b
  advanceOr p (x.toInt * 2 ^ sh)

end Sys2Proof.Machine
end

