-- ==== Sys2Proof/Machine/Home.lean ====
section
/-! DEFINITION. What a home does with a request (05_memory_instr.md R118 to R144): the operations it applies as one step, the
retry list, joins and their continuations, exact accumulators; and how a context sends a request. -/

namespace Sys2Proof.Machine

/-! ### Tasks entering the relief (06_task_instr.md R147, R154; 13_relief.md R320) -/

/-- Whether a task image keeps R147: reserved fields 0, NOPS at most 4, an explicit anchor inside the partition, operand
pointers in spaces 0 to 3. -/
def imageOk (s : State) (part : Nat) (w : List Word) : Bool :=
  let d (i : Nat) : Word := w.getD i 0
  let nops := bitsOf (d 0) 26 24
  decide (bitsOf (d 0) 51 49 = 0) && decide (bitsOf (d 0) 23 0 = 0) && decide (nops ≤ 4)
    && (!bitAt (d 0) 36 || (s.tilesOf part).contains (bitsOf (d 0) 35 27))
    && (List.range nops).all (fun j => decide (bitsOf (d (7 + 2 * j)) 63 40 = 0) && decide (ptrSpace (d (6 + 2 * j)) < 4))
    && decide (d 14 = 0) && decide (d 15 = 0)

/-- The pull of a task: the operands' bytes in units of 64, at most 0xFFF (R154). -/
def pullOf (w : List Word) : Nat :=
  let nops := bitsOf (w.getD 0 0) 26 24
  min 0xFFF (((List.range nops).map (fun j => bitsOf (w.getD (7 + 2 * j) 0) 39 0)).sum / 64)

/-- The anchor of a task (R154): explicit, or the tile of the largest CORE operand on this package, the lowest on a tie.
`crew` resolves crew-relative operands of a spawner in a crew. -/
def anchorOf (s : State) (crew : Option Crew) (w : List Word) : Option Nat :=
  if bitAt (w.getD 0 0) 36 then some (bitsOf (w.getD 0 0) 35 27)
  else
    let cand (j : Nat) : Option Nat :=
      let p := w.getD (6 + 2 * j) 0
      if ptrSpace p ≠ 1 then none
      else if ptrPkg p = 0xFF ∨ ptrPkg p = s.pkg.toNat then some (ptrCore p)
      else if ptrPkg p = 0xFD then
        match crew with
        | none => none
        | some c =>
          if coreX (ptrCore p) < c.rect.w ∧ coreY (ptrCore p) < c.rect.h then
            some (coreAt (c.rect.x + coreX (ptrCore p)) (c.rect.y + coreY (ptrCore p)))
          else none
      else none
    let best := (List.range (bitsOf (w.getD 0 0) 26 24)).foldl (fun (acc : Option (Nat × Nat)) j =>
      match cand j with
      | none => acc
      | some core =>
        let n := bitsOf (w.getD (7 + 2 * j) 0) 39 0
        match acc with
        | none => some (n, core)
        | some (n0, _) => if n0 < n then some (n, core) else acc) none
    best.map (fun e => coreTile e.2)

/-- The task of an image, at the entry address its directory entry gave. -/
def taskOf (s : State) (part : Nat) (crew : Option Crew) (prio : BitVec 3) (w : List Word) (entry : Word) (source : Nat) :
    Task :=
  let d (i : Nat) : Word := w.getD i 0
  { entry := entry
    prio := if bitAt (d 0) 48 then prio else BitVec.ofNat 3 (bitsOf (d 0) 39 37)
    cost := bitsOf (d 0) 47 40
    join := d 1
    args := Vector.ofFn (fun i : Fin 4 => d (2 + i.val))
    operands := (List.range (bitsOf (d 0) 26 24)).map (fun j => d (6 + 2 * j))
    pull := pullOf w
    anchor := anchorOf s crew w
    part := part
    source := source
    gtc := s.gtc }

/-- A task reaches the contour unit of a tile (13_relief.md R320). A tile on a lost die loses it. -/
def State.enterRelief (s : State) (tile : Nat) (t : Task) : State :=
  if s.dieLost (tileDie tile) then s
  else s.setTile tile { s.tile tile with deciding := (s.tile tile).deciding ++ [t] }

/-- An entry of the routine directory (06_task_instr.md R151): its two doublewords give the entry address; none with
V = 0 or an odd address. -/
def directoryEntry (w0 w1 : Word) : Option Word := if bitAt w1 63 ∧ ¬ bitAt w0 0 then some w0 else none

/-- n doublewords read by hardware through the page table of a partition; none where one cannot be read. -/
def State.hwRead (s : State) (part va n : Nat) : Option (List Word) :=
  (List.range n).foldr (fun i acc =>
    match acc, s.superRead part (va + 8 * i) with
    | some l, .ok v => some (v :: l)
    | _, _ => none) (some [])

/-! ### Messages to other packages (24_fabric.md R443 to R446) -/

/-- A CORE pointer to offset 0 of a core of a package (01_assembly.md R38): the home address of what is lost on its way there. -/
def corePtr (pkg core : Nat) : Word := wordOf (2 ^ 52 + pkg * 2 ^ 44 + core % 4096 * 2 ^ 32)

/-- The home address of a message. -/
def Dest.address : Dest → Word
  | .core n => corePtr 0xFF n
  | .remote pkg n => corePtr pkg n
  | .hostQueue _ _ => 0

/-- A message declared lost (16_ordering.md R369): its sender's counter keeps the mark, and KIND 3 reports it. -/
def State.loseFlight (s : State) (f : Flight) (why : Nat) : State :=
  let s := s.landed f
  match f.issuer with
  | none => s
  | some (core, ctx, a) =>
    let s := s.alterCtx core ctx (fun c => { c with lost := c.lost ||| ((1 : BitVec 4) <<< a) })
    s.reportLost core ctx why f.dest.address f.seq 4 a 0

/-- A message sent: within the package, to the host, or as a packet of three flits to another package (R443), lost where
no route is valid (R446). -/
def State.sendMessage (s : State) (f : Flight) : State :=
  match f.dest with
  | .remote pkg core =>
    let (n, s) := s.takeSeq f.source pkg core
    let f := { f with seq := n }
    let s := s.sendFlight f
    match s.portFor f.part pkg f.source core with
    | some port => s.queueFlits port 3
    | none => s.loseFlight f 2
  | .core n =>
    let s := s.sendFlight f
    if f.issuer.isSome ∧ n < 4096 ∧ s.dieLost (coreDie n) then s.loseFlight f 0 else s
  | _ => s.sendFlight f

/-! ### Joins (05_memory_instr.md R142 to R144) -/

/-- Fields of a join record. -/
def joinLast (w0 : Word) : Nat := bitsOf w0 59 48

/-- A continuation fires (R144): its image is read through the page table, its fourth argument replaced by word 2, and
the task, message or host queue message sent. An image that cannot be read, or a task image that breaks R147, sends
nothing (log 14). -/
def State.fire (s : State) (part home : Nat) (kind : Nat) (cont w0 w2 : Word) : State :=
  let va := ptrAddr cont
  if kind = 0 then
    match s.hwRead part va 16 with
    | none => s
    | some img =>
      let img := img.set 5 w2
      let rdir := (s.partRegs (some part)).rdir
      if rdir = 0 ∨ ¬ imageOk s part img then s
      else match s.hwRead part (ptrAddr rdir + 16 * bitsOf (img.getD 0 0) 63 52) 2 with
        | some [e0, e1] =>
          match directoryEntry e0 e1 with
          | none => s
          | some entry =>
            let t := taskOf s part none 0 img entry home
            let inside (n : Nat) : Bool := (s.tilesOf part).contains n
            -- tasks never leave their partition (13_relief.md R317; log 83)
            let tile := ([t.anchor.getD (coreTile (joinLast w0)), coreTile (joinLast w0)] ++ s.tilesOf part).find? inside
            (match tile with
              | some n => s.enterRelief n t
              | none => s)
        | _ => s
  else if kind = 3 then s
  else
    match s.hwRead part va 9 with
    | none => s
    | some img =>
      let d (i : Nat) : Word := img.getD i 0
      let m : Message :=
        { header := headerOf s.pkg.toNat (joinLast w0) 0 (bitsOf (d 1) 39 36) (bitsOf (d 1) 31 16) 0 (bitsOf (d 1) 4 0)
          arg0 := d 2, arg1 := d 3, arg2 := d 4, arg3 := w2, arg4 := d 6, arg5 := d 7, arg6 := d 8 }
      let dest : Option Dest :=
        if kind = 2 then (hostQueueOf (d 0)).map (fun q => .hostQueue part q)
        else if ptrPkg (d 0) = 0xFF ∨ ptrPkg (d 0) = s.pkg.toNat then
          (if s.partOf (ptrCore (d 0)) = some part then some (.core (ptrCore (d 0))) else none)
        else if ptrPkg (d 0) < 0xFD then some (.remote (ptrPkg (d 0)) (ptrCore (d 0)))
        else none
      match dest with
      | none => s
      | some t => { s with nextId := s.nextId + 1 }.sendMessage
          { id := s.nextId, dest := t, msg := m, source := home, part := part, gtc := s.gtc }

/-- JINIT at a record (R143): the old word 0; a count of 0 fires at once. -/
def State.joinInit (s : State) (part home key last : Nat) (operand : Word) : State × Word :=
  let old := s.dword key
  let count := bitsOf operand 31 0
  let kind := bitsOf operand 33 32
  let w0 := wordOf (last % 4096 * 2 ^ 48 + kind * 2 ^ 36 + (if count = 0 then 0 else 2 ^ 32) + count)
  let s := (s.storeBytes key 8 w0.toNat).storeBytes (key + 16) 8 0
  (if count = 0 then s.fire part home kind (s.dword (key + 8)) w0 0 else s, old)

/-- JOIN at a record (R143): the new COUNT, or all ones on a record that is not armed. `ecore` is the core an error is
charged to. -/
def State.joinStep (s : State) (part home key last ecore code : Nat) : State × Word :=
  let w0 := s.dword key
  let w2 := s.dword (key + 16)
  if !bitAt w0 32 then (s, BitVec.allOnes 64)
  else
    let count := (bitsOf w0 31 0 + 2 ^ 32 - 1) % 2 ^ 32
    let w2 := setBits w2 31 0 (bitsOf w2 31 0 + 1)
    let w2 := if code ≠ 0 ∧ ¬ bitAt w2 63 then setBits (setBits (setBits w2 47 32 code) 59 48 ecore) 63 63 1 else w2
    let armed := count ≠ 0
    let w0 := setBits (setBits (setBits w0 31 0 count) 59 48 last) 32 32 (if armed then 1 else 0)
    let s := (s.storeBytes key 8 w0.toNat).storeBytes (key + 16) 8 w2.toNat
    (if armed then s else s.fire part home (bitsOf w0 37 36) (s.dword (key + 8)) w0 w2, wordOf count)

/-- A JINIT or JOIN that hardware sends (16_ordering.md R369): a record that fails translation or permission is left as
it stands, and the loss reported with REASON 1. -/
def State.hwJoin (s : State) (part src core ctx : Nat) (record : Word) (f : State → Nat → Nat → State × Word)
    (level : Nat) : State :=
  match s.translate part (min level 1) Need.both (ptrAddr record) with
  | .ok (_, lin) => (f (s.dropLine part (ptrAddr record / 128)) (s.sliceOf part (lin / 128)) lin).1
  | .error r =>
    s.report part src core ctx 3 1 0 record 0 (wordOf (r * 2 ^ 44 + 3 * 2 ^ 32)) 0

/-! ### Exact accumulators (02_numbers.md R71 to R73, 05_memory_instr.md R139, R140) -/

/-- A contribution added. -/
def Accumulator.add (a : Accumulator) (x : Num) : Accumulator :=
  let a := { a with contributions := a.contributions + 1, ovf := a.ovf || decide (2 ^ 32 ≤ a.contributions) }
  match x with
  | .nan _ => { a with nanf := true }
  | .inf false => { a with pinf := true }
  | .inf true => { a with ninf := true }
  | .fin neg mag exp =>
    let (t, cut) := roundAt .rtz neg mag exp a.e
    let a := { a with nxf := a.nxf || cut }
    if 2 ^ 319 ≤ t then { a with ovf := true }
    else
      let z := a.sum + (if neg then -(t : Int) else t)
      { a with sum := (z + 2 ^ 351) % 2 ^ 352 - 2 ^ 351 }

/-- What REDR and REDC return, with the flags raised; OVF stays set once found (R73). -/
def Accumulator.read (a : Accumulator) (f : Fmt) (sat8 : Bool) : Accumulator × Nat × FpFlags :=
  let a := { a with ovf := a.ovf || decide (a.sum < -(2 ^ 319)) || decide (2 ^ 319 ≤ a.sum) }
  let inv : FpFlags := if a.pinf && a.ninf then flagIV else 0
  match f with
  | .int sgn bits =>
    if a.nanf || (a.pinf && a.ninf) then (a, 0, inv ||| flagIV)
    else if a.ovf then (a, 0, flagOF ||| flagIV)
    else if a.pinf || a.ninf then (a, intBits bits (if a.ninf then intMin sgn bits else intMax sgn bits), flagIV)
    else
      let (v, fl) := numToInt sgn bits .rne (.fin (decide (a.sum < 0)) a.sum.natAbs a.e)
      let inexact := (roundAt .rne (decide (a.sum < 0)) a.sum.natAbs a.e 0).2
      (a, v, fl ||| (if inexact || a.nxf then flagNX else 0))
  | .flt g =>
    if a.nanf || (a.pinf && a.ninf) then (a, defaultNaN g, inv)
    else if a.ovf then (a, defaultNaN g, flagOF)
    else if a.pinf || a.ninf then
      let (v, fl) := encodeNum g .rne sat8 (.inf a.ninf)
      (a, v, fl)
    else
      let (v, fl) := roundNum g .rne sat8 (decide (a.sum < 0)) a.sum.natAbs a.e
      (a, v, fl ||| (if a.nxf then flagNX else 0))
  | _ => (a, 0, 0)

/-- A result in a register (05_memory_instr.md R140): the value of a signed integer, otherwise zero-extended. -/
def resultWord (f : Fmt) (v : Nat) : Word :=
  match f with
  | .int true bits => wordOfInt (intValue true bits v)
  | _ => wordOf v

/-- The accumulator of a partition at an address, keyed by its linear equivalent. -/
def State.accumulator (s : State) (part key : Nat) : Option Accumulator :=
  match Table.look s.accumulators key with
  | some a => if a.part = part then some a else none
  | none => none

/-! ### One request applied at its home -/

/-- What a home answers: it is performed, it must wait, or it ends in a trap. -/
inductive Answer where
  | done (s : State) (data : Word)
  | unmet
  | trap (t : TrapInfo)
  deriving DecidableEq, Repr

/-- The value an AMO leaves (R137), on values of its size. -/
def amoValue {n : Nat} (op : AmoOp) (old x : BitVec n) : BitVec n :=
  match op with
  | .swap => x
  | .add => old + x
  | .and => old &&& x
  | .or => old ||| x
  | .xor => old ^^^ x
  | .min => if x.slt old then x else old
  | .max => if old.slt x then x else old
  | .minu => if x < old then x else old
  | .maxu => if old < x then x else old

/-- The result of a load of n bytes. -/
def extended (size : Nat) (sgn : Bool) (v : Nat) : Word :=
  if sgn then wordOfInt (intValue true (8 * size) v) else wordOf v

/-- A sealed or plain read for a request. -/
def State.requestRead (s : State) (r : Request) (n : Nat) : Option Nat :=
  s.plainRead { key := r.key, home := r.home, counter := 0, part := r.part, sealSlot := r.sealSlot, line := r.line } n

/-- FLUSH over a range of virtual addresses (05_memory_instr.md R135): every line whose page is mapped for the issuer is
written back and leaves L2 and every core cache of the partition. A line that a running engine command pins stays, clean, until
its last pin is released (15_memory_map.md R352). -/
def State.flushLines (s : State) (part level a n : Nat) : State :=
  let covered (l : Nat) : Bool :=
    decide (a / 128 ≤ l) && decide (l ≤ (a + n - 1) / 128) && (match s.translate part level {} (l * 128) with
      | .ok _ => true
      | .error _ => false)
  let hit (v : VCopy) : Bool := v.part == worldTag part level && covered v.line
  let kept := (s.vcopies.filter (fun v => hit v && !v.pins.isEmpty)).map (fun v => { v with dirty := 0, flushed := true })
  let s := (s.dropLines hit).dropFar part covered
  { s with vcopies := kept ++ s.vcopies }

/-- Pins of a command are released, on the lines that are not kept: a line flushed meanwhile is dropped with its last pin
(15_memory_map.md R352). -/
def State.unpin (s : State) (id : Nat) (keep : Nat → Bool) : State :=
  if s.vcopies.any (fun v => v.pins.contains id && !keep v.line) then
    { s with vcopies := s.vcopies.map (fun (v : VCopy) =>
        if keep v.line then v else { v with pins := v.pins.filter (· != id) }) }.dropLines (fun v => v.flushed && v.pins.isEmpty)
  else s

/-- A line that the fetch unit of a command reads, filled with hint 0 and pinned; none while 12 lines of its set are pinned (R352). -/
def State.pin (s : State) (id : Nat) (pl : Place) : Option State :=
  match pl.line with
  | none => some s
  | some (part, line) =>
    if 12 ≤ ((s.copySet part line).filter (fun v => !v.pins.isEmpty)).length then none
    else
      let s := (s.note pl).fill pl.line pl.key pl.sealSlot 0 true
      some { s with vcopies := s.vcopies.map (fun (v : VCopy) =>
        if v.part = part ∧ v.line = line ∧ !v.pins.contains id then { v with pins := id :: v.pins } else v) }

/-- FPFLAGS of a context raised. -/
def State.raiseFlags (s : State) (core ctx : Nat) (f : FpFlags) : State :=
  s.alterCtx core ctx (fun c => { c with fpflags := c.fpflags ||| f.setWidth 64 })

/-- Whether a request's own core may hold its line: a plain VIRT access of this package (15_memory_map.md R332; not SHRD, R397). -/
def Request.nearSide (r : Request) : Bool := decide (ptrSpace r.pointer = 0) && r.origin.isNone

/-- What a plain load leaves at its home and near its core: the line filled (R338, 15_memory_map.md R348). -/
def State.loaded (s : State) (r : Request) : State :=
  match r.line with
  | none => s
  | some l =>
    let s := s.fill r.line r.key r.sealSlot r.hint true
    if r.nearSide then s.fillNear r.core l.2 r.hint (s.copyOf r.line r.key) else s

/-- A plain store at its home: through a virtual line into its V-copy, filled first, otherwise into memory (15_memory_map.md R338,
R348). -/
def State.stored (s : State) (r : Request) (n v : Nat) : State :=
  match r.line with
  | none => s.storeBytes r.key n v
  | some l =>
    let s := (s.fill r.line r.key r.sealSlot r.hint false).putBytes r.line r.key n v
    if r.nearSide then s.storeNear r.core l.2 (r.key % 128) n v else s

/-- Whether a request is plain: it is performed at the virtual-hash slice and not forwarded (05_memory_instr.md R118). -/
def isPlain (op : MemOp) : Bool :=
  match op with
  | .load _ _ | .store _ | .tagRead | .flush _ => true
  | _ => false

/-- What the virtual-hash slice does before it forwards a synchronising request, atomic, reduction, join, VRECL or TAGW: V-copies
of its lines are written back and dropped (R338). -/
def State.atSlice (s : State) (r : Request) : State :=
  match r.line with
  | none => s
  | some (part, l) =>
    if isPlain r.op then s
    else
      let last := match r.op with
        | .retire _ n => (ptrAddr r.pointer + 8 * n - 1) / 128
        | _ => l
      s.dropLines (fun v => v.part == part && decide (l ≤ v.line) && decide (v.line ≤ last))

/-- How many bytes of a line that is present in the issuing core's portion an operation performed at the physical-line slice writes there
(15_memory_map.md R348, 16_ordering.md R357). -/
def nearBytes (op : MemOp) : Nat :=
  match op with
  | .loadFut | .loadTake | .loadVeq _ | .loadVge _ | .storeFill | .storeGive | .storeVnx | .storeVset _ => 8
  | .amo _ n | .cas n => n
  | .jinit | .join => 24
  | .carry => 16
  | _ => 0

/-- The bytes that the core of a synchronising request, atomic or join has seen at the home, written into its own line. -/
def State.seenNear (s : State) (r : Request) : State :=
  match r.line with
  | none => s
  | some l =>
    if r.nearSide ∧ nearBytes r.op ≠ 0 then
      s.storeNear r.core l.2 (r.key % 128) (nearBytes r.op) (readBytes s.mem r.key (nearBytes r.op))
    else s

/-- Whether a request performed at the physical-line slice has changed memory there: a write-through of its page (15_memory_map.md R338,
R346). -/
def wroteThrough (s t : State) (r : Request) : Bool :=
  match r.op with
  | .storeFill | .storeGive | .storeVnx | .storeVset _ | .tagWrite _ | .retire _ _ => true
  | .load _ _ | .store _ | .tagRead | .flush _ | .reduceOpen _ | .reduceAdd _ | .reduceRead _ | .reduceClose _ => false
  | _ => t.dword r.key != s.dword r.key || t.tag r.key != s.tag r.key

/-- Whether an operation is a store or a tag write, which takes a free bank (12_execution.md R306). -/
def ownsBank (op : MemOp) : Bool :=
  match op with
  | .store _ | .storeFill | .storeGive | .storeVnx | .storeVset _ | .tagWrite _ => true
  | _ => false

/-- What a request performed at its home leaves beside its effect: the bank it takes, the heat of its page, and its core's own line. -/
def State.performed (s t : State) (r : Request) : State :=
  let t := if ownsBank r.op ∧ r.origin = none ∧ r.ctx < 16 then t.takeBank r.core r.ctx r.key else t
  let t := match r.line with
    | some l => if wroteThrough s t r then t.countHeat l.1 (ptrAddr r.pointer) true else t
    | none => t
  t.seenNear r

/-- The entry store that the home of a CARRY issues: a plain store of its context, on its own way (08_matrix_instr.md R240,
18_sparse.md R393). -/
def State.storeEntry (s : State) (r : Request) : State :=
  if s.nowFor r.core r.key then s.stored r 8 r.data.toNat
  else ({ s with nextId := s.nextId + 1, requests := s.requests ++ [r] }).alterCtx r.core r.ctx (fun c => c.begin_ 1 (some 0))

/-- A request applied, without the re-check of waiting requests. -/
def State.applyCore (s : State) (r : Request) : Answer :=
  let t := s.tag r.key
  let poison := Answer.trap { cause := .page, faddr := dwordPtr r.pointer, reason := 5 }
  let bad := s.poisoned r.key 8
  let word := s.dword r.key
  match r.op with
  | .load size sgn =>
    match s.requestRead r size with
    | some v => .done (s.loaded r) (extended size sgn v)
    | none => poison
  | .store size =>
    .done (s.stored r size (bitsOf r.data (8 * size - 1) 0)) 0
  | .loadFut => if bad then poison else if tagFE t then .done s word else .unmet
  | .loadTake => if bad then poison else if tagFE t then .done (s.setTag r.key (mkTag false (tagVer t))) word else .unmet
  | .storeFill => .done ((s.storeBytes r.key 8 r.data.toNat).setTag r.key (mkTag true (tagVer t))) 0
  | .storeGive =>
    if tagFE t then .unmet else .done ((s.storeBytes r.key 8 r.data.toNat).setTag r.key (mkTag true (tagVer t))) 0
  | .loadVeq v =>
    if bad then poison
    else if tagVer t = v then .done s word
    -- passed by 64 at its first check (R126)
    else if (tagVer t - v).toNat = 64 then .trap { cause := .verovr, faddr := r.pointer }
    else .unmet
  | .loadVge v => if bad then poison else if (tagVer t - v).toNat < 64 then .done s word else .unmet
  | .storeVnx => .done ((s.storeBytes r.key 8 r.data.toNat).setTag r.key (mkTag (tagFE t) (tagVer t + 1))) 0
  | .storeVset v => .done ((s.storeBytes r.key 8 r.data.toNat).setTag r.key (mkTag (tagFE t) v)) 0
  | .tagRead => if bad then poison else .done s (t.setWidth 64)
  | .tagWrite n => .done (s.setTag r.key n) 0
  | .amo op size =>
    if s.poisoned r.key size then poison
    else if size = 4 then
      let old := BitVec.ofNat 32 (readBytes s.mem r.key 4)
      let new := amoValue op old (r.data.setWidth 32)
      .done (if new ≠ old ∨ op = .swap then s.storeBytes r.key 4 new.toNat else s) (old.signExtend 64)
    else
      let new := amoValue op word r.data
      .done (if new ≠ word ∨ op = .swap then s.storeBytes r.key 8 new.toNat else s) word
  | .cas size =>
    if s.poisoned r.key size then poison
    else if size = 4 then
      let old := BitVec.ofNat 32 (readBytes s.mem r.key 4)
      let new := if old = r.expected.setWidth 32 then r.data.setWidth 32 else old
      .done (if new ≠ old then s.storeBytes r.key 4 new.toNat else s) (old.signExtend 64)
    else
      let new := if word = r.expected then r.data else word
      .done (if new ≠ word then s.storeBytes r.key 8 new.toNat else s) word
  | .jinit =>
    if s.poisoned r.key 24 then poison
    else
      let (s, d) := s.joinInit r.part r.home r.key r.core r.data
      .done s d
  | .join =>
    if s.poisoned r.key 24 then poison
    else
      let (s, d) := s.joinStep r.part r.home r.key r.core r.core (bitsOf r.data 15 0)
      .done s d
  | .reduceOpen e =>
    let free := (s.accumulators.filter (fun x => x.2.home == r.home)).length < 64
    match Table.look s.accumulators r.key with
    | some a =>
      if a.part = r.part ∨ free then
        .done { s with accumulators := Table.put s.accumulators r.key { part := r.part, home := r.home, e := e } } 0
      else .done s 1
    | none =>
      if free then .done { s with accumulators := Table.put s.accumulators r.key { part := r.part, home := r.home, e := e } } 0
      else .done s 1
  | .reduceAdd f =>
    match s.accumulator r.part r.key, fmtOf f with
    | some a, some g => .done { s with accumulators := Table.put s.accumulators r.key (a.add (toNum g r.data.toNat)) } 0
    | _, _ => .trap { cause := .address, faddr := r.pointer }
  | .reduceRead f | .reduceClose f =>
    match s.accumulator r.part r.key, fmtOf f with
    | some a, some g =>
      let (a, v, fl) := a.read g (s.ctx r.core r.ctx).sat8
      let closes := match r.op with
        | .reduceClose _ => true
        | _ => false
      let acc := if closes then Table.drop s.accumulators r.key else Table.put s.accumulators r.key a
      .done (State.raiseFlags { s with accumulators := acc } r.core r.ctx fl) (resultWord g v)
    | _, _ => .trap { cause := .address, faddr := r.pointer }
  | .retire base words =>
    .done ((List.range words).foldl (fun s i => s.setTag (r.key + 8 * i) (mkTag (tagFE (s.tag (r.key + 8 * i))) base)) s) 0
  | .carry =>
    if s.poisoned r.key 16 then poison
    else
      let cap := readBytes s.mem r.key 4
      let n := readBytes s.mem (r.key + 8) 4
      if n < cap then
        let entry (q : Word) (key home : Nat) (line : Option (Nat × Nat)) : Request :=
          { id := s.nextId, grp := s.nextId, core := r.core, ctx := r.ctx, op := .store 8, key := key, pointer := q, part := r.part
            level := r.level, data := r.data, home := home, cls := some 1, counter := some 0, pc := r.pc, line := line }
        let put (e : Request) : Answer := .done ((s.storeBytes (r.key + 8) 4 (n + 1)).storeEntry e) (wordOf n)
        match advance r.pointer (16 + 8 * n) with
        | none => .trap { cause := .ptrovf, faddr := r.pointer }
        | some q =>
          if ptrSpace r.pointer = 0 then
            match s.translate r.part r.level Need.store (ptrAddr q) with
            | .ok (_, lin) => put (entry q lin (s.sliceOf r.part (ptrAddr q / 4096)) (some (worldTag r.part r.level, ptrAddr q / 128)))
            | .error reason => .trap { cause := .page, faddr := q, reason := reason }
          else match linearOf (ptrAddr q) with
            | some lin =>
              -- a SYS entry is checked as a SYS access of the issuer (01_assembly.md R42)
              if r.level < 2 ∧ s.ownerOf lin ≠ some r.part then .trap { cause := .address, faddr := q }
              else put (entry q lin (s.sliceOf r.part (lin / 128)) none)
            | none => .trap { cause := .address, faddr := q }
      else .done s (BitVec.allOnes 64)
  | .flush n => .done (s.flushLines r.part r.level (ptrAddr r.pointer) n) 0

/-! ### The retry list (R126, R127) -/

def State.putRequest (s : State) (r : Request) : State :=
  { s with requests := s.requests.map (fun q => if q.id = r.id then r else q) }
def State.dropRequest (s : State) (id : Nat) : State := { s with requests := s.requests.filter (fun q => q.id ≠ id) }

/-- A request performed at its home, with what that leaves beside its effect. -/
def State.perform (s : State) (r : Request) : Answer :=
  match s.applyCore r with
  | .done t d => .done (s.performed t r) d
  | a => a

/-- Where a waiting .veq load stands at its first check (R126). -/
def veqStart (v ver : BitVec 7) : Stage :=
  if (v - ver).toNat ≤ 63 then .waiting (v - ver).toNat 0 else .waiting 0 (ver - v).toNat

/-- One waiting request re-checked after a change of its word; `n` is how far VER has moved. -/
def State.recheckOne (s : State) (id n : Nat) : State × Bool :=
  match s.requests.find? (fun q => q.id == id) with
  | none => (s, false)
  | some r =>
    match r.stage with
    | .waiting ahead passed =>
      let finish : State × Bool :=
        match s.perform r with
        | .done s d => ((s.putRequest { r with stage := .returned d }).wake r.core r.ctx, true)
        | .unmet => (s, false)
        | .trap t => ((s.putRequest { r with stage := .failed t.cause t.reason t.faddr t.detail5 }).wake r.core r.ctx, true)
      match r.op with
      | .loadVeq _ =>
        if n = 0 then (s, false)
        else if passed = 0 ∧ n = ahead then finish
        else
          let (ahead', passed') :=
            if passed = 0 then (if n < ahead then (ahead - n, 0) else (0, n - ahead)) else (0, passed + n)
          if 64 ≤ passed' then ((s.putRequest { r with stage := .failed .verovr 0 r.pointer 0 }).wake r.core r.ctx, false)
          else (s.putRequest { r with stage := .waiting ahead' passed' }, false)
      | _ => finish
    | _ => (s, false)

/-- Every entry that waits on a word, in the order in which they were accepted. -/
def State.waitersOn (s : State) (key : Nat) : List Nat :=
  let w := s.requests.filter (fun q => decide (q.key / 8 = key / 8) && (match q.stage with
    | .waiting _ _ => true
    | _ => false))
  (sortBy (fun a b => decide (a.accepted ≤ b.accepted)) w).map (·.id)

/-- Passes over the entries that wait on a word until none is satisfied (R127). -/
def State.recheck (s : State) (key : Nat) : Nat → Nat → State
  | 0, _ => s
  | fuel + 1, n =>
    let (s', any) := (s.waitersOn key).foldl (fun (acc : State × Bool) id =>
      let (t, b) := acc.1.recheckOne id n
      (t, acc.2 || b)) (s, false)
    if any then s'.recheck key fuel 0 else s'

/-- A request applied at its home, with the re-check of the entries that wait on a word it changed. -/
def State.apply (s : State) (r : Request) : Answer :=
  let s := s.atSlice r
  match s.perform r with
  | .done s' d =>
    if s'.requests = [] then .done s' d
    else
      let words := match r.op with
        | .retire _ n => (List.range n).map (fun i => r.key + 8 * i)
        | _ => [r.key]
      .done (words.foldl (fun (acc : State) k =>
        match r.op with
        | .retire _ _ =>
          -- every LDT waiting on the word ends with VEROVR; the others are re-checked (R130)
          let acc := (acc.waitersOn k).foldl (fun (a : State) id =>
            match a.requests.find? (fun q => q.id == id) with
            | none => a
            | some q => match q.op with
              | .loadVeq _ | .loadVge _ => (a.putRequest { q with stage := .failed .verovr 0 q.pointer 0 }).wake q.core q.ctx
              | _ => a) acc
          acc.recheck k acc.requests.length 0
        | _ => acc.recheck k (acc.requests.length + 1) (tagVer (s'.tag k) - tagVer (s.tag k)).toNat) s') d
  | a => a

/-- How many entries the retry list of a home holds, and its capacity (R127). -/
def State.retryLoad (s : State) (home : Nat) : Nat :=
  (s.requests.filter (fun q => q.home == home && (match q.stage with
    | .waiting _ _ => true
    | _ => false))).length
def retryCapacity (home : Nat) : Nat := if home < 4096 then 16 else 256

/-- A request that must wait enters the retry list of its home, or is answered with NACK when it is full (R127). -/
def State.enqueue (s : State) (r : Request) : State :=
  let s := s.atSlice r
  let stage := if retryCapacity r.home ≤ s.retryLoad r.home then .nacked
    else match r.op with
      | .loadVeq v => veqStart v (tagVer (s.tag r.key))
      | _ => .waiting 0 0
  let r := { r with stage := stage, accepted := s.nextOrder }
  { s with requests := s.requests.filter (fun q => q.id ≠ r.id) ++ [r], nextOrder := s.nextOrder + 1 }

/-! ### Sending a request -/

/-- The flits of a request's packet: the header flit and its payload (24_fabric.md R443). -/
def requestFlits (op : MemOp) : Nat :=
  match op with
  | .load _ _ => 1
  | _ => 2

/-- The kind of a request in a KIND 3 report (22_faults.md R423). -/
def lostKind (op : MemOp) : Nat :=
  match op with
  | .amo _ _ | .cas _ => 1
  | .reduceOpen _ | .reduceAdd _ | .reduceRead _ | .reduceClose _ => 2
  | .jinit | .join => 3
  | .carry => 5
  | .retire _ _ | .tagWrite _ => 6
  | .load _ _ | .loadFut | .loadTake | .loadVeq _ | .loadVge _ | .tagRead => 7
  | _ => 0

/-- Whether an operation returns data that its context may await: such an operation is never declared lost as a store
(16_ordering.md R369, R373). -/
def isLoad (op : MemOp) : Bool :=
  match op with
  | .load _ _ | .loadFut | .loadTake | .loadVeq _ | .loadVge _ | .tagRead => true
  | _ => false

/-- A destination that will never receive its data (R373). -/
def Ctx.loseLoad (c : Ctx) (t : Target) (e : LostLoad) : Ctx :=
  match t with
  | .none => c
  | .reg p => { c with lostLoads := Table.put c.lostLoads p e }
  | .element v _ _ => { c with lostLoads := Table.put c.lostLoads (64 + v) e }

/-- The lost mark of an acknowledgement counter (05_memory_instr.md R134). -/
def Ctx.markLost (c : Ctx) (counter : Nat) : Ctx := { c with lost := c.lost ||| ((1 : BitVec 4) <<< counter) }

/-- The operations of a group count once (05_memory_instr.md R120): whether this request is the last of its group. -/
def State.lastOfGroup (s : State) (r : Request) : Bool := !s.requests.any (fun q => q.grp == r.grp && q.id != r.id)

/-- A request of a context comes to its end: its counts drop with the last of its group, and the last store of a
multicast places its completion (05_memory_instr.md R146). -/
def State.finishCounts (s : State) (r : Request) : State :=
  let last := s.lastOfGroup r
  let s := s.dropRequest r.id
  let s := if r.groupLost then
      { s with requests := s.requests.map (fun q => if q.grp = r.grp then { q with groupLost := true } else q) } else s
  if ¬ last then s
  else
    match r.mcast with
    | some op => s.complete r.core r.ctx r.part op r.cls (if r.groupLost then 1 else 0) []
    | none => match r.cls with
      | none => s
      | some c => s.endOp r.core r.ctx c r.counter

/-- A lost store of a sharded access is marked with every ATSYNC of its partition that waits for it (10_system_instr.md R284). -/
def State.noteLost (s : State) (r : Request) : State :=
  match r.tensor, r.counter with
  | some (_, _, e), some a =>
    { s with held := s.held.map (fun h => match h.what with
        | .admin n => if e < n ∧ s.partOf h.core = s.partOf r.core then { h with mask := h.mask ||| ((1 : BitVec 4) <<< a) } else h
        | _ => h) }
  | _, _ => s

/-- A request declared lost (16_ordering.md R369, R371, R373): a waiting access traps at once; a load leaves its
destination without data; anything else marks its counter and is reported with KIND 3. -/
def State.loseRequest (s : State) (r : Request) (why : Nat) : State :=
  let gone : LostLoad := { address := r.pointer, page := 4, why := why, seq := r.seq }
  if r.blocking then (s.putRequest { r with stage := .failed .page 4 r.pointer 0 }).wake r.core r.ctx
  else if isLoad r.op then
    let s := s.finishCounts r
    s.alterCtx r.core r.ctx (fun c => c.loseLoad r.target gone)
  else
    let s := (s.noteLost r).finishCounts { r with groupLost := true }
    let s := if r.counter = none then s else s.alterCtx r.core r.ctx (fun c => c.markLost (r.counter.getD 0))
    let s := match r.target with
      | .none => s
      | t => s.alterCtx r.core r.ctx (fun c => c.loseLoad t gone)
    s.reportLost r.core r.ctx why r.pointer r.seq (lostKind r.op) (r.counter.getD 0) 0

/-- Whether 63 operations of the class are outstanding (R120): the instruction stalls before issue. -/
def State.classFull (s : State) (cls : Nat) : Bool := decide (63 ≤ s.me.outstanding.get cls)

/-- The replay store of a network interface holds 64 fabric requests (24_fabric.md R444). -/
def State.replayFull (s : State) : Bool :=
  decide (64 ≤ (s.requests.filter (fun q => q.remote.isSome && q.core == s.cur.1)).length
    + (s.flights.filter (fun f => f.source == s.cur.1 && (match f.dest with
        | .remote _ _ => true
        | _ => false))).length)

/-- The stalls before a request is issued: its class, the replay store, and the order of one context's accesses. -/
def State.readyToSend (s : State) (pl : Place) (n cls : Nat) : Except Stop Unit :=
  if s.classFull cls ∨ (pl.remote.isSome ∧ s.replayFull) ∨ s.conflicts pl.key n then stall .retry else .ok ()

/-- A request as the issuing context sends it. -/
def State.requestOf (s : State) (p : Word) (pl : Place) (op : MemOp) (data : Word) (cls : Nat) (counter : Option Nat)
    (target : Target) : Request :=
  { id := s.nextId, grp := s.nextId, core := s.cur.1, ctx := s.cur.2, op := op, key := pl.key, pointer := p, part := pl.part
    level := s.me.level, data := data, target := target, remote := pl.remote, home := pl.home, cls := some cls
    counter := counter, pc := s.me.pc, sealSlot := pl.sealSlot, tensor := pl.tensor, line := pl.line }

/-- A request joins those on their way. A request for another package takes a sequence number and a port, or is
declared lost where no route is valid (24_fabric.md R444, R446). -/
def State.dispatch (s : State) (r : Request) : State :=
  match r.remote with
  | none => { s with requests := s.requests ++ [{ r with seq := s.lastSeq r.core r.home }] }
  | some pkg =>
    let (n, s) := s.takeSeq r.core pkg r.home
    let r := { r with seq := n }
    let s := { s with requests := s.requests ++ [r] }
    match s.portFor r.part pkg r.core (homekeyOf r.home r.key) with
    | some port => s.queueFlits port (requestFlits r.op)
    | none => s.loseRequest r 2

/-- The counts of a request begin, and its identifier is taken. -/
def State.beginRequest (s : State) (r : Request) : State :=
  let s := { s with nextId := s.nextId + 1 }
  match r.cls with
  | none => s
  | some cls => s.beginOp r.core r.ctx cls r.counter

/-- A request counted and sent. -/
def State.launchRequest (s : State) (r : Request) : State := (s.beginRequest r).dispatch r

/-- A counted request that finds its home lost: a synchronising one drops the V-copies of its line first (15_memory_map.md R338,
16_ordering.md R374). -/
def State.loseHere (s : State) (r : Request) : State := (s.atSlice r).loseRequest { r with seq := s.lastSeq r.core r.home } 0

/-- A counted request sent now: to another package, lost with its home's memory, performed at once with `eager`, or on
its way. -/
def State.sendCounted (s : State) (r : Request) (lost : Bool) : State :=
  let s := if r.remote.isSome then s else s.countSeq r.core r.home
  if r.remote.isSome then s.dispatch r
  else if lost then s.loseHere r
  else if s.nowFor r.core r.key then
    match s.apply r with
    | .done t v =>
      let t := t.finishCounts r
      match r.target with
      | .reg p => t.alterCtx r.core r.ctx (fun c => c.write p v)
      | _ => t
    | _ => s.loseRequest r 0
  else s.dispatch r

/-- A destination that becomes live before its data is there (05_memory_instr.md R119). -/
def State.retirePending (s : State) (length : Nat) (dies : List Reg) (d : Reg) : Run := do
  let past := s.me.past
  let t ← s.retire length dies [(d, 0)]
  pure (t.setMe { t.me with past := past })

/-- Where the destination register of a load stands. -/
def State.targetOf (s : State) (d : Reg) : Target := if d = 0 then .none else .reg (s.me.place d)

/-- What a plain load of the issuing context takes from its own core's cache (15_memory_map.md R348, R349). -/
def State.nearLoad (s : State) (p : Word) (pl : Place) (op : MemOp) (hint : BitVec 2) : Option (Nat × BitVec 1024 × Word) :=
  match op, pl.line, s.nearHit p pl hint with
  | .load size sgn, some l, some d => some (l.2, d, extended size sgn (lineBytes d (pl.key % 128) size))
  | _, _, _ => none

/-- An operation with a result, not blocking (R120, class ld): a plain load that hits near is performed there; otherwise with
`eager` it is performed as it is issued, and without it the register is written when its data returns. -/
def State.sendLoad (s : State) (p : Word) (pl : Place) (n : Nat) (op : MemOp) (data expected : Word) (d : Reg) (length : Nat)
    (dies : List Reg) (hint : BitVec 2 := 0) : Run := do
  s.readyToSend pl n 0
  let r := { s.requestOf p pl op data 0 none (s.targetOf d) with expected := expected, length := length, hint := hint }
  match s.nearLoad p pl op hint with
  | some (line, held, v) => (s.moveNear s.cur.1 line held hint).retire length dies [(d, v)]
  | none =>
    if pl.remote.isSome then
      let t ← s.retirePending length dies d
      pure (t.launchRequest r)
    else if pl.lost then
      let t ← (s.depart pl).retirePending length dies d
      pure ((t.beginRequest r).loseHere r)
    else if s.nowAt pl.key then
      match (s.depart pl).apply r with
      | .done t v => t.retire length dies [(d, v)]
      | .trap t => .error (.trap t)
      | .unmet => stall .retry
    else
      let t ← (s.depart pl).retirePending length dies d
      pure (t.launchRequest r)

/-- An operation without a result (R120, class st). -/
def State.sendStore (s : State) (p : Word) (pl : Place) (n : Nat) (op : MemOp) (data expected : Word) (length : Nat)
    (dies : List Reg) (hint : BitVec 2 := 0) : Run := do
  s.readyToSend pl n 1
  let r := { s.requestOf p pl op data 1 (some pl.counter) .none with expected := expected, length := length, hint := hint }
  if pl.remote.isSome then
    let t ← s.retire length dies []
    pure (t.launchRequest r)
  else if pl.lost then
    let t ← (s.depart pl).retire length dies []
    pure ((t.beginRequest r).loseHere r)
  else if s.nowAt pl.key then
    match (s.depart pl).apply r with
    | .done t _ => t.retire length dies []
    | .trap t => .error (.trap t)
    | .unmet => stall .retry
  else
    let t ← (s.depart pl).retire length dies []
    pure (t.launchRequest r)

end Sys2Proof.Machine
end

