-- ==== Sys2Proof/Machine/Order.lean ====
section
/-! DEFINITION. Extents, drains, releases and acquires (05_memory_instr.md R128, R134; 16_ordering.md R358 to R360), the
blocking synchronising accesses, and FENCE, WAIT, FLUSH, CINV and PREF. -/

namespace Sys2Proof.Machine

/-! ### Extents (16_ordering.md R360, 06_task_instr.md R170) -/

/-- The columns or rows from a first to a last one, wrapping around a ring. -/
def ringRange (first last size : Nat) : List Nat :=
  (List.range size).filter (fun i =>
    if first ≤ last then decide (first ≤ i) && decide (i ≤ last) else decide (first ≤ i) || decide (i ≤ last))

/-- The cores of an extent on this package, as columns and rows, and its package range; none where the extent makes its
instruction trap with ADDRESS. -/
structure Reach where
  xs : List Nat
  ys : List Nat
  plo : Nat
  phi : Nat
  deriving DecidableEq, Repr

def State.reach (s : State) (e : Word) : Option Reach :=
  let plo := bitsOf e 63 56
  let phi := bitsOf e 55 48
  let x0 := bitsOf e 47 41
  let y0 := bitsOf e 40 36
  let x1 := bitsOf e 35 29
  let y1 := bitsOf e 28 24
  if bitsOf e 23 0 ≠ 0 ∨ plo = 0xFE ∨ phi = 0xFE then none
  else if plo = 0xFD ∨ phi = 0xFD then
    if plo ≠ phi then none
    else match s.crewOf s.cur.1 s.cur.2 with
      | none => none
      | some c =>
        some { xs := (ringRange x0 x1 128).map (fun x => (c.rect.x + x) % 128)
               ys := (ringRange y0 y1 32).map (fun y => (c.rect.y + y) % 32), plo := s.pkg.toNat, phi := s.pkg.toNat }
  else
    let own (p : Nat) : Nat := if p = 0xFF then s.pkg.toNat else p
    some { xs := ringRange x0 x1 128, ys := ringRange y0 y1 32, plo := own plo, phi := own phi }

/-- Whether a package range includes a package. -/
def Reach.includes (r : Reach) (p : Nat) : Bool :=
  if r.plo ≤ r.phi then decide (r.plo ≤ p) && decide (p ≤ r.phi) else decide (r.plo ≤ p) || decide (p ≤ r.phi)

/-- The acknowledgement counters an extent touches (R134). -/
def State.counters (s : State) (r : Reach) : BitVec 4 :=
  let here := r.includes s.pkg.toNat
  let g := superGroupOf s.cur.1
  let mine := !isService s.cur.1
  let inGroup := mine && r.xs.any (fun x => r.ys.any (fun y => superGroupOf (coreAt x y) == g))
  let outGroup := r.xs.any (fun x => r.ys.any (fun y => !(mine && superGroupOf (coreAt x y) == g)))
  let other := !(decide (r.plo = r.phi) && decide (r.plo = s.pkg.toNat))
  1 ||| (if here && inGroup then 2 else 0) ||| (if here && outGroup then 4 else 0) ||| (if other then 8 else 0)

/-- The counters of an extent, or its ADDRESS trap, FADDR holding what the instruction reports. -/
def State.extent (s : State) (e faddr : Word) : Except Stop (BitVec 4) :=
  match s.reach e with
  | none => trapWith .address faddr
  | some r => .ok (s.counters r)

/-! ### Drains -/

/-- Whether everything a context sent before an identifier is drained: the counters of the mask (R134), and every
earlier load, gather and atomic with a result (R359). -/
def State.drained (s : State) (core ctx before : Nat) (mask : BitVec 4) : Bool :=
  !s.requests.any (fun q => q.core == core && q.ctx == ctx && decide (q.id < before)
      && (match q.counter with
          | some a => mask.getLsbD a
          | none => match q.stage with
            | .sent | .nacked | .waiting _ _ => true
            | _ => false))
    && !s.flights.any (fun f => decide (f.id < before) && (match f.issuer with
        | some (c, x, a) => c == core && x == ctx && mask.getLsbD a
        | none => false))
    && !s.commands.any (fun c => c.issuer == core && c.issuerCtx == ctx && decide (c.id < before) && (match c.counter with
        | some a => mask.getLsbD a
        | none => false))
    && !s.held.any (fun h => h.core == core && h.ctx == ctx && decide (h.id < before))

/-- The issuing context is drained over a mask now. -/
def State.drainedNow (s : State) (mask : BitVec 4) : Bool := s.drained s.cur.1 s.cur.2 s.nextId mask

/-- FENCE's report (R134) and the marks it leaves. -/
def lostStatus (lost mask : BitVec 4) : Word := wordOf ((if lost &&& mask = 0 then 0 else 1) + (lost &&& mask).toNat * 2)

/-! ### Releasing stores and blocking accesses -/

/-- A release held at the core until its counters drain (R128). -/
def State.hold (s : State) (id : Nat) (mask : BitVec 4) (what : HeldWhat) : State :=
  { s with held := s.held ++ [{ id := id, core := s.cur.1, ctx := s.cur.2, mask := mask, what := what }] }

/-- A releasing request (R128, R358): sent once the counters of DEXT have drained; later instructions may issue before.
A result register, if any, waits for it. -/
def State.sendRelease (s : State) (p : Word) (pl : Place) (n : Nat) (op : MemOp) (data : Word) (d : Reg) (length : Nat)
    (dies : List Reg) (hint : BitVec 2 := 0) : Run := do
  let cls := if d = 0 then 1 else 0
  s.readyToSend pl n cls
  let mask ← s.extent s.me.dext p
  if s.drainedNow mask then
    if d = 0 then s.sendStore p pl n op data 0 length dies hint else s.sendLoad p pl n op data 0 d length dies hint
  else
    let r := { s.requestOf p pl op data cls (if d = 0 then some pl.counter else none) (s.targetOf d) with length := length, hint := hint }
    let t ← (s.note pl).retirePending length dies d
    pure ((t.beginRequest r).hold r.id mask (.request r))

/-- Whether a satisfied access acquires (16_ordering.md R358): LD `.fut`, `.take` and LDT do, ST `.give` does not. -/
def acquires (op : MemOp) : Bool :=
  match op with
  | .loadFut | .loadTake | .loadVeq _ | .loadVge _ => true
  | _ => false

/-- The acquire of a satisfied access. -/
def State.satisfied (s : State) (op : MemOp) : State := if acquires op then s.acquire s.cur.1 else s

/-- The blocking request of the instruction the context stands at. -/
def State.mySync (s : State) : Option Request :=
  s.requests.find? (fun q => q.blocking && q.cls.isSome && q.core == s.cur.1 && q.ctx == s.cur.2 && q.pc == s.me.pc)

/-- Whether a release of the context is still held: a later synchronising access is sent only after it (R128). -/
def State.holding (s : State) : Bool := s.held.any (fun h => h.core == s.cur.1 && h.ctx == s.cur.2)

/-- ARG4 of a report on a sharded access: tensor, GEN and owner package (22_faults.md R423). -/
def Request.shardDetail (r : Request) : Word :=
  match r.tensor, r.remote with
  | some (tensor, gen, _), some owner => wordOf (owner * 2 ^ 20 + gen * 2 ^ 12 + tensor)
  | _, _ => 0

/-- An access that holds its context at the instruction until its home has answered: one that blocks until it is satisfied (R120), or one
whose checks are made at its home (R119). `start` gives the pointer, place and operand when it is first sent, `ready` what else it waits
for; the registers it needs to retire are set aside first (01_assembly.md R30). -/
def State.atHome (s : State) (n cls : Nat) (d : Reg) (dies : List Reg) (op : MemOp) (start : Except Stop (Word × Place × Word))
    (ready : Word → Except Stop Unit) : Run :=
  match s.mySync with
  | some r =>
    match r.stage with
    | .returned v => do
      let t ← (s.satisfied op).retire 4 dies [(d, v)]
      pure (t.finishCounts r)
    | .failed cause reason faddr detail =>
      .error (.trapIn (s.finishCounts r) { cause := cause, faddr := faddr, reason := reason, detail4 := r.shardDetail, detail5 := detail })
    | _ => stall (.request r.id)
  | none => do
    let (p, pl, data) ← start
    s.readyToSend pl n cls
    ready p
    s.mayBegin dies d
    let r := { s.requestOf p pl op data cls (if cls = 1 then some pl.counter else none) .none with blocking := true, dies := dies
                                                                                                   target := s.targetOf d }
    let aside := s.setAside dies d
    if pl.remote.isSome then .error (.waitIn (aside.launchRequest r) (.request r.id))
    else if pl.lost then .error (.trapIn ((s.depart pl).atSlice r) { cause := .page, faddr := p, reason := 4 })
    else if s.nowAt pl.key then
      match (s.depart pl).apply r with
      | .done t v => (t.satisfied op).retire 4 dies [(d, v)]
      | .trap t => .error (.trap t)
      | .unmet => .error (.waitIn (((aside.depart pl).beginRequest r).enqueue r) (.request r.id))
    else .error (.waitIn ((aside.depart pl).launchRequest r) (.request r.id))

/-- A synchronising access that blocks its context until it is satisfied (R119, R120, R124 to R127): it is sent after the releases that
its context still holds, and where it releases, after its drain (R128). -/
def State.blocking (s : State) (cls : Nat) (releases : Bool) (d : Reg) (dies : List Reg) (op : MemOp)
    (start : Except Stop (Word × Place × Word)) : Run :=
  s.atHome 8 cls d dies op start (fun p => do
    let mask ← s.extent s.me.dext p
    if s.holding ∨ (releases ∧ ¬ s.drainedNow mask) then stall .retry)

/-- The acknowledgement counters every counter of a context names. -/
def allCounters : BitVec 4 := 0xF

/-- The spaces an instruction accepts (R116): FORMAT for a reserved format first (R35), then ADDRESS. -/
def spaces (p : Word) (ok : List Nat) : Except Stop Unit :=
  if fmtReserved (ptrFmt p) then trapWith .format p
  else if ok.contains (ptrSpace p) then .ok ()
  else trapWith .address p

/-- The start of a range that FLUSH, CINV and PREF accept: the checks of R35 to R42 but for mapping and permission,
which they skip (R135); the end is computed under R107. -/
def State.rangeOf (s : State) (p len : Word) (ok : List Nat) : Except Stop Unit := do
  spaces p ok
  if len ≠ 0 then
    let _ ← advanceOr p len.toNat
    if ptrSpace p = 0 ∧ s.myPart = none then trapWith .address p
    if ptrSpace p = 3 then
      let _ ← s.placeOf p 1 {} false
      pure ()

/-! ### FENCE, FLUSH, CINV, PREF, WAIT -/

/-- FENCE: waits until the counters its extent touches and every earlier load have drained, reports and clears their
lost marks, and acquires (R128, R134, R359). -/
def execFence (d : BitVec 5) (a : BitVec 5) (l : Bool) (s : State) :
    Host.Outcome State Fault Refusal :=
  conclude s (do
    let e ← s.readReg a
    let mask ← s.extent e e
    if !s.drainedNow mask then stall .retry
    let lost := s.me.lost
    ((s.setMe { s.me with lost := lost &&& ~~~mask }).acquire s.cur.1).retire 4 (used l a) [(d, lostStatus lost mask)])

/-- Whether an earlier store of the issuing context to a line of a VIRT range has still to be performed: FLUSH acts after it, since each
line is flushed at its own slice (R135, R370). -/
def State.linesPending (s : State) (p : Word) (n : Nat) : Bool :=
  let within (q : Request) : Bool := match q.line with
    | some l => decide (ptrAddr p / 128 ≤ l.2) && decide (l.2 ≤ (ptrAddr p + n - 1) / 128)
    | none => false
  s.requests.any (fun q => q.core == s.cur.1 && q.ctx == s.cur.2 && within q && (match q.stage with
    | .sent | .nacked | .waiting _ _ => true
    | _ => false))
    || s.held.any (fun h => h.core == s.cur.1 && h.ctx == s.cur.2 && (match h.what with
      | .request q => within q
      | _ => false))

/-- FLUSH: writes back and invalidates every line of the range; counted as a store until the write-backs are
acknowledged (R120, R135). -/
def execFlush (a : BitVec 5) (l : Bool) (b : BitVec 5) (m : Bool) (s : State) :
    Host.Outcome State Fault Refusal :=
  concludeAs (Instr.flush a l b m).encoding s (do
    let p ← s.readReg a
    let n ← s.readReg b
    s.rangeOf p n [0, 3]
    if n = 0 ∨ ptrSpace p = 3 then s.retire 4 (used l a ++ used m b) []
    else if s.linesPending p n.toNat then stall .retry
    else
      let pl : Place := { key := 0, home := s.sliceOf (s.myPart.getD 0) (ptrAddr p / 4096), counter := 0, part := s.myPart.getD 0 }
      s.sendStore p pl 0 (.flush n.toNat) 0 0 4 (used l a ++ used m b))

/-- The lines of a VIRT range of the issuing context whose pages are mapped for it (R135). -/
def State.linesOf (s : State) (p len : Word) (l : Nat) : Bool :=
  decide (ptrSpace p = 0) && len != 0 && decide (ptrAddr p / 128 ≤ l) && decide (l ≤ (ptrAddr p + len.toNat - 1) / 128)
    && (match s.translate (s.myPart.getD 0) s.me.level {} (l * 128) with
      | .ok _ => true
      | .error _ => false)

/-- CINV: invalidates the lines of the range in the issuing core's cache; complete at issue (R135). -/
def execCinv (a : BitVec 5) (l : Bool) (b : BitVec 5) (m : Bool) (s : State) :
    Host.Outcome State Fault Refusal :=
  concludeAs (Instr.cinv a l b m).encoding s (do
    let p ← s.readReg a
    let n ← s.readReg b
    s.rangeOf p n [0, 1, 2, 3]
    (s.dropNear s.cur.1 (s.linesOf p n)).retire 4 (used l a ++ used m b) [])

/-- A line of a core's partition brought into L2 and, where `near` asks and the hint is not `.byp`, into the core's cache with a hint; or
not, since a prefetch only asks (R135). A line that cannot be read at the level is skipped. -/
def State.prefetchLine (s : State) (core level line : Nat) (hint : BitVec 2) (near : Bool) : State :=
  match s.partOf core with
  | none => s
  | some n =>
    match s.translate n level Need.load (line * 128) with
    | .error _ => s
    | .ok (t, lin) =>
      if s.dieLost (linearDie lin) ∨ s.poisoned lin 128 ∨ (s.nearLine core line).isSome ∨ s.free (2 ^ 53 + line) 2 = 0 then s
      else
        let slot := if bitAt t.leaf 6 then some (bitsOf t.leaf 57 52) else none
        let pl : Place := { key := lin, home := s.sliceOf n (line / 32), counter := 0, part := n, seen := some t, line := some (worldTag n level, line) }
        let s := (s.note pl).fill pl.line lin slot hint true
        if near then s.fillNear core line hint (s.copyOf pl.line lin) else s

/-- The lines that a VIRT range touches, prefetched for the issuing context; other spaces have none. -/
def State.prefetchRange (s : State) (p : Word) (n : Nat) (hint : BitVec 2) : State :=
  if ptrSpace p ≠ 0 ∨ n = 0 then s
  else
    let first := ptrAddr p / 128
    (List.range ((ptrAddr p + n - 1) / 128 - first + 1)).foldl (fun (s : State) i =>
      s.prefetchLine s.cur.1 s.me.level (first + i) hint true) s

/-- PREF: asks for the lines of the range, complete at issue (R135). -/
def execPref (h : BitVec 2) (a : BitVec 5) (l : Bool) (b : BitVec 5) (m : Bool) (s : State) :
    Host.Outcome State Fault Refusal :=
  concludeAs (Instr.pref h a l b m).encoding s (do
    let p ← s.readReg a
    let n ← s.readReg b
    s.rangeOf p n [0, 1, 2, 3]
    (s.prefetchRange p n.toNat h).retire 4 (used l a ++ used m b) [])

/-- WAIT's condition: for every class whose limit is below 15, no more operations than the limit are outstanding
(03_encoding.md R95, 05_memory_instr.md R136). -/
def Ctx.within (c : Ctx) (limits : List (BitVec 4)) : Bool :=
  (List.range 4).all (fun i => decide (limits.getD i 15 = 15) || decide (c.outstanding.get i ≤ (limits.getD i 15).toNat))

/-- A wait for the limits. -/
def waitFor (s : State) (length : Nat) (limits : List (BitVec 4)) : Run :=
  if s.me.within limits then s.retire length [] [] else stall .retry

/-- WAIT ld, st, cp, tl (03_encoding.md R95). -/
def execWait (a : BitVec 4) (b : BitVec 4) (c : BitVec 4) (d : BitVec 4) (s : State) :
    Host.Outcome State Fault Refusal :=
  conclude s (waitFor s 4 [a, b, c, d])

end Sys2Proof.Machine
end

