-- ==== Sys2Proof/Machine/Atlas.lean ====
section
/-! DEFINITION. The atlas (19_program_atlas.md R395 to R397, 20_layout.md R405 to R409): entries, shard tables, the tile
caches, and where an element of a sharded tensor lies. -/

namespace Sys2Proof.Machine

/-- The bytes of an element format an atlas entry may name (R395); 0 for any other. -/
def atlasBytes (f : Nat) : Nat := if f = 0 then 0 else fmtBytes f

/-- Fields of an entry. -/
def entryValid (e : Vector Word 8) : Bool := bitAt (e.toList.getD 0 0) 63
def entryGen (e : Vector Word 8) : Nat := bitsOf (e.toList.getD 0 0) 55 48
def entryDims (e : Vector Word 8) : Nat := bitsOf (e.toList.getD 0 0) 47 45
def entryFmt (e : Vector Word 8) : Nat := bitsOf (e.toList.getD 0 0) 41 36
def entrySize (e : Vector Word 8) (d : Nat) : Nat := bitsOf (e.toList.getD (1 + d) 0) 63 32
def entrySplit (e : Vector Word 8) (d : Nat) : Nat := bitsOf (e.toList.getD (1 + d) 0) 31 16
def entryCyc (e : Vector Word 8) (d : Nat) : Bool := bitAt (e.toList.getD (1 + d) 0) 15
def entryCb (e : Vector Word 8) (d : Nat) : Nat := bitsOf (e.toList.getD (1 + d) 0) 14 0
def entryTable (e : Vector Word 8) : Word := e.toList.getD 6 0

/-- The elements of a tensor. -/
def entryElements (e : Vector Word 8) : Nat := ((List.range (entryDims e)).map (entrySize e)).foldl (· * ·) 1

/-- The image ATSET accepts (R395): a valid entry within its limits, or a removal that is zero apart from GEN. -/
def imageAccepted (e : Vector Word 8) : Bool :=
  let dw (i : Nat) : Word := e.toList.getD i 0
  if !entryValid e then
    decide (dw 0 &&& ~~~(0xFF#64 <<< 48) = 0) && (List.range 7).all (fun i => decide (dw (i + 1) = 0))
  else
    decide (bitsOf (dw 0) 62 56 = 0) && decide (bitsOf (dw 0) 44 42 = 0) && decide (bitsOf (dw 0) 35 0 = 0)
      && decide (1 ≤ entryDims e) && decide (entryDims e ≤ 5) && decide (atlasBytes (entryFmt e) ≠ 0)
      && (List.range 5).all (fun d =>
        if d < entryDims e then
          decide (1 ≤ entrySplit e d) && decide (entrySplit e d ≤ entrySize e d)
            && (if entryCyc e d then decide (1 ≤ entryCb e d) else decide (entryCb e d = 0))
        else decide (dw (1 + d) = 0))
      && decide (entryElements e < 2 ^ 40)
      && decide (((List.range (entryDims e)).map (entrySplit e)).foldl (· * ·) 1 ≤ 4096)
      && decide (bitsOf (entryTable e) 63 52 = 0) && decide (bitsOf (entryTable e) 3 0 = 0) && decide (dw 7 = 0)

/-- ceil(a / b). -/
def ceilDiv (a b : Nat) : Nat := (a + b - 1) / b

/-- The coordinates of a logical index, the last dimension fastest. -/
def coordinates (e : Vector Word 8) (i : Nat) : List Nat :=
  ((List.range (entryDims e)).reverse.foldl (fun (acc : List Nat × Nat) d =>
    (acc.2 % entrySize e d :: acc.1, acc.2 / entrySize e d)) ([], i)).1

/-- The shard of a logical index and its place in the shard (R397). -/
def shardOf (e : Vector Word 8) (i : Nat) : Nat × Nat :=
  let x := coordinates e i
  (List.range (entryDims e)).foldl (fun (acc : Nat × Nat) d =>
    let xd := x.getD d 0
    let size := entrySize e d
    let split := entrySplit e d
    let (s, l, ls) :=
      if entryCyc e d then
        let b := entryCb e d
        (xd / b % split, xd / (b * split) * b + xd % b, ceilDiv size (b * split) * b)
      else
        let b := ceilDiv size split
        (xd / b, xd % b, b)
    (acc.1 * split + s, acc.2 * ls + l)) (0, 0)

/-- Why a lookup fails: a trap of the access itself. -/
inductive LookupFailure where
  | address
  | page (reason : Nat)
  deriving DecidableEq, Repr

/-- The n bytes of a table entry read by a tile's caches as one plain read through the VIRT route of the partition, as doublewords, and
its linear address; no core cache is filled (R405). -/
def State.tableRead (s : State) (part va n : Nat) : Except LookupFailure (List Word × Nat × State) :=
  match s.translate part 1 Need.load va with
  | .error r => .error (.page r)
  | .ok (t, lin) =>
    let line := some (part, va / 128)
    let pl : Place := { key := lin, home := s.sliceOf part (va / 4096), counter := 0, part := part, seen := some t, line := line
                        sealSlot := if bitAt t.leaf 6 then some (bitsOf t.leaf 57 52) else none }
    if s.dieLost (linearDie lin) ∧ ¬ s.onlyCopy line lin then .error (.page 4)
    else match s.plainRead pl n with
      | none => .error (.page 5)
      | some v =>
        .ok ((List.range (n / 8)).map (fun i => wordOf (v / 2 ^ (64 * i))), lin, (s.note pl).fill line lin pl.sealSlot 0 true)

/-- An entry of a cache of some capacity put first: the least recently used entry goes when the cache is full (R405). -/
def remember {α : Type} (capacity : Nat) (same : α → Bool) (x : α) (l : List α) : List α :=
  (x :: l.filter (fun y => !same y)).take capacity

/-- Byte by byte, one entry or the other as free values choose. -/
def State.mixed (s : State) (old new : Vector Word 8) : Vector Word 8 :=
  Vector.ofFn (fun i : Fin 8 => (List.range 8).foldl (fun w b =>
    if s.free (2 ^ 54 + 8 * i.val + b) 2 = 0 then w else setBits w (8 * b + 7) (8 * b) (bitsOf (old.toList.getD i.val 0) (8 * b + 7) (8 * b)))
    (new.toList.getD i.val 0))

/-- What a fill of an atlas entry finds: where plain stores have changed it since ATSET wrote it, a free mix of its old bytes and the
stored ones (R406). Of an entry that no ATSET has written, the bytes first read stand for the old ones (DESIGN CHOICE, log 87). -/
def State.filledEntry (s : State) (part lin : Nat) (now : Vector Word 8) : Vector Word 8 × State :=
  match s.part part with
  | none => (now, s)
  | some p => match Table.look p.entries lin with
    | some old => (if old = now then now else s.mixed old now, s)
    | none => (now, s.setPart part { p with entries := Table.put p.entries lin now })

/-- The atlas entry of a tensor as a tile sees it (R42, R405): from its cache, or filled. The state has the cache after it. -/
def State.lookupEntry (s : State) (part tile tensor : Nat) : Except LookupFailure (Vector Word 8 × State) :=
  let keep (s : State) (e : Vector Word 8) : State :=
    let t := s.tile tile
    s.setTile tile { t with atlasCache := remember 64 (fun (x : Nat × Vector Word 8) => x.1 == tensor) (tensor, e) t.atlasCache }
  let known : Except LookupFailure (Vector Word 8 × State) :=
    match (s.tile tile).atlasCache.find? (fun x => x.1 == tensor) with
    | some (_, e) => .ok (e, keep s e)
    | none =>
      let base := (s.partRegs (some part)).atlas
      if base = 0 then .error .address
      else match s.tableRead part (ptrAddr base + 64 * tensor) 64 with
        | .error f => .error f
        | .ok (l, lin, s) =>
          let (e, s) := s.filledEntry part lin (Vector.ofFn (fun i : Fin 8 => l.getD i.val 0))
          .ok (e, keep s e)
  match known with
  | .error f => .error f
  | .ok (e, s') => if (s.partRegs (some part)).atlas = 0 ∨ ¬ entryValid e then .error .address else .ok (e, s')

/-- The owner package and address of an element, and the shard cache after it (R396, R397). A shard entry serves only accesses under the
atlas entry that it was read with. -/
def State.lookupShard (s : State) (part tile tensor : Nat) (e : Vector Word 8) (index : Nat) :
    Except LookupFailure (Nat × Nat × State) :=
  let (sh, loc) := shardOf e index
  let size := atlasBytes (entryFmt e)
  let mine (x : ShardEntry) : Bool := x.tensor == tensor && x.shard == sh && x.under == e
  let use (w : Word × Word) (s : State) : Except LookupFailure (Nat × Nat × State) :=
    let t := s.tile tile
    let s := s.setTile tile
      { t with shardCache := remember 256 mine { tensor := tensor, shard := sh, under := e, words := w } t.shardCache }
    if bitsOf w.1 55 0 ≠ 0 ∨ bitsOf w.2 63 52 ≠ 0 ∨ w.2.toNat % size ≠ 0 ∨ (0xFD ≤ bitsOf w.1 63 56 ∧ bitsOf w.1 63 56 ≠ 0xFF)
    then .error .address
    else .ok (bitsOf w.1 63 56, w.2.toNat + loc * size, s)
  match (s.tile tile).shardCache.find? mine with
  | some x => use x.words s
  | none =>
    match s.tableRead part (ptrAddr (entryTable e) + 16 * sh) 16 with
    | .error f => .error f
    | .ok (l, _, s) => use (l.getD 0 0, l.getD 1 0) s

/-- The place of a sharded access of the issuing context (05_memory_instr.md R132): the atlas entry, the checks of R42 and
of the element size, the shard, and the owner's translation. -/
def State.placeShard (s : State) (p : Word) (size : Nat) (need : Need) : Except Stop (Place × State) :=
  if fmtReserved (ptrFmt p) then trapWith .format p
  else if ptrSpace p ≠ 2 then trapWith .address p
  else
    match s.myPart with
    | none => trapWith .address p
    | some n =>
      let fail {α : Type} (f : LookupFailure) : Except Stop α := match f with
        | .address => trapWith .address p
        | .page r => pageTrap p r
      let tile := coreTile s.cur.1
      let tensor := bitsOf p 51 40
      let index := bitsOf p 39 0
      match s.lookupEntry n tile tensor with
      | .error f => fail f
      | .ok (e, s1) =>
        if entryElements e ≤ index then trapWith .address p
        else if atlasBytes (entryFmt e) ≠ size then trapWith .format p
        else match s1.lookupShard n tile tensor e index with
          | .error f => fail f
          | .ok (pkg, va, s2) =>
            let tag := some (tensor, entryGen e, (s.tile tile).epoch)
            if pkg = 0xFF ∨ pkg = s.pkg.toNat then
              match s2.translate n s.me.level need va with
              | .error r =>
                .error (.trap { cause := .page, faddr := p, reason := r
                                detail4 := wordOf (s.pkg.toNat * 2 ^ 20 + entryGen e * 2 ^ 12 + tensor), detail5 := wordOf va })
              | .ok (t, lin) =>
                .ok ({ key := lin, home := s.sliceOf n (va / 4096), counter := 0, part := n, seen := some t
                       sealSlot := if bitAt t.leaf 6 then some (bitsOf t.leaf 57 52) else none
                       lost := s.dieLost (linearDie lin) && !(s.onlyCopy (some (worldTag n s.me.level, va / 128)) lin)
                       line := some (worldTag n s.me.level, va / 128)
                       tensor := tag }, s2)
            else .ok ({ key := va, home := 4352, counter := 3, part := n, remote := some pkg, tensor := tag }, s2)

end Sys2Proof.Machine
end

