-- ==== Sys2Proof/Machine/Memory.lean ====
section
/-! DEFINITION. The memory, tag, atomic, reduction, join and multicast instructions of 05_memory_instr.md (R122 to R146). -/

namespace Sys2Proof.Machine

/-! ### Plain loads and stores (R122) -/

/-- A plain load through an effective address, with its residency hint (R121). -/
def loadAt (s : State) (length : Nat) (p : Word) (size : Nat) (sgn : Bool) (d : Reg) (dies : List Reg) (hint : BitVec 2 := 0) : Run := do
  let pl ← s.placeOf p size Need.load false
  s.sendLoad p pl size (.load size sgn) 0 0 d length dies hint

/-- A plain store through an effective address. -/
def storeAt (s : State) (length : Nat) (p : Word) (size : Nat) (data : Word) (dies : List Reg) (hint : BitVec 2 := 0) : Run := do
  let pl ← s.placeOf p size Need.store false
  s.sendStore p pl size (.store size) data 0 length dies hint

/-- LD: rd := 2^size bytes at rs1 + disp7 × 2^size, zero- or sign-extended (R122). -/
def execLd (d : BitVec 5) (a : BitVec 5) (l : Bool) (sg : Bool) (z : BitVec 2) (h : BitVec 2) (i : BitVec 7)
    (s : State) : Host.Outcome State Fault Refusal :=
  concludeAs (Instr.ld d a l sg z h i).encoding s (do
    let b ← s.readReg a
    let p ← advanceOr b (i.toInt * 2 ^ z.toNat)
    loadAt s 4 p (2 ^ z.toNat) sg d (used l a) h)

/-- ST: the low 2^size bytes of rd stored at rs1 + disp7 × 2^size (R122). -/
def execSt (d : BitVec 5) (a : BitVec 5) (l : Bool) (e : Bool) (z : BitVec 2) (h : BitVec 2) (i : BitVec 7)
    (s : State) : Host.Outcome State Fault Refusal :=
  concludeAs (Instr.st d a l e z h i).encoding s (do
    let b ← s.readReg a
    let v ← s.readReg d
    let p ← advanceOr b (i.toInt * 2 ^ z.toNat)
    storeAt s 4 p (2 ^ z.toNat) v (used l a ++ used e d) h)

/-- LDX: the address is rs1 advanced by rs2 × 2^s bytes, rs2 signed (R122). -/
def execLdx (d : BitVec 5) (a : BitVec 5) (l : Bool) (b : BitVec 5) (m : Bool) (sg : Bool) (z : BitVec 2)
    (h : BitVec 2) (x : BitVec 2) (s : State) : Host.Outcome State Fault Refusal :=
  concludeAs (Instr.ldx d a l b m sg z h x).encoding s (do
    let q ← s.readReg a
    let y ← s.readReg b
    let p ← advanceOr q (y.toInt * 2 ^ x.toNat)
    loadAt s 4 p (2 ^ z.toNat) sg d (used l a ++ used m b) h)

/-- STX (R122). -/
def execStx (d : BitVec 5) (a : BitVec 5) (l : Bool) (b : BitVec 5) (m : Bool) (e : Bool) (z : BitVec 2)
    (h : BitVec 2) (x : BitVec 2) (s : State) : Host.Outcome State Fault Refusal :=
  concludeAs (Instr.stx d a l b m e z h x).encoding s (do
    let q ← s.readReg a
    let y ← s.readReg b
    let v ← s.readReg d
    let p ← advanceOr q (y.toInt * 2 ^ x.toNat)
    storeAt s 4 p (2 ^ z.toNat) v (used l a ++ used m b ++ used e d) h)

/-! ### Tags, versions and waiting (R124 to R131) -/

/-- The version operand: bits(rs2, 6, 0) (R125). -/
def versionOf (y : Word) : BitVec 7 := y.setWidth 7

/-- A waiting load (R124, R125). -/
def waitingLoad (s : State) (d a : Reg) (dies : List Reg) (delta : Int) (need : Need) (v : BitVec 7) (op : MemOp) : Run := do
  let q ← s.readReg a
  s.blocking 0 false d dies op (do
    let p ← advanceOr q delta
    let pl ← s.placeOf p 8 need true
    pure (p, pl, v.setWidth 64))

/-- LD.fut: waits for a full word and acquires (R124). -/
def execLdFut (d : BitVec 5) (a : BitVec 5) (l : Bool) (h : BitVec 2) (i : BitVec 7) (s : State) :
    Host.Outcome State Fault Refusal :=
  concludeAs (Instr.ldFut d a l h i).encoding s (waitingLoad s d a (used l a) (i.toInt * 8) Need.read_ 0 .loadFut)

/-- LD.take: waits for a full word, empties it and acquires (R124). -/
def execLdTake (d : BitVec 5) (a : BitVec 5) (l : Bool) (h : BitVec 2) (i : BitVec 7) (s : State) :
    Host.Outcome State Fault Refusal :=
  concludeAs (Instr.ldTake d a l h i).encoding s (waitingLoad s d a (used l a) (i.toInt * 8) Need.both 0 .loadTake)

/-- LDT.veq: waits for version v (R125, R126). -/
def execLdtVeq (d : BitVec 5) (a : BitVec 5) (l : Bool) (b : BitVec 5) (m : Bool) (h : BitVec 2) (s : State) :
    Host.Outcome State Fault Refusal :=
  concludeAs (Instr.ldtVeq d a l b m h).encoding s (do
    let _ ← s.readReg a
    let y ← s.readReg b
    waitingLoad s d a (used l a ++ used m b) 0 Need.read_ (versionOf y) (.loadVeq (versionOf y)))

/-- LDT.vge: waits for version v or a later one (R125). -/
def execLdtVge (d : BitVec 5) (a : BitVec 5) (l : Bool) (b : BitVec 5) (m : Bool) (h : BitVec 2) (s : State) :
    Host.Outcome State Fault Refusal :=
  concludeAs (Instr.ldtVge d a l b m h).encoding s (do
    let _ ← s.readReg a
    let y ← s.readReg b
    waitingLoad s d a (used l a ++ used m b) 0 Need.read_ (versionOf y) (.loadVge (versionOf y)))

/-- A releasing store of a doubleword with its tag effect (R124, R125). -/
def releasingStore (s : State) (p data : Word) (op : MemOp) (dies : List Reg) : Run := do
  let pl ← s.placeOf p 8 Need.store true
  s.sendRelease p pl 8 op data 0 4 dies

/-- ST.fill: stores and sets FE; releases (R124). -/
def execStFill (d : BitVec 5) (a : BitVec 5) (l : Bool) (e : Bool) (h : BitVec 2) (i : BitVec 7) (s : State) :
    Host.Outcome State Fault Refusal :=
  concludeAs (Instr.stFill d a l e h i).encoding s (do
    let q ← s.readReg a
    let v ← s.readReg d
    let p ← advanceOr q (i.toInt * 8)
    releasingStore s p v .storeFill (used l a ++ used e d))

/-- ST.give: waits for an empty word, stores and sets FE; releases (R124). -/
def execStGive (d : BitVec 5) (a : BitVec 5) (l : Bool) (e : Bool) (h : BitVec 2) (i : BitVec 7) (s : State) :
    Host.Outcome State Fault Refusal :=
  concludeAs (Instr.stGive d a l e h i).encoding s (do
    let q ← s.readReg a
    let v ← s.readReg d
    s.blocking 1 true 0 (used l a ++ used e d) .storeGive (do
      let p ← advanceOr q (i.toInt * 8)
      let pl ← s.placeOf p 8 Need.store true
      pure (p, pl, v)))

/-- STT.vnx: stores and advances VER by 1; releases (R125). -/
def execSttVnx (d : BitVec 5) (a : BitVec 5) (l : Bool) (e : Bool) (h : BitVec 2) (s : State) :
    Host.Outcome State Fault Refusal :=
  concludeAs (Instr.sttVnx d a l e h).encoding s (do
    let p ← s.readReg a
    let v ← s.readReg d
    releasingStore s p v .storeVnx (used l a ++ used e d))

/-- STT.vset: stores and sets VER; releases (R125). -/
def execSttVset (d : BitVec 5) (a : BitVec 5) (l : Bool) (b : BitVec 5) (m : Bool) (e : Bool) (h : BitVec 2)
    (s : State) : Host.Outcome State Fault Refusal :=
  concludeAs (Instr.sttVset d a l b m e h).encoding s (do
    let p ← s.readReg a
    let y ← s.readReg b
    let v ← s.readReg d
    releasingStore s p v (.storeVset (versionOf y)) (used l a ++ used m b ++ used e d))

/-- VRECL: VER := b over a range of one page, of the size that its leaf gives (15_memory_map.md R340); a release (R130). -/
def execVrecl (a : BitVec 5) (l : Bool) (b : BitVec 5) (m : Bool) (s : State) :
    Host.Outcome State Fault Refusal :=
  concludeAs (Instr.vrecl a l b m).encoding s (do
    let p ← s.readReg a
    let y ← s.readReg b
    let n := bitsOf y 39 0
    spaces p [0, 3]
    if ptrAddr p % 8 ≠ 0 ∨ n % 8 ≠ 0 then trapWith .address p
    if n = 0 then s.retire 4 (used l a ++ used m b) []
    else
      let pl ← s.placeOf p 8 Need.store true false
      let page := match pl.seen with
        | some t => t.size
        | none => 4096
      if ptrAddr p / page ≠ (ptrAddr p + n - 1) / page then trapWith .address p
      s.sendRelease p pl n (.retire (BitVec.ofNat 7 (bitsOf y 63 57)) (n / 8)) 0 0 4 (used l a ++ used m b))

/-- TAGR: rd := the tag byte; it neither waits nor acquires (R131). -/
def execTagr (d : BitVec 5) (a : BitVec 5) (l : Bool) (s : State) :
    Host.Outcome State Fault Refusal :=
  concludeAs (Instr.tagr d a l).encoding s (do
    let p ← s.readReg a
    let pl ← s.placeOf p 8 Need.read_ false
    s.sendLoad p pl 8 .tagRead 0 0 d 4 (used l a))

/-- TAGW: the tag byte := bits(rs2, 7, 0); a release (R131). -/
def execTagw (a : BitVec 5) (l : Bool) (b : BitVec 5) (m : Bool) (s : State) :
    Host.Outcome State Fault Refusal :=
  concludeAs (Instr.tagw a l b m).encoding s (do
    let p ← s.readReg a
    let y ← s.readReg b
    let pl ← s.placeOf p 8 Need.store true false
    s.sendRelease p pl 8 (.tagWrite (y.setWidth 8)) 0 0 4 (used l a ++ used m b))

/-! ### Sharded accesses (R132) -/

/-- The pointer of LDS and STS: rs1 advanced by rs2 elements. -/
def sharded (q y : Word) : Except Stop Word := if ptrSpace q = 2 then advanceOr q y.toInt else pure q

/-- Two sources, rs1 before rs2. -/
def State.readTwo (s : State) (a b : Reg) : Except Stop (Word × Word) := do
  let x ← s.readReg a
  let y ← s.readReg b
  pure (x, y)

/-- An instruction of a unit that service cores lack traps with ILLEGAL there, after the liveness of its registers (25_package.md R477,
03_encoding.md R77; log 39). -/
def State.notService (s : State) : Except Stop Unit := if isService s.cur.1 then illegal else .ok ()

/-- LDS (R132). One whose owner is another package retires when the owner has answered, with its translation checked (R119). -/
def execLds (d : BitVec 5) (a : BitVec 5) (l : Bool) (b : BitVec 5) (m : Bool) (sg : Bool) (z : BitVec 2)
    (h : BitVec 2) (s : State) : Host.Outcome State Fault Refusal :=
  concludeAs (Instr.lds d a l b m sg z h).encoding s (do
    let (x, y) ← s.readTwo a b
    s.notService
    let p ← sharded x y
    let dies := used l a ++ used m b
    let op : MemOp := .load (2 ^ z.toNat) sg
    if s.mySync.isSome then s.atHome (2 ^ z.toNat) 0 d dies op (trapWith .address p) (fun _ => .ok ())
    else
      let (pl, t) ← s.placeShard p (2 ^ z.toNat) Need.load
      if pl.remote.isSome then t.atHome (2 ^ z.toNat) 0 d dies op (.ok (p, pl, 0)) (fun _ => .ok ())
      else t.sendLoad p pl (2 ^ z.toNat) op 0 0 d 4 dies h)

/-- STS (R132). One whose owner is another package retires when the owner has answered (R119). -/
def execSts (d : BitVec 5) (a : BitVec 5) (l : Bool) (b : BitVec 5) (m : Bool) (e : Bool) (z : BitVec 2)
    (h : BitVec 2) (s : State) : Host.Outcome State Fault Refusal :=
  concludeAs (Instr.sts d a l b m e z h).encoding s (do
    let (x, y) ← s.readTwo a b
    let v ← s.readReg d
    s.notService
    let p ← sharded x y
    let dies := used l a ++ used m b ++ used e d
    let op : MemOp := .store (2 ^ z.toNat)
    if s.mySync.isSome then s.atHome (2 ^ z.toNat) 1 0 dies op (trapWith .address p) (fun _ => .ok ())
    else
      let (pl, t) ← s.placeShard p (2 ^ z.toNat) Need.store
      if pl.remote.isSome then t.atHome (2 ^ z.toNat) 1 0 dies op (.ok (p, pl, v)) (fun _ => .ok ())
      else t.sendStore p pl (2 ^ z.toNat) op v 0 4 dies h)

/-! ### Atomics (R137) -/

/-- An atomic on 4 or 8 bytes at rs1: class ld with a result, class st without one (R120). -/
def atomic (s : State) (d a : Reg) (l : Bool) (b : Reg) (m : Bool) (z : BitVec 1) (op : Nat → MemOp) (expected : Word) : Run := do
  let p ← s.readReg a
  let y ← s.readReg b
  let size := if z = 0 then 4 else 8
  let pl ← s.placeOf p size Need.both true
  if d = 0 then s.sendStore p pl size (op size) y expected 4 (used l a ++ used m b)
  else s.sendLoad p pl size (op size) y expected d 4 (used l a ++ used m b)

/-- AMO.swap (R137, R138). -/
def execAmoSwap (d : BitVec 5) (a : BitVec 5) (l : Bool) (b : BitVec 5) (m : Bool) (z : BitVec 1) (h : BitVec 2)
    (s : State) : Host.Outcome State Fault Refusal :=
  concludeAs (Instr.amoSwap d a l b m z h).encoding s (atomic s d a l b m z (.amo .swap) 0)

/-- AMO.add (R137, R138). -/
def execAmoAdd (d : BitVec 5) (a : BitVec 5) (l : Bool) (b : BitVec 5) (m : Bool) (z : BitVec 1) (h : BitVec 2)
    (s : State) : Host.Outcome State Fault Refusal :=
  concludeAs (Instr.amoAdd d a l b m z h).encoding s (atomic s d a l b m z (.amo .add) 0)

/-- AMO.and (R137, R138). -/
def execAmoAnd (d : BitVec 5) (a : BitVec 5) (l : Bool) (b : BitVec 5) (m : Bool) (z : BitVec 1) (h : BitVec 2)
    (s : State) : Host.Outcome State Fault Refusal :=
  concludeAs (Instr.amoAnd d a l b m z h).encoding s (atomic s d a l b m z (.amo .and) 0)

/-- AMO.or (R137, R138). -/
def execAmoOr (d : BitVec 5) (a : BitVec 5) (l : Bool) (b : BitVec 5) (m : Bool) (z : BitVec 1) (h : BitVec 2)
    (s : State) : Host.Outcome State Fault Refusal :=
  concludeAs (Instr.amoOr d a l b m z h).encoding s (atomic s d a l b m z (.amo .or) 0)

/-- AMO.xor (R137, R138). -/
def execAmoXor (d : BitVec 5) (a : BitVec 5) (l : Bool) (b : BitVec 5) (m : Bool) (z : BitVec 1) (h : BitVec 2)
    (s : State) : Host.Outcome State Fault Refusal :=
  concludeAs (Instr.amoXor d a l b m z h).encoding s (atomic s d a l b m z (.amo .xor) 0)

/-- AMO.min (R137, R138). -/
def execAmoMin (d : BitVec 5) (a : BitVec 5) (l : Bool) (b : BitVec 5) (m : Bool) (z : BitVec 1) (h : BitVec 2)
    (s : State) : Host.Outcome State Fault Refusal :=
  concludeAs (Instr.amoMin d a l b m z h).encoding s (atomic s d a l b m z (.amo .min) 0)

/-- AMO.max (R137, R138). -/
def execAmoMax (d : BitVec 5) (a : BitVec 5) (l : Bool) (b : BitVec 5) (m : Bool) (z : BitVec 1) (h : BitVec 2)
    (s : State) : Host.Outcome State Fault Refusal :=
  concludeAs (Instr.amoMax d a l b m z h).encoding s (atomic s d a l b m z (.amo .max) 0)

/-- AMO.minu (R137, R138). -/
def execAmoMinu (d : BitVec 5) (a : BitVec 5) (l : Bool) (b : BitVec 5) (m : Bool) (z : BitVec 1) (h : BitVec 2)
    (s : State) : Host.Outcome State Fault Refusal :=
  concludeAs (Instr.amoMinu d a l b m z h).encoding s (atomic s d a l b m z (.amo .minu) 0)

/-- AMO.maxu (R137, R138). -/
def execAmoMaxu (d : BitVec 5) (a : BitVec 5) (l : Bool) (b : BitVec 5) (m : Bool) (z : BitVec 1) (h : BitVec 2)
    (s : State) : Host.Outcome State Fault Refusal :=
  concludeAs (Instr.amoMaxu d a l b m z h).encoding s (atomic s d a l b m z (.amo .maxu) 0)

/-- CAS: rd is read as the expected value (R137). -/
def execCas (d : BitVec 5) (a : BitVec 5) (l : Bool) (b : BitVec 5) (m : Bool) (z : BitVec 1) (h : BitVec 2)
    (s : State) : Host.Outcome State Fault Refusal :=
  concludeAs (Instr.cas d a l b m z h).encoding s (do
    let _ ← s.readReg a
    let _ ← s.readReg b
    let x ← s.readReg d
    atomic s d a l b m z .cas x)

/-! ### Home reductions (R139, R140) -/

/-- The kinds of REDO: floating formats (R140). -/
def isFloatCode (f : Nat) : Bool := decide (0x10 ≤ f) && decide (f ≤ 0x15)
/-- The formats a contribution and a result may have (02_numbers.md R45). -/
def isNumberCode (f : Nat) : Bool := (decide (1 ≤ f) && decide (f ≤ 8)) || isFloatCode f

/-- The place of an accumulator: a VIRT or SYS address, a multiple of 64 (R116, R139). -/
def reductionPlace (s : State) (p : Word) (need : Need) : Except Stop Place := do
  spaces p [0, 3]
  s.placeOf p 64 need true

/-- REDO: opens or reopens the accumulator (R140). -/
def execRedo (d : BitVec 5) (a : BitVec 5) (l : Bool) (b : BitVec 5) (m : Bool) (f : BitVec 6) (s : State) :
    Host.Outcome State Fault Refusal :=
  concludeAs (Instr.redo d a l b m f).encoding s (do
    let p ← s.readReg a
    let y ← s.readReg b
    if !isFloatCode f.toNat then trapWith .format 0
    let e : Int := if f = 0x10 then intValue true 12 y.toNat else -160
    if e < -1074 ∨ 1023 < e then trapWith .format 0
    let pl ← reductionPlace s p Need.store
    s.sendLoad p pl 0 (.reduceOpen e) 0 0 d 4 (used l a ++ used m b))

/-- REDA: adds a contribution (R140, 02_numbers.md R72); whether the accumulator is open is checked at acceptance (R119, R140). -/
def execReda (a : BitVec 5) (l : Bool) (b : BitVec 5) (m : Bool) (f : BitVec 6) (s : State) :
    Host.Outcome State Fault Refusal :=
  concludeAs (Instr.reda a l b m f).encoding s (do
    let p ← s.readReg a
    let y ← s.readReg b
    if !isNumberCode f.toNat then trapWith .format 0
    s.atHome 0 1 0 (used l a ++ used m b) (.reduceAdd f.toNat) (do
      let pl ← reductionPlace s p Need.store
      pure (p, pl, y)) (fun _ => .ok ()))

/-- REDR and REDC share their checks; whether the accumulator is open is checked at acceptance (R119, R140). -/
def reduceRead (s : State) (d a : Reg) (l : Bool) (f : BitVec 6) (op : MemOp) : Run := do
  let p ← s.readReg a
  if !isNumberCode f.toNat then trapWith .format 0
  s.atHome 0 0 d (used l a) op (do
    let pl ← reductionPlace s p Need.read_
    pure (p, pl, 0)) (fun _ => .ok ())

/-- REDR: reads the accumulator, which stays open (R140, 02_numbers.md R73). -/
def execRedr (d : BitVec 5) (a : BitVec 5) (l : Bool) (f : BitVec 6) (s : State) :
    Host.Outcome State Fault Refusal :=
  concludeAs (Instr.redr d a l f).encoding s (reduceRead s d a l f (.reduceRead f.toNat))

/-- REDC: reads the accumulator and closes it (R140, 02_numbers.md R73). -/
def execRedc (d : BitVec 5) (a : BitVec 5) (l : Bool) (f : BitVec 6) (s : State) :
    Host.Outcome State Fault Refusal :=
  concludeAs (Instr.redc d a l f).encoding s (reduceRead s d a l f (.reduceClose f.toNat))

/-! ### Joins (R142, R143) -/

/-- The place of a join record: a VIRT or SYS address, a multiple of 32 (R116, R142). -/
def recordPlace (s : State) (p : Word) : Except Stop Place := do
  spaces p [0, 3]
  s.placeOf p 32 Need.both true

/-- JINIT (R143). -/
def execJinit (d : BitVec 5) (a : BitVec 5) (l : Bool) (b : BitVec 5) (m : Bool) (s : State) :
    Host.Outcome State Fault Refusal :=
  concludeAs (Instr.jinit d a l b m).encoding s (do
    let p ← s.readReg a
    let y ← s.readReg b
    let pl ← recordPlace s p
    if d = 0 then s.sendStore p pl 32 .jinit y 0 4 (used l a ++ used m b)
    else s.sendLoad p pl 32 .jinit y 0 d 4 (used l a ++ used m b))

/-- JOIN: a release (R143). -/
def execJoin (d : BitVec 5) (a : BitVec 5) (l : Bool) (b : BitVec 5) (m : Bool) (s : State) :
    Host.Outcome State Fault Refusal :=
  concludeAs (Instr.join d a l b m).encoding s (do
    let p ← s.readReg a
    let y ← s.readReg b
    let pl ← recordPlace s p
    s.sendRelease p pl 32 .join y d 4 (used l a ++ used m b))

/-! ### Multicast (R145, R146) -/

/-- The operation number a context gives its next operation, and the count after it (R146). -/
def State.takeNumber (s : State) : BitVec 16 × State :=
  (s.me.opNumber, s.setMe { s.me with opNumber := s.me.opNumber + 1 })

/-- The stores of a multicast to one destination: the doublewords at a pointer, the last a `.fill` when F = 1. -/
def State.mcastTo (s : State) (p : Word) (fill : Bool) (grp : Nat) (op : BitVec 16) (lost : Bool) :
    List Nat → Nat → Except Stop (State × Bool)
  | [], _ => .ok (s, lost)
  | v :: rest, i => do
    let q ← advanceOr p (8 * i)
    let last := rest.isEmpty && fill
    let pl ← s.placeOf q 8 Need.store last
    let r := { s.requestOf q pl (if last then .storeFill else .store 8) (wordOf v) 1 none .none with grp := grp, mcast := some op }
    let s := { s with nextId := s.nextId + 1 }
    -- the store joins its group; the group's count was begun once
    match pl.remote with
    | some pkg =>
      if (s.portFor pl.part pkg s.cur.1 (homekeyOf pl.home pl.key)).isSome then
        (s.dispatch r).mcastTo p fill grp op lost rest (i + 1)
      else
        let (n, s) := s.takeSeq s.cur.1 pkg pl.home
        (s.reportLost s.cur.1 s.cur.2 2 q n 0 0 0).mcastTo p fill grp op true rest (i + 1)
    | none =>
      let s := s.depart pl
      if pl.lost then
        ((s.atSlice r).reportLost s.cur.1 s.cur.2 0 q (s.lastSeq s.cur.1 pl.home) 0 0 0).mcastTo p fill grp op true rest (i + 1)
      else if !s.nowAt r.key then (s.dispatch r).mcastTo p fill grp op lost rest (i + 1)
      else match s.apply r with
        | .done t _ => t.mcastTo p fill grp op lost rest (i + 1)
        | _ => s.mcastTo p fill grp op true rest (i + 1)

/-- Every destination of a multicast, in list order (R145). -/
def State.mcastAll (s : State) (fill : Bool) (grp : Nat) (op : BitVec 16) (data : List Nat) (lost : Bool) :
    List Word → Except Stop (State × Bool)
  | [] => .ok (s, lost)
  | p :: rest => do
    let (s, lost) ← s.mcastTo p fill grp op lost data 0
    s.mcastAll fill grp op data lost rest

/-- Whether an earlier access of the issuing context to a doubleword that a multicast writes has still to be performed: its stores come
after it (16_ordering.md R355). -/
def State.mcastBlocked (s : State) (dests : List Word) (n : Nat) : Bool :=
  dests.any (fun p => (List.range n).any (fun i => match advance p (8 * i) with
    | none => false
    | some q => match s.placeOf q 8 Need.store false with
      | .ok pl => s.conflicts pl.key 8
      | .error _ => false))

/-- MCAST: one read of the source, then the stores of every destination; the completion message follows the last (R145,
R146). Its issue is a release over DEXT (16_ordering.md R366), so that it waits here for those counters. -/
def execMcast (d : BitVec 5) (a : BitVec 5) (l : Bool) (b : BitVec 5) (m : Bool) (s : State) :
    Host.Outcome State Fault Refusal :=
  concludeAs (Instr.mcast d a l b m).encoding s (do
    let src ← s.readReg a
    let lst ← s.readReg b
    spaces src [0, 1]
    spaces lst [0]
    if ptrAddr src % 8 ≠ 0 then trapWith .address src
    if ptrAddr lst % 8 ≠ 0 then trapWith .address lst
    if s.classFull 1 then stall .retry
    let mask ← s.extent s.me.dext lst
    if !s.drainedNow mask then stall .retry
    let h ← s.fetchData lst 8
    let h := wordOf h
    let len := bitsOf h 19 8
    let n := bitsOf h 6 0
    let fill := bitAt h 20
    if bitsOf h 63 21 ≠ 0 ∨ bitAt h 7 ∨ len % 8 ≠ 0 ∨ len < 8 ∨ 2048 < len ∨ n < 1 ∨ 64 < n then trapWith .address lst
    let dests ← s.fetchImage lst 1 n
    match dests.find? (fun p => fmtReserved (ptrFmt p) || !(ptrSpace p == 0 || ptrSpace p == 1) || decide (ptrAddr p % 8 ≠ 0)) with
    | some p => if fmtReserved (ptrFmt p) then trapWith .format p else trapWith .address p
    | none =>
      let data ← s.fetchImage src 0 (len / 8)
      if s.mcastBlocked dests (len / 8) then stall .retry
      let grp := s.nextId
      let (op, s1) := s.takeNumber
      let s2 := s1.beginOp s.cur.1 s.cur.2 1 none
      let (t, lost) ← s2.mcastAll fill grp op (data.map (·.toNat)) false dests
      let t := if t.requests.any (fun r => r.grp == grp) then
          { t with requests := t.requests.map (fun r => if r.grp = grp then { r with groupLost := r.groupLost || lost } else r) }
        else t.complete s.cur.1 s.cur.2 (s.myPart.getD 0) op (some 1) (if lost then 1 else 0) []
      t.retire 4 (used l a ++ used m b) [(d, op.setWidth 64)])

end Sys2Proof.Machine
end

