-- ==== Sys2Proof/Machine/Optics.lean ====
section
/-! DEFINITION. The optical ports of the scale-up fabric: rings, parking and waking, moves (23_program_optics.md R435 to R441),
the link layer (24_fabric.md R450 to R454), and the service cores' registers for them and for the torus routers (24_fabric.md
R448, R459). A flit boundary is taken as the moment of the step (log 19). -/

namespace Sys2Proof.Machine

/-! ### Rings and ports -/

/-- The key of a ring: fabric port, fibre pair, direction (0 send, 1 receive) and ring number. -/
def ringKey (port fib d ring : Nat) : Nat := ((port * 8 + fib) * 2 + d) * 20 + ring
def ringPort (r : Nat) : Nat := r / 320
def ringFibre (r : Nat) : Nat := r / 40 % 8
/-- Whether a ring stands on a send fibre. -/
def ringSends (r : Nat) : Bool := r / 20 % 2 == 0

/-- A ring as package reset leaves it (R436). -/
def freshRing (r : Nat) : Ring :=
  if r % 20 < 16 then { state := 1, lambda := BitVec.ofNat 5 (r % 20) } else {}
def State.ring (s : State) (r : Nat) : Ring := Table.get s.rings r (freshRing r)
def State.setRing (s : State) (r : Nat) (x : Ring) : State := { s with rings := Table.put s.rings r x }
def State.port (s : State) (n : Nat) : Port := Table.get s.ports n {}
def State.setPort (s : State) (n : Nat) (p : Port) : State := { s with ports := Table.put s.ports n p }

/-- The 320 rings of a port. -/
def portRings (port : Nat) : List Nat := (List.range 320).map (port * 320 + ·)

/-- The rings of a port changed, each as it stands. -/
def State.eachRing (s : State) (port : Nat) (f : Nat → Ring → Ring) : State :=
  (portRings port).foldl (fun s r => let x := f r (s.ring r); if x = s.ring r then s else s.setRing r x) s

/-- Whether a ring settles, locks or is in deskew (R438). -/
def Ring.busy (x : Ring) : Bool := x.state == 2 || x.state == 3 || (x.state == 4 && !x.deskewed)

/-- Whether a ring's monitor reads: states 3 to 5 (R436). -/
def Ring.lit (x : Ring) : Bool := x.state == 3 || x.state == 4 || x.state == 5

/-- OMON and OSTAT.LOCK (R436). -/
def Ring.reading (x : Ring) : Nat := if x.lit then x.mon.toNat else 0
def Ring.locked (x : Ring) : Bool := decide (2032 ≤ x.reading) && decide (x.reading ≤ 2064)

/-- The active send wavelengths of a port, summed over its fibres (R436). -/
def State.width (s : State) (port : Nat) : Nat :=
  ((portRings port).filter (fun r => ringSends r && (s.ring r).state == 5)).length

/-- A ring enters settling; its HEAT stands (R438). -/
def Ring.settle (x : Ring) : Ring := { x with state := 2, deskewed := false }

/-! ### Parking and waking (R438, R441, R454) -/

/-- A wake of the wavelengths of a mask: OWAKE := GTC, WK := 1, their parked send rings settle, and the port waits for the far
end's lock report. -/
def State.wakeRings (s : State) (port : Nat) (mask : BitVec 16) : State :=
  let s := s.setPort port { s.port port with owake := s.gtc, wk := true, awaitLock := true, waking := mask }
  s.eachRing port (fun r x =>
    if ringSends r ∧ x.state = 1 ∧ mask.getLsbD x.lambda.toNat ∧ x.lambda.toNat < 16 then x.settle else x)

/-- Queued flits have reached the threshold while a wavelength is parked and no wake is in progress (R438): every parked
wavelength wakes. -/
def State.wakeCheck (s : State) (port : Nat) : State :=
  let p := s.port port
  if p.oqthr ≠ 0 ∧ p.opark ≠ 0 ∧ ¬ p.wk ∧ p.oqthr.toNat ≤ p.queued.length then
    (s.setPort port { p with opark := 0 }).wakeRings port p.opark
  else s

/-- An OPARK write: a bit set parks an active wavelength, but is ignored for a waking or moving one; a bit cleared wakes a
parked one. The bits that the write leaves set stay parked (log 20). -/
def State.writeOpark (s : State) (port : Nat) (v : Word) : State :=
  let p := s.port port
  let new : BitVec 16 := v.setWidth 16
  let moving : BitVec 16 := (portRings port).foldl (fun m r =>
    let x := s.ring r
    if ringSends r ∧ x.lambda.toNat < 16 ∧ (x.busy ∨ x.state = 4) then m ||| ((1 : BitVec 16) <<< x.lambda.toNat) else m) 0
  let set := new &&& ~~~p.opark &&& ~~~moving
  let clear := p.opark &&& ~~~new
  let s := s.setPort port { p with opark := (p.opark &&& ~~~clear) ||| set }
  let s := s.eachRing port (fun r x =>
    if ringSends r ∧ x.state = 5 ∧ x.lambda.toNat < 16 ∧ set.getLsbD x.lambda.toNat then { x with state := 1, mon := 0 } else x)
  let s := if clear = 0 then s else s.wakeRings port clear
  s.wakeCheck port

/-- OHEAT written: the heater code of a ring. A ring in settling starts its settling again, which has no length here (R441). -/
def State.writeOheat (s : State) (r : Nat) (v : Word) : State :=
  s.setRing r { s.ring r with heat := v.setWidth 12 }

/-- OASGN written (R440, R441): only a free send ring takes a wavelength; receive rings take no part in writes made at their
own end (R454). A value of 16 to 30 names no wavelength and is ignored. -/
def State.writeOasgn (s : State) (r : Nat) (v : Word) : State :=
  let lam : BitVec 5 := v.setWidth 5
  let x := s.ring r
  if ¬ ringSends r ∨ x.state ≠ 0 ∨ 16 ≤ lam.toNat then s
  else
    let port := ringPort r
    let fibre := (List.range 20).map (fun n => r / 20 * 20 + n)
    let starts (s : State) : State :=
      let s := s.setRing r { x with lambda := lam, moving := true }.settle
      s.setPort port { s.port port with wk := true, awaitLock := true }
    match fibre.find? (fun q => q != r && (s.ring q).lambda == lam) with
    | none =>
      if (s.port port).opark.getLsbD lam.toNat then s.setRing r { x with state := 1, lambda := lam } else starts s
    | some q =>
      if (s.ring q).moving then s
      else starts (s.setRing q { s.ring q with state := 0, lambda := 31, mon := 0, deskewed := false })

/-- The route entry of a port for the package ORIDX names (24_fabric.md R448). -/
def State.writeRoute (s : State) (port dpkg : Nat) (valid : Bool) (hops : Nat) : State :=
  let p := s.port port
  s.setPort port { p with routes :=
    if ¬ valid ∧ hops = 0 then Table.drop p.routes dpkg else Table.put p.routes dpkg (valid, hops) }

/-! ### The registers of a service core of an optical I/O die (R435, R436, 24_fabric.md R448) -/

/-- The fabric port a service core's OSEL selects, and the ring. -/
def Core.selectedPort (n : Nat) (k : Core) : Nat := (n - 4112) / 4 * 4 + bitsOf k.osel 11 10
def Core.selectedRing (n : Nat) (k : Core) : Nat :=
  ringKey (k.selectedPort n) (bitsOf k.osel 9 7) (bitsOf k.osel 6 6) (bitsOf k.osel 4 0)

/-- The numbers of the optical registers. -/
def isOptical (n : Nat) : Bool := (decide (0x400 ≤ n) && decide (n ≤ 0x404)) || (decide (0x410 ≤ n) && decide (n ≤ 0x419))

/-- A saturating counter of a number of bits. -/
def saturated (bits n : Nat) : Nat := min n (2 ^ bits - 1)

/-- An optical register as SRD reads it. -/
def State.readOptical (s : State) (core n : Nat) : Word :=
  let k := s.core core
  let port := k.selectedPort core
  let p := s.port port
  let x := s.ring (k.selectedRing core)
  match n with
  | 0x400 => k.osel
  | 0x401 => x.heat.setWidth 64
  | 0x402 => wordOf x.reading
  | 0x403 => wordOf ((if x.wfail then 16 else 0) + (if x.locked then 8 else 0) + x.state.toNat)
  | 0x404 => x.lambda.setWidth 64
  | 0x410 => p.opark.setWidth 64
  | 0x411 => p.oqthr.setWidth 64
  | 0x412 => wordOf (min p.queued.length 65535)
  | 0x413 => wordOf ((if p.wk then 2 ^ 15 else 0) + s.width port)
  | 0x414 => p.oflits
  | 0x415 => p.owake
  | 0x416 => k.oridx
  | 0x417 => match Table.look p.routes (bitsOf k.oridx 7 0) with
    | some (v, h) => wordOf ((if v then 2 ^ 15 else 0) + h * 2 ^ 8)
    | none => 0
  | 0x418 => wordOf ((if p.up then 2 ^ 31 else 0) + p.fpkg.toNat * 2 ^ 12 + p.fport.toNat)
  | _ => wordOf (saturated 16 p.units * 2 ^ 48 + saturated 24 p.naks * 2 ^ 24 + saturated 24 p.corrected)

/-- An optical register as SWR writes it. -/
def State.writeOptical (s : State) (core n : Nat) (v : Word) : State :=
  let k := s.core core
  let port := k.selectedPort core
  let r := k.selectedRing core
  match n with
  | 0x400 => if bitsOf v 4 0 < 20 then s.setCore core { k with osel := v &&& 0xFDF } else s
  | 0x401 => s.writeOheat r v
  | 0x403 => if bitAt v 4 then s.setRing r { s.ring r with wfail := false } else s
  | 0x404 => s.writeOasgn r v
  | 0x410 => s.writeOpark port v
  | 0x411 => (s.setPort port { s.port port with oqthr := v.setWidth 16 }).wakeCheck port
  | 0x416 => if bitsOf v 7 0 < 0xFD then s.setCore core { k with oridx := wordOf (bitsOf v 7 0) } else s
  | 0x417 => s.writeRoute port (bitsOf k.oridx 7 0) (bitAt v 15) (bitsOf v 11 8)
  | _ => s

/-! ### The registers of a cache-die service core (24_fabric.md R459) -/

/-- The productive ports by distance on a ring of n. -/
def byDistance (d n : Nat) : BitVec 4 := if d = 0 then 0 else if d * 2 < n then 1 else if n < d * 2 then 2 else 3

/-- The reset value of entry IDX of a router's table: columns, rows, and the nodes' entries, which are loaded at bring-up with
values that this manual does not give (log 21). -/
def resetEntry (router idx : Nat) : BitVec 4 :=
  if idx < 128 then byDistance ((idx + 128 - coreX router) % 128) 128
  else if idx < 160 then byDistance ((idx - 128 + 32 - coreY router) % 32) 32 <<< 2
  else Config.nodeEntry router (idx - 160)

def State.router (s : State) (n : Nat) : Router := Table.get s.routers n {}
def State.setRouter (s : State) (n : Nat) (r : Router) : State := { s with routers := Table.put s.routers n r }

/-- An entry of a router's table. -/
def State.routerEntry (s : State) (n idx : Nat) : BitVec 4 := Table.get (s.router n).entries idx (resetEntry n idx)

/-- DRAIN.QUIET: no flit is in flight on a paused die. -/
def State.drainQuiet (s : State) : Bool :=
  s.routers.all (fun e => !(s.paused.getLsbD (coreDie e.1)) || e.2.arriving.isEmpty)

/-- DRAIN written: injection resumes on the dies whose bit is 1 (R460). A drain ends with the last of them. -/
def State.writeDrain (s : State) (mask : BitVec 8) : State :=
  let left := s.paused &&& ~~~mask
  { s with paused := left, drainWritten := s.drainWritten && left != 0, lostPackets := if left = 0 then [] else s.lostPackets }

/-- The numbers of the cache-die registers. -/
def isCacheDie (n : Nat) : Bool := decide (0x420 ≤ n) && decide (n ≤ 0x423)

def State.readCacheDie (s : State) (core n : Nat) : Word :=
  let sel := (s.core core).pdsel
  match n with
  | 0x420 => sel
  | 0x421 => (s.routerEntry (bitsOf sel 11 0) (bitsOf sel 19 12)).setWidth 64
  | 0x422 => (s.router (bitsOf sel 11 0)).dead.setWidth 64
  | _ => wordOf ((if s.drainQuiet then 256 else 0) + s.paused.toNat)

def State.writeCacheDie (s : State) (core n : Nat) (v : Word) : State :=
  let k := s.core core
  match n with
  | 0x420 => if bitsOf v 19 12 < 176 then s.setCore core { k with pdsel := v &&& 0xFFFFF } else s
  | 0x421 =>
    let r := bitsOf k.pdsel 11 0
    let x := s.router r
    { s.setRouter r { x with entries := Table.put x.entries (bitsOf k.pdsel 19 12) (v.setWidth 4) } with
      drainWritten := s.drainWritten || s.paused != 0 }
  | 0x423 => s.writeDrain (v.setWidth 8)
  | _ => s

/-! ### Events on rings and ports -/

/-- ORTE_WRITE: a route entry written by a service core (24_fabric.md R448). -/
def execOrteWrite (svc : Nat) (value : Word) (s : State) :
    Host.Outcome State Fault Refusal :=
  .next (
  s.writeOptical svc 0x417 value)

/-- OPARK_WRITE (R438). -/
def execOparkWrite (svc : Nat) (value : Word) (s : State) :
    Host.Outcome State Fault Refusal :=
  .next (
  s.writeOptical svc 0x410 value)

/-- OHEAT_WRITE (R441). -/
def execOheatWrite (svc : Nat) (value : Word) (s : State) :
    Host.Outcome State Fault Refusal :=
  .next (
  s.writeOptical svc 0x401 value)

/-- OASGN_WRITE (R440). -/
def execOasgnWrite (svc : Nat) (value : Word) (s : State) :
    Host.Outcome State Fault Refusal :=
  .next (
  s.writeOptical svc 0x404 value)

/-- DRAIN_WRITE (24_fabric.md R460). -/
def execDrainWrite (mask : BitVec 8) (s : State) :
    Host.Outcome State Fault Refusal :=
  .next (
  s.writeDrain mask)

/-- OPTICAL_WAKE_TRIGGER: the check of a flit boundary (R438). -/
def execOpticalWakeTrigger (port : Nat) (s : State) :
    Host.Outcome State Fault Refusal :=
  .next (
  s.wakeCheck port)

/-- A ring in a state goes on to another. -/
def State.ringStep (s : State) (ring : Nat) (may : Ring → Bool) (f : Ring → Ring) : State :=
  if may (s.ring ring) then s.setRing ring (f (s.ring ring)) else s

/-- RING_SETTLE_DONE: settling ends and locking begins (R438). -/
def execRingSettleDone (ring : Nat) (s : State) :
    Host.Outcome State Fault Refusal :=
  .next (
  s.ringStep ring (fun x => x.state == 2) (fun x => { x with state := 3 }))

/-- RING_LOCKED: LOCK has held for 1 µs (R438). -/
def execRingLocked (ring : Nat) (s : State) :
    Host.Outcome State Fault Refusal :=
  .next (
  s.ringStep ring (fun x => x.state == 3 && x.locked) (fun x => { x with state := 4, deskewed := false }))

/-- RING_LOCK_TIMEOUT: back to parked, WFAIL set, and a send ring's bit in OPARK set again (R438). -/
def State.lockTimeout (s : State) (ring : Nat) : State :=
  let x := s.ring ring
  if x.state ≠ 3 then s
  else
    let s := s.setRing ring { x with state := 1, wfail := true, mon := 0, moving := false }
    if ringSends ring ∧ x.lambda.toNat < 16 then
      let p := s.port (ringPort ring)
      s.setPort (ringPort ring) { p with opark := p.opark ||| ((1 : BitVec 16) <<< x.lambda.toNat) }
    else s

/-- RING_LOCK_TIMEOUT (R438). -/
def execRingLockTimeout (ring : Nat) (s : State) :
    Host.Outcome State Fault Refusal :=
  .next (
  s.lockTimeout ring)

/-- RING_DESKEW_DONE: the ring waits for the stripe to widen (R438). -/
def execRingDeskewDone (ring : Nat) (s : State) :
    Host.Outcome State Fault Refusal :=
  .next (
  s.ringStep ring (fun x => x.state == 4) (fun x => { x with deskewed := true }))

/-- STRIPE_WIDEN: once no ring of the port is settling, locking or in deskew, and the far end has reported its lock, every
deskewed wavelength joins the stripe, and WK := 0 (R438, R440, 24_fabric.md R454). -/
def State.stripeWiden (s : State) (port : Nat) : State :=
  let p := s.port port
  if (portRings port).any (fun r => (s.ring r).busy) ∨ p.awaitLock then s
  else
    let s := s.eachRing port (fun _ x =>
      if x.state = 4 ∧ x.deskewed then { x with state := 5, deskewed := false, moving := false } else x)
    s.setPort port { s.port port with wk := false, waking := 0 }

/-- STRIPE_WIDEN (R438). -/
def execStripeWiden (port : Nat) (s : State) :
    Host.Outcome State Fault Refusal :=
  .next (
  s.stripeWiden port)

/-- MONITOR_SAMPLE (R437): in states 3 to 5, a ring within 1,024 codes of its resonance reads MON = 2048 − (HEAT − H*), an approximate
formula that this manual calls typical; H* is open (log 9), and so is the reading of a ring farther away. -/
def State.monitorSample (s : State) (ring : Nat) : State :=
  let x := s.ring ring
  if ¬ x.lit then s.setRing ring { x with mon := 0 }
  else
    let h := Config.resonance ring x.lambda.toNat s.choice
    let e : Int := (x.heat.toNat : Int) - h
    let mon : BitVec 12 := if e.natAbs ≤ 1024 then BitVec.ofInt 12 (2048 - e) else BitVec.ofNat 12 (s.free 0 4096)
    s.setRing ring { x with mon := mon }

/-- MONITOR_SAMPLE (R437). -/
def execMonitorSample (ring : Nat) (s : State) :
    Host.Outcome State Fault Refusal :=
  .next (
  s.monitorSample ring)

/-- The receive rings of a port whose wavelength a flit of the far sender names (24_fabric.md R454). -/
def State.farFlit (s : State) (port : Nat) (mask : BitVec 16) (may : Ring → Bool) (f : Ring → Ring) : State :=
  s.eachRing port (fun r x =>
    if !ringSends r && mask.getLsbD x.lambda.toNat && decide (x.lambda.toNat < 16) && may x then f x else x)

/-- PARK_FLIT: the matching receive rings park (24_fabric.md R454). -/
def execParkFlit (port : Nat) (mask : BitVec 16) (s : State) :
    Host.Outcome State Fault Refusal :=
  .next (
  s.farFlit port mask (fun x => x.state == 5) (fun x => { x with state := 1, mon := 0 }))

/-- WAKE_FLIT: the matching receive rings settle alongside the far send rings (24_fabric.md R454). -/
def execWakeFlit (port : Nat) (mask : BitVec 16) (s : State) :
    Host.Outcome State Fault Refusal :=
  .next (
  s.farFlit port mask (fun x => x.state == 1) Ring.settle)

/-- LOCK_REPORT: the far end's rings have reached deskew (24_fabric.md R454). -/
def execLockReport (port : Nat) (s : State) :
    Host.Outcome State Fault Refusal :=
  .next (
  s.setPort port { s.port port with awaitLock := false })

/-! ### The link layer (24_fabric.md R450 to R453) -/

/-- A queued flit sent: it takes the next LSEQ and enters the send window of 512 (R451). A port that is not up, or has no active
wavelength, sends nothing. -/
def State.sendQueued (s : State) (port : Nat) : State :=
  let p := s.port port
  match p.queued with
  | [] => s
  | d :: rest =>
    if p.up ∧ p.window.length < 512 ∧ 0 < s.width port then
      s.setPort port { p with queued := rest, window := p.window ++ [(p.nextSeq, 0, d)], nextSeq := p.nextSeq + 1
                              oflits := p.oflits + 1 }
    else s

/-- Flits that the ports have sent since the last step: how many is open (log 5). -/
def State.pump (s : State) : State :=
  s.ports.foldl (fun (s : State) e =>
    (List.range (s.free (3000 + e.1) (e.2.queued.length + 1))).foldl (fun t _ => t.sendQueued e.1) s) s

/-- Flits in order from an LSEQ are taken over by the receiver; data flits await assembly. -/
def Port.takeInOrder (p : Port) : Nat → Port
  | 0 => p
  | n + 1 =>
    match p.later.find? (fun e => e.1 == p.expected) with
    | none => p
    | some (q, ty, d) =>
      Port.takeInOrder { p with expected := p.expected + 1, later := p.later.filter (fun e => e.1 != q)
                                received := if ty = 0 then p.received ++ [d] else p.received } n

/-- A data or void flit that passes its check (R451): accepted in LSEQ order, held back behind a gap, each LSEQ of which is NAKed
alone; a flit already accepted is discarded. -/
def Port.arrive (p : Port) (q : BitVec 16) (ty : BitVec 4) (d : BitVec 256) : Port :=
  let ahead := (q - p.expected).toNat
  if 32768 ≤ ahead ∨ p.later.any (fun e => e.1 == q) then p
  else
    let known := p.later.foldl (fun m (e : BitVec 16 × BitVec 4 × BitVec 256) => max m ((e.1 - p.expected).toNat + 1)) 0
    Port.takeInOrder { p with later := p.later ++ [(q, ty, d)], naks := p.naks + (ahead - known) } (p.later.length + 1)

/-- A flit resent from its window entry, which is read corrected (R451, R452). -/
def Port.resend (p : Port) (q : BitVec 16) : Port :=
  if p.window.any (fun e => e.1 == q) then { p with oflits := p.oflits + 1 } else p

/-- FLIT_ARRIVAL (R450, R451): whether the flit passes its check is open, as this manual does not give the code: it passes, a single
error is corrected, or it fails and is NAKed. Park, wake and lock report flits arrive as PARK_FLIT, WAKE_FLIT and LOCK_REPORT. -/
def State.flitArrival (s : State) (port : Nat) (flit : BitVec 306) : State :=
  let p := s.port port
  let outcome := s.free 0 3
  if outcome = 2 then s.setPort port { p with naks := p.naks + 1 }
  else
    let f := if outcome = 1 then flit ^^^ ((1 : BitVec 306) <<< s.free 1 306) else flit
    let p := if outcome = 1 then { p with corrected := p.corrected + 1 } else p
    let d : BitVec 256 := f.extractLsb' 50 256
    let q : BitVec 16 := f.extractLsb' 34 16
    let ty : BitVec 4 := f.extractLsb' 30 4
    s.setPort port (match ty.toNat with
      | 0 | 1 => p.arrive q ty d
      | 2 => p.resend q
      | 3 => { p with window := p.window.filter (fun e => e.1 != q) }
      | _ => p)

/-- FLIT_ARRIVAL (R451). -/
def execFlitArrival (port : Nat) (flit : BitVec 306) (s : State) :
    Host.Outcome State Fault Refusal :=
  .next (
  s.flitArrival port flit)

/-- LINK_NAK_RESEND (R451, R452). -/
def execLinkNakResend (port : Nat) (lseq : BitVec 16) (s : State) :
    Host.Outcome State Fault Refusal :=
  .next (
  s.setPort port ((s.port port).resend lseq))

/-- SEND_WINDOW_DOUBLE_UPSET (R453): a void flit of the same LSEQ stands in the entry's place, and OLERR.UNITS counts it. The replay
of its packet is REPLAY_NOTICE. -/
def State.windowUpset (s : State) (port : Nat) (lseq : BitVec 16) : State :=
  let p := s.port port
  if p.window.any (fun e => e.1 == lseq) then
    s.setPort port { p with
      units := p.units + 1
      window := p.window.map (fun e => if e.1 = lseq then (e.1, 1, BitVec.ofNat 256 (Config.choice s.choice 0)) else e) }
  else s

/-- SEND_WINDOW_DOUBLE_UPSET (R453). -/
def execSendWindowDoubleUpset (port : Nat) (lseq : BitVec 16) (s : State) :
    Host.Outcome State Fault Refusal :=
  .next (
  s.windowUpset port lseq)

/-! ### Replays (24_fabric.md R444, R446, R448, R453) -/

/-- A request or message for another package that has had no answer is sent again, with a port chosen afresh; where no route is
valid it is declared lost (R446). -/
def State.replay (s : State) (id : Nat) : State :=
  match s.requests.find? (fun q => q.id == id) with
  | some r =>
    match r.remote, r.stage with
    | some pkg, .sent | some pkg, .nacked =>
      let s := s.putRequest { r with stage := .sent }
      (match s.portFor r.part pkg r.core (homekeyOf r.home r.key) with
        | some port => s.queueFlits port (requestFlits r.op)
        | none => s.loseRequest r 2)
    | _, _ => s
  | none =>
    match s.flights.find? (fun f => f.id == id) with
    | none => s
    | some f => match f.dest with
      | .remote pkg core => (match s.portFor f.part pkg f.source core with
        | some port => s.queueFlits port 3
        | none => s.loseFlight f 2)
      | _ => s

/-- FABRIC_TIMED_REPLAY (R444). -/
def execFabricTimedReplay (rid : Nat) (s : State) :
    Host.Outcome State Fault Refusal :=
  .next (
  s.replay rid)

/-- REPLAY_NOTICE (R453). -/
def execReplayNotice (rid : Nat) (s : State) :
    Host.Outcome State Fault Refusal :=
  .next (
  s.replay rid)

/-- PORT_DOWN (R448): UP falls to 0; what the send window has not delivered is replayed end to end, over any other port. -/
def State.portDown (s : State) (port : Nat) : State :=
  let through (part pkg source homekey : Nat) : Bool := s.portFor part pkg source homekey == some port
  let lostRequests := s.requests.filterMap (fun r => match r.remote with
    | some pkg => if through r.part pkg r.core (homekeyOf r.home r.key) then some r.id else none
    | none => none)
  let lostFlights := s.flights.filterMap (fun f => match f.dest with
    | .remote pkg core => if through f.part pkg f.source core then some f.id else none
    | _ => none)
  let s := s.setPort port { s.port port with up := false, queued := [], window := [] }
  (lostRequests ++ lostFlights).foldl State.replay s

/-- PORT_DOWN (R448). -/
def execPortDown (port : Nat) (s : State) :
    Host.Outcome State Fault Refusal :=
  .next (
  s.portDown port)

end Sys2Proof.Machine
end

