-- ==== Sys2Proof/Machine/Queue.lean ====
section
/-! DEFINITION. The tile queues (12_execution.md R299 to R302), and contexts that start and end: the registers of a start
(06_task_instr.md R152), the channel and surveyor queues (05_memory_instr.md R117, 06_task_instr.md R173 to R177,
08_matrix_instr.md R241), the end of a helper (R167), and the launches and crews that count it. -/

namespace Sys2Proof.Machine

/-! ### Tile queues (R300 to R302) -/

/-- The resident entries of a queue, those of a level, and whether a level has spilled entries. -/
def residents (q : List QEntry) : Nat := (q.filter (·.resident)).length
def residentsAt (q : List QEntry) (level : Nat) : Nat := (q.filter (fun e => e.resident && e.level == level)).length
def hasSpilled (q : List QEntry) (level : Nat) : Bool := q.any (fun e => !e.resident && e.level == level)

/-- How many entries of a partition stand in its spill area, and its capacity: 256 for each slice (R301). -/
def State.spillUsed (s : State) (part : Nat) : Nat :=
  ((s.tilesOf part).map (fun t => ((s.tile t).queue.filter (fun e => !e.resident)).length)).sum
    + ((List.range 32).map (fun g =>
        if s.partOfGroup g = some part then (s.superGroup g).spilled.length else 0)).sum
def State.spillRoom (s : State) (part : Nat) : Bool :=
  match s.part part with
  | none => false
  | some p => decide (s.spillUsed part < 256 * p.slices.length)

/-- The last resident entry of a level moves to the spill list of its level: as the list keeps each level's entries in
order, it becomes the first spilled one. -/
def spillNewest (q : List QEntry) (level : Nat) : List QEntry :=
  (q.foldr (fun e (acc : List QEntry × Bool) =>
    if !acc.2 && e.resident && e.level == level then ({ e with resident := false } :: acc.1, true)
    else (e :: acc.1, acc.2)) ([], false)).1

/-- The lowest level below a bound that has resident entries. -/
def lowestResident (q : List QEntry) (below : Nat) : Option Nat :=
  (List.range (min below 8)).find? (fun v => decide (0 < residentsAt q v))

/-- An arrival at a queue (R300, R301); none where it would need room in a full spill area. A level with spilled entries
takes an arrival at the tail of its spill list, which keeps the one sequence of R300 (log 16). -/
def queueArrival (q : List QEntry) (e : QEntry) (room : Bool) : Option (List QEntry) :=
  if hasSpilled q e.level then (if room then some (q ++ [{ e with resident := false }]) else none)
  else if residents q < 2048 then some (q ++ [{ e with resident := true }])
  else if !room then none
  else match lowestResident q e.level with
    | some v => some (spillNewest q v ++ [{ e with resident := true }])
    | none => some (q ++ [{ e with resident := false }])

/-- A retained successor enters at the head of its level, always resident (R167, R301). -/
def queueHead (q : List QEntry) (e : QEntry) : List QEntry :=
  let e := { e with resident := true }
  if residents q < 2048 then e :: q
  else match lowestResident q 8 with
    | some v => e :: spillNewest q v
    | none => e :: q

/-- A task offered to the queue of a tile; with no room in the spill area it stays with the contour unit (R301). Its
spawner's class st ends with the acceptance (06_task_instr.md R153). -/
def State.offer (s : State) (tile : Nat) (t : Task) : State :=
  let u := s.tile tile
  let e : QEntry := { kind := .task { t with issuer := none }, level := t.prio.toNat, resident := true, joined := s.gtc }
  match queueArrival u.queue e (s.spillRoom t.part) with
  | none => s.setTile tile { u with offered := u.offered ++ [t] }
  | some q =>
    let s := s.setTile tile { u with queue := q }
    match t.issuer with
    | some (core, ctx) => s.endOp core ctx 1 none
    | none => s

/-! ### The start of a context (R152) -/

/-- A context as it starts, with the given registers live (R152): every state register at its reset value, the level given,
and no outstanding operation (R159). -/
def Ctx.start (pc : Word) (level : Nat) (role : Role) (args : List (Nat × Word)) : Ctx :=
  args.foldl (fun c a => c.write a.1 a.2)
    { run := .ready, pc := pc, role := role, status := wordOf (level * 2 ^ 12 + 0x180) }

/-- The arguments of a start as registers a0, a1, … (g4 upwards). -/
def startArgs (vs : List Word) : List (Nat × Word) := (List.range vs.length).map (fun i => (4 + i, vs.getD i 0))

/-- The helper numbers that are reserved for handlers (R160). -/
def Core.reserved (k : Core) (h : Nat) : Bool := decide (10 - k.hres.toNat ≤ h) && decide (h ≤ 9)

/-- The free helpers of a core that are not reserved, in ascending order. -/
def Core.freeHelpers (k : Core) : List Nat :=
  (List.range 11).filter (fun h => decide (1 ≤ h) && !k.reserved h && (k.ctx h).run == .free)

/-- The live helpers of a core (12_execution.md R303). -/
def Core.liveHelpers (k : Core) : Nat := ((List.range 11).filter (fun h => decide (1 ≤ h) && (k.ctx h).isLive)).length

/-- A task starts on a helper and acquires (R152), with the banks a retained successor keeps (R167). -/
def State.startTask (s : State) (core helper : Nat) (t : Task) (role : Role) (taskix : Word) : State :=
  let s := s.acquire core
  let c := Ctx.start t.entry 0 role (startArgs (t.args.toList ++ t.operands))
  let c := { c with taskix := taskix, prio := t.prio, joinPtr := t.join }
  let s := s.setCtx core helper c
  match t.pinned with
  | none => s
  | some (_, banks) => s.setCore core { s.core core with banks := banks.foldl (fun b n => Table.put b n helper) (s.core core).banks }

/-! ### Channels (05_memory_instr.md R117, 06_task_instr.md R172 to R177) -/

/-- The channel register q of a context. -/
def State.channel (s : State) (core ctx q : Nat) : Option Channel := Table.look (s.ctx core ctx).channels q
def State.setChannel (s : State) (core ctx q : Nat) (h : Channel) : State :=
  let c := s.ctx core ctx
  s.setCtx core ctx { c with channels := Table.put c.channels q h }
def State.dropChannel (s : State) (core ctx q : Nat) : State :=
  let c := s.ctx core ctx
  s.setCtx core ctx { c with channels := Table.drop c.channels q }

/-- The entries of a channel register replaced. -/
def State.setEntries (s : State) (core ctx q : Nat) (h : Channel) (es : List Entry) : State :=
  if h.kind = 2 then
    let p := sendQueue core h.dir.toNat
    s.setCore p.1 { s.core p.1 with neighbours := Table.put (s.core p.1).neighbours p.2 es }
  else if h.kind = 3 then
    s.setCore core { s.core core with neighbours := Table.put (s.core core).neighbours h.dir.toNat es }
  else match h.stream with
    | some n => match Table.look (s.core core).streams n with
      | some t => s.setCore core { s.core core with streams := Table.put (s.core core).streams n { t with queue := es } }
      | none => s
    | none => s.setChannel core ctx q { h with entries := es }

/-- Whether a channel register is read: every kind but the neighbour send. -/
def Channel.readable (h : Channel) : Bool := h.kind != 2

/-- The entry at the head of a channel, if its data is there: a reserved gather holds back what follows it (18_sparse.md
R387). -/
def headEntry : List Entry → Option Entry
  | [] => none
  | e :: _ => if e.reserved.isSome then none else some e

/-! ### Surveyor streams that end (08_matrix_instr.md R241, R243; 18_sparse.md R388) -/

/-- The requests of a unit dropped. -/
def State.dropUnit (s : State) (grp : Nat) : State := { s with requests := s.requests.filter (fun q => q.grp ≠ grp) }

/-- The groups of a stream's requests to other packages, for its gathers and for its index lines: numbers no identifier reaches. -/
def streamGroup (core n : Nat) : Nat := 2 ^ 64 + core * 16 + n
def indexGroup (core n : Nat) : Nat := streamGroup core n + 8

/-- What a stream has asked of other packages dropped: a cancelled gather's data is not taken (18_sparse.md R388). -/
def State.dropStreamRequests (s : State) (core n : Nat) : State := (s.dropUnit (streamGroup core n)).dropUnit (indexGroup core n)

/-- A stream stops: reserved gathers are cancelled, the lines read ahead are discarded, and a control value follows the last entry. -/
def Stream.stop (t : Stream) (data : Word) : Stream :=
  { t with started := false, ended := true, at_ := none, ahead := []
           queue := t.queue.filter (fun e => e.reserved.isNone) ++ [{ control := true, data := data }] }

/-- Stream n of a core is stopped and freed: a channel register bound to it keeps the entries (R241). -/
def State.unbindStream (s : State) (core n : Nat) : State :=
  match Table.look (s.core core).streams n with
  | none => s
  | some t =>
    let q := (t.stop 1).queue
    let c := s.ctx core t.ctx
    let c := { c with channels := c.channels.map (fun e =>
      if e.2.stream = some n then (e.1, { e.2 with closed := true, entries := q }) else e) }
    let s := (s.dropStreamRequests core n).setCtx core t.ctx c
    s.setCore core { s.core core with streams := Table.drop (s.core core).streams n }

/-- Every stream of a context unbound (18_sparse.md R388). -/
def State.unbindStreams (s : State) (core ctx : Nat) : State :=
  (s.core core).streams.foldl (fun s e => if e.2.ctx = ctx then s.unbindStream core e.1 else s) s

/-! ### Launches and crews that count a halted root or member (R156, R169) -/

/-- A root of a launch, dispatched on die d, halts on a core with a code: the last one of its die makes the launch unit send one JOIN, with
LAST the core of the last root to halt (05_memory_instr.md R143, R156). -/
def State.rootHalted (s : State) (id d core code : Nat) : State :=
  match s.launches.find? (fun l => l.id == id) with
  | none => s
  | some l =>
    let (left, e, ec) := Table.get l.dies d (0, 0, 0)
    let (e, ec) := if e = 0 ∧ code ≠ 0 then (code, core) else (e, ec)
    let put (t : Table (Nat × Nat × Nat)) : State :=
      let ls := s.launches.map (fun x => if x.id = id then { x with dies := t } else x)
      { s with launches := ls.filter (fun x => !(x.id == id && x.dies.isEmpty && x.toPlace.isEmpty)) }
    if left ≤ 1 then
      let s := put (Table.drop l.dies d)
      let join := l.packet.toList.getD 2 0
      if join = 0 then s
      else s.hwJoin l.part (4096 + d) noContext 0 join (fun s home key => s.joinStep l.part home key core ec e) 0
    else put (Table.put l.dies d (left - 1, e, ec))

/-- A member of a crew halts: when every member has, the crew dissolves and sends one JOIN with the first non-zero code;
LAST is the core of the last member. -/
def State.memberHalted (s : State) (id core ctx code : Nat) : State :=
  match s.crews.find? (fun c => c.id == id) with
  | none => s
  | some c =>
    let ms := c.members.map (fun m => if m.core = core ∧ m.ctx = ctx then { m with halted := true } else m)
    let c := { c with members := ms, firstError := if c.firstError = 0 then code else c.firstError }
    if c.members.all (·.halted) then
      let s := { s with crews := s.crews.filter (fun x => x.id ≠ id) }
      if c.join = 0 then s
      else s.hwJoin c.part core core ctx c.join (fun s home key => s.joinStep c.part home key core core c.firstError) 0
    else { s with crews := s.crews.map (fun x => if x.id = id then c else x) }

/-! ### The end of a helper (R159, R167, 12_execution.md R307) -/

/-- The banks of a context. -/
def Core.allotment (k : Core) (ctx : Nat) : List Nat := (k.banks.filter (fun e => e.2 == ctx)).map (·.1)

/-- The banks of a context power down: they read 0, with tags full at version 0 and stamp none, and have no owner. -/
def State.powerDown (s : State) (core ctx : Nat) : State :=
  let bs := (s.core core).allotment ctx
  let s := bs.foldl (fun (s : State) b => s.scrub (sramKey core (b * 8192)) 8192) s
  s.setCore core { s.core core with banks := bs.foldl (fun t b => Table.drop t b) (s.core core).banks }

/-- What a context leaves behind belongs to no context (R159): it is renamed to a number that no context has and whose
low four bits still name the context for messages and reports. A waiting synchronising access is withdrawn. -/
def State.orphanOps (s : State) (core ctx : Nat) : State :=
  let ghost := ctx + 16 * (s.nextId + 1)
  let mine (c x : Nat) : Bool := c == core && x == ctx
  let own (e : Nat × Nat × Nat) : Nat × Nat × Nat := if mine e.1 e.2.1 then (e.1, ghost, e.2.2) else e
  let flight (f : Flight) : Flight := { f with issuer := f.issuer.map own, ends := f.ends.map own }
  let task (t : Task) : Task := match t.issuer with
    | some (c, x) => if mine c x then { t with issuer := some (c, ghost) } else t
    | none => t
  let request (q : Request) : Request := if mine q.core q.ctx then { q with ctx := ghost } else q
  let command (c : Command) : Command := if mine c.issuer c.issuerCtx then { c with issuerCtx := ghost } else c
  let copy (c : Copy) : Copy := if mine c.core c.ctx then { c with ctx := ghost } else c
  let launch (l : LaunchRequest) : LaunchRequest := match l.issuer with
    | some (c, x, n) => if mine c x then { l with issuer := some (c, ghost, n) } else l
    | none => l
  let what (w : HeldWhat) : HeldWhat := match w with
    | .request r => .request (request r)
    | .message f => .message (flight f)
    | .task tile t => .task tile (task t)
    | .launch l => .launch (launch l)
    | .crew sg c => .crew sg { c with task := task c.task }
    | .command c => .command (command c)
    | .copy tile c => .copy tile (copy c)
    | .admin n => .admin n
  let tile (t : Tile) : Tile :=
    { t with deciding := t.deciding.map task, held := t.held.map task, offered := t.offered.map task
             copies := t.copies.map copy
             claimQueue := t.claimQueue.filter (fun r => !mine r.core r.ctx) }
  let engine (e : Engine) : Engine := { e with queue := e.queue.map command, running := e.running.map command }
  let group (g : SuperGroup) : SuperGroup :=
    { g with requests := g.requests.map (fun r => { r with task := task r.task })
             spilled := g.spilled.map (fun r => { r with task := task r.task }) }
  { s with
    nextId := s.nextId + 1
    requests := (s.requests.filter (fun q => !(q.blocking && mine q.core q.ctx))).map request
    flights := s.flights.map flight
    held := s.held.map (fun h => if mine h.core h.ctx then { h with ctx := ghost, what := what h.what } else h)
    commands := s.commands.map command
    cores := s.cores.map (fun e => (e.1, { e.2 with engine := engine e.2.engine }))
    launchQueue := s.launchQueue.map launch
    superGroups := s.superGroups.map (fun e => (e.1, group e.2))
    tiles := s.tiles.map (fun e => (e.1, tile e.2)) }

/-- Barrier arrivals of a context that is stopped are withdrawn with it. -/
def State.leaveBarriers (s : State) (core ctx : Nat) : State :=
  { s with barriers := s.barriers.map (fun b =>
      { b with arrivals := b.arrivals.filter (fun a => !(a.core == core && a.ctx == ctx)) }) }

/-- The queues that a context's neighbour receive bindings read are emptied, as QFREE empties them (R167, R176). -/
def State.emptyReceives (s : State) (core ctx : Nat) : State :=
  let k := s.core core
  let dirs := (k.ctx ctx).channels.filterMap (fun e => if e.2.kind = 3 then some e.2.dir.toNat else none)
  s.setCore core { k with neighbours := k.neighbours.filter (fun e => !dirs.contains e.1) }

/-- The steps of a halt after its waits (R167): the claim, channels and maps go, class 0 messages of the context are
discarded, loads that returned no value and were never read are reported (16_ordering.md R373), the JOIN is sent and the launch or crew counts it, and the helper is free. The banks are the caller's. -/
def State.freeHelper (s : State) (core ctx code : Nat) : State :=
  let s := s.emptyReceives core ctx
  let c := s.ctx core ctx
  let k := s.core core
  let s := s.setCore core { k.setCtx ctx {} with
    inbox := k.inbox.filter (fun m => !(m.cls == 0 && m.dctx == ctx))
    waiters := k.waiters.filter (fun w => w.ctx ≠ ctx) }
  let s := c.lostLoads.foldl (fun (s : State) e => s.discard core ctx e.2) s
  let part := (s.partOf core).getD 0
  match c.role with
  | .task =>
    if c.joinPtr = 0 then s
    else s.hwJoin part core core ctx c.joinPtr (fun s home key => s.joinStep part home key core core code) c.level
  | .root id d => s.rootHalted id d core code
  | .member id => s.memberHalted id core ctx code
  | _ => s

/-- A helper ended by a class 5 stop (R159): as HHALT with code 0xFFFE, without its drain. -/
def State.stopHelper (s : State) (core ctx : Nat) : State :=
  let s := (s.unbindStreams core ctx).orphanOps core ctx
  let s := s.leaveBarriers core ctx
  (s.powerDown core ctx).freeHelper core ctx 0xFFFE

end Sys2Proof.Machine
end

