-- ==== Sys2Proof/Machine/Stops.lean ====
section
/-! DEFINITION. Stops of a context (22_faults.md R420, R426, R434, R480): a waiting synchronising access withdrawn
(05_memory_instr.md R129), a stop laid upon a context and lifted, save areas written once a stop may write them, and the waits of a
context that is to leave its core. -/

namespace Sys2Proof.Machine

/-! ### A waiting access meets a stop (05_memory_instr.md R129, 22_faults.md R429) -/

/-- The waiting synchronising access of a context: one that its home has satisfied completes the instruction, with its result, and
`pend` records it in PEND; any other is withdrawn, and the instruction executes again. -/
def State.settleSync (s : State) (core ctx : Nat) (pend : Bool) : State :=
  match s.requests.find? (fun q => q.blocking && q.cls.isSome && q.core == core && q.ctx == ctx) with
  | none => s
  | some r =>
    let s := s.finishCounts r
    match r.stage with
    | .returned v =>
      let c := s.ctx core ctx
      let c := r.dies.foldl Ctx.kill c
      let c := match r.target with
        | .reg p => c.write p v
        | _ => c
      let word := 2 ^ 63 + 2 ^ 60 + bitsOf r.pc 47 0
      (s.setCtx core ctx { c with pc := c.pc + wordOf r.length, wait := .none, reserve := 0, pend := if pend then wordOf word else c.pend
                                  lostLoads := match r.target with
                                    | .reg p => Table.drop c.lostLoads p
                                    | _ => c.lostLoads }).stepStopped core ctx c.pc
    | _ =>
      let c := s.ctx core ctx
      s.setCtx core ctx { c with wait := if c.wait = .request r.id then .retry else c.wait, reserve := 0 }

/-- What a context asked of another package for its instruction is withdrawn: the instruction asks again. -/
def State.forgetAsked (s : State) (core ctx : Nat) : State :=
  { s with requests := s.requests.filter (fun q => !(q.blocking && q.cls.isNone && q.core == core && q.ctx == ctx)) }

/-- A claim request that waits is withdrawn (07_vector_instr.md R187); a claim that is being restored keeps its place while its context
stays. -/
def State.withdrawClaim (s : State) (core ctx : Nat) : State :=
  let t := coreTile core
  if (s.tile t).claimQueue.any (fun r => r.core == core && r.ctx == ctx && !r.resuming) then
    let s := s.setTile t { s.tile t with claimQueue := (s.tile t).claimQueue.filter (fun r => !(r.core == core && r.ctx == ctx)) }
    let c := s.ctx core ctx
    s.setCtx core ctx { c with wait := if c.wait = .claim then .retry else c.wait }
  else s

/-! ### Stops laid and lifted -/

/-- A stop laid upon a context, over the stop that it already has (R434). -/
def State.lay (s : State) (core ctx : Nat) (st : RunState) (stopsClaim : Bool) : State :=
  let c := s.ctx core ctx
  let t := if stopsClaim then c.stopped s.nextOrder else c
  { s.setCtx core ctx { t with
      run := st, under := c.run, pendingStop := none, stopLevel := c.level, stopXpl := c.xpl } with
    nextOrder := s.nextOrder + 1 }

/-- The stop lifted: what stood under it stands again. -/
def State.lift (s : State) (core ctx : Nat) : State :=
  let c := s.ctx core ctx
  s.setCtx core ctx { c with run := c.under, under := .ready }

/-- A stop laid upon a context with its area written; where that fails the context is FAULTED as it stands, KIND 1 reports it, and
the stop is still to come (R420). -/
def State.layAndSave (s : State) (core ctx : Nat) (st : RunState) (stopsClaim lanes : Bool) : State :=
  let t := s.lay core ctx st stopsClaim
  match t.save core ctx lanes with
  | .ok u => u
  | .error va =>
    let u := s.saveFailed core ctx 1 va
    u.setCtx core ctx { u.ctx core ctx with pendingStop := some st }

/-- A context that a gang stop laid still is to write its area tries again, without a further report. -/
def State.retrySave (s : State) (core ctx : Nat) : State :=
  match s.save core ctx false with
  | .ok u => u.setCtx core ctx { u.ctx core ctx with pendingStop := none }
  | .error _ => s

/-- A stop that waited for the context to return below level 2 (R480): a gang stop writes the area, a migration leaves that to
MIGR. -/
def State.applyPending (s : State) (core ctx : Nat) : State :=
  let c := s.ctx core ctx
  if c.level = 2 ∨ c.run ≠ .ready then s
  else match c.pendingStop with
    | none => s
    | some .gangStopped => s.layAndSave core ctx .gangStopped false false
    | some st => s.lay core ctx st true

/-- Whether a context has nothing outstanding in the classes ld and st, its counters drained, and no release held. -/
def State.settled (s : State) (core ctx : Nat) : Bool :=
  let c := s.ctx core ctx
  c.outstanding.c0 == 0 && c.outstanding.c1 == 0 && c.acks == {}
    && !s.held.any (fun h => h.core == core && h.ctx == ctx)

/-- Whether a context has no engine command and no copy outstanding (08_matrix_instr.md R230, 09_copy_instr.md R263). -/
def Ctx.engineQuiet (c : Ctx) : Bool := c.outstanding.c2 == 0 && c.outstanding.c3 == 0

/-- A reload that fails leaves the context FAULTED, with KIND 1 and REASON 2 (R420). -/
def State.reloadOrFault (s : State) (core ctx : Nat) : State × Bool :=
  match s.reload core ctx with
  | .ok t => (t, true)
  | .error va => (s.saveFailed core ctx 2 va, false)

/-- A context leaves its core: its units are freed, and a restore in progress ends there (07_vector_instr.md R188). -/
def Ctx.unclaimed (c : Ctx) : Ctx := { c with claim := c.claim.map (fun q => { q with groups := [] }) }
def State.leaveTile (s : State) (core ctx : Nat) : State :=
  let t := s.tile (coreTile core)
  s.setTile (coreTile core) { t with claimQueue := t.claimQueue.filter (fun r => !(r.core == core && r.ctx == ctx)) }

/-- A context that has come to a new core with a claim joins the claim queue there as a request with W = 1, and waits (R188). -/
def State.claimAgain (s : State) (core ctx : Nat) : State :=
  match (s.ctx core ctx).claim with
  | none => s
  | some q =>
    let t := s.tile (coreTile core)
    let r : ClaimRequest := { core := core, ctx := ctx, req := q.g, minreq := q.floor, resuming := true }
    (s.setTile (coreTile core) { t with claimQueue := t.claimQueue ++ [r] }).alterCtx core ctx (fun c => { c with wait := .claim })

/-! ### The core record of a gang stop (R431) -/

/-- The core record written at a stop or a release; a core whose record cannot be written keeps the old one. -/
def State.writeRecord (s : State) (core : Nat) : State :=
  let k := s.core core
  match s.partOf core with
  | none => s
  | some n =>
    if k.saveb = 0 then s
    else
      let words : List (Nat × Nat × Word) :=
        [(0, 8, k.stopGtc), (8, 8, wordOf k.sent), (16, 8, wordOf k.received), (24, 8, k.releaseGtc),
         (32, 8, wordOf (k.gangStops % 2 ^ 32))] ++ (List.range 27).map (fun i => (40 + 8 * i, 8, 0))
      match s.superWrite n (bitsOf k.saveb 51 0 + 0x58000) words with
      | .ok t => t
      | .error _ => s

/-- A helper that is to run on a core with more registers than its reserve and the shared part give waits for them as one that has been
pre-empted for registers (01_assembly.md R29 to R31; log 81): after a migration, a crew's restore, or a resume that a supervisor gave more
live registers. -/
def State.seat (s : State) (core ctx : Nat) : State :=
  let k := s.core core
  let c := k.ctx ctx
  if ctx = 0 ∨ c.run ≠ .ready ∨ c.holds ≤ 16 ∨ k.sharedUsed ≤ 64 then s
  else
    let t := s.lay core ctx .preempted true
    match t.save core ctx false with
    | .error va => s.saveFailed core ctx 1 va
    | .ok u =>
      let k := u.core core
      u.setCore core { k with waiters := k.waiters ++ [{ ctx := ctx, preempted := true, need := c.holds - 16 }] }

/-- Whether the partition of a core stands in a gang stop: nothing starts there. -/
def State.gangStopping (s : State) (core : Nat) : Bool :=
  match (s.partOf core).bind s.part with
  | some p => p.gang.isSome
  | none => false

end Sys2Proof.Machine
end

