-- ==== Sys2Proof/Machine/System.lean ====
section
/-! DEFINITION. SRD, SWR and the state registers; TRAP, BRK, XRET, NOP and SYNCI; the capability traps (10_system_instr.md R265 to
R280, 25_package.md R470); and what an illegal encoding and a fetch fault do (03_encoding.md R75, R76). -/

namespace Sys2Proof.Machine

/-! ### The state registers (R266, R267) -/

/-- The levels that reading and writing register n of a core need; a write level of none traps at every level. The result is none
where n names no register on that core. -/
def regLevels (core n : Nat) : Option (Nat × Option Nat) :=
  if n = 0 ∨ (4 ≤ n ∧ n ≤ 0xA) then some (0, some 0)
  else if n ≤ 3 then some (1, some 1)
  else if n = 0x100 ∨ n = 0x181 ∨ n = 0x300 then some (0, none)
  else if n = 0x101 ∨ n = 0x102 ∨ n = 0x103 ∨ n = 0x180 then some (1, some 1)
  else if 0x200 ≤ n ∧ n ≤ 0x208 then some (0, some 1)
  else if 0x209 ≤ n ∧ n ≤ 0x20B then some (1, some 1)
  else if n = 0x301 then some (1, some 2)
  else if n = 0x302 then some (2, some 2)
  else if 4112 ≤ core ∧ core < 4128 ∧ isOptical n then some (2, some 2)
  else if 4108 ≤ core ∧ core < 4112 ∧ isCacheDie n then some (2, some 2)
  else none

/-- A context register as SRD reads it: RES fields read 0. -/
def Ctx.readState (c : Ctx) (n : Nat) : Word :=
  match n with
  | 0 => c.status &&& 0xFB87
  | 1 => c.cause &&& 0xFFFFF
  | 2 => c.faddr
  | 3 => c.xpc
  | 4 => c.fpflags &&& 0x3F
  | 5 => c.dext
  | 6 => c.taskix
  | 7 => c.launchix
  | 8 => c.hprog &&& 0xFFFFFFFFFF
  | 9 => c.mrgst &&& 0x80000000000001FF
  | _ => c.ctlw

/-- STATUS as SWR writes it at a level (R270): XPL and STEP only from level 1, an XPL above the writer's level and an RM of 5 to 7
left as they are. -/
def statusWritten (old v : Word) (level : Nat) : Word :=
  let x := setBits old 8 7 (bitsOf v 8 7)
  let x := if bitsOf v 2 0 < 5 then setBits x 2 0 (bitsOf v 2 0) else x
  if level = 0 then x
  else
    let x := setBits x 9 9 (bitsOf v 9 9)
    if bitsOf v 15 14 ≤ level then setBits x 15 14 (bitsOf v 15 14) else x

/-- A context register as SWR writes it. -/
def Ctx.writeState (c : Ctx) (n : Nat) (v : Word) : Ctx :=
  match n with
  | 0 => { c with status := statusWritten c.status v c.level }
  | 1 => { c with cause := v &&& 0xFFFFF }
  | 2 => { c with faddr := v }
  | 3 => { c with xpc := v }
  | 4 => { c with fpflags := v &&& 0x3F }
  | 5 => { c with dext := v }
  | 6 => { c with taskix := v }
  | 7 => { c with launchix := v }
  | 8 => { c with hprog := v &&& 0xFFFFFFFFFF }
  | 9 => { c with mrgst := v &&& 0x80000000000001FF }
  | _ => { c with ctlw := v }

/-- COORD (R272, 25_package.md R481). -/
def State.coord (s : State) : Word :=
  if isService s.cur.1 then wordOf (2 ^ 28 + s.pkg.toNat * 2 ^ 12 + (s.cur.1 - 4096))
  else wordOf (s.myPart.getD 0 * 2 ^ 24 + s.cur.2 * 2 ^ 20 + s.pkg.toNat * 2 ^ 12 + s.cur.1)

/-- A partition register (R274). -/
def PartRegs.read (r : PartRegs) (n : Nat) : Word :=
  match n with
  | 0x200 => r.plow
  | 0x201 => r.phigh
  | 0x202 => r.pshift
  | 0x203 => r.tmove
  | 0x204 => r.hopcost
  | 0x205 => r.pullk
  | 0x206 => r.ageus
  | 0x207 => r.lstride
  | 0x208 => r.mmigt
  | 0x209 => r.xvec
  | 0x20A => r.rdir
  | _ => r.atlas

/-- A partition register as SWR writes it (R274). -/
def PartRegs.write (r : PartRegs) (n : Nat) (v : Word) : PartRegs :=
  match n with
  | 0x200 => { r with plow := v &&& 0xFFFF }
  | 0x201 => { r with phigh := v &&& 0xFFFF }
  | 0x202 => { r with pshift := v &&& 0xF }
  | 0x203 => { r with tmove := v &&& 0xFFFF }
  | 0x204 => { r with hopcost := v &&& 0xFF }
  | 0x205 => { r with pullk := v &&& 0xFF }
  | 0x206 => if v &&& 0xFFFF = 0 then r else { r with ageus := v &&& 0xFFFF }
  | 0x207 => { r with lstride := v &&& 0xFFFF }
  | 0x208 => { r with mmigt := v &&& 0xFFFFFFFF }
  | 0x209 => { r with xvec := v }
  | 0x20A => { r with rdir := v }
  | _ => { r with atlas := v }

/-- A register as SRD reads it on the issuing core. The core, tile and partition registers of a service core other than COORD read 0
(25_package.md R481). -/
def State.readState (s : State) (n : Nat) : Word :=
  let k := s.mine
  let t := s.tile (coreTile s.cur.1)
  if n ≤ 0xA then s.me.readState n
  else if n = 0x300 then s.gtc
  else if n = 0x301 then s.heatfade
  else if n = 0x302 then s.fwvec
  else if n = 0x100 then s.coord
  else if isOptical n then s.readOptical s.cur.1 n
  else if isCacheDie n then s.readCacheDie s.cur.1 n
  else if isService s.cur.1 then 0
  else match n with
    | 0x101 => k.lsplit.setWidth 64
    | 0x102 => k.hres.setWidth 64
    | 0x103 => k.saveb
    | 0x180 => if t.vgroup then 1 else 0
    | 0x181 => t.raw.setWidth 48 ++ t.p
    | _ => (s.partRegs s.myPart).read n

/-! ### LSPLIT and VGROUP (R271, R272) -/

/-- Whether a patch of a core is busy (08_matrix_instr.md R214). -/
def State.anyPatchBusy (s : State) (core : Nat) : Bool :=
  (s.core core).engine.accepted.any (fun c => c.patchNamed.isSome)

/-- The units that a change of CW gives another role. -/
def movedUnits (old new : Nat) : List Nat :=
  (List.range 7).filter (fun u => decide (7 - old ≤ u) != decide (7 - new ≤ u))

/-- CW written: every unit that changes role reads 0, with tags full at version 0 and stamp none, and the banks of a unit that goes
to the cache lose their owner (R271, 12_execution.md R306). The lines of the cache portion are invalidated with it. -/
def State.splitSram (s : State) (core : Nat) (cw : BitVec 3) : State :=
  let units := movedUnits (s.core core).lsplit.toNat cw.toNat
  let s := units.foldl (fun (s : State) u => s.scrub (sramKey core (u * 0x8000)) 0x8000) s
  let k := s.core core
  s.setCore core { k with lsplit := cw, lines := [], banks := k.banks.filter (fun e => !units.contains (e.1 / 4)) }

/-- LSPLIT_WRITE: the write held back while a patch is busy. -/
def execLsplitWrite (core : Nat) (cw : BitVec 3) (s : State) :
    Host.Outcome State Fault Refusal :=
  .next (
  if s.anyPatchBusy core then s else s.splitSram core cw)

/-- VGROUP.EN written; a tile whose bit clears has no victim pool any more. -/
def State.writeVgroup (s : State) (tile : Nat) (en : Bool) : State :=
  let s := if en then s else s.dropPool tile (fun _ => true)
  s.setTile tile { s.tile tile with vgroup := en }

/-- VGROUP_WRITE (R272). -/
def execVgroupWrite (tile : Nat) (en : Bool) (s : State) :
    Host.Outcome State Fault Refusal :=
  .next (
  s.writeVgroup tile en)

/-! ### SRD and SWR -/

/-- A register of the issuing core, its partition or the package as SWR writes it. Those of a service core ignore the write. -/
def State.writeState (s : State) (n : Nat) (v : Word) : State :=
  let k := s.mine
  if n ≤ 0xA then s.setMe (s.me.writeState n v)
  else if n = 0x301 then { s with heatfade := v }
  else if n = 0x302 then { s with fwvec := v }
  else if isOptical n then s.writeOptical s.cur.1 n v
  else if isCacheDie n then s.writeCacheDie s.cur.1 n v
  else if isService s.cur.1 then s
  else match n with
    | 0x101 => if k.lsplit = v.setWidth 3 then s else s.splitSram s.cur.1 (v.setWidth 3)
    | 0x102 => if bitsOf v 3 0 < 10 then s.setMine { k with hres := v.setWidth 4 } else s
    | 0x103 => s.setMine { k with saveb := v }
    | 0x180 => s.writeVgroup (coreTile s.cur.1) (bitAt v 0)
    | _ => match s.myPart with
      | none => s
      | some p => match s.part p with
        | none => s
        | some r => s.setPart p { r with regs := r.regs.write n v }

/-- SRD (R266). -/
def execSrd (g : BitVec 5) (n : BitVec 12) (s : State) :
    Host.Outcome State Fault Refusal :=
  concludeAs (Instr.srd g n).encoding s (do
    match regLevels s.cur.1 n.toNat with
    | none => illegal
    | some (level, _) =>
      s.needLevel level
      s.retire 4 [] [(g, s.readState n.toNat)])

/-- SWR (R266, R268). -/
def execSwr (g : BitVec 5) (l : Bool) (n : BitVec 12) (s : State) :
    Host.Outcome State Fault Refusal :=
  concludeAs (Instr.swr g l n).encoding s (do
    match regLevels s.cur.1 n.toNat with
    | none => illegal
    | some (_, none) => trapWith .priv 0
    | some (_, some level) =>
      s.needLevel level
      let v ← s.readReg g
      if n = 0x101 ∧ ¬ isService s.cur.1 ∧ s.mine.lsplit ≠ v.setWidth 3 ∧ s.anyPatchBusy s.cur.1 then stall .retry
      let t ← s.retire 4 (used l g) []
      pure (t.writeState n.toNat v))

/-! ### Traps (R275 to R278) -/

/-- The address of the instruction that follows. -/
def State.following (s : State) : Word := s.me.pc + 4

/-- TRAP n: codes from 2,048 need level 1 (R278). -/
def execTrap (n : BitVec 12) (s : State) :
    Host.Outcome State Fault Refusal :=
  concludeAs (Instr.trap n).encoding s (do
    if 2048 ≤ n.toNat then s.needLevel 1
    .error (.trap { cause := .trap, code := n.toNat, xpc := some s.following }))

/-- BRK n (R278). -/
def execBrk (n : BitVec 12) (s : State) :
    Host.Outcome State Fault Refusal :=
  concludeAs (Instr.brk n).encoding s
    (.error (.trap { cause := .brk, code := n.toNat, xpc := some s.following }))

/-- The return of XRET (R277): the shadow registers switch with XH, an odd XPC traps at the new level, and a stop that waited for the
context to leave level 2 is applied (22_faults.md R480). -/
def State.xret (s : State) : Run :=
  let c := s.me
  if ¬ c.inTrap then illegal
  else if bitAt c.xpc 0 then .error (.trapIn (s.setMe { c.leave with pc := c.pc }) { cause := .address, faddr := c.xpc })
  else .ok ((s.setMe c.leave).applyPending s.cur.1 s.cur.2)

/-- XRET (R277). -/
def execXret (s : State) :
    Host.Outcome State Fault Refusal :=
  concludeAs (Instr.xret).encoding s (do
    s.needLevel 1
    s.xret)

/-- NOP (R280). -/
def execNop (s : State) :
    Host.Outcome State Fault Refusal :=
  concludeAs (Instr.nop).encoding s
    (s.retire 4 [] [])

/-- SYNCI: waits until every counter has drained, and discards the core's fetched instructions (R280). -/
def execSynci (s : State) :
    Host.Outcome State Fault Refusal :=
  concludeAs (Instr.synci).encoding s (do
    if !s.drainedNow allCounters then stall .retry
    let t ← s.retire 4 [] []
    pure (t.setMine { t.mine with icache := [] }))

/-! ### The capability traps (25_package.md R470) -/

/-- The hash of a capability: partition, rights, generation and target under the key of that generation. -/
def capabilityHash (key : List Byte) (part rights gen target : Nat) : Nat :=
  ofBytes (kmac256 key (bytesOf part 2 ++ bytesOf rights 1 ++ bytesOf gen 1 ++ bytesOf target 2) 4 (ascii "EXNUM-CAP"))

/-- A service of the firmware behind TRAP n, entered at FWVEC and left by XRET as one step: the trap as R276 takes it, then the
service, then the return (log 22). Without a vector, or within a handler, it is the double trap of R276. -/
def State.service (s : State) (n : Nat) (f : State → State) : Run := do
  s.needLevel 1
  let t : TrapInfo := { cause := .trap, code := n, xpc := some s.following }
  if s.me.inTrap ∨ s.vector 2 = 0 then .error (.trap t)
  else
    let c := s.me
    let back := { c.enter t (s.vector 2) with pc := 0 }.leave
    let u := f (s.setMe back)
    if s.poolFits u.me then .error (.waitIn u .none) else stall .register

/-- A capability: partition, rights, generation and hash (08_matrix_instr.md R227). -/
def capabilityWord (part rights gen hash : Nat) : Word :=
  wordOf (part * 2 ^ 48 + rights * 2 ^ 40 + gen * 2 ^ 32 + hash)

/-- The capability of a partition for a target and rights, in the layout of MCMD's operand (08_matrix_instr.md R227). -/
def Partition.capability (p : Partition) (part rights target : Nat) : Word :=
  capabilityWord part rights p.generation.toNat (capabilityHash p.key part rights p.generation.toNat target)

/-- The service of CAP_MINT: a0 and a1 are g4 and g5. What the firmware finds in a dead a0 is open. -/
def State.mint (s : State) : State :=
  let c := s.me
  let a0 := if c.live.getLsbD 4 then c.at_ 4 else s.freeWord 1
  let target := bitsOf a0 11 0
  let rights := bitsOf a0 19 12
  let answer (c : Ctx) (v : Word) : State := s.setMe (c.setReg 5 v)
  match s.myPart.bind s.part, s.myPart with
  | some p, some n =>
    if s.partOf target ≠ some n then answer c 1
    else if 32 ≤ rights then answer c 2
    else answer (c.setReg 4 (p.capability n rights target)) 0
  | _, _ => answer c 1

/-- CAP_MINT (R470). -/
def execCapMint (s : State) :
    Host.Outcome State Fault Refusal :=
  concludeAs (Instr.capMint).encoding s
    (s.service 0x800 State.mint)

/-- n random bytes of the root of trust. -/
def State.randomBytes (s : State) (slot n : Nat) : List Byte := (List.range n).map (Config.random s.choice slot)

/-- A new key generation (R470). -/
def State.newGeneration (s : State) : State :=
  match s.myPart.bind s.part, s.myPart with
  | some p, some n =>
    s.setPart n { p with generation := p.generation + 1, oldKey := p.key, key := s.randomBytes 0 32 }
  | _, _ => s

/-- CAP_NEW_GENERATION (R470). -/
def execCapNewGeneration (s : State) :
    Host.Outcome State Fault Refusal :=
  concludeAs (Instr.capNewGeneration).encoding s
    (s.service 0x801 State.newGeneration)

/-! ### What cannot be executed (03_encoding.md R75 to R77) -/

/-- ILLEGAL_ENCODING: the encoding traps with ILLEGAL, FADDR holding it. -/
def execIllegalEncoding (encoding : BitVec 32) (wide : Bool) (s : State) : Host.Outcome State Fault Refusal :=
  conclude s (trapWith .illegal (if wide then encoding.setWidth 64 else (encoding.setWidth 16).setWidth 64))

/-- FETCH_FAULT: PAGE with the reason of the failed fetch; an address outside the windows of memory, or an odd pc, gives ADDRESS. -/
def execFetchFault (address : Word) (reason : Nat) (s : State) : Host.Outcome State Fault Refusal :=
  conclude s (if reason = 16 then trapWith .address address else pageTrap address reason)

end Sys2Proof.Machine
end

