-- ==== Sys2Proof/Machine/Task.lean ====
section
/-! DEFINITION. SPAWN, LAUNCH, YIELD and PRIO (06_task_instr.md R153 to R158). -/

namespace Sys2Proof.Machine

/-- The routine directory entry of a routine, read as `.d` loads (R151, R153): its entry address. FADDR of a bad entry is
the address of the entry, and without a directory the image pointer. -/
def State.routineEntry (s : State) (routine : Nat) (image : Word) : Except Stop Word := do
  let base := (s.partRegs s.myPart).rdir
  if base = 0 then trapWith .address image
  let q := wordOf (ptrAddr base + 16 * routine)
  let w0 ← s.fetchData q 8
  let w1 ← s.fetchData (q + 8) 8
  match directoryEntry (wordOf w0) (wordOf w1) with
  | some e => pure e
  | none => trapWith .address q

/-- A task image read and checked as SPAWN reads one (R147, R153), with its entry address. -/
def State.taskImage (s : State) (p : Word) : Except Stop (List Word × Word) := do
  spaces p [0, 1]
  if ptrAddr p % 8 ≠ 0 then trapWith .address p
  let img ← s.fetchImage p 0 16
  if !imageOk s (s.myPart.getD 0) img then trapWith .address p
  let entry ← s.routineEntry (bitsOf (img.getD 0 0) 63 52) p
  pure (img, entry)

/-- A task of the issuing context (R154), its first argument replaced when the rs2 field is not g0. -/
def State.newTask (s : State) (img : List Word) (entry : Word) (arg0 : Option Word) : Task :=
  let t := taskOf s (s.myPart.getD 0) (s.crewOf s.cur.1 s.cur.2) s.me.prio img entry s.cur.1
  { t with issuer := some s.cur
           args := match arg0 with
             | none => t.args
             | some v => t.args.set 0 v }

/-- SPAWN: the image and the entry are read and checked; the task enters the relief at the tile of the issuing core once
every counter has drained (R153). -/
def execSpawn (a : BitVec 5) (l : Bool) (b : BitVec 5) (m : Bool) (s : State) :
    Host.Outcome State Fault Refusal :=
  concludeAs (Instr.spawn a l b m).encoding s (do
    let p ← s.readReg a
    let y ← s.readReg b
    let (img, entry) ← s.taskImage p
    if s.classFull 1 then stall .retry
    let t := s.newTask img entry (if b = 0 then none else some y)
    let tile := coreTile s.cur.1
    let drained := s.drainedNow allCounters
    let id := s.nextId
    let r ← s.retire 4 (used l a ++ used m b) []
    let r := { r with nextId := id + 1 }.beginOp s.cur.1 s.cur.2 1 none
    pure (if drained then r.enterRelief tile t else r.hold id allCounters (.task tile t)))

/-- The reserved fields of a launch packet are 0 (R148). -/
def packetOk (w : List Word) : Bool :=
  decide (bitsOf (w.getD 0 0) 44 42 = 0) && decide (bitsOf (w.getD 4 0) 63 8 = 0)
    && (List.range 11).all (fun i => decide (w.getD (5 + i) 0 = 0))

/-- LAUNCH: the packet goes to the launch distributor once every counter has drained (R155). -/
def execLaunch (d : BitVec 5) (a : BitVec 5) (l : Bool) (s : State) :
    Host.Outcome State Fault Refusal :=
  concludeAs (Instr.launch d a l).encoding s (do
    let p ← s.readReg a
    spaces p [0, 1]
    if ptrAddr p % 8 ≠ 0 then trapWith .address p
    let img ← s.fetchImage p 0 16
    if !packetOk img then trapWith .address p
    if s.myPart ≠ some (bitsOf (img.getD 0 0) 51 48) then trapWith .priv 0
    let entry ← s.routineEntry (bitsOf (img.getD 0 0) 63 52) p
    if s.classFull 1 then stall .retry
    let drained := s.drainedNow allCounters
    let id := s.nextId
    let (op, s1) := s.takeNumber
    let req : LaunchRequest :=
      { packet := Vector.ofFn (fun i : Fin 16 => img.getD i.val 0), part := bitsOf (img.getD 0 0) 51 48, entry := entry
        issuer := some (s.cur.1, s.cur.2, op) }
    let r ← s1.retire 4 (used l a) [(d, op.setWidth 64)]
    let r := { r with nextId := id + 1 }.beginOp s.cur.1 s.cur.2 1 none
    pure (if drained then { r with launchQueue := r.launchQueue ++ [req] } else r.hold id allCounters (.launch req)))

/-- YIELD: skipped at the next issue slot in which another context is ready (R157). -/
def yielding (s : State) (length : Nat) : Host.Outcome State Fault Refusal :=
  conclude s (do
    let r ← s.retire length [] []
    pure (r.setMe { r.me with wait := .yielded }))

/-- YIELD (R157). -/
def execYield (s : State) : Host.Outcome State Fault Refusal := yielding s 4

/-- PRIO: rd := the old priority; the new one governs what the context spawns from then on (R158). -/
def execPrio (d : BitVec 5) (a : BitVec 5) (l : Bool) (s : State) :
    Host.Outcome State Fault Refusal :=
  conclude s (do
    let x ← s.readReg a
    let old : Word := s.me.prio.setWidth 64
    let r ← s.retire 4 (used l a) [(d, old)]
    pure (r.setMe { r.me with prio := x.setWidth 3 }))

end Sys2Proof.Machine
end

