-- ==== Sys2Proof/Machine/Message.lean ====
section
/-! DEFINITION. SENDM, RECV, PEEK and REPLY (06_task_instr.md R159 to R165). -/

namespace Sys2Proof.Machine

/-- The message an image holds, with the fields that the sending hardware writes (R149). -/
def State.messageOf (s : State) (img : List Word) (dctx : Nat) : Message :=
  let d (i : Nat) : Word := img.getD i 0
  { header := headerOf s.pkg.toNat s.cur.1 s.cur.2 dctx (bitsOf (d 0) 31 16) 0 (bitsOf (d 0) 4 0)
    arg0 := d 1, arg1 := d 2, arg2 := d 3, arg3 := d 4, arg4 := d 5, arg5 := d 6, arg6 := d 7 }

/-- Where a message to a destination pointer goes, and the acknowledgement counter it counts in (R40, R162). -/
def State.destinationOf (s : State) (p : Word) : Except Stop (Dest × Nat) := do
  spaces p [1]
  if ptrPkg p = 0xFE then
    if s.me.level = 0 then trapWith .priv 0
    match hostQueueOf p with
    | some q => pure (.hostQueue (s.myPart.getD 0) q, 3)
    | none => trapWith .address p
  else match s.coreNamed p with
    | none => trapWith .address p
    | some (.inr pkg) => pure (.remote pkg (ptrCore p), 3)
    | some (.inl core) =>
      if !s.mayName core then trapWith .address p
      else if s.dieLost (coreDie core) then pageTrap p 4
      else pure (.core core, s.coreCounter core)

/-- The class check of R159: 8 to 31 from any level, 2, 3 and 5 from the supervisor; the others from no program. -/
def State.mayClass (s : State) (cls : Nat) (p : Word) : Except Stop Unit :=
  if 8 ≤ cls then .ok ()
  else if cls = 2 ∨ cls = 3 ∨ cls = 5 then (if s.me.level = 0 then trapWith .priv 0 else .ok ())
  else trapWith .address p

/-- The retry buffer of a core's network interface: every message of the core not yet accepted (R161). -/
def State.retryFull (s : State) : Bool :=
  decide (32 ≤ (s.flights.filter (fun f => f.source == s.cur.1 && !f.byUnit)).length)

/-- The message image at a pointer: 64 bytes, a multiple of 64, read as a load (R162). -/
def State.messageImage (s : State) (p : Word) : Except Stop (List Word) := do
  spaces p [0, 1, 3]
  if ptrAddr p % 64 ≠ 0 then trapWith .address p
  s.fetchImage p 0 8

/-- A message of the issuing context on its way, as a release over DEXT (R162, 05_memory_instr.md R128). -/
def State.sendFrom (s : State) (dest : Dest) (counter : Nat) (m : Message) (faddr : Word) (dies : List Reg) : Run := do
  if s.classFull 1 ∨ s.retryFull ∨ (counter = 3 ∧ s.replayFull) then stall .retry
  let mask ← s.extent s.me.dext faddr
  let drained := s.drainedNow mask
  let f : Flight :=
    { id := s.nextId, dest := dest, msg := m, source := s.cur.1, part := s.myPart.getD 0, gtc := s.gtc
      issuer := some (s.cur.1, s.cur.2, counter) }
  let r ← s.retire 4 dies []
  let r := { r with nextId := r.nextId + 1 }.beginOp s.cur.1 s.cur.2 1 (some counter)
  pure (if drained then r.sendMessage f else r.hold f.id mask (.message f))

/-- SENDM (R162). -/
def execSendm (a : BitVec 5) (l : Bool) (b : BitVec 5) (m : Bool) (s : State) :
    Host.Outcome State Fault Refusal :=
  concludeAs (Instr.sendm a l b m).encoding s (do
    let p ← s.readReg a
    let y ← s.readReg b
    let img ← s.messageImage p
    let (dest, counter) ← s.destinationOf y
    s.mayClass (bitsOf (img.getD 0 0) 4 0) p
    s.sendFrom dest counter (s.messageOf img (bitsOf (img.getD 0 0) 39 36)) y (used l a ++ used m b))

/-- The pointer by which REPLY names the source of a message: a CORE pointer to its inbox, or to host queue 0 (R40, R165). -/
def replyTarget (pkg core : Nat) : Word := wordOf (2 ^ 52 + pkg * 2 ^ 44 + (if pkg = 0xFE then 0 else core % 4096 * 2 ^ 32))

/-- REPLY: to the source of the message that started the handler or that the context took last (R165). -/
def execReply (a : BitVec 5) (l : Bool) (s : State) :
    Host.Outcome State Fault Refusal :=
  concludeAs (Instr.reply a l).encoding s (do
    let p ← s.readReg a
    match s.me.replyTo with
    | none => trapWith .address p
    | some (pkg, core, ctx) =>
      let img ← s.messageImage p
      let (dest, counter) ← s.destinationOf (replyTarget pkg core)
      s.mayClass (bitsOf (img.getD 0 0) 4 0) p
      s.sendFrom dest counter (s.messageOf img (if pkg = 0xFE then 0 else ctx)) p (used l a))

/-! ### Taking messages (R159, R160, R163, R164) -/

/-- The handler address of a class in a core's routine table, where its entry is valid (R151). -/
def State.handlerOf (s : State) (core cls : Nat) : Option Word :=
  let e := s.dword (sramKey core (0x3D000 + 8 * cls))
  if cls < 8 ∨ ¬ bitAt e 0 then none else some (e &&& ~~~1#64)

/-- Whether a message in the inbox of a core waits for a handler rather than for a RECV (R160). -/
def State.startsHandler (s : State) (core : Nat) (m : Message) : Bool :=
  m.isUser && decide ((s.core core).hres ≠ 0) && (s.handlerOf core m.cls).isSome

/-- Whether a message in the inbox is addressed to a context's RECV (R159, R160). -/
def State.forRecv (s : State) (core ctx : Nat) (m : Message) : Bool :=
  if m.cls = 0 then m.dctx == ctx
  else ctx == 0 && !s.startsHandler core m

/-- The message RECV takes: the oldest addressed to the context. -/
def State.nextMessage (s : State) (core ctx : Nat) : Option Message :=
  (s.core core).inbox.find? (s.forRecv core ctx)

/-- The inbox without the first message that answers a test. -/
def dropFirst (f : Message → Bool) : List Message → List Message
  | [] => []
  | m :: rest => if f m then rest else m :: dropFirst f rest

/-- The source of a message as a reply target. -/
def Message.source (m : Message) : Nat × Nat × Nat :=
  (bitsOf m.header 63 56, bitsOf m.header 55 44, bitsOf m.header 43 40)

def Message.payload (m : Message) : List Word := [m.arg0, m.arg1, m.arg2, m.arg3, m.arg4, m.arg5, m.arg6]

/-- The places of seven plain stores at a pointer. -/
def State.storePlaces (s : State) (p : Word) : Nat → Nat → Except Stop (List (Word × Place))
  | _, 0 => .ok []
  | i, n + 1 => do
    let q ← advanceOr p (8 * i)
    let pl ← s.placeOf q 8 Need.store false
    let rest ← s.storePlaces p (i + 1) n
    pure ((q, pl) :: rest)

/-- One plain store of a doubleword of an instruction that has retired. -/
def State.storeNow (s : State) (q : Word) (pl : Place) (v : Word) : State :=
  let r := s.requestOf q pl (.store 8) v 1 (some pl.counter) .none
  ((if pl.remote.isSome then s else s.note pl).beginRequest r).sendCounted r pl.lost

/-- RECV: waits for a message, takes the oldest, and stores its payload where rs1 points; it acquires (R163, 16_ordering.md R358). -/
def receive (s : State) (length : Nat) (d a : Reg) (l : Bool) : Run := do
  let p ← s.readReg a
  match s.nextMessage s.cur.1 s.cur.2 with
  | none => stall .retry
  | some m =>
    let places ← if a = 0 then pure [] else s.storePlaces p 0 7
    if places.any (fun e => s.conflicts e.2.key 8) ∨ (a ≠ 0 ∧ 57 ≤ s.me.outstanding.get 1) then stall .retry
    let t ← s.retire length (used l a) [(d, m.header)]
    let k := t.mine
    let t := t.setMine { k with inbox := dropFirst (s.forRecv s.cur.1 s.cur.2) k.inbox }
    let t := (t.setMe { t.me with replyTo := some m.source }).acquire s.cur.1
    pure ((places.zip m.payload).foldl (fun t e => t.storeNow e.1.1 e.1.2 e.2) t)

/-- RECV (R163). -/
def execRecv (d : BitVec 5) (a : BitVec 5) (l : Bool) (s : State) :
    Host.Outcome State Fault Refusal :=
  concludeAs (Instr.recv d a l).encoding s (receive s 4 d a l)

/-- PEEK: the header of the message RECV would take, or 0 (R164). -/
def execPeek (d : BitVec 5) (s : State) :
    Host.Outcome State Fault Refusal :=
  conclude s (
    s.retire 4 [] [(d, match s.nextMessage s.cur.1 s.cur.2 with
      | some m => m.header
      | none => 0)])

end Sys2Proof.Machine
end

