-- ==== Sys2Proof/Machine/Context.lean ====
section
/-! DEFINITION. HSTART, HHALT and HWAIT (06_task_instr.md R166 to R168). -/

namespace Sys2Proof.Machine

/-- Only the control context, at level 1 or 2 (R166, R168). -/
def State.controlOnly (s : State) : Except Stop Unit := if s.cur.2 ≠ 0 then illegal else .ok ()

/-- HSTART: the lowest free helper that is not reserved starts at rs1 with a0 = rs2; rd := its number, or 0 (R166). A
service core has no helper (25_package.md R481). -/
def execHstart (d : BitVec 5) (a : BitVec 5) (l : Bool) (b : BitVec 5) (m : Bool) (s : State) :
    Host.Outcome State Fault Refusal :=
  concludeAs (Instr.hstart d a l b m).encoding s (do
    s.needLevel 1
    let x ← s.readReg a
    let y ← s.readReg b
    s.controlOnly
    let free := if isService s.cur.1 ∨ bitAt x 0 then none else s.mine.freeHelpers.head?
    let r ← s.retire 4 (used l a ++ used m b) [(d, wordOf (free.getD 0))]
    match free with
    | none => pure r
    | some h =>
      let t := r.setCtx s.cur.1 h (Ctx.start x 0 .hstart (startArgs [y]))
      -- a context started during a gang stop issues at its release (10_system_instr.md R286)
      pure (if t.gangStopping s.cur.1 then t.layAndSave s.cur.1 h .gangStopped false false else t))

/-- Whether every outstanding-operation counter is 0 and every acknowledgement counter is drained (R167). -/
def State.quiet (s : State) : Bool :=
  decide (s.me.outstanding = {}) && decide (s.me.acks = {}) && !s.held.any (fun h => h.core == s.cur.1 && h.ctx == s.cur.2)

/-- The error code a halt gives: 0xFFFF for a code of 0 with a lost mark set (R167). -/
def haltCode (c : Ctx) (e : Nat) : Nat := if c.lost ≠ 0 ∧ e = 0 then 0xFFFF else e

/-- HHALT without retaining (R167): its first step unbinds the surveyor streams (18_sparse.md R388); it waits for its
operations and counters; the allotment powers down (12_execution.md R307). -/
def halt (s : State) (a : Reg) : Run := do
  let x ← s.readReg a
  if s.cur.2 = 0 then illegal
  let s := s.unbindStreams s.cur.1 s.cur.2
  if !s.quiet then .error (.waitIn s .retry)
  else pure ((s.powerDown s.cur.1 s.cur.2).freeHelper s.cur.1 s.cur.2 (haltCode s.me (bitsOf x 15 0)))

/-- HHALT (R167). -/
def execHhalt (a : BitVec 5) (l : Bool) (s : State) :
    Host.Outcome State Fault Refusal :=
  concludeAs (Instr.hhalt a l).encoding s (halt s a)

/-- HHALT.retain: the successor's image is checked before any step of the halt; it enters at the head of its level on
this tile, pinned to this core, and keeps the banks (R167, 12_execution.md R304, R307). Until it starts, its banks stand
under owner 16, which is no context. -/
def execHhaltRetain (a : BitVec 5) (l : Bool) (b : BitVec 5) (m : Bool) (s : State) :
    Host.Outcome State Fault Refusal :=
  concludeAs (Instr.hhaltRetain a l b m).encoding s (do
    let p ← s.readReg a
    let y ← s.readReg b
    if s.cur.2 = 0 then illegal
    let (img, entry) ← s.taskImage p
    let t := s.newTask img entry none
    let s := s.unbindStreams s.cur.1 s.cur.2
    if !s.quiet then .error (.waitIn s .retry)
    else
      let k := s.mine
      let banks := k.allotment s.cur.2
      let t := { t with issuer := none, pinned := some (s.cur.1, banks) }
      let code := haltCode s.me (bitsOf y 15 0)
      let s := s.setMine { k with banks := banks.foldl (fun b n => Table.put b n 16) k.banks }
      let s := s.freeHelper s.cur.1 s.cur.2 code
      let tile := coreTile s.cur.1
      let u := s.tile tile
      let e : QEntry := { kind := .task t, level := t.prio.toNat, resident := true, joined := s.gtc }
      pure (s.setTile tile { u with queue := queueHead u.queue e }))

/-- HWAIT: waits until a helper of the mask is not live, or the inbox holds a message for the control context (R168). -/
def execHwait (d : BitVec 5) (a : BitVec 5) (l : Bool) (s : State) :
    Host.Outcome State Fault Refusal :=
  concludeAs (Instr.hwait d a l).encoding s (do
    s.needLevel 1
    let x ← s.readReg a
    s.controlOnly
    let k := s.mine
    match (List.range 11).find? (fun h => decide (1 ≤ h) && bitAt x h && !(k.ctx h).isLive) with
    | some h => s.retire 4 (used l a) [(d, wordOf h)]
    | none =>
      if (s.nextMessage s.cur.1 0).isSome then s.retire 4 (used l a) [(d, 0)] else stall .retry)

end Sys2Proof.Machine
end

