-- ==== Sys2Proof/Machine/Crew.lean ====
section
/-! DEFINITION. CREW, CREWX and BAR (06_task_instr.md R169 to R171), and the queue of a crew arbiter (12_execution.md
R309). -/

namespace Sys2Proof.Machine

/-! ### The arbiter's queue (12_execution.md R309, R301) -/

/-- The newest request of a level leaves the arbiter's queue. -/
def takeNewest (q : List CrewRequest) (level : Nat) : Option (CrewRequest × List CrewRequest) :=
  match q.reverse.find? (fun c => c.level == level) with
  | none => none
  | some c => some (c, (q.reverse.erase c).reverse)

/-- An arrival at the 32 places of an arbiter; further requests go to the spill area as R301 places them, and none is taken while that
has no room. -/
def SuperGroup.arrival (g : SuperGroup) (c : CrewRequest) (room : Bool) : Option SuperGroup :=
  if g.spilled.any (fun x => x.level == c.level) then (if room then some { g with spilled := g.spilled ++ [c] } else none)
  else if g.requests.length < 32 then some { g with requests := g.requests ++ [c] }
  else if !room then none
  else match (List.range (min c.level 8)).findSome? (takeNewest g.requests) with
    | some (old, rest) => some { g with requests := rest ++ [c], spilled := old :: g.spilled }
    | none => some { g with spilled := g.spilled ++ [c] }

/-- A request that enters at the head of its level, always resident, as a retained successor does (R301). -/
def SuperGroup.atHead (g : SuperGroup) (c : CrewRequest) : SuperGroup :=
  if g.requests.length < 32 then { g with requests := c :: g.requests }
  else match (List.range 8).findSome? (takeNewest g.requests) with
    | some (old, rest) => { g with requests := c :: rest, spilled := old :: g.spilled }
    | none => { g with requests := c :: g.requests }

/-- A request reaches its arbiter; none while it finds the spill area full. Its class st ends with the acceptance. -/
def State.crewArrive (s : State) (sg : Nat) (c : CrewRequest) : Option State :=
  let g := s.superGroup sg
  let c' := { c with task := { c.task with issuer := none }, joined := s.gtc }
  (g.arrival c' (s.spillRoom c.task.part)).map (fun g =>
    let s := s.setSuperGroup sg g
    match c.task.issuer with
    | some (core, ctx) => s.endOp core ctx 1 none
    | none => s)

/-- CREW: the request goes to the arbiter of the super-group of its explicit anchor, or of the issuing core, once every
counter has drained (R169). -/
def execCrew (a : BitVec 5) (l : Bool) (b : BitVec 5) (m : Bool) (s : State) :
    Host.Outcome State Fault Refusal :=
  concludeAs (Instr.crew a l b m).encoding s (do
    let p ← s.readReg a
    let y ← s.readReg b
    let (img, entry) ← s.taskImage p
    if s.classFull 1 then stall .retry
    let t := s.newTask img entry none
    let req : CrewRequest :=
      { task := t, w := bitsOf y 2 0 + 1, h := bitsOf y 7 4 + 1, level := t.prio.toNat, joined := s.gtc }
    let h := img.getD 0 0
    let sg := if bitAt h 36 then tileSuperGroup (bitsOf h 35 27) else superGroupOf s.cur.1
    let drained := s.drainedNow allCounters
    let id := s.nextId
    let r ← s.retire 4 (used l a ++ used m b) []
    let r := { r with nextId := id + 1 }.beginOp s.cur.1 s.cur.2 1 none
    match if drained then r.crewArrive sg req else none with
    | some t => pure t
    | none => pure (r.hold id allCounters (.crew sg req)))

/-- CREWX: the crew-relative extent of the whole crew (R170). -/
def execCrewx (d : BitVec 5) (s : State) :
    Host.Outcome State Fault Refusal :=
  conclude s (
    match s.crewOf s.cur.1 s.cur.2 with
    | none => trapWith .address 0
    | some c =>
      s.retire 4 [] [(d, wordOf (0xFD * 2 ^ 56 + 0xFD * 2 ^ 48 + (c.rect.w - 1) * 2 ^ 29 + (c.rect.h - 1) * 2 ^ 24))])

/-! ### Barriers (R171) -/

/-- The cores of a rectangle. -/
def Rect.cores (r : Rect) : List Nat :=
  (List.range r.w).flatMap (fun x => (List.range r.h).map (fun y => coreAt (r.x + x) (r.y + y)))

/-- The cores an extent names for a barrier of the issuing context: within its crew, or exactly its core (R171). -/
def State.barrierCores (s : State) (e : Word) : Option (List Nat) :=
  match s.reach e with
  | none => none
  | some r =>
    let cores := r.xs.flatMap (fun x => r.ys.map (fun y => coreAt x y))
    let here := r.plo == s.pkg.toNat && r.phi == s.pkg.toNat
    match s.crewOf s.cur.1 s.cur.2 with
    | some c => if here ∧ cores.all (fun n => c.rect.cores.contains n) then some cores else none
    | none => if here ∧ cores = [s.cur.1] then some cores else none

/-- The epoch, count and n of a core at a barrier. -/
def Barrier.at_ (b : Barrier) (core : Nat) : Nat × Nat × Nat := Table.get b.counts core (0, 0, 0)

/-- Whether every core of a barrier has its arrivals of an epoch. -/
def Barrier.full (b : Barrier) (epoch : Nat) : Bool :=
  b.cores.all (fun core =>
    let (e, c, n) := b.at_ core
    decide (epoch < e) || (decide (e = epoch) && decide (c ≠ 0) && decide (c = n)))

/-- One arrival at a core with n: the epoch it counts in, or none where its n differs from the epoch's. -/
def Barrier.arrive (b : Barrier) (core n : Nat) : Option (Nat × Barrier) :=
  let (e, c, m) := b.at_ core
  if c ≠ 0 ∧ c = m then some (e + 1, { b with counts := Table.put b.counts core (e + 1, 1, n) })
  else if c ≠ 0 ∧ n ≠ m then none
  else some (e, { b with counts := Table.put b.counts core (e, c + 1, n) })

/-- Whether nothing of a barrier is in progress: no arrival waits, and every core stands at the end of one epoch. -/
def Barrier.idle (b : Barrier) : Bool :=
  b.arrivals.isEmpty && (match b.cores with
    | [] => true
    | core :: _ => b.full (b.at_ core).1)

def State.isMine (s : State) (a : Arrival) : Bool := a.core == s.cur.1 && a.ctx == s.cur.2

/-- A context whose arrival is complete goes on: rd := status, and it acquires. -/
def State.leaveBarrier (s : State) (b : Barrier) (a : Arrival) (dies : List Reg) : Run := do
  let r ← (s.acquire s.cur.1).retire a.length dies [(a.rd, a.status)]
  let b' := { b with arrivals := b.arrivals.filter (fun x => !s.isMine x) }
  let rest := r.barriers.filter (fun x => !(x.arrivals.any s.isMine))
  pure { r with barriers := if b'.idle then rest else b' :: rest }

/-- BAR (R171): drains, arrives once, and waits for its epoch. -/
def execBar (d : BitVec 5) (a : BitVec 5) (l : Bool) (n : BitVec 5) (s : State) :
    Host.Outcome State Fault Refusal :=
  conclude s (do
    let e ← s.readReg a
    match s.barriers.find? (fun b => b.arrivals.any s.isMine) with
    | some b =>
      match b.arrivals.find? s.isMine with
      | some x => if b.full x.epoch then s.leaveBarrier b x (used l a) else stall .barrier
      | none => stall .barrier
    | none =>
      match s.barrierCores e with
      | none => trapWith .address e
      | some cores =>
        let mask ← s.extent e e
        let part := s.myPart.getD 0
        let old := s.barriers.find? (fun b => b.extent == e && b.cores == cores && b.part == part)
        match (old.getD { extent := e, cores := cores, part := part }).arrive s.cur.1 n.toNat with
        | none => trapWith .address e
        | some (epoch, b) =>
          if !s.drainedNow mask then stall .retry
          let sg := superGroupOf s.cur.1
          let used8 := s.barriers.filter (fun b => b.cores.any (fun c => superGroupOf c == sg))
          if old = none ∧ 8 ≤ used8.length then stall .retry
          s.mayBegin (used l a) d
          let status := lostStatus s.me.lost mask
          let x : Arrival := { core := s.cur.1, ctx := s.cur.2, epoch := epoch, rd := d, status := status, dies := used l a }
          let b := { b with arrivals := b.arrivals ++ [x] }
          let others := s.barriers.filter (fun y => !(y.extent == e && y.cores == cores && y.part == part))
          let s := (s.setAside (used l a) d).setMe { (s.setAside (used l a) d).me with lost := s.me.lost &&& ~~~mask }
          let s := { s with barriers := others ++ [b] }
          if b.full epoch then s.leaveBarrier b x (used l a) else .error (.waitIn s .barrier))

end Sys2Proof.Machine
end

