-- ==== Sys2Proof/Machine/Channel.lean ====
section
/-! DEFINITION. The channel registers: QBIND, QFREE, QCTL, QSTAT, QHND and QRET (06_task_instr.md R172 to R177). Where a
check has no address of its own, FADDR of its ADDRESS trap is the operand that failed, or 0 (log 17). -/

namespace Sys2Proof.Machine

/-- The binding a channel register of the issuing context has. -/
def State.bound (s : State) (q : BitVec 3) : Option Channel := s.channel s.cur.1 s.cur.2 q.toNat

/-- Whether any context of the core has a neighbour binding of a kind and direction (R173). -/
def Core.neighbourBound (k : Core) (kind : BitVec 3) (dir : BitVec 2) : Bool :=
  k.ctxs.any (fun e => e.2.channels.any (fun h => h.2.kind == kind && h.2.dir == dir))

/-- The binding QBIND makes, or its trap (R172, R173). -/
def State.binding (s : State) (x y : Word) : Except Stop Channel := do
  let kind : BitVec 3 := x.setWidth 3
  let dir : BitVec 2 := BitVec.ofNat 2 (bitsOf x 5 4)
  let h : Channel := { kind := kind, dir := dir, operand := y }
  if kind = 0 then pure h
  else if kind = 1 then
    match Table.look s.mine.streams (y.toNat) with
    | none => trapWith .address y
    | some t =>
      if t.ctx ≠ s.cur.2 ∨ s.me.channels.any (fun e => e.2.stream == some y.toNat) then trapWith .address y
      else pure h
  else if kind = 2 ∨ kind = 3 then
    if s.myPart = none ∨ s.partOf (neighbour s.cur.1 dir.toNat) ≠ s.myPart ∨ s.mine.neighbourBound kind dir then trapWith .address x
    else pure h
  else if kind = 4 then
    let p ← s.fetchData y 8
    let y8 ← advanceOr y 8
    let n ← s.fetchData y8 8
    if p % 8 ≠ 0 then trapWith .address y
    pure { h with pointer := wordOf p, count := n % 2 ^ 40 }
  else trapWith .address x

/-- QBIND (R172). -/
def execQbind (a : BitVec 5) (l : Bool) (b : BitVec 5) (m : Bool) (q : BitVec 3) (s : State) :
    Host.Outcome State Fault Refusal :=
  concludeAs (Instr.qbind a l b m q).encoding s (do
    let x ← s.readReg a
    let y ← s.readReg b
    if (s.bound q).isSome then trapWith .address x
    let h ← s.binding x y
    let r ← s.retire 4 (used l a ++ used m b) []
    pure (r.setChannel s.cur.1 s.cur.2 q.toNat h))

/-- Whether a CPYQ of the issuing context into a channel register is still outstanding (R176). -/
def State.filling (s : State) (q : Nat) : Bool :=
  let hit (c : Copy) : Bool := c.kind == .cpyq && c.core == s.cur.1 && c.ctx == s.cur.2 && c.channel == q
  (s.tile (coreTile s.cur.1)).copies.any hit
    || s.held.any (fun h => match h.what with
      | .copy _ c => hit c
      | _ => false)

/-- QFREE: unbinds the register; the entries of a read binding are discarded (R176). -/
def execQfree (q : BitVec 3) (s : State) :
    Host.Outcome State Fault Refusal :=
  concludeAs (Instr.qfree q).encoding s (
    match s.bound q with
    | none => s.retire 4 [] []
    | some h => do
      if h.kind = 0 ∧ s.filling q.toNat then stall .retry
      let r ← s.retire 4 [] []
      let r := if h.readable then r.setEntries s.cur.1 s.cur.2 q.toNat h [] else r
      pure (r.dropChannel s.cur.1 s.cur.2 q.toNat))

/-- A control value dequeued: the light handler is entered in place of the instruction, which does not retire (R177). -/
def State.lightEntry (s : State) (data : Word) : Run :=
  let c := s.me
  if c.lightAddr = 0 ∨ c.inLight then illegal
  else .error (.waitIn (s.setMe { c with ctlw := data, lightKept := c.pc, inLight := true, lightNested := c.inTrap, pc := c.lightAddr }) .none)

/-- The binding of a channel that an instruction pops from or pushes to: ILLEGAL unbound (01_assembly.md R26), ADDRESS in
the wrong direction (R174). -/
def State.openChannel (s : State) (q : BitVec 3) (reads : Bool) : Except Stop Channel :=
  match s.bound q with
  | none => illegal
  | some h => if h.readable = reads then .ok h else trapWith .address 0

/-- The doubleword a memory stream reads next (R173): each is a plain load of the context that bound it. -/
def State.streamNext (s : State) (h : Channel) : Except Stop Nat := do
  let q ← advanceOr h.pointer (8 * h.delivered)
  s.fetchData q 8

/-- An instruction waits for an entry of an empty channel. Where a memory stream cannot read its next doubleword, the
load's trap is taken by the instruction that waits for it (DEDUCED from R173, log 17). -/
def State.awaitEntry (s : State) (h : Channel) : Run := do
  if h.kind = 4 ∧ h.entries = [] ∧ h.delivered < h.count then
    let _ ← s.streamNext h
  stall .retry

/-- QCTL pop (R174). -/
def execQctlPop (d : BitVec 5) (q : BitVec 3) (s : State) :
    Host.Outcome State Fault Refusal :=
  concludeAs (Instr.qctlPop d q).encoding s (do
    let h ← s.openChannel q true
    let es := s.entriesOf s.cur.1 h
    match headEntry es with
    | none => s.awaitEntry h
    | some e =>
      if e.control then (s.setEntries s.cur.1 s.cur.2 q.toNat h es.tail).lightEntry e.data
      else
        let r ← s.retire 4 [] [(d, e.data)]
        pure (r.setEntries s.cur.1 s.cur.2 q.toNat h es.tail))

/-- A push, which stalls while 16 entries are unpopped (R173, R174). -/
def push (s : State) (a : Reg) (l : Bool) (q : BitVec 3) (control : Bool) : Run := do
  let x ← s.readReg a
  let h ← s.openChannel q false
  let es := s.entriesOf s.cur.1 h
  if 16 ≤ es.length then stall .retry
  let r ← s.retire 4 (used l a) []
  pure (r.setEntries s.cur.1 s.cur.2 q.toNat h (es ++ [{ control := control, data := x }]))

/-- QCTL push (R174). -/
def execQctlPush (a : BitVec 5) (l : Bool) (q : BitVec 3) (s : State) :
    Host.Outcome State Fault Refusal :=
  concludeAs (Instr.qctlPush a l q).encoding s (push s a l q false)

/-- QCTL pushc (R174). -/
def execQctlPushc (a : BitVec 5) (l : Bool) (q : BitVec 3) (s : State) :
    Host.Outcome State Fault Refusal :=
  concludeAs (Instr.qctlPushc a l q).encoding s (push s a l q true)

/-- QCTL flush: discards every entry the register holds; a send binding holds none (R174). -/
def execQctlFlush (q : BitVec 3) (s : State) :
    Host.Outcome State Fault Refusal :=
  concludeAs (Instr.qctlFlush q).encoding s (
    match s.bound q with
    | none => illegal
    | some h => do
      let r ← s.retire 4 [] []
      pure (if h.readable then r.setEntries s.cur.1 s.cur.2 q.toNat h [] else r))

/-- The entries of a read binding whose data is there. -/
def readyEntries : List Entry → List Entry
  | [] => []
  | e :: rest => if e.reserved.isSome then [] else e :: readyEntries rest

/-- What QSTAT reads (R175). -/
def State.channelStatus (s : State) (core : Nat) (h : Channel) : Word :=
  let es := s.entriesOf core h
  let ready := readyEntries es
  let c := h.readable && (match ready with
    | e :: _ => e.control
    | [] => false)
  let count := if h.readable then min 16 ready.length else 16 - es.length
  wordOf (2 ^ 15 + h.kind.toNat * 2 ^ 12 + (if h.kind = 2 ∨ h.kind = 3 then h.dir.toNat * 2 ^ 10 else 0)
    + (if c then 2 ^ 9 else 0) + count)

/-- QSTAT (R175). -/
def execQstat (d : BitVec 5) (q : BitVec 3) (s : State) :
    Host.Outcome State Fault Refusal :=
  conclude s (
    s.retire 4 [] [(d, match s.bound q with
      | none => 0
      | some h => s.channelStatus s.cur.1 h)])

/-- QHND: the light handler address; 0 disables it (R177). -/
def execQhnd (a : BitVec 5) (l : Bool) (s : State) :
    Host.Outcome State Fault Refusal :=
  conclude s (do
    let x ← s.readReg a
    if bitAt x 0 then trapWith .address x
    let r ← s.retire 4 (used l a) []
    pure (r.setMe { r.me with lightAddr := x }))

/-- QRET: back to the kept instruction (R177). -/
def execQret (s : State) :
    Host.Outcome State Fault Refusal :=
  concludeAs (Instr.qret).encoding s (do
    if !s.me.inLight then illegal
    let r ← s.retireTo s.me.lightKept [] []
    pure (r.setMe { r.me with inLight := false, lightNested := false }))

end Sys2Proof.Machine
end

