-- ==== Sys2Proof/Machine/VectorCtl.lean ====
section
/-! DEFINITION. Lane claims and prefix predicates (07_vector_instr.md R179 to R189). Which lane-groups a claim takes among those with a
free unit is not given: it is a free choice (log 18). -/

namespace Sys2Proof.Machine

/-! ### The lane pool of a tile (R182, R184, R185) -/

/-- Whether a context waits for units to restore the claim it left its core with (R188): it holds none meanwhile. -/
def State.restoring (s : State) (tile core ctx : Nat) : Bool :=
  (s.tile tile).claimQueue.any (fun r => r.resuming && r.core == core && r.ctx == ctx)

/-- The lane-groups in which the claims of a tile hold units. -/
def State.groupsHeld (s : State) (tile : Nat) : List Nat :=
  (tileCores tile).flatMap (fun n => (s.core n).ctxs.flatMap (fun e => match e.2.claim with
    | some c => c.groups
    | none => []))

/-- The lane-groups of a tile that have a free unit of their four; F is their number (R182). -/
def State.openGroups (s : State) (tile : Nat) : List Nat :=
  (List.range 16).filter (fun j => decide (((s.groupsHeld tile).filter (· == j)).length < 4))
def State.freeGroups (s : State) (tile : Nat) : Nat := (s.openGroups tile).length

/-- Those of them that hold no unit of a claim; Fc is their number (R185). -/
def State.otherGroups (s : State) (tile : Nat) (c : Claim) : List Nat := (s.openGroups tile).filter (fun j => !c.groups.contains j)

/-- n members of a list, freely chosen. -/
def pickFrom (choice : Nat → Nat) : Nat → List Nat → List Nat
  | 0, _ => []
  | n + 1, l => match l[choice n % l.length]? with
    | none => []
    | some x => x :: pickFrom choice n (l.erase x)
def State.pickGroups (s : State) (n : Nat) (l : List Nat) : List Nat := pickFrom (fun i => Config.choice s.choice (300 + i)) n l

/-- The request word (R183): req, minreq, W. -/
def claimReq (x : Word) : Nat := min 256 ((bitsOf x 8 0 + 15) / 16 * 16)
def claimMin (x : Word) : Nat := min (claimReq x) (max 16 ((bitsOf x 24 16 + 15) / 16 * 16))
def claimWaits (x : Word) : Bool := bitAt x 31

/-- A fresh claim on the lane-groups given (R184, 01_assembly.md R25). -/
def Claim.fresh (groups : List Nat) (req floor : Nat) : Claim :=
  let g := 16 * groups.length
  { g := g, req := req, floor := floor, k1 := g, k2 := g, k3 := g, v := Vector.replicate 16 (List.replicate g 0), groups := groups }

/-- A claim with a new grant: it gives back the units of its highest lanes, or takes more (R185). -/
def Claim.regrant (c : Claim) (gn : Nat) (more : List Nat) : Claim :=
  { c.resize gn with groups := c.groups.take (gn / 16) ++ more }

/-- The floor of a claim as its context stopped (07_vector_instr.md R188): the lanes that a merge in progress holds raise it. -/
def Ctx.claimFloor (c : Ctx) (q : Claim) : Nat :=
  if bitAt c.mrgst 63 then
    let lanes := (if c.stopMerge = 1 then 1 else 2) * bitsOf c.mrgst 8 0
    min q.g (max q.floor ((lanes + 15) / 16 * 16))
  else q.floor

/-- The issuing context's place in the claim queue of its tile. -/
def State.claimPlace (s : State) (tile : Nat) : Option Nat :=
  (s.tile tile).claimQueue.findIdx? (fun r => r.core == s.cur.1 && r.ctx == s.cur.2)

/-- The issuing context leaves the claim queue. -/
def State.leaveClaims (s : State) (tile : Nat) : State :=
  let t := s.tile tile
  s.setTile tile { t with claimQueue := t.claimQueue.filter (fun r => !(r.core == s.cur.1 && r.ctx == s.cur.2)) }

/-- The issuing context joins the claim queue and waits (R187). -/
def State.joinClaims (s : State) (tile req minreq : Nat) : Run :=
  let t := s.tile tile
  let q := if (s.claimPlace tile).isSome then t.claimQueue
    else t.claimQueue ++ [{ core := s.cur.1, ctx := s.cur.2, req := req, minreq := minreq }]
  .error (.waitIn (s.setTile tile { t with claimQueue := q }) .claim)

/-- Whether a request of the issuing context may be granted now: the queue is empty, or it is the head (R187). -/
def State.mayGrant (s : State) (tile : Nat) : Bool :=
  (s.tile tile).claimQueue.isEmpty || s.claimPlace tile == some 0

/-- rd := a number, and the claim the context holds from then on. -/
def State.granted (s : State) (d a : Reg) (l : Bool) (v : Nat) (c : Option Claim) : Run := do
  let r ← s.retire 4 (used l a) [(d, wordOf v)]
  let r := r.leaveClaims (coreTile s.cur.1)
  pure (r.setMe { r.me with claim := c })

/-- A new grant of the issuing context, which is no stopped claim's any more, within a trap handler too (R188). -/
def State.grantedNew (s : State) (d a : Reg) (l : Bool) (c : Claim) : Run := do
  let r ← s.granted d a l c.g (some c)
  pure (r.setMe { r.me with stopOrder := 0, stopMerge := 0 })

/-- VRENEG of a claim (R185); units that the pool has taken while the claim was stopped are gone (R188). -/
def renegotiate (s : State) (d a : Reg) (l : Bool) (held : Claim) (x : Word) : Run :=
  let tile := coreTile s.cur.1
  let req := claimReq x
  let c := held.settled
  let others := s.otherGroups tile c
  let grow := c.g + 16 * others.length
  let grant (gn : Nat) : Run :=
    s.grantedNew d a l { c.regrant gn (s.pickGroups ((gn - c.g) / 16) others) with req := req, floor := min gn (claimMin x) }
  if req = 0 then s.granted d a l held.g (some held)
  else if req ≤ c.g then grant req
  else if s.mayGrant tile ∧ claimMin x ≤ grow then grant (min req grow)
  else if ¬ claimWaits x then s.grantedNew d a l c
  else s.joinClaims tile req (claimMin x)

/-- VCLAIM (R184). A service core has no lane pool (25_package.md R477). -/
def execVclaim (d : BitVec 5) (a : BitVec 5) (l : Bool) (s : State) :
    Host.Outcome State Fault Refusal :=
  concludeAs (Instr.vclaim d a l).encoding s (do
    let x ← s.readReg a
    s.notService
    match s.me.claim with
    | some c => renegotiate s d a l c x
    | none =>
      let tile := coreTile s.cur.1
      let lanes := 16 * s.freeGroups tile
      if claimReq x = 0 then s.granted d a l 0 none
      else if s.mayGrant tile ∧ claimMin x ≤ lanes then
        let groups := s.pickGroups (min (claimReq x) lanes / 16) (s.openGroups tile)
        s.grantedNew d a l (Claim.fresh groups (claimReq x) (claimMin x))
      else if ¬ claimWaits x then s.granted d a l 0 none
      else s.joinClaims tile (claimReq x) (claimMin x))

/-- The claim a vector instruction needs (01_assembly.md R26, R192). -/
def State.needClaim (s : State) : Except Stop Claim :=
  match s.me.claim with
  | some c => .ok c
  | none => illegal

/-- VRENEG (R185). -/
def execVreneg (d : BitVec 5) (a : BitVec 5) (l : Bool) (s : State) :
    Host.Outcome State Fault Refusal :=
  concludeAs (Instr.vreneg d a l).encoding s (do
    let x ← s.readReg a
    let c ← s.needClaim
    renegotiate s d a l c x)

/-- Element loads of a context that are still on their way write no register of a claim that is gone: a fresh claim reads 0 (R184). -/
def State.dropElements (s : State) (core ctx : Nat) : State :=
  { s with requests := s.requests.map (fun q => match q.target with
      | .element _ _ _ => if q.core = core ∧ q.ctx = ctx then { q with target := .none } else q
      | _ => q) }

/-- VREL: the context holds no claim (R186). -/
def execVrel (s : State) :
    Host.Outcome State Fault Refusal :=
  concludeAs (Instr.vrel).encoding s (do
    let _ ← s.needClaim
    let r ← s.retire 4 [] []
    pure ((r.dropElements r.cur.1 r.cur.2).setMe { r.me with claim := none, lostLoads := r.me.lostLoads.filter (fun e => e.1 < 64) }))

/-! ### Prefix predicates (R180, R189) -/

/-- The count a predicate register holds: k0 reads g (01_assembly.md R25). -/
def Claim.pred (c : Claim) (k : BitVec 2) : Nat :=
  match k.toNat with
  | 0 => c.g
  | 1 => c.k1
  | 2 => c.k2
  | _ => c.k3

/-- A predicate register written; writing k0 is ignored. -/
def Claim.setPred (c : Claim) (k : BitVec 2) (v : Nat) : Claim :=
  match k.toNat with
  | 0 => c
  | 1 => { c with k1 := v }
  | 2 => { c with k2 := v }
  | _ => { c with k3 := v }

/-- The claim of the issuing context replaced. -/
def State.setClaim (s : State) (c : Claim) : State := s.setMe { s.me with claim := some c }

/-- PCNT (R189). -/
def execPcnt (d : BitVec 5) (k : BitVec 2) (s : State) :
    Host.Outcome State Fault Refusal :=
  concludeAs (Instr.pcnt d k).encoding s (do
    let c ← s.needClaim
    s.retire 4 [] [(d, wordOf (c.pred k))])

/-- PWHILE: ka := the lanes left, at most g; rd := whether more remain (R189). -/
def execPwhile (d : BitVec 5) (a : BitVec 5) (l : Bool) (b : BitVec 5) (m : Bool) (k : BitVec 2) (s : State) :
    Host.Outcome State Fault Refusal :=
  concludeAs (Instr.pwhile d a l b m k).encoding s (do
    let x ← s.readReg a
    let y ← s.readReg b
    let c ← s.needClaim
    let t := y.toInt - x.toInt
    let r ← s.retire 4 (used l a ++ used m b) [(d, if (c.g : Int) < t then 1 else 0)]
    pure (r.setClaim (c.setPred k (min t.toNat c.g))))

/-- PMIN: ka := min(kb, rs1) (R189). -/
def execPmin (a : BitVec 5) (l : Bool) (k : BitVec 2) (kb : BitVec 2) (s : State) :
    Host.Outcome State Fault Refusal :=
  concludeAs (Instr.pmin a l k kb).encoding s (do
    let x ← s.readReg a
    let c ← s.needClaim
    let r ← s.retire 4 (used l a) []
    pure (r.setClaim (c.setPred k (min (c.pred kb) x.toNat))))

end Sys2Proof.Machine
end

