-- ==== Sys2Proof/Machine/Admin.lean ====
section
/-! DEFINITION. The administrative instructions PTINV, ATSET, ATSYNC, MIGR and GSTOP (10_system_instr.md R281 to R286; 20_layout.md R406 to
R408; 22_faults.md R425, R427, R430, R431). Each releases over every counter first. -/

namespace Sys2Proof.Machine

/-- The release of an administrative instruction (R281). -/
def State.released (s : State) : Except Stop Unit := if s.drainedNow allCounters then .ok () else stall .retry

/-! ### PTINV, ATSET, ATSYNC -/

/-- Translations of a range of a partition dropped, and with them every VIRT line of the range, and of the pages dropped, in its core
caches and victim pools (R282, 15_memory_map.md R344); modified V-copies of a lost die are discarded (16_ordering.md R374). -/
def State.dropTranslations (s : State) (part start length : Nat) : State :=
  let hit (t : Translation) : Bool :=
    t.part == part && (length == 0 || (decide (t.page < start + length) && decide (start < t.page + t.size)))
  let gone := s.translations.filter hit
  let covers (l : Nat) : Bool := length == 0 || (decide (start / 128 ≤ l) && decide (l * 128 < start + length))
    || gone.any (fun t => decide (t.page ≤ l * 128) && decide (l * 128 < t.page + t.size))
  let s := { s with translations := s.translations.filter (fun t => !hit t) }.dropFar part covers
  s.dropLines (fun v => tagPart v.part == part && covers v.line && v.dirty != 0 && s.dieLost (linearDie (v.frame * 128)))

/-- PTINV (R282). -/
def execPtinv (a : BitVec 5) (l : Bool) (b : BitVec 5) (m : Bool) (s : State) :
    Host.Outcome State Fault Refusal :=
  concludeAs (Instr.ptinv a l b m).encoding s (do
    s.needLevel 1
    let p ← s.readReg a
    let n ← s.readReg b
    spaces p [0]
    match s.myPart with
    | none => trapWith .address p
    | some part =>
      s.released
      let t ← s.retire 4 (used l a ++ used m b) []
      pure (t.dropTranslations part (ptrAddr p) n.toNat))

/-- The 64 bytes of an atlas entry written as one step (R283). -/
def State.writeEntry (s : State) (line : Option (Nat × Nat)) (key : Nat) (ws : List Word) : State :=
  (List.range 8).foldl (fun s i => s.putBytes line (key + 8 * i) 8 (ws.getD i 0).toNat) s

/-- The bytes that ATSET leaves in an entry, remembered as those it wrote (20_layout.md R406). -/
def State.noteEntry (s : State) (lin : Nat) (ws : List Word) : State :=
  match s.myPart.bind s.part with
  | none => s
  | some p => s.setPart (s.myPart.getD 0)
      { p with entries := Table.put p.entries lin (Vector.ofFn (fun i : Fin 8 => ws.getD i.val 0)) }

/-- ATSET (R283, 20_layout.md R408): the image is checked, and its generation compared with the entry as it stands. -/
def execAtset (a : BitVec 5) (l : Bool) (b : BitVec 5) (m : Bool) (s : State) :
    Host.Outcome State Fault Refusal :=
  concludeAs (Instr.atset a l b m).encoding s (do
    s.needLevel 1
    let x ← s.readReg a
    let p ← s.readReg b
    s.released
    spaces p [0]
    let img ← s.fetchImage p 0 8
    let base := (s.partRegs s.myPart).atlas
    if !imageAccepted (Vector.ofFn (fun i : Fin 8 => img.getD i.val 0)) ∨ base = 0 then trapWith .address p
    let va := ptrAddr base + 64 * bitsOf x 11 0
    match s.translate (s.myPart.getD 0) s.me.level Need.both va with
    | .error r => pageTrap (wordOf va) r
    | .ok (_, lin) =>
      let pl ← s.placeOf (wordOf va) 8 Need.both false
      if pl.lost then pageTrap (wordOf va) 4
      let old ← match s.plainRead pl 8 with
        | some v => pure v
        | none => pageTrap (wordOf va) 5
      if bitsOf (wordOf old) 55 48 = bitsOf (img.getD 0 0) 55 48 then trapWith .address p
      let t ← ((s.note pl).fill pl.line pl.key pl.sealSlot 0 false).retire 4 (used l a ++ used m b) []
      pure ((t.writeEntry pl.line lin img).noteEntry lin img))

/-- The ATSYNC of the issuing context that waits: its hold, with its epoch. -/
def State.mySync284 (s : State) : Option (Held × Nat) :=
  s.held.findSome? (fun h => if h.core = s.cur.1 ∧ h.ctx = s.cur.2 then (match h.what with
    | .admin e => some (h, e)
    | _ => none) else none)

/-- Whether an access or copy of a partition that looked up an entry before an epoch is still outstanding (R284). -/
def State.oldLookups (s : State) (part epoch : Nat) : Bool :=
  let old (q : Request) : Bool := q.part == part && (match q.tensor with
    | some (_, _, e) => decide (e < epoch)
    | none => false)
  s.requests.any old
    || s.held.any (fun h => match h.what with
      | .request q => old q
      | _ => false)
    || (s.tilesOf part).any (fun t => (s.tile t).copies.any (fun c => c.started && c.entry.isSome && decide (c.epoch < epoch)))

/-- Every atlas cache of a partition invalidated, with a new epoch. -/
def State.invalidateAtlas (s : State) (part epoch : Nat) : State :=
  (s.tilesOf part).foldl (fun (s : State) t => s.setTile t { s.tile t with atlasCache := [], shardCache := [], epoch := epoch }) s

/-- ATSYNC (R284): the invalidation at its first execution, then the wait; rd := the FENCE status of the stores it waited on. -/
def execAtsync (d : BitVec 5) (s : State) :
    Host.Outcome State Fault Refusal :=
  concludeAs (Instr.atsync d).encoding s (do
    s.needLevel 1
    let part := s.myPart.getD 0
    match s.mySync284 with
    | none =>
      s.released
      let epoch := s.nextOrder
      let h : Held := { id := s.nextId, core := s.cur.1, ctx := s.cur.2, mask := 0, what := .admin epoch }
      let t := { s with nextOrder := epoch + 1, nextId := s.nextId + 1, held := s.held ++ [h] }
      .error (.waitIn (if s.myPart.isSome then t.invalidateAtlas part epoch else t) .retry)
    | some (h, epoch) =>
      if s.myPart.isSome ∧ s.oldLookups part epoch then stall .retry
      let t ← s.retire 4 [] [(d, lostStatus h.mask 0xF)]
      pure { t with held := t.held.filter (fun x => x.id ≠ h.id) })

/-! ### MIGR (R285, 22_faults.md R427) -/

/-- Whether the banks of a list have no owner on a core, lie in its scratchpad, and are not forwarded. -/
def Core.banksOpen (k : Core) (bs : List Nat) : Bool :=
  bs.all (fun b => (Table.look k.banks b).isNone && !(decide (7 - k.lsplit.toNat ≤ b / 4) && decide (b / 4 < 7))
    && !k.forwards.any (fun f => f.banks.getLsbD b))

/-- The code with which MIGR refuses, or 0. -/
def State.migrRefusal (s : State) (h dest : Nat) : Nat :=
  let k := s.mine
  let c := k.ctx h
  let member : Bool := match c.role with
    | .member _ => true
    | _ => false
  if h = 0 ∨ ¬ c.isLive ∨ k.reserved h then 1
  else if member ∨ c.channels.any (fun e => e.2.kind == 2 || e.2.kind == 3 || e.2.kind == 0)
      ∨ k.streams.any (fun e => e.2.ctx == h) then 2
  else if dest = s.cur.1 ∨ s.partOf dest ≠ s.myPart then 3
  else if s.dieLost (coreDie dest) ∨ (s.core dest).freeHelpers = [] ∨ ¬ (s.core dest).banksOpen (k.allotment h) then 4
  else 0

/-- A bank copied to the same offsets of another core: bytes, tags, stamps and poison. -/
def State.streamBank (s : State) (src dst : Nat) : State :=
  let t := { s with mem := writeList s.mem dst (byteList s.mem src 8192) }
  let t := (List.range 1024).foldl (fun (t : State) i => t.setTag (dst + 8 * i) (s.tag (src + 8 * i))) t
  let t := (List.range 2).foldl (fun (t : State) i => t.setStamp (dst + 4096 * i) (s.stamp (src + 4096 * i))) t
  let inside (d key : Nat) : Bool := decide (key / 8 ≤ d) && decide (d < key / 8 + 1024)
  { t with poison := t.poison.filter (fun d => !inside d dst)
      ++ ((s.poison.filter (fun d => inside d src)).map (fun d => d - src / 8 + dst / 8)) }

/-- A message readdressed to another context. -/
def Message.redirect (m : Message) (ctx : Nat) : Message := { m with header := setBits m.header 39 36 ctx }

/-- The class 0 messages of an inbox that are addressed to a helper. -/
def Core.messagesFor (k : Core) (h : Nat) : List Message := k.inbox.filter (fun m => m.cls == 0 && m.dctx == h)

/-- The helper moved (R427): its banks and messages go first, then the forwarding entry stands, and the helper runs on at the
destination, with its claim restored there under 07_vector_instr.md R188. -/
def State.moveHelper (s : State) (h dest newh : Nat) : State :=
  let src := s.cur.1
  let banks := s.mine.allotment h
  let s := banks.foldl (fun (s : State) b => s.streamBank (sramKey src (b * 8192)) (sramKey dest (b * 8192))) s
  let s := s.powerDown src h
  let k := s.core src
  let c := k.ctx h
  let mask : BitVec 32 := banks.foldl (fun (x : BitVec 32) b => x ||| ((1 : BitVec 32) <<< b)) 0
  let k' := { k.setCtx h {} with
    inbox := k.inbox.filter (fun m => !(m.cls == 0 && m.dctx == h))
    waiters := k.waiters.filter (fun w => w.ctx ≠ h)
    forwards := k.forwards ++ [{ helper := h, banks := mask, toCore := dest, toHelper := newh, since := s.cycle }] }
  let s := s.setCore src k'
  let d := s.core dest
  let c' := { c.unclaimed with run := c.under, under := .ready, pendingStop := none, wait := if c.wait = .barrier then .barrier else .none }
  let s := s.setCore dest { d.setCtx newh c' with
    inbox := d.inbox ++ (k.messagesFor h).map (fun m => m.redirect newh)
    banks := banks.foldl (fun t b => Table.put t b newh) d.banks }
  let arrival (a : Arrival) : Arrival := if a.core = src ∧ a.ctx = h then { a with core := dest, ctx := newh } else a
  let s := { s with barriers := s.barriers.map (fun (b : Barrier) => { b with arrivals := b.arrivals.map arrival }) }
  (((s.leaveTile src h).claimAgain dest newh).seat dest newh)

/-- MIGR gives up: a helper that it had stopped goes on. -/
def State.unmigrate (s : State) (h : Nat) : State :=
  let c := s.ctx s.cur.1 h
  let s := if c.run = .migrating then s.lift s.cur.1 h else s
  if c.pendingStop = some .migrating then s.setCtx s.cur.1 h { s.ctx s.cur.1 h with pendingStop := none } else s

/-- A save or reload that MIGR needs failed: the helper is FAULTED as it stands, reported once, and MIGR waits (R420). -/
def State.migrationFailed (s : State) (h reason va : Nat) (quietly : Bool) : State :=
  let core := s.cur.1
  let t := if quietly then s.setCtx core h { s.ctx core h with run := .faulted } else s.saveFailed core h reason va
  t.setCtx core h { t.ctx core h with pendingStop := some .migrating }

/-- The helper is stopped and quiet: its area is written, reloaded at the destination, and the helper moved. -/
def State.stream (s : State) (h dest : Nat) (quietly : Bool) (done : State → Run) : Run :=
  let core := s.cur.1
  let c := s.ctx core h
  let c := { c with claim := c.claim.map (fun q => { q.settled with floor := c.claimFloor q }) }
  let s := s.setCtx core h c
  let room := (s.core dest).inbox.length + ((s.core core).messagesFor h).length ≤ 64
  if 16 ≤ s.mine.forwards.length ∨ ¬ room then .error (.waitIn s .retry)
  else match s.save core h true with
    | .error va => .error (.waitIn (s.migrationFailed h 1 va quietly) .retry)
    | .ok t => match t.reload core h with
      | .error va => .error (.waitIn (t.migrationFailed h 2 va quietly) .retry)
      | .ok u => match (u.core dest).freeHelpers with
        | [] => .error (.waitIn u .retry)
        | newh :: _ => done ((u.moveHelper h dest newh).acquire dest)

/-- MIGR of a helper that it does not refuse (R285, R425, R427, R480): the waits, the stop, and the move. -/
def State.migrate (s : State) (h dest : Nat) (done : State → Run) : Run :=
  let core := s.cur.1
  let c := s.ctx core h
  let quietly := c.pendingStop = some .migrating
  let stopped (s : State) : Run :=
    let t := ((s.settleSync core h false).forgetAsked core h).withdrawClaim core h
    if t.settled core h ∧ (t.ctx core h).engineQuiet then t.stream h dest quietly done else .error (.waitIn t .retry)
  match c.run with
  | .migrating => stopped s
  | .ready =>
    if ¬ c.engineQuiet then stall .retry
    else if c.level = 2 then .error (.waitIn (s.setCtx core h { c with pendingStop := some .migrating }) .retry)
    else stopped (s.lay core h .migrating true)
  | .faulted => if c.engineQuiet ∧ c.level < 2 then stopped (s.lay core h .migrating true) else stall .retry
  | _ => stall .retry

/-- MIGR (R285). -/
def execMigr (d : BitVec 5) (a : BitVec 5) (l : Bool) (b : BitVec 5) (m : Bool) (s : State) :
    Host.Outcome State Fault Refusal :=
  concludeAs (Instr.migr d a l b m).encoding s (do
    s.needLevel 1
    let x ← s.readReg a
    let y ← s.readReg b
    if s.cur.2 ≠ 0 then illegal
    let h := bitsOf x 3 0
    if 10 < h then trapWith .address x
    spaces y [1]
    match s.coreNamed y with
    | some (.inl dest) =>
      s.released
      let finish (code : Nat) (t : State) : Run := t.retire 4 (used l a ++ used m b) [(d, wordOf code)]
      let code := s.migrRefusal h dest
      if code ≠ 0 then finish code (s.unmigrate h)
      else s.migrate h dest (finish 0)
    | _ => trapWith .address y)

/-! ### GSTOP (R286, 22_faults.md R430, R431) -/

/-- The live contexts of a partition other than one. -/
def State.otherContexts (s : State) (part core ctx : Nat) : List (Nat × Nat) :=
  s.cores.flatMap (fun e =>
    if s.partOf e.1 = some part then
      (e.2.ctxs.filter (fun x => x.2.isLive && !(e.1 == core && x.1 == ctx))).map (fun x => (e.1, x.1))
    else [])

/-- The cores of a partition. -/
def State.coresOf (s : State) (part : Nat) : List Nat := (s.tilesOf part).flatMap tileCores

/-- One context stopped by a gang stop (R425, R430, R434, R480). -/
def State.gangOne (s : State) (core ctx : Nat) : State :=
  let c := s.ctx core ctx
  match c.run with
  | .ready =>
    if c.level = 2 then s.setCtx core ctx { c with pendingStop := some .gangStopped }
    else s.layAndSave core ctx .gangStopped false false
  | .preempted | .migrating => s.lay core ctx .gangStopped false
  | _ => s

/-- Every other context of a partition stopped through the halt tree, and the core records written. -/
def State.gangStop (s : State) (part core ctx : Nat) : State :=
  let s := (s.otherContexts part core ctx).foldl (fun (s : State) e => s.gangOne e.1 e.2) s
  (s.coresOf part).foldl (fun (s : State) n =>
    (s.setCore n { s.core n with stopGtc := s.gtc, gangStops := (s.core n).gangStops + 1 }).writeRecord n) s

/-- Stops still to come: contexts at level 2, and contexts whose area could not be written. -/
def State.gangPending (s : State) (part : Nat) : List (Nat × Nat) :=
  (s.otherContexts part 5000 0).filter (fun e => (s.ctx e.1 e.2).pendingStop == some .gangStopped)

/-- A release: every gang-stopped context reloads its area and what stood before stands again; the records are written. -/
def State.gangRelease (s : State) (part : Nat) : State :=
  let stopped := (s.otherContexts part 5000 0).filter (fun e => (s.ctx e.1 e.2).run == .gangStopped)
  let s := stopped.foldl (fun (s : State) e =>
    let c := s.ctx e.1 e.2
    if c.under = .ready then
      let (t, ok) := s.reloadOrFault e.1 e.2
      if ok then (t.lift e.1 e.2).seat e.1 e.2 else t
    else s.lift e.1 e.2) s
  let s := (s.gangPending part).foldl (fun (s : State) e => s.setCtx e.1 e.2 { s.ctx e.1 e.2 with pendingStop := none }) s
  (s.coresOf part).foldl (fun (s : State) n => (s.setCore n { s.core n with releaseGtc := s.gtc }).writeRecord n) s

/-- The gang stop of a partition replaced. -/
def State.setGang (s : State) (part : Nat) (g : Option Gang) : State :=
  match s.part part with
  | none => s
  | some p => s.setPart part { p with gang := g }

/-- GSTOP (R286): a stop that is still in progress holds another GSTOP back, and the one that began it until every context has
stopped. -/
def execGstop (d : BitVec 5) (a : BitVec 5) (l : Bool) (s : State) :
    Host.Outcome State Fault Refusal :=
  concludeAs (Instr.gstop d a l).encoding s (do
    s.needLevel 1
    let x ← s.readReg a
    s.released
    let finish (t : State) (gtc : Word) : Run := t.retire 4 (used l a) [(d, gtc)]
    match s.myPart.bind s.part, s.myPart with
    | some p, some n =>
      match p.gang with
      | some g =>
        if g.stopping then
          if g.core = s.cur.1 ∧ g.ctx = s.cur.2 then
            let t := (s.gangPending n).foldl (fun (t : State) e =>
              if (t.ctx e.1 e.2).run = .faulted then t.retrySave e.1 e.2 else t) s
            if t.gangPending n ≠ [] then .error (.waitIn t .retry)
            else finish (t.setGang n (some { g with stopping := false })) g.entered
          else stall .retry
        else if bitAt x 0 then finish ((s.gangRelease n).setGang n none) s.gtc
        else
          let t := s.gangStop n s.cur.1 s.cur.2
          let g : Gang := { entered := s.gtc, core := s.cur.1, ctx := s.cur.2 }
          if t.gangPending n ≠ [] then .error (.waitIn (t.setGang n (some g)) .retry)
          else finish (t.setGang n (some { g with stopping := false })) s.gtc
      | none =>
        if bitAt x 0 then finish s s.gtc
        else
          let t := s.gangStop n s.cur.1 s.cur.2
          let g : Gang := { entered := s.gtc, core := s.cur.1, ctx := s.cur.2 }
          if t.gangPending n ≠ [] then .error (.waitIn (t.setGang n (some g)) .retry)
          else finish (t.setGang n (some { g with stopping := false })) s.gtc
    | _, _ => finish s s.gtc)

end Sys2Proof.Machine
end

