-- ==== Sys2Proof/Machine/Schedule.lean ====
section
/-! DEFINITION. The steps of the launch distributor and the launch units (06_task_instr.md R156, 12_execution.md R298, R299), of the tile
queues and dispatchers (R301 to R304), and of the relief (13_relief.md R315 to R325, 11_program_spawn.md
R290). -/

namespace Sys2Proof.Machine

/-! ### Launches (R156, R298, R299) -/

/-- The roots of a launch recur on a tile with this period in i: T / gcd(LSTRIDE, T). -/
def Launch.period (l : Launch) : Nat := l.tiles / Nat.gcd l.stride l.tiles

/-- COUNT of a launch. -/
def Launch.count (l : Launch) : Nat := bitsOf (l.packet.toList.getD 0 0) 39 0

/-- The first root at a canonical position. -/
def Launch.firstAt (l : Launch) (q : Nat) : Option Nat :=
  (List.range (min l.count l.period)).find? (fun i => i * l.stride % l.tiles == q)

/-- How many roots of a tile are left from root i on. -/
def Launch.leftFrom (l : Launch) (i : Nat) : Nat := (l.count - i + l.period - 1) / l.period

/-- The tiles of a die in a canonical list, with their first roots. -/
def Launch.onDie (l : Launch) (tiles : List Nat) (die : Nat) : List (Nat × Nat) :=
  (List.range tiles.length).filterMap (fun q =>
    let t := tiles.getD q 0
    if tileDie t = die then (l.firstAt q).map (fun i => (t, i)) else none)

/-- The completion of a launch: to the context that issued it, or to host queue 0 of its partition (R156, 25_package.md R474). -/
def State.launchReply (s : State) (r : LaunchRequest) (code : Nat) (args : List Word) : State :=
  match r.issuer with
  | some (core, ctx, op) => s.complete core ctx r.part op (some 1) code args
  | none => s.post (.hostQueue r.part 0)
      { header := headerOf s.pkg.toNat 0 0 0 (bitsOf (r.packet.toList.getD 3 0) 15 0) code 0
        arg0 := args.getD 0 0, arg1 := args.getD 1 0 } 4104 r.part none

/-- The distributor handles one launch (R156): LSTRIDE is taken now (R298), the join is armed with the die count, and every die with
roots learns of it. A lost die counts in D, as its tiles stay canonical, and places nothing (22_faults.md R433). -/
def State.distribute (s : State) (r : LaunchRequest) : State :=
  let d (i : Nat) : Word := r.packet.toList.getD i 0
  if 2 ^ 32 < bitsOf (d 0) 39 0 then s.launchReply r 3 []
  else
    let tiles := s.tilesOf r.part
    let l : Launch :=
      { id := s.nextId, part := r.part, entry := r.entry, packet := r.packet, tiles := tiles.length, toPlace := []
        stride := (s.partRegs (some r.part)).lstride.toNat }
    let counts : List (Nat × Nat) := (List.range 8).filterMap (fun die => match l.onDie tiles die with
      | [] => none
      | ts => some (die, (ts.map (fun e => l.leftFrom e.2)).sum))
    let s := { s with nextId := s.nextId + 1 }
    let arm : Word := wordOf (bitsOf (d 0) 41 40 * 2 ^ 32 + counts.length)
    let s := if d 2 = 0 then s
      else s.hwJoin r.part 4104 noContext 0 (d 2) (fun s home key => s.joinInit r.part home key ((r.issuer.map (·.1)).getD 0) arm) 0
    let l := { l with toPlace := (counts.map (·.1)).filter (fun e => !s.dieLost e)
                      dies := counts.map (fun e => (e.1, e.2, 0, 0)) }
    let s := if counts = [] then s else { s with launches := s.launches ++ [l] }
    s.launchReply r 0 []

/-- LAUNCH_DISTRIBUTE: one launch at a time, in arrival order. -/
def State.launchDistribute (s : State) : State :=
  match s.launchQueue with
  | [] => s
  | r :: rest => { s with launchQueue := rest }.distribute r

/-- LAUNCH_DISTRIBUTE (R156). -/
def execLaunchDistribute (s : State) :
    Host.Outcome State Fault Refusal :=
  .next (
  s.launchDistribute)

/-- One launch entry joins the tail of its level; none while it finds the spill area full. -/
def State.placeEntry (s : State) (l : Launch) (e : Nat × Nat) : Option State :=
  let u := s.tile e.1
  let x : QEntry :=
    { kind := .roots l.id e.2, level := bitsOf (l.packet.toList.getD 0 0) 47 45, resident := true, joined := s.gtc }
  (queueArrival u.queue x (s.spillRoom l.part)).map (fun q => s.setTile e.1 { u with queue := q })

/-- LAUNCH_ENTRY_PLACE: the launch unit of a die places its entries of the oldest launch that has some (R299). While a tile has no
room for its entry, the unit keeps all of them (log 25). -/
def State.launchEntryPlace (s : State) (die : Nat) : State :=
  match s.launches.find? (fun l => l.toPlace.contains die) with
  | none => s
  | some l =>
    let placed := (l.onDie (s.tilesOf l.part) die).foldl (fun (acc : Option State) e => acc.bind (fun t => t.placeEntry l e)) (some s)
    match placed with
    | none => s
    | some t =>
      { t with launches := t.launches.map (fun x => if x.id = l.id then { x with toPlace := x.toPlace.filter (· != die) } else x) }

/-- LAUNCH_ENTRY_PLACE (R299). -/
def execLaunchEntryPlace (die : Nat) (s : State) :
    Host.Outcome State Fault Refusal :=
  .next (
  s.launchEntryPlace die)

/-! ### Dispatch (R303) -/

/-- Whether a core lies in the crew target of its super-group (R310). -/
def State.inTarget (s : State) (core : Nat) : Bool :=
  match (s.superGroup (superGroupOf core)).target with
  | some r => decide (r.x ≤ coreX core) && decide (coreX core < r.x + r.w) && decide (r.y ≤ coreY core)
      && decide (coreY core < r.y + r.h)
  | none => false

/-- The cores of a tile eligible for an entry, in ascending number. -/
def State.eligible (s : State) (tile : Nat) (e : QEntry) : List Nat :=
  let open_ (n : Nat) : Bool := !(s.core n).freeHelpers.isEmpty && !s.gangStopping n
  match e.kind with
  | .task t => match t.pinned with
    | some (core, _) => if open_ core then [core] else []
    | none => (tileCores tile).filter (fun n => open_ n && !s.inTarget n)
  | .roots _ _ => (tileCores tile).filter (fun n => open_ n && !s.inTarget n)

/-- The core with the fewest live helpers, the lowest number on a tie. -/
def State.fewest (s : State) : List Nat → Option Nat
  | [] => none
  | n :: rest => match s.fewest rest with
    | none => some n
    | some m => if (s.core m).liveHelpers < (s.core n).liveHelpers then some m else some n

/-- The entry to dispatch: of the highest level that has one, the oldest resident entry with an eligible core. -/
def State.dispatchable (s : State) (tile : Nat) : Option QEntry :=
  let q := (s.tile tile).queue
  ([7, 6, 5, 4, 3, 2, 1, 0] : List Nat).findSome? (fun v =>
    q.find? (fun e => e.resident && e.level == v && !(s.eligible tile e).isEmpty))

/-- A root task starts on a helper and acquires (06_task_instr.md R152). -/
def State.startRoot (s : State) (core helper : Nat) (l : Launch) (i : Nat) : State :=
  let d (k : Nat) : Word := l.packet.toList.getD k 0
  let s := s.acquire core
  let c := Ctx.start l.entry 0 (.root l.id (coreDie core)) (startArgs [d 1, wordOf i])
  s.setCtx core helper { c with taskix := wordOf i, launchix := d 3, prio := BitVec.ofNat 3 (bitsOf (d 0) 47 45) }

/-- The chosen entry handed to the lowest free helper of a core: a task entry leaves the queue; a launch entry loses its lowest root
and leaves with its last. -/
def State.handOff (s : State) (tile : Nat) (e : QEntry) (core : Nat) : State :=
  let u := s.tile tile
  match (s.core core).freeHelpers with
  | [] => s
  | h :: _ => match e.kind with
    | .task t => (s.setTile tile { u with queue := u.queue.erase e }).startTask core h t .task 0
    | .roots id i => match s.launches.find? (fun l => l.id == id) with
      | none => s.setTile tile { u with queue := u.queue.erase e }
      | some l =>
        let next : QEntry := { e with kind := .roots id (i + l.period) }
        let q := if l.leftFrom i ≤ 1 then u.queue.erase e else u.queue.map (fun x => if x = e then next else x)
        (s.setTile tile { u with queue := q }).startRoot core h l i

/-- DISPATCH: one hand-off. -/
def State.dispatchTile (s : State) (tile : Nat) : State :=
  if s.dieLost (tileDie tile) then s
  else match s.dispatchable tile with
    | none => s
    | some e => match s.fewest (s.eligible tile e) with
      | none => s
      | some core => s.handOff tile e core

/-- DISPATCH (R303). -/
def execDispatch (tile : Nat) (s : State) :
    Host.Outcome State Fault Refusal :=
  .next (
  s.dispatchTile tile)

/-! ### Spilling and ageing (R301, R302) -/

/-- The first spilled entry of a level becomes resident. -/
def refillLevel (q : List QEntry) (level : Nat) : List QEntry :=
  match q with
  | [] => []
  | e :: rest => if !e.resident && e.level == level then { e with resident := true } :: rest else e :: refillLevel rest level

/-- SPILL_REFILL: with 1,920 resident entries or fewer, the head of the highest spill list becomes resident. -/
def State.spillRefill (s : State) (tile : Nat) : State :=
  let u := s.tile tile
  if 1920 < residents u.queue then s
  else match ([7, 6, 5, 4, 3, 2, 1, 0] : List Nat).find? (fun v => hasSpilled u.queue v) with
    | none => s
    | some v => s.setTile tile { u with queue := refillLevel u.queue v }

/-- SPILL_REFILL (R301). -/
def execSpillRefill (tile : Nat) (s : State) :
    Host.Outcome State Fault Refusal :=
  .next (
  s.spillRefill tile)

/-- SPILL_OFFER_RETRY: every task offered to a full spill area is offered again, in order. -/
def State.spillOfferRetry (s : State) (tile : Nat) : State :=
  let u := s.tile tile
  u.offered.foldl (fun (s : State) t => s.offer tile t) (s.setTile tile { u with offered := [] })

/-- SPILL_OFFER_RETRY (R301). -/
def execSpillOfferRetry (tile : Nat) (s : State) :
    Host.Outcome State Fault Refusal :=
  .next (
  s.spillOfferRetry tile)

/-- The whole microsecond of GTC at which ageing acts, and whether an entry that joined its level at a time has then been there for
AGEUS µs. -/
def State.microsecond (s : State) : Nat := s.gtc.toNat / 1000 * 1000
def aged (now ageus joined : Nat) : Bool := decide (joined < now) && decide (ageus * 1000 ≤ now - joined)

/-- One entry ages: it joins the tail of the next level up as an arrival. One that finds the spill area full stays (log 26). -/
def State.ageEntry (s : State) (part tile now : Nat) (e : QEntry) : State :=
  let u := s.tile tile
  let rest := u.queue.erase e
  let up : QEntry := { e with level := e.level + 1, joined := BitVec.ofNat 64 now }
  match queueArrival rest up ((s.setTile tile { u with queue := rest }).spillRoom part) with
  | some q => s.setTile tile { u with queue := q }
  | none => s

/-- QUEUE_AGEING: the higher former level first, each in its former order. -/
def State.queueAgeing (s : State) (tile : Nat) : State :=
  match s.partOfGroup (tileSuperGroup tile) with
  | none => s
  | some part =>
    let now := s.microsecond
    let limit := (s.partRegs (some part)).ageus.toNat
    let due := ([6, 5, 4, 3, 2, 1, 0] : List Nat).flatMap (fun v =>
      (s.tile tile).queue.filter (fun e => e.level == v && aged now limit e.joined.toNat))
    due.foldl (fun (s : State) e => s.ageEntry part tile now e) s

/-- QUEUE_AGEING (R302). -/
def execQueueAgeing (tile : Nat) (s : State) :
    Host.Outcome State Fault Refusal :=
  .next (
  s.queueAgeing tile)

/-! ### Pressure (R315, R316) -/

/-- C: the queued cost. -/
def State.queuedCost (s : State) (tile : Nat) : Nat :=
  ((s.tile tile).queue.map (fun e => match e.kind with
    | .task t => t.cost
    | .roots id i => match s.launches.find? (fun l => l.id == id) with
      | some l => bitsOf (l.packet.toList.getD 4 0) 7 0 * min (l.leftFrom i) 16
      | none => 0)).sum

/-- B: the live helpers that are not reserved. -/
def State.busyHelpers (s : State) (tile : Nat) : Nat :=
  ((tileCores tile).map (fun n =>
    let k := s.core n
    ((List.range 11).filter (fun h => decide (1 ≤ h) && !k.reserved h && (k.ctx h).isLive)).length)).sum

/-- The sample that R315 computes. -/
def rawPressure (c b pshift : Nat) : Nat := min 0xFFFF ((c + 16 * b) / 2 ^ pshift)

/-- PRESSURE_SAMPLE. -/
def State.pressureSample (s : State) (tile : Nat) : State :=
  match s.partOfGroup (tileSuperGroup tile) with
  | none => s
  | some part =>
    if s.dieLost (tileDie tile) then s
    else
      let u := s.tile tile
      let raw := BitVec.ofNat 16 (rawPressure (s.queuedCost tile) (s.busyHelpers tile) (s.partRegs (some part)).pshift.toNat)
      let p := (raw.toNat + u.s0.toNat + u.s1.toNat + u.s2.toNat) / 4
      s.setTile tile { u with s0 := raw, s1 := u.s0, s2 := u.s1, s3 := u.s2, raw := raw, p := BitVec.ofNat 16 p }

/-- PRESSURE_SAMPLE (R315). -/
def execPressureSample (tile : Nat) (s : State) :
    Host.Outcome State Fault Refusal :=
  .next (
  s.pressureSample tile)

/-! ### Contour units (R317 to R319) -/

/-- The tile next to a tile: 0 +X, 1 −X, 2 +Y, 3 −Y (R317). -/
def tileNeighbour (t dir : Nat) : Nat :=
  match dir with
  | 0 => (t / 8 + 1) % 64 * 8 + t % 8
  | 1 => (t / 8 + 63) % 64 * 8 + t % 8
  | 2 => t / 8 * 8 + (t % 8 + 1) % 8
  | _ => t / 8 * 8 + (t % 8 + 7) % 8

/-- The routers at a tile's edge towards a direction: those of its cores whose link crosses it. -/
def edgeRouters (t dir : Nat) : List Nat :=
  (tileCores t).filter (fun n => match dir with
    | 0 => coreX n % 2 == 1
    | 1 => coreX n % 2 == 0
    | 2 => coreY n % 4 == 3
    | _ => coreY n % 4 == 0)

/-- Whether the link of a tile in a direction is dead: one of the links that cross its edge is marked dead (log 27), or its neighbour is
lost, has a dead router at its edge, or belongs to another partition (R317). -/
def State.shutOut (s : State) (t dir : Nat) : Bool :=
  let n := tileNeighbour t dir
  let mine := s.partOfGroup (tileSuperGroup t)
  (edgeRouters t dir).any (fun r => (s.router r).dead.getLsbD dir)
    || (edgeRouters n (opposite dir)).any (fun r => (s.router r).dead = 0xF) || s.dieLost (tileDie n)
    || mine.isNone || s.partOfGroup (tileSuperGroup n) != mine

/-- The pair a unit holds for a direction. -/
def State.heldPair (s : State) (t dir : Nat) : Nat × Nat :=
  if s.shutOut t dir then (255, 0xFFFF) else (s.tile t).pairs.toList.getD dir (255, 0xFFFF)

/-- The direction whose held d is smallest, the first of +X, −X, +Y, −Y on a tie, with its pair. -/
def State.lowest (s : State) (t : Nat) : Nat × Nat × Nat :=
  let p (d : Nat) : Nat × Nat := s.heldPair t d
  ([1, 2, 3] : List Nat).foldl (fun (best : Nat × Nat × Nat) d => if (p d).1 < best.2.1 then (d, p d) else best) (0, p 0)

/-- The pair that one step at a unit reports (R318). -/
def State.contourPair (s : State) (t : Nat) (plow : Word) : Nat × Nat :=
  let p := (s.tile t).p
  if p.toNat < plow.toNat then (0, p.toNat)
  else
    let (_, d, m) := s.lowest t
    (min 255 (1 + d), m)

/-- A pair sent to a neighbour: one that has still to make this step uses it in its next one (R318, R319). -/
def State.sendPair (s : State) (t dir : Nat) (pair : Nat × Nat) (step : Nat) : State :=
  let n := tileNeighbour t dir
  let u := s.tile n
  let back := opposite dir
  let arrived := u.arrived.setIfInBounds back pair
  s.setTile n { u with arrived := arrived, pairs := if step ≤ u.steps then u.pairs.setIfInBounds back pair else u.pairs }

/-- Whether a neighbour has still to make the step before: the units update in one step (R318). -/
def State.aheadOf (s : State) (t dir : Nat) : Bool :=
  !s.shutOut t dir && decide ((s.tile (tileNeighbour t dir)).steps < (s.tile t).steps)

/-- CONTOUR_STEP: the unit reports from the pairs of the previous step and sends its own. -/
def State.contourStep (s : State) (tile : Nat) : State :=
  match s.partOfGroup (tileSuperGroup tile) with
  | none => s
  | some part =>
    if s.dieLost (tileDie tile) ∨ ([0, 1, 2, 3] : List Nat).any (s.aheadOf tile) then s
    else
      let pair := s.contourPair tile (s.partRegs (some part)).plow
      let u := s.tile tile
      let step := u.steps + 1
      let s := s.setTile tile { u with own := pair, steps := step, pairs := u.arrived }
      ([0, 1, 2, 3] : List Nat).foldl (fun (s : State) d => if s.shutOut tile d then s else s.sendPair tile d pair step) s

/-- CONTOUR_STEP (R318). -/
def execContourStep (tile : Nat) (s : State) :
    Host.Outcome State Fault Refusal :=
  .next (
  s.contourStep tile)

/-! ### Placement (R320 to R322, 11_program_spawn.md R290) -/

/-- The distance between two tiles on the package torus (R321). -/
def tileDist (a b : Nat) : Nat :=
  let dx := max (a / 8) (b / 8) - min (a / 8) (b / 8)
  let dy := max (a % 8) (b % 8) - min (a % 8) (b % 8)
  min dx (64 - dx) + min dy (8 - dy)

/-- Where a task at a tile goes: a neighbour, or none for the queue of the tile (R321). -/
def State.placement (s : State) (t : Nat) (r : PartRegs) (x : Task) : Option Nat :=
  let p := (s.tile t).p.toNat
  let (dir, d, m) := s.lowest t
  let n := tileNeighbour t dir
  let cost := r.tmove.toNat + d * r.hopcost.toNat
  let away : Bool := match x.anchor with
    | some a => decide (tileDist t a < tileDist n a)
    | none => false
  let cost := if away then cost + r.pullk.toNat * x.pull else cost
  if p < r.phigh.toNat ∨ x.hops = 32 ∨ d = 255 then none
  else if (cost : Int) ≤ (p : Int) - (m : Int) then some n else none

/-- The task that a unit decides next: by the moment it arrived and then its source (R322). -/
def earliestTask : List Task → Option Task
  | [] => none
  | t :: rest => match earliestTask rest with
    | none => some t
    | some u => if u.gtc < t.gtc ∨ (u.gtc = t.gtc ∧ u.source < t.source) then some u else some t

/-- PLACEMENT_DECISION: one task moves a hop, which it reaches after this cycle, stays, or is held while injection is paused on the die (R290). -/
def State.placementDecision (s : State) (tile : Nat) : State :=
  match earliestTask (s.tile tile).deciding with
  | none => s
  | some x =>
    let u := s.tile tile
    let s := s.setTile tile { u with deciding := u.deciding.erase x }
    match s.placement tile (s.partRegs (some x.part)) x with
    | none => s.offer tile x
    | some n =>
      if s.paused.getLsbD (tileDie tile) then
        s.setTile tile { s.tile tile with held := (s.tile tile).held ++ [x] }
      else s.enterRelief n { x with hops := x.hops + 1, gtc := s.gtc + 1 }

/-- PLACEMENT_DECISION (R321). -/
def execPlacementDecision (tile : Nat) (s : State) :
    Host.Outcome State Fault Refusal :=
  .next (
  s.placementDecision tile)

/-- HELD_TASK_RESUME: when injection resumes, the held tasks are to be decided afresh. -/
def State.heldTaskResume (s : State) (tile : Nat) : State :=
  let u := s.tile tile
  if s.paused.getLsbD (tileDie tile) then s
  else s.setTile tile { u with held := [], deciding := u.deciding ++ u.held.map (fun t => { t with gtc := s.gtc }) }

/-- HELD_TASK_RESUME (R290). -/
def execHeldTaskResume (tile : Nat) (s : State) :
    Host.Outcome State Fault Refusal :=
  .next (
  s.heldTaskResume tile)

end Sys2Proof.Machine
end

