-- ==== Sys2Proof/Machine/Arbiter.lean ====
section
/-! DEFINITION. The crew arbiters: grants and targets (12_execution.md R309 to R311), and crews swapped out and restored (22_faults.md
R429). -/

namespace Sys2Proof.Machine

/-! ### Rectangles and requests (R310) -/

/-- The lowest column and row of a super-group (00_scope.md R3): eight columns by sixteen rows. -/
def sgOrigin (sg : Nat) : Nat × Nat := (sg / 4 * 16 + sg % 2 * 8, sg / 2 % 2 * 16)

/-- The rectangles of a shape in a super-group, in ascending origin core number. -/
def candidates (sg w h : Nat) : List Rect :=
  let (x, y) := sgOrigin sg
  (List.range (9 - w)).flatMap (fun i => (List.range (17 - h)).map (fun j => { x := x + i, y := y + j, w := w, h := h }))

/-- Whether two rectangles share a core. -/
def Rect.meets (a b : Rect) : Bool :=
  decide (a.x < b.x + b.w) && decide (b.x < a.x + a.w) && decide (a.y < b.y + b.h) && decide (b.y < a.y + a.h)

/-- The members' coordinates in crew-relative order: row by row (R429). -/
def Rect.places (r : Rect) : List (Nat × Nat) := (List.range r.h).flatMap (fun y => (List.range r.w).map (fun x => (x, y)))
def Rect.core (r : Rect) (p : Nat × Nat) : Nat := coreAt (r.x + p.1) (r.y + p.2)

/-- Whether a core has a helper to give. -/
def State.canGive (s : State) (core : Nat) : Bool :=
  !(s.core core).freeHelpers.isEmpty && !s.gangStopping core && !s.dieLost (coreDie core)

/-- Whether a rectangle fits a request: every core gives a helper, and a swapped crew finds its banks open (log 28). -/
def State.fits (s : State) (r : CrewRequest) (rect : Rect) : Bool :=
  rect.places.all (fun p => s.canGive (rect.core p))
    && (match r.restore with
      | none => true
      | some id => match s.crews.find? (fun c => c.id == id) with
        | none => false
        | some c => (List.range rect.places.length).all (fun k =>
            (s.core (rect.core (rect.places.getD k (0, 0)))).banksOpen ((c.savedBanks.getD k []).map (·.1))))

/-- The requests in queue order: the highest level first, then the oldest. -/
def SuperGroup.ordered (g : SuperGroup) : List CrewRequest :=
  ([7, 6, 5, 4, 3, 2, 1, 0] : List Nat).flatMap (fun v => g.requests.filter (fun r => r.level == v))

/-- The request to grant next and its rectangle: a target is kept for its own request, which is granted nowhere else. -/
def State.crewChoice (s : State) (sg : Nat) : Option (CrewRequest × Rect) :=
  let g := s.superGroup sg
  g.ordered.findSome? (fun r =>
    let places := match g.target with
      | none => candidates sg r.w r.h
      | some t => if r.targeted.isSome then [t] else (candidates sg r.w r.h).filter (fun c => !c.meets t)
    (places.find? (s.fits r)).map (fun c => (r, c)))

/-- A granted request leaves the arbiter, with its target; a place that is free is taken from the spill area (R301, R309). -/
def State.granted311 (s : State) (sg : Nat) (r : CrewRequest) : State :=
  let g := s.superGroup sg
  s.setSuperGroup sg { g with requests := g.requests.erase r, target := if r.targeted.isSome then none else g.target }

/-! ### Grants (R311) -/

/-- A crew starts: the lowest free helper of every core of the rectangle, with the registers of 06_task_instr.md R152;
it acquires. -/
def State.startCrew (s : State) (sg : Nat) (r : CrewRequest) (rect : Rect) : State :=
  let id := s.nextId
  let t := r.task
  let member (p : Nat × Nat) : Member := { core := rect.core p, ctx := ((s.core (rect.core p)).freeHelpers.head?).getD 0 }
  let crew : Crew :=
    { id := id, part := t.part, sg := sg, rect := rect, members := rect.places.map member, join := t.join, level := r.level
      granted := s.nextOrder }
  let start (s : State) (p : Nat × Nat) : State :=
    let m := member p
    let c := Ctx.start t.entry 0 (.member id) (startArgs t.args.toList)
    (s.acquire m.core).setCtx m.core m.ctx { c with taskix := wordOf (p.1 * 32 + p.2), prio := t.prio }
  rect.places.foldl start { s with nextId := id + 1, nextOrder := s.nextOrder + 1, crews := s.crews ++ [crew] }

/-- CREW_GRANT: the first request in queue order that has a fitting rectangle, where that is no swapped crew. -/
def State.crewGrant (s : State) (sg : Nat) : State :=
  match s.crewChoice sg with
  | some (r, rect) => if r.restore.isSome then s else (s.granted311 sg r).startCrew sg r rect
  | none => s

/-- CREW_GRANT (R311). -/
def execCrewGrant (sg : Nat) (s : State) :
    Host.Outcome State Fault Refusal :=
  .next (
  s.crewGrant sg)

/-! ### Targets and ageing (R309, R310) -/

/-- The candidate with the most cores that give a helper, the lowest origin on a tie. -/
def State.bestTarget (s : State) (sg w h : Nat) : Option Rect :=
  let score (c : Rect) : Nat := (c.places.filter (fun p => s.canGive (c.core p))).length
  (candidates sg w h).foldl (fun (best : Option Rect) c => match best with
    | none => some c
    | some b => if score b < score c then some c else some b) none

/-- One request ages: it joins the tail of the next level up as an arrival (R302). One that finds the spill area full stays (log 26). -/
def State.ageRequest (s : State) (part sg now : Nat) (r : CrewRequest) : State :=
  let g := s.superGroup sg
  let rest := if g.requests.contains r then { g with requests := g.requests.erase r } else { g with spilled := g.spilled.erase r }
  match rest.arrival { r with level := r.level + 1, joined := wordOf now } ((s.setSuperGroup sg rest).spillRoom part) with
  | some g => s.setSuperGroup sg g
  | none => s

/-- The requests, resident or spilled, whose time at their level has reached AGEUS: the higher former level first, each in its order. -/
def SuperGroup.dueRequests (g : SuperGroup) (now ageus : Nat) : List CrewRequest :=
  ([6, 5, 4, 3, 2, 1, 0] : List Nat).flatMap (fun v =>
    (g.requests ++ g.spilled).filter (fun r => r.level == v && aged now ageus r.joined.toNat))

/-- The first spilled request of the highest level comes in while a place is free. -/
def refillRequests (g : SuperGroup) : SuperGroup :=
  if 32 ≤ g.requests.length then g
  else match ([7, 6, 5, 4, 3, 2, 1, 0] : List Nat).findSome? (fun v => g.spilled.find? (fun r => r.level == v)) with
    | none => g
    | some r => { g with requests := g.requests ++ [r], spilled := g.spilled.erase r }

/-- CREW_TARGET: the target of the oldest request of the highest level once it has waited AGEUS µs there, and then the ageing and
the refill of the arbiter's queue. -/
def State.crewTarget (s : State) (sg : Nat) : State :=
  match s.partOfGroup sg with
  | none => s
  | some part =>
    let g := s.superGroup sg
    let limit := (s.partRegs (some part)).ageus.toNat
    let g := match g.target, g.ordered with
      | none, r :: _ =>
        if limit * 1000 ≤ s.gtc.toNat - r.joined.toNat then
          match s.bestTarget sg r.w r.h with
          | some t => { g with target := some t
                               requests := g.requests.map (fun x => if x = r then { r with targeted := some s.gtc } else x) }
          | none => g
        else g
      | _, _ => g
    let now := s.microsecond
    let s := (g.dueRequests now limit).foldl (fun (s : State) r => s.ageRequest part sg now r) (s.setSuperGroup sg g)
    s.setSuperGroup sg (refillRequests (s.superGroup sg))

/-- CREW_TARGET (R310). -/
def execCrewTarget (sg : Nat) (s : State) :
    Host.Outcome State Fault Refusal :=
  .next (
  s.crewTarget sg)

/-! ### Swap slots (R429, 25_package.md R464) -/

/-- The virtual address of swap slot k, and of the member block of a place. -/
def Partition.slotBase (p : Partition) (k : Nat) : Nat := bitsOf (p.dw 9) 51 12 * 4096 + k * 0x2001000
def memberBlock (slot : Nat) (p : Nat × Nat) : Nat := slot + 64 + (p.2 * 8 + p.1) * 0x40000

/-- The lowest slot whose header says that it is free. -/
def State.freeSlot (s : State) (n : Nat) (p : Partition) : Option Nat :=
  (List.range (bitsOf (p.dw 9) 3 0)).find? (fun k => match s.superRead n (p.slotBase k) with
    | .ok w => !bitAt w 63
    | .error _ => false)

/-- The header of a slot marked in use or free; a header that cannot be written stays as it is. -/
def State.markSlot (s : State) (n base : Nat) (use : Bool) : State :=
  match s.superWrite n base ((0, 8, if use then wordOf (2 ^ 63) else 0) :: (List.range 7).map (fun i => (8 * (i + 1), 8, 0))) with
  | .ok t => t
  | .error _ => s

/-- A doubleword copied with its poison; the tag of neither changes (15_memory_map.md R336). -/
def State.copyDword (s : State) (from_ : Option (Nat × Nat)) (src : Nat) (to_ : Option (Nat × Nat)) (dst : Nat) : State :=
  let bad := s.poison.contains (src / 8)
  let t := s.putBytes to_ dst 8 (s.viewBytes from_ src 8)
  if bad then { t with poison := dst / 8 :: t.poison } else t

/-- The doublewords of a bank written from an SRAM key to virtual memory, or back; the error is the address that failed. -/
def State.bankOut (s : State) (n va key : Nat) : List Nat → Except Nat State
  | [] => .ok s
  | i :: rest => match s.translate n 1 Need.store (va + 8 * i) with
    | .error _ => .error (va + 8 * i)
    | .ok (_, lin) => (s.copyDword none (key + 8 * i) (some (n, (va + 8 * i) / 128)) lin).bankOut n va key rest
def State.bankIn (s : State) (n va key : Nat) : List Nat → Except Nat State
  | [] => .ok s
  | i :: rest => match s.translate n 1 { read := true, plain := false } (va + 8 * i) with
    | .error _ => .error (va + 8 * i)
    | .ok (_, lin) => (s.copyDword (some (n, (va + 8 * i) / 128)) lin none (key + 8 * i)).bankIn n va key rest

/-- The banks of a list moved one after the other, each to or from the next 8 KiB after a member's save area (log 29). -/
def State.banksOut (s : State) (n va core : Nat) : List Nat → Except Nat State
  | [] => .ok s
  | b :: rest => match s.bankOut n va (sramKey core (b * 8192)) (List.range 1024) with
    | .error a => .error a
    | .ok t => t.banksOut n (va + 8192) core rest
def State.banksIn (s : State) (n va core : Nat) : List Nat → Except Nat State
  | [] => .ok s
  | b :: rest => match s.bankIn n va (sramKey core (b * 8192)) (List.range 1024) with
    | .error a => .error a
    | .ok t => t.banksIn n (va + 8192) core rest

/-! ### Swapping out (R429) -/

/-- The members that have not halted, with their places. -/
def Crew.living (c : Crew) : List ((Nat × Nat) × Member) := (c.rect.places.zip c.members).filter (fun e => !e.2.halted)

/-- Whether a member keeps its crew from being swapped: a surveyor stream, a copy stream, or a neighbour binding that leaves the
crew. -/
def State.bindsCrew (s : State) (c : Crew) (m : Member) : Bool :=
  let inside (n : Nat) : Bool := c.rect.cores.contains n
  (s.core m.core).streams.any (fun e => e.2.ctx == m.ctx)
    || (s.ctx m.core m.ctx).channels.any (fun e => e.2.kind == 0 || e.2.kind == 1
      || ((e.2.kind == 2 || e.2.kind == 3) && !inside (neighbour m.core e.2.dir.toNat)))

/-- The crew to swap out for a request: one of a lower level on a core of the target, the lowest level first and the latest granted
on a tie. -/
def State.victim (s : State) (r : CrewRequest) (t : Rect) : Option Crew :=
  let able := s.crews.filter (fun c => c.swapped.isNone && decide (c.level < r.level)
    && c.living.any (fun e => t.cores.contains e.2.core) && !c.living.any (fun e => s.bindsCrew c e.2))
  able.foldl (fun (best : Option Crew) c => match best with
    | none => some c
    | some b => if c.level < b.level ∨ (c.level = b.level ∧ b.granted < c.granted) then some c else some b) none

/-- One member stopped at its instruction boundary, with PEND empty (R434); one at level 2 when it comes back below it (R480). -/
def State.swapStop (s : State) (m : Member) : State :=
  let s := s.alterCtx m.core m.ctx (fun c => { c with pend := 0 })
  let c := s.ctx m.core m.ctx
  match c.run with
  | .ready =>
    if c.level = 2 then s.setCtx m.core m.ctx { c with pendingStop := some .swapped }
    else (((s.lay m.core m.ctx .swapped true).settleSync m.core m.ctx true).forgetAsked m.core m.ctx).withdrawClaim m.core m.ctx
  | .faulted | .preempted =>
    if c.level = 2 then s else (s.lay m.core m.ctx .swapped true)
  | _ => s

/-- The members of a swap in progress that run again, one that a gang release or a resume let go, stopped anew (R429). -/
def State.stopAgain (s : State) (c : Crew) : State :=
  c.living.foldl (fun (s : State) e =>
    let x := s.ctx e.2.core e.2.ctx
    if x.run = .swapped ∨ x.pendingStop = some .swapped then s else s.swapStop e.2) s

/-- A barrier completion that reaches a stopped member is kept in PEND, with the status in rd. -/
def State.captureBarrier (s : State) (m : Member) : State :=
  let mine (a : Arrival) : Bool := a.core == m.core && a.ctx == m.ctx
  match s.barriers.findSome? (fun b => (b.arrivals.find? mine).bind (fun a => if b.full a.epoch then some a else none)) with
  | none => s
  | some a =>
    let c := s.ctx m.core m.ctx
    let word := 2 ^ 63 + 2 * 2 ^ 60 + bitsOf c.pc 47 0
    let k := (a.dies.foldl Ctx.kill c).setReg a.rd a.status
    let s := (s.setCtx m.core m.ctx { k with pc := c.pc + wordOf a.length, wait := .none, reserve := 0, pend := wordOf word }).stepStopped
      m.core m.ctx c.pc
    let bars := s.barriers.map (fun (b : Barrier) => { b with arrivals := b.arrivals.filter (fun x => !mine x) })
    { s with barriers := bars.filter (fun b => !b.idle) }

/-- Whether every member stands still, with every count 0 and every counter drained. -/
def State.crewQuiet (s : State) (c : Crew) : Bool :=
  c.living.all (fun e =>
    let x := s.ctx e.2.core e.2.ctx
    x.run == .swapped && x.outstanding == {} && s.settled e.2.core e.2.ctx)

/-- The area and the banks of a member written to its block. -/
def State.swapSave (s : State) (n slot : Nat) : List ((Nat × Nat) × Member) → Except (Member × Nat) State
  | [] => .ok s
  | (p, m) :: rest =>
    let va := memberBlock slot p
    match s.saveAt n va m.core m.ctx true with
    | .error a => .error (m, a)
    | .ok t => match t.banksOut n (va + 0x8000) m.core ((t.core m.core).allotment m.ctx) with
      | .error a => .error (m, a)
      | .ok u => u.swapSave n slot rest

/-- The neighbour queues that belong to a crew on a core: of directions bound by its members. -/
def State.crewQueues (s : State) (c : Crew) (core : Nat) : Table (List Entry) :=
  let ours (n : Nat) (kind : BitVec 3) (dir : Nat) : Bool := c.living.any (fun e =>
    e.2.core == n && (s.ctx e.2.core e.2.ctx).channels.any (fun h => h.2.kind == kind && h.2.dir.toNat == dir))
  (s.core core).neighbours.filter (fun e => ours core 3 e.1 || ours (neighbour core e.1) 2 (opposite e.1))

/-- The number of the member that stands on a core. -/
def Crew.indexOf (c : Crew) (core : Nat) : Nat := (c.members.findIdx? (fun m => m.core == core)).getD 0

/-- Whether a barrier is the crew's, and its cores numbered anew. -/
def Crew.owns (c : Crew) (b : Barrier) : Bool :=
  b.cores.all (fun n => c.rect.cores.contains n)
    && (decide (1 < b.cores.length) || b.arrivals.any (fun a => c.members.any (fun m => m.core == a.core && m.ctx == a.ctx)))
def Barrier.renumber (b : Barrier) (f : Nat → Nat) (g : Nat → Nat → Nat) : Barrier :=
  { b with cores := b.cores.map f, counts := sortBy (fun x y => decide (x.1 ≤ y.1)) (b.counts.map (fun e => (f e.1, e.2)))
           arrivals := b.arrivals.map (fun a => { a with core := f a.core, ctx := g a.core a.ctx }) }

/-- The crew as it stands in its slot: contexts, banks, queues, messages and barriers kept, helpers and banks freed. -/
def State.swapAway (s : State) (c : Crew) (slot : Nat) : State :=
  let crew : Crew := { c with
    swapped := some slot
    saved := c.members.map (fun m => if m.halted then {} else (s.ctx m.core m.ctx).unclaimed)
    savedBanks := c.members.map (fun m => if m.halted then [] else ((s.core m.core).allotment m.ctx).map (fun b => (b, m.ctx)))
    savedNeighbours := c.members.map (fun m => s.crewQueues c m.core)
    savedInboxes := c.members.map (fun m => if m.halted then [] else (s.core m.core).messagesFor m.ctx)
    savedBarriers := (s.barriers.filter c.owns).map (fun b => b.renumber c.indexOf (fun _ _ => 0)) }
  let queues := c.members.map (fun m => (m.core, (s.crewQueues c m.core).map (·.1)))
  let clear (s : State) (m : Member) : State :=
    if m.halted then s
    else
      let s := (s.powerDown m.core m.ctx).leaveTile m.core m.ctx
      let k := s.core m.core
      s.setCore m.core { k.setCtx m.ctx {} with
        inbox := k.inbox.filter (fun x => !(x.cls == 0 && x.dctx == m.ctx))
        waiters := k.waiters.filter (fun w => w.ctx ≠ m.ctx) }
  let s := c.members.foldl clear s
  let s := queues.foldl (fun (s : State) e =>
    s.setCore e.1 { s.core e.1 with neighbours := (s.core e.1).neighbours.filter (fun q => !e.2.contains q.1) }) s
  let back : CrewRequest :=
    { task := { entry := 0, prio := 0, cost := 0, join := 0, args := Vector.replicate 4 0, operands := [], pull := 0, anchor := none
                part := c.part }
      w := c.rect.w, h := c.rect.h, level := c.level, joined := s.gtc, restore := some c.id }
  let g := s.superGroup c.sg
  { s.setSuperGroup c.sg (g.atHead back) with
    crews := s.crews.map (fun (x : Crew) => if x.id = c.id then crew else x)
    barriers := s.barriers.filter (fun b => !c.owns b) }

/-- A swap that is abandoned: the other members go on, and the slot is free again. -/
def State.abandonSwap (s : State) (c : Crew) : State :=
  let s := { s with crews := s.crews.map (fun (x : Crew) => if x.id = c.id then { x with swapped := none } else x) }
  c.living.foldl (fun (s : State) e =>
    let x := s.ctx e.2.core e.2.ctx
    if x.run = .swapped then s.lift e.2.core e.2.ctx
    else s.setCtx e.2.core e.2.ctx { x with pendingStop := if x.pendingStop = some .swapped then none else x.pendingStop }) s

/-- The floors of the members' claims as they leave their cores (07_vector_instr.md R188). -/
def State.raiseFloors (s : State) (c : Crew) : State :=
  c.living.foldl (fun (s : State) e => s.alterCtx e.2.core e.2.ctx (fun x =>
    { x with claim := x.claim.map (fun q => { q.settled with floor := x.claimFloor q }) })) s

/-- A swap that has begun goes on: its members are held; once they are quiet, each is written to the slot, and the crew leaves. A save that fails
abandons it (R420). -/
def State.swapOn (s : State) (c : Crew) (n slot base : Nat) : State :=
  if ¬ s.crewQuiet c then s.stopAgain c
  else
    let s := (c.living.foldl (fun (s : State) e => s.captureBarrier e.2) s).raiseFloors c
    match s.swapSave n base c.living with
    | .ok t => t.swapAway c slot
    | .error (m, va) => ((s.abandonSwap c).saveFailed m.core m.ctx 1 va).markSlot n base false

/-- A swap begins: the slot is marked and every member stopped. -/
def State.swapBegin (s : State) (c : Crew) (n slot base : Nat) : State :=
  let s := { s with crews := s.crews.map (fun (x : Crew) => if x.id = c.id then { x with swapped := some slot } else x) }
  c.living.foldl (fun (s : State) e => s.swapStop e.2) (s.markSlot n base true)

/-- CREW_SWAP: the swap in progress goes on, or one begins for a request that has kept its target for a further AGEUS µs. -/
def State.crewSwap (s : State) (sg : Nat) : State :=
  match s.partOfGroup sg with
  | none => s
  | some n => match s.part n with
    | none => s
    | some p =>
      let g := s.superGroup sg
      match s.crews.find? (fun c => c.sg == sg && c.swapped.isSome && c.saved.isEmpty) with
      | some c => s.swapOn c n (c.swapped.getD 0) (p.slotBase (c.swapped.getD 0))
      | none => match g.target, g.requests.find? (fun r => r.targeted.isSome) with
        | some t, some r =>
          if s.gtc.toNat - (r.targeted.getD 0).toNat < p.regs.ageus.toNat * 1000 ∨ p.gang.isSome then s
          else match s.victim r t, s.freeSlot n p with
            | some c, some k => s.swapBegin c n k (p.slotBase k)
            | _, _ => s
        | _, _ => s

/-- CREW_SWAP (R429). -/
def execCrewSwap (sg : Nat) (s : State) :
    Host.Outcome State Fault Refusal :=
  .next (
  s.crewSwap sg)

/-! ### Restoring (R429) -/

/-- What a member leaves to be done at its new place: units for its claim, and registers where it had been pre-empted or the core has
too few (01_assembly.md R29 to R32). -/
def State.resumeWaits (s : State) (core h : Nat) : State :=
  let c := s.ctx core h
  let s := if c.run = .preempted then
      (let w : Waiter := { ctx := h, preempted := true, need := c.holds - 16 }
       s.setCore core { s.core core with waiters := (s.core core).waiters ++ [w] })
    else s
  (s.claimAgain core h).seat core h

/-- Member k of a crew restored from its block. A reload that fails leaves it FAULTED as it stands (R420). -/
def State.restoreMember (s : State) (n base : Nat) (c : Crew) (rect : Rect) (k : Nat) (m : Member) : State :=
  let old := c.saved.getD k {}
  let va := memberBlock base (rect.places.getD k (0, 0))
  let banks := (c.savedBanks.getD k []).map (·.1)
  let x := { old with run := old.under, under := .ready, wait := if old.wait = .barrier then .barrier else .none }
  let d := s.core m.core
  let s := s.setCore m.core { d.setCtx m.ctx x with
    banks := banks.foldl (fun t b => Table.put t b m.ctx) d.banks
    inbox := d.inbox ++ (c.savedInboxes.getD k []).map (fun (y : Message) => y.redirect m.ctx)
    neighbours := (c.savedNeighbours.getD k []).foldl (fun t e => Table.put t e.1 e.2) d.neighbours }
  match s.banksIn n (va + 0x8000) m.core banks with
  | .error a => s.saveFailed m.core m.ctx 2 a
  | .ok t => match t.reloadFrom n va x with
    | .error a => t.saveFailed m.core m.ctx 2 a
    | .ok y => ((t.setCtx m.core m.ctx y).acquire m.core).resumeWaits m.core m.ctx

/-- A swapped crew restored on a rectangle: the slot is freed. -/
def State.restoreCrew (s : State) (c : Crew) (rect : Rect) (n base : Nat) : State :=
  let place (k : Nat) : Member :=
    let core := rect.core (rect.places.getD k (0, 0))
    let old := c.members.getD k { core := 0, ctx := 0 }
    { core := core, ctx := if old.halted then old.ctx else ((s.core core).freeHelpers.head?).getD 0, halted := old.halted }
  let ms := (List.range c.members.length).map place
  let s := (List.range ms.length).foldl (fun (s : State) k => match ms[k]? with
    | some m => if m.halted then s else s.restoreMember n base c rect k m
    | none => s) s
  let at_ (i : Nat) : Member := ms.getD i { core := 0, ctx := 0 }
  let bars := c.savedBarriers.map (fun b => b.renumber (fun i => (at_ i).core) (fun i _ => (at_ i).ctx))
  let crew : Crew := { c with rect := rect, members := ms, swapped := none, saved := [], savedBanks := [], savedNeighbours := []
                              savedInboxes := [], savedBarriers := [] }
  { s with crews := s.crews.map (fun (x : Crew) => if x.id = c.id then crew else x), barriers := s.barriers ++ bars }.markSlot n base false

/-- CREW_RESTORE: the request that the arbiter grants next, where it is a swapped crew. -/
def State.crewRestore (s : State) (sg : Nat) : State :=
  match s.crewChoice sg with
  | some (r, rect) =>
    (match s.crews.find? (fun c => some c.id == r.restore && !c.saved.isEmpty), s.partOfGroup sg with
      | some c, some n =>
        (match s.part n with
          | some p => (s.granted311 sg r).restoreCrew c rect n (p.slotBase (c.swapped.getD 0))
          | none => s)
      | _, _ => s)
  | none => s

/-- CREW_RESTORE (R429). -/
def execCrewRestore (sg : Nat) (s : State) :
    Host.Outcome State Fault Refusal :=
  .next (
  s.crewRestore sg)

end Sys2Proof.Machine
end

