-- ==== Sys2Proof/Machine/Flags.lean ====
section
/-! DEFINITION. FPFLAGS and the rounding mode of an instruction (02_numbers.md R52, R58, R59). -/

namespace Sys2Proof.Machine

/-- The mode of an instruction: its aux code, or STATUS.RM when aux = 7 (R52, 07_vector_instr.md R190). -/
def Ctx.mode (c : Ctx) (aux : BitVec 3) : Rounding := roundingOf (if aux = 7 then c.rm else aux.toNat)

/-- The flags an instruction raises when it retires (R59): set, never cleared. -/
def State.raise (s : State) (f : FpFlags) : State := s.setMe { s.me with fpflags := s.me.fpflags ||| f.setWidth 64 }

/-- The OR of the flags of active positions. -/
def orFlags (fs : List FpFlags) : FpFlags := fs.foldl (· ||| ·) 0

end Sys2Proof.Machine
end

