-- ==== Sys2Proof/Machine/Lanes.lean ====
section
/-! DEFINITION. Elements in the lanes of a vector register (07_vector_instr.md R179 to R181), and the types of vector operations
(R191, 03_encoding.md R87). -/

namespace Sys2Proof.Machine

/-- The format of a type code (03_encoding.md R87), as a FMT code of 02_numbers.md R44. -/
def typeCode (ty : Nat) : Nat := if ty < 8 then ty + 1 else ty + 8

/-- The width in bits of an element of a format. -/
def Fmt.width : Fmt → Nat
  | .int _ bits => bits
  | .flt f => f.expBits + f.man + 1
  | .coded _ => 8
  | .raw => 8
  | .plane p => p

/-- Whether a format is a signed integer. -/
def Fmt.isSigned : Fmt → Bool
  | .int sgn _ => sgn
  | _ => false

/-- Element i of w bits: one lane, or two for 64 bits with the low word first (R179). -/
def element (v : List Lane) (w i : Nat) : Nat :=
  if w = 64 then (v.getD (2 * i) 0).toNat + 2 ^ 32 * (v.getD (2 * i + 1) 0).toNat else (v.getD i 0).toNat % 2 ^ w

/-- The lanes of an element in canonical form (R179). -/
def canonical (f : Fmt) (x : Nat) : List Lane :=
  let w := f.width
  if w = 64 then [BitVec.ofNat 32 x, BitVec.ofNat 32 (x / 2 ^ 32)]
  else [if f.isSigned then BitVec.ofInt 32 (intValue true w x) else BitVec.ofNat 32 (x % 2 ^ w)]

/-- Element i written. -/
def putElement (v : List Lane) (f : Fmt) (i x : Nat) : List Lane :=
  match canonical f x with
  | [lo, hi] => (v.set (2 * i) lo).set (2 * i + 1) hi
  | [lane] => v.set i lane
  | _ => v

/-- Elements first, first + 1, … written. -/
def putElements (v : List Lane) (f : Fmt) (first : Nat) : List Nat → List Lane
  | [] => v
  | x :: rest => putElements (putElement v f first x) f (first + 1) rest

/-- The element positions of a claim, and the active count of a predicate, for a width (R179, R180). -/
def positions (w g : Nat) : Nat := if w = 64 then g / 2 else g

/-- lanes(j): what a predicate receives for j elements (R180). -/
def lanesOf (w j : Nat) : Nat := if w = 64 then 2 * j else j

/-- The active count of a predicate for an element of a format. -/
def active (c : Claim) (k : BitVec 2) (w : Nat) : Nat := positions w (c.pred k)

/-- A vector register of a claim. -/
def Claim.reg (c : Claim) (v : BitVec 4) : List Lane := c.v.toList.getD v.toNat []
def Claim.setReg (c : Claim) (v : BitVec 4) (x : List Lane) : Claim := { c with v := c.v.setIfInBounds v.toNat x }

/-- Whether a vector register awaits the data of an earlier load (R181). -/
def State.vAwaited (s : State) (v : BitVec 4) : Bool :=
  s.requests.any (fun q => q.core == s.cur.1 && q.ctx == s.cur.2 && (match q.target with
    | .element r _ _ => r == v.toNat
    | _ => false))

/-- A vector register read: it stalls for data on its way (R181), and a load that returned no value traps at its first
reader (16_ordering.md R373). -/
def State.readV (s : State) (c : Claim) (v : BitVec 4) : Except Stop (List Lane) :=
  if s.vAwaited v then stall .retry
  else match Table.look s.me.lostLoads (64 + v.toNat) with
    | some e => pageTrap e.address e.page
    | none => .ok (c.reg v)

/-- A vector register that an instruction will write: data on its way to it comes first. -/
def State.writableV (s : State) (v : BitVec 4) : Except Stop Unit := if s.vAwaited v then stall .retry else .ok ()

/-- The format of an operation's type, among the types it accepts (R191). -/
def typeIn (ty : BitVec 4) (lo hi : Nat) : Except Stop Fmt :=
  if ty.toNat < lo ∨ hi < ty.toNat then trapWith .format 0
  else match fmtOf (typeCode ty.toNat) with
    | some f => .ok f
    | none => trapWith .format 0

/-- An element extended to 64 bits as its type gives (R201). -/
def extendElement (f : Fmt) (x : Nat) : Word :=
  if f.isSigned then wordOfInt (intValue true f.width x) else wordOf (x % 2 ^ f.width)

/-- An instruction that wrote a claim retires: the claim, and the loads that its destination discards. -/
def State.retireV (s : State) (dies : List Reg) (writes : List (Reg × Word)) (vd : Option (BitVec 4)) (c : Claim)
    (f : FpFlags) : Run := do
  let r ← s.retire 4 dies writes
  let r := match vd with
    | none => r
    | some v => match Table.look r.me.lostLoads (64 + v.toNat) with
      | none => r
      | some e =>
        let r := r.discard s.cur.1 s.cur.2 e
        r.setMe { r.me with lostLoads := Table.drop r.me.lostLoads (64 + v.toNat) }
  pure ((r.setClaim c).raise f)

end Sys2Proof.Machine
end

