-- ==== Sys2Proof/Machine/Elements.lean ====
section
/-! DEFINITION. Elements of arrays as the engines and the copy engines read and write them: swizzle and stamps (09_copy_instr.md
R249, R250), coded regions (02_numbers.md R61 to R65) and bit planes (R66, R67). -/

namespace Sys2Proof.Machine

/-- Why an engine or copy cannot take an element (08_matrix_instr.md R225, R483; 09_copy_instr.md R261). `absent` is an element
of another package that has still to be asked for, or one that a busy patch (08_matrix_instr.md R214) or an earlier access of the
context to the same location (05_memory_instr.md R122) holds back. -/
inductive ElementFault where
  | fault (cause : Cause) (address : Word)
  | poison (address : Word)
  | absent (pointer : Word) (place : Place) (size : Nat)
  deriving DecidableEq, Repr

/-- What a failed check of a pointer means to an engine. -/
def Stop.asElement : Stop → ElementFault
  | .trap t | .trapIn _ t => .fault t.cause t.faddr
  | .wait _ | .waitIn _ _ => .fault .address 0

/-- A swizzled pointer (R249). -/
def swizzled (z : Nat) (p : Word) : Word := setBits p 6 4 (bitsOf p 6 4 ^^^ (bitsOf p 9 7 % 2 ^ z))

/-- Where an element's bytes are, for the unit `grp`; `v` is the machine as the issuing context sees it. -/
def State.elementPlace (v : State) (p : Word) (size : Nat) (need : Need) : Except ElementFault Place :=
  match v.placeOf p size need false with
  | .error e => .error e.asElement
  | .ok pl =>
    if pl.lost then .error (.fault .page p)
    else if v.patchBusy pl.key then .error (.absent p pl size)
    else .ok pl

/-- What another package has returned to a unit for a pointer; none where it has not been asked. -/
def State.fetched (v : State) (grp : Nat) (p : Word) : Option Stage :=
  (v.requests.find? (fun q => q.grp == grp && q.pointer == p)).map (·.stage)

/-- The bytes at a place, read plainly for the unit `grp`, whose number is above those of the earlier accesses of its context; `z` is the swizzle to which a stamp must agree (R250). -/
def State.placeBytes (v : State) (grp : Nat) (p : Word) (pl : Place) (size : Nat) (z : Option Nat) : Except ElementFault Nat :=
  if pl.remote.isSome then
    match v.fetched grp p with
    | some (.returned d) => .ok (bitsOf d (8 * size - 1) 0)
    | some (.failed cause reason _ _) => .error (if cause = .page ∧ reason = 5 then .poison (dwordPtr p) else .fault cause p)
    | _ => .error (.absent p pl size)
  else if v.conflictsUpTo grp pl.key size then .error (.absent p pl size)
  else
    match z, v.stamp pl.key with
    | some z, some n =>
      if n = z then
        match v.plainRead pl size with
        | some x => .ok x
        | none => .error (.poison (dwordPtr p))
      else .error (.fault .layout p)
    | _, _ =>
      match v.plainRead pl size with
      | some x => .ok x
      | none => .error (.poison (dwordPtr p))

/-- The bytes at a pointer. -/
def State.elementBytes (v : State) (grp : Nat) (p : Word) (size : Nat) (z : Option Nat) : Except ElementFault Nat := do
  let pl ← v.elementPlace p size Need.load
  v.placeBytes grp p pl size z

/-- A pointer advanced, or the PTROVF of its element. -/
def elementPtr (base : Word) (delta : Int) : Except ElementFault Word :=
  match advance base delta with
  | some q => .ok q
  | none => .error (.fault .ptrovf base)

/-- n bytes of a region from an offset, read one by one. -/
def State.regionBytes (v : State) (grp : Nat) (base : Word) (z : Option Nat) : Nat → Nat → Except ElementFault Nat
  | _, 0 => .ok 0
  | off, n + 1 => do
    let q ← elementPtr base off
    let b ← v.elementBytes grp q 1 z
    let rest ← v.regionBytes grp base z (off + 1) n
    pure (b + 256 * rest)

/-! ### Coded blocks (R61 to R65) -/

/-- What an exponent token says (R63). -/
inductive Token where
  | diff (d : Int)
  | zero
  | raw
  deriving DecidableEq, Repr

/-- The tokens of a table with their bits, in the order of R63. -/
def tokenBook (t : Nat) : List (List Nat × Token) :=
  match t with
  | 0 => [([], .raw)]
  | 1 => [([0], .diff 0), ([1, 0], .diff 1), ([1, 1, 0], .diff (-1)), ([1, 1, 1], .raw)]
  | 2 => [([0, 0], .diff 0), ([0, 1], .diff 1), ([1, 0, 0], .diff (-1)), ([1, 0, 1], .diff 2), ([1, 1, 0, 0], .diff (-2)),
          ([1, 1, 0, 1], .zero), ([1, 1, 1], .raw)]
  | _ => [([0], .zero), ([1, 0], .diff 0), ([1, 1, 0], .diff 1), ([1, 1, 1], .raw)]

/-- The elements of a block (R61). -/
def blockLength (p : Word) : Nat := 2 ^ (ptrBlk p + 3)

/-- The offset of the block area: the directory rounded up to a multiple of 8 (R61). -/
def blockArea (nb : Nat) : Nat := (8 + 4 * ((nb + 15) / 16) + 7) / 8 * 8

/-- A bit of a token stream that starts at a byte, the most significant bit first. -/
def streamBit (rd : Nat → Except ElementFault Nat) (start i : Nat) : Except ElementFault Nat := do
  let b ← rd (start + i / 8)
  pure (b / 2 ^ (7 - i % 8) % 2)

/-- n bits of a token stream, the most significant first. -/
def streamBits (rd : Nat → Except ElementFault Nat) (start i : Nat) : Nat → Nat → Except ElementFault Nat
  | 0, acc => .ok acc
  | n + 1, acc => do
    let b ← streamBit rd start i
    streamBits rd start (i + 1) n (2 * acc + b)

/-- The next token of a stream, and the bit after it. -/
def readToken (rd : Nat → Except ElementFault Nat) (start i : Nat) (bad : ElementFault) (book : List (List Nat × Token)) :
    Nat → Except ElementFault (Token × Nat)
  | 0 => .error bad
  | fuel + 1 =>
    match book.find? (fun e => e.1.isEmpty) with
    | some e => .ok (e.2, i)
    | none => do
      let b ← streamBit rd start i
      let left := book.filterMap (fun (e : List Nat × Token) => match e.1 with
        | x :: xs => if x = b then some (xs, e.2) else none
        | [] => none)
      readToken rd start (i + 1) bad left fuel

/-- The exponent fields of n elements, and the bit after their tokens. -/
def readExponents (rd : Nat → Except ElementFault Nat) (start : Nat) (f : FloatFmt) (t b : Nat) (bad : ElementFault) :
    Nat → Nat → Except ElementFault (List Nat × Nat)
  | 0, i => .ok ([], i)
  | n + 1, i => do
    let (tok, i) ← readToken rd start i bad (tokenBook t) 5
    let (e, i) ← match tok with
      | .zero => pure (0, i)
      | .raw => do
        let e ← streamBits rd start i f.expBits 0
        pure (e, i + f.expBits)
      | .diff d =>
        let e : Int := (b : Int) + d
        if e < 0 ∨ 2 ^ f.expBits ≤ e then .error bad else pure (e.toNat, i)
    let (es, i) ← readExponents rd start f t b bad n i
    pure (e :: es, i)

/-- The elements of the block at an offset of the block area, and the offset after it (R62). Its token stream is read by `rdToken`, which
does not run past the block area (R64). -/
def parseBlock (rd rdToken : Nat → Except ElementFault Nat) (f : FloatFmt) (l o : Nat) (bad : ElementFault) :
    Except ElementFault (List Nat × Nat) := do
  let h ← rd o
  if h % 2 = 1 then pure (List.replicate l 0, o + 1)
  else
    let b := h / 2 % 32
    if f.expBits = 4 ∧ 15 < b then .error bad
    else
      let n := l * (1 + f.man) / 8
      let bytes ← (List.range n).mapM (fun i => rd (o + 1 + i))
      let section_ := bytes.foldr (fun x acc => x + 256 * acc) 0
      let (es, bits) ← readExponents rdToken (o + 1 + n) f (h / 64) b bad l 0
      let field (i : Nat) : Nat := section_ / 2 ^ (i * (1 + f.man)) % 2 ^ (1 + f.man)
      let xs := (List.range l).map (fun i =>
        field i / 2 ^ f.man * 2 ^ (f.man + f.expBits) + es.getD i 0 * 2 ^ f.man + field i % 2 ^ f.man)
      pure (xs, o + 1 + n + (bits + 7) / 8)

/-- What a decoder finds in the header of a region: NB, the length, and directory entries. -/
structure Region where
  nb : Nat
  len : Nat
  entry : Nat → Except ElementFault Nat
  byte : Nat → Except ElementFault Nat

/-- The region at a pointer. -/
def State.region (v : State) (grp : Nat) (base : Word) (z : Option Nat) : Except ElementFault Region := do
  let nb ← v.regionBytes grp base z 0 4
  let len ← v.regionBytes grp base z 4 4
  pure { nb := nb, len := len
         entry := fun j => v.regionBytes grp base z (8 + 4 * j) 4
         byte := fun o => v.regionBytes grp base z (blockArea nb + o) 1 }

/-- A malformed block: its index stands where an address would (R64). -/
def malformed (b : Nat) : ElementFault := .fault .format (wordOf b)

/-- Blocks parsed in ascending order up to block b, with the comparisons of R64. -/
def Region.parseUpTo (g : Region) (f : FloatFmt) (l b : Nat) : Nat → Nat → Nat → Except ElementFault (List Nat)
  | 0, _, _ => .error (malformed b)
  | fuel + 1, n, o => do
    let bad := malformed n
    let rdToken (i : Nat) : Except ElementFault Nat := if g.len ≤ i then .error bad else g.byte i
    let (xs, e) ← parseBlock g.byte rdToken f l o bad
    let next ← if n % 16 = 15 ∧ n / 16 + 1 < (g.nb + 15) / 16 then g.entry (n / 16 + 1) else pure e
    if next ≠ e ∨ (n + 1 = g.nb ∧ e ≠ g.len) then .error bad
    else if n = b then pure xs
    else g.parseUpTo f l b fuel (n + 1) e

/-- Block b of a region (R64). -/
def Region.block (g : Region) (f : FloatFmt) (l b : Nat) : Except ElementFault (List Nat) := do
  let j := b / 16
  let o ← g.entry j
  if (j = 0 ∧ o ≠ 0) ∨ g.len < o then .error (malformed (16 * j))
  else g.parseUpTo f l b 16 (16 * j) o

/-! ### One element -/

/-- The value of element e of a group of bit planes from its first t planes, the rest read as 0 (R66, R67). -/
def planeElement (words : List Nat) (p e : Nat) : Nat :=
  (List.range words.length).foldl (fun n i => n + words.getD i 0 / 2 ^ e % 2 * 2 ^ (p - 1 - i)) 0

/-- Element i of the array at a pointer in a format: its pattern, or none out of the bounds of a coded region. `t` planes of
a bit-plane format are read. -/
def State.readElement (v : State) (grp : Nat) (base : Word) (f : Fmt) (i : Int) (z : Nat) (stamp : Option Nat) (t : Nat) :
    Except ElementFault (Option Nat) :=
  match f with
  | .coded g => do
    let r ← v.region grp base stamp
    let l := blockLength base
    if i < 0 ∨ (r.nb * l : Nat) ≤ i then pure none
    else
      let xs ← r.block g l (i.toNat / l)
      pure (some (xs.getD (i.toNat % l) 0))
  | .plane p => do
    let words ← (List.range (min t p)).mapM (fun w => do
      let q ← elementPtr base (8 * p * (i / 64) + 8 * w)
      v.elementBytes grp q 8 stamp)
    pure (some (planeElement words p (i % 64).toNat))
  | f => do
    let size := f.width / 8
    let q ← elementPtr base (i * size)
    let x ← v.elementBytes grp (swizzled z q) size stamp
    pure (some x)

/-! ### Writing (R250) -/

/-- Plain data written by a unit at a place of this package: stores of engines set the stamp to none. -/
def State.writePlace (s : State) (pl : Place) (size x : Nat) : State := s.putBytes pl.line pl.key size x

/-- A request of a unit to another package: it belongs to no context. -/
def State.unitRequestOf (s : State) (core part grp : Nat) (p : Word) (pl : Place) (op : MemOp) (data : Word) : Request :=
  { id := s.nextId, grp := grp, core := core, ctx := 31, blocking := true, op := op, key := pl.key, pointer := p, part := part
    level := 0, data := data, remote := pl.remote, home := pl.home, cls := none, pc := 1 }

/-- A unit's request sent. -/
def State.unitRequest (s : State) (core part grp : Nat) (p : Word) (pl : Place) (op : MemOp) (data : Word) : State :=
  { s with nextId := s.nextId + 1 }.dispatch (s.unitRequestOf core part grp p pl op data)

end Sys2Proof.Machine
end

