-- ==== Sys2Proof/Machine/Engines.lean ====
section
/-! DEFINITION. The matrix engines (08_matrix_instr.md R213 to R225, R483), the plates that MSP runs through (R231 to R234,
18_sparse.md R379 to R384), and the checks of a command block (R216, R217). A running command goes on step by step, as far as its
operands, its streams and the pins of its fetch unit let it. -/

namespace Sys2Proof.Machine

/-! ### Command blocks (R216) -/

def Command.dw (c : Command) (i : Nat) : Word := c.block.toList.getD i 0
def Command.afmt (c : Command) : Nat := bitsOf (c.dw 0) 53 48
def Command.bfmt (c : Command) : Nat := bitsOf (c.dw 0) 47 42
def Command.asrc (c : Command) : Nat := bitsOf (c.dw 0) 41 40
def Command.bsrc (c : Command) : Nat := bitsOf (c.dw 0) 39 38
def Command.afwd (c : Command) : Bool := bitAt (c.dw 0) 37
def Command.bfwd (c : Command) : Bool := bitAt (c.dw 0) 36
def Command.writesBack (c : Command) : Bool := bitAt (c.dw 0) 58
def Command.half (c : Command) : Nat := bitsOf (c.dw 0) 19 19
def Command.planes (c : Command) : Nat := bitsOf (c.dw 0) 18 16
def Command.aptr (c : Command) : Word := c.dw 1
def Command.astride (c : Command) : Nat := bitsOf (c.dw 2) 39 0
def Command.bptr (c : Command) : Word := c.dw 3
def Command.bstride (c : Command) : Nat := bitsOf (c.dw 4) 39 0
def Command.isBlock (c : Command) : Bool := c.kind == .mma || c.kind == .mbs || c.kind == .msp
/-- The inner dimension: 64 for MSP. -/
def Command.k (c : Command) : Nat := if c.kind = .msp then 64 else bitsOf (c.dw 0) 35 20
/-- The output of a command: where it stores the patch, and the row stride. -/
def Command.output (c : Command) : Word := if c.isBlock then c.dw 5 else c.pointer
def Command.outputStride (c : Command) : Nat := if c.isBlock then bitsOf (c.dw 6) 39 0 else c.stride

/-- The kind of a block's KIND field; none for a reserved one. -/
def kindOf (n : Nat) : Option CmdKind :=
  match n with
  | 0 => some .mma
  | 1 => some .mbs
  | 2 => some .msp
  | _ => none

/-! ### Formats (R215, R221) -/

def isF8 (f : Nat) : Bool := decide (0x14 ≤ f) && decide (f ≤ 0x17)
def isHalf (f : Nat) : Bool := f == 0x12 || f == 0x13
def isInt8 (f : Nat) : Bool := f == 0x01 || f == 0x05
def isPlane (f : Nat) : Bool := decide (0x20 ≤ f) && decide (f ≤ 0x22)

/-- The step size of a pairing of formats; none where the pairing is not accepted (R221). -/
def stepSize (kind : CmdKind) (a b : Nat) : Option Nat :=
  if kind = .mbs then (if isPlane a ∧ isInt8 b then some 64 else none)
  else if isF8 a ∧ isF8 b then some 2
  else if isHalf a ∧ isHalf b then some 1
  else if a = 0x11 ∧ b = 0x11 then some 1
  else if isInt8 a ∧ isInt8 b then some 2
  else none

/-- Formats MLD reads and MST writes (R215). -/
def mldFormat (f : Nat) : Bool := [0x11, 0x03, 0x12, 0x13, 0x14, 0x15].contains f
def mstFormat (f : Nat) : Bool := [0x11, 0x12, 0x13, 0x14, 0x15, 0x03, 0x02, 0x01, 0x07, 0x06, 0x05].contains f

/-- A format code as a format; `raw` stands for a reserved one, which no accepted command names. -/
def fmtAt (f : Nat) : Fmt := (fmtOf f).getD .raw

/-! ### The checks of a command (R213, R214, R217) -/

/-- Whether patch p of a core lies inside its scratchpad portion (R213). -/
def State.patchOk (s : State) (core p : Nat) : Bool := s.offsetOk core (0x1000 * p) 0 && s.offsetOk core (0x1000 * p + 0xFFF) 0

/-- Whether [lo, hi) of a core's offsets meets patch p. -/
def meetsPatch (p lo hi : Nat) : Bool := decide (lo < 0x1000 * p + 0x1000) && decide (0x1000 * p < hi)

/-- Whether a matrix operand overlaps patch p of the engine's core (R214): its rows, of `len` elements each; a coded array's
whole region; a bit-plane row's groups. -/
def State.overlaps (v : State) (core p : Nat) (base : Word) (f : Nat) (rows stride len : Nat) : Bool :=
  if rows = 0 ∨ len = 0 ∨ ptrSpace base ≠ 1 ∨ v.coreNamed base ≠ some (.inl core) then false
  else
    let o := ptrOff base
    match fmtAt f with
    | .coded _ =>
      let at_ (i : Nat) : Nat := readBytes v.mem (sramKey core (o + i)) 4
      meetsPatch p o (o + blockArea (at_ 0) + at_ 4)
    | .plane n => (List.range rows).any (fun i =>
        meetsPatch p (o + 8 * n * (i * stride / 64)) (o + 8 * n * ((i * stride + len + 63) / 64)))
    | g => (List.range rows).any (fun i =>
        meetsPatch p (o + i * stride * (g.width / 8)) (o + (i * stride + len) * (g.width / 8)))

/-- The space of a pointer an engine may use, and what R40 and R42 check of it at issue. -/
def State.engineSpace (v : State) (p : Word) (ok : List Nat) : Except Stop Unit := do
  spaces p ok
  if ptrSpace p = 0 then
    if v.myPart = none then trapWith .address p
  else
    let _ ← v.placeOf p 1 {} false
    pure ()

/-- The tag effect's alignment (R215). -/
def tagAligned (base : Word) (stride : Nat) : Bool :=
  decide (ptrAddr base % 8 = 0) && decide (stride * ((fmtAt (ptrFmt base)).width / 8) % 8 = 0)

/-- A command block checked in the order of R217, then for R213 and R214. `v` is the machine as the issuing context sees it,
and `q` what an ADDRESS trap names where the block itself is at fault (log 17). -/
def State.checkBlock (v : State) (core : Nat) (c : Command) (q : Word) : Except Stop Unit := do
  let te := bitsOf (c.dw 6) 41 40
  let pair := if c.kind = .msp then none else stepSize c.kind c.afmt c.bfmt
  if bitsOf (c.dw 0) 15 0 ≠ 0 ∨ (c.kind ≠ .msp ∧ c.half ≠ 0) ∨ (c.kind ≠ .mbs ∧ c.planes ≠ 0)
      ∨ bitsOf (c.dw 2) 63 40 ≠ 0 ∨ bitsOf (c.dw 4) 63 40 ≠ 0 ∨ bitsOf (c.dw 6) 63 49 ≠ 0
      ∨ (te ≠ 3 ∧ bitsOf (c.dw 6) 48 42 ≠ 0) ∨ kindOf (bitsOf (c.dw 0) 63 60) ≠ some c.kind
      ∨ c.asrc = 3 ∨ c.bsrc = 3 ∨ c.k % pair.getD 1 ≠ 0
      ∨ (c.kind = .mbs ∧ c.astride % 64 ≠ 0) then trapWith .address q
  if (c.kind ≠ .msp ∧ pair = none)
      ∨ (c.kind = .mbs ∧ (c.planes = 0 ∨ (fmtAt c.afmt).width < c.planes))
      ∨ (c.kind ≠ .msp ∧ c.asrc = 2 ∧ (c.afmt = 0x16 ∨ c.afmt = 0x17))
      ∨ (c.bsrc = 2 ∧ (c.bfmt = 0x16 ∨ c.bfmt = 0x17)) then trapWith .format 0
  if c.writesBack ∧ ¬ mstFormat (ptrFmt c.output) then trapWith .format c.output
  let source (p : Word) (src : Nat) : Except Stop Unit := do
    if src = 0 then v.engineSpace p [0, 3]
    if src = 1 then
      spaces p [1]
      if v.coreNamed p ≠ some (.inl core) then trapWith .address p
      v.engineSpace p [1]
  if c.kind = .msp then
    if c.asrc = 1 ∨ ptrSpace c.aptr ≠ 0 ∨ ptrAddr c.aptr % 8 ≠ 0 then trapWith .address c.aptr
  source c.aptr c.asrc
  source c.bptr c.bsrc
  if c.writesBack then
    v.engineSpace c.output [0, 1, 3]
    if te ≠ 0 ∧ ¬ tagAligned c.output c.outputStride then trapWith .address c.output
  let other (dir : Nat) : Bool := v.partOf (neighbour core dir) != v.partOf core
  if (c.asrc = 2 ∧ (c.kind = .msp ∨ other 1)) ∨ (c.bsrc = 2 ∧ other 3) ∨ (c.afwd ∧ other 0) ∨ (c.bfwd ∧ other 2) then
    trapWith .address q
  match c.patchNamed with
  | none => pure ()
  | some p =>
    if !v.patchOk core p then trapWith .address q
    if (c.asrc = 1 ∧ v.overlaps core p c.aptr c.afmt 32 c.astride c.k)
        ∨ (c.bsrc = 1 ∧ v.overlaps core p c.bptr c.bfmt c.k c.bstride 32)
        ∨ (c.writesBack ∧ v.overlaps core p c.output (ptrFmt c.output) 32 c.outputStride 32) then trapWith .address q

/-! ### Plates (R231 to R235; 18_sparse.md R379 to R384) -/

/-- A doubleword read plainly through a partition's page table; the error is a completion's code, cause and address (R383). -/
def State.plateDword (s : State) (part level va : Nat) : Except (Nat × Nat × Word) Word :=
  match s.virtPlace part level Need.load va with
  | .error _ => .error (7, Cause.page.number, wordOf va)
  | .ok pl => match s.plainRead pl 8 with
    | none => .error (5, 0, 0)
    | some v => .ok (wordOf v)

/-- The header of a tile and its version, read together (R231). -/
def State.tileHeader (s : State) (part level va : Nat) : Except (Nat × Nat × Word) (Word × BitVec 7) :=
  match s.plateDword part level va, s.virtPlace part level Need.load va with
  | .ok w, .ok pl => .ok (w, tagVer (s.tag pl.key))
  | .error e, _ => .error e
  | _, _ => .error (7, Cause.page.number, wordOf va)

/-- The address of a plate command's tile. -/
def Command.tileAddr (c : Command) : Nat := if c.kind = .msp then ptrAddr c.aptr else ptrAddr c.pointer

/-- Whether an entry is in use (18_sparse.md R384): an accepted MSP of the super-group holds it. -/
def State.plateInUse (s : State) (sg : Nat) (e : Plate) : Bool :=
  s.cores.any (fun k => superGroupOf k.1 == sg && decide (k.1 < 4096)
    && k.2.engine.accepted.any (fun c => match c.plate with
      | some p => p.id == e.id
      | none => false))

/-- Entries dropped: those not in use go, the others are doomed until their last user ends. -/
def State.dropPlates (s : State) (sg : Nat) (which : Plate → Bool) : State :=
  let g := s.superGroup sg
  let marked := g.plates.map (fun e => if which e then { e with doomed := true } else e)
  s.setSuperGroup sg { g with plates := marked.filter (fun e => !(e.doomed && !s.plateInUse sg e)) }

/-- The resident entry for an identity that takes new users. -/
def SuperGroup.plate (g : SuperGroup) (part address : Nat) (version : BitVec 7) : Option Plate :=
  g.plates.find? (fun e => e.part == part && e.address == address && e.version == version && !e.doomed)

/-- A command that waits for its plate takes it where it is resident, and otherwise requests it of the engraver, which holds
32 requests and merges equal ones (R234). -/
def State.seekPlate (s : State) (sg : Nat) (c : Command) : State × Command :=
  match c.plateVersion, c.plate, c.plateFailed with
  | some v, none, none =>
    let g := s.superGroup sg
    match g.plate c.part c.tileAddr v with
    | some e => (s, { c with plate := some e })
    | none =>
      if g.engraver.any (fun r => r.part == c.part && r.address == c.tileAddr && r.version == v && !r.drop) ∨ 32 ≤ g.engraver.length
      then (s, c)
      else
        let r : Engrave := { part := c.part, address := c.tileAddr, version := v, level := c.level }
        (s.setSuperGroup sg { g with engraver := g.engraver ++ [r] }, c)
  | _, _, _ => (s, c)

/-- The identity step of R231: the header and its version are read together, entries of other versions dropped, and the plate
sought. -/
def State.identify (s : State) (sg : Nat) (c : Command) : State × Command :=
  if c.plateVersion.isSome ∨ c.plateFailed.isSome then s.seekPlate sg c
  else match s.tileHeader c.part c.level c.tileAddr with
    | .error e => (s, { c with plateFailed := some e })
    | .ok (_, v) =>
      let s := s.dropPlates sg (fun e => e.part == c.part && e.address == c.tileAddr && e.version != v)
      s.seekPlate sg { c with plateVersion := some v }

/-- Whether no older command of a list names the patch of c. -/
def firstOfPatch (older : List Command) (c : Command) : Bool :=
  match c.patchNamed with
  | none => true
  | some p => !older.any (fun o => o.patchNamed == some p)

/-- The identity steps that an engine's accepted MSPs may take now. -/
def State.identities (s : State) (core : Nat) : State :=
  let run := (s.core core).engine.running.toList
  (s.core core).engine.queue.foldl (fun (s : State) c =>
    let q := (s.core core).engine.queue
    let older := run ++ q.takeWhile (fun x => x.id != c.id)
    if c.kind = .msp ∧ firstOfPatch older c then
      let (s, c') := s.identify (superGroupOf core) c
      let k := s.core core
      s.setCore core { k with engine := { k.engine with queue := k.engine.queue.map (fun x => if x.id = c.id then c' else x) } }
    else s) s

/-! ### Acceptance, completion -/

/-- A command enters the queue of an engine (R218). -/
def State.acceptCommand (s : State) (core : Nat) (c : Command) : State :=
  let k := s.core core
  (s.setCore core { k with engine := { k.engine with queue := k.engine.queue ++ [c] } }).identities core

/-- The end of a command (R219): MZERO only counts down; the others place their completion. -/
def State.endCommand (s : State) (core : Nat) (c : Command) (code : Nat) (arg0 : Nat) (arg1 : Word) (flags : FpFlags)
    (arg3 : Word) : State :=
  if c.kind = .mzero then s.endOp c.issuer c.issuerCtx 3 none
  else s.complete c.issuer c.issuerCtx c.part c.opNumber (some 3) code
    [wordOf arg0, arg1, wordOf (flags.toNat + core % 4096 * 2 ^ 16), arg3]

/-- A command ended by a fault at a step (R219, R483). -/
def State.faultCommand (s : State) (core : Nat) (c : Command) (step : Nat) (e : ElementFault) (flags : FpFlags) : State :=
  match e with
  | .fault cause a => s.endCommand core c 7 (cause.number + step * 2 ^ 16) a flags 0
  | _ => s.endCommand core c 5 step 0 flags 0

/-! ### Arithmetic (02_numbers.md R70) -/

/-- The flags and value of one accumulator element after a slice: the exact inner sum added with one rounding. -/
def mulAdd (fa fb : FloatFmt) (acc : Nat) (as bs : List Nat) : Nat × FpFlags :=
  match List.zipWith (fun x y => mulNum (decodeFloat fa x) (decodeFloat fb y)) as bs with
  | [] => (acc, 0)
  | p :: ps =>
    let (inner, f) := ps.foldl (fun (a : Num × FpFlags) q =>
      let (z, g) := addNum .rne a.1 q.1
      (z, a.2 ||| q.2 ||| g)) p
    let (z, g) := addNum .rne (decodeFloat fmtF32 acc) inner
    let (v, h) := resultNum fmtF32 .rne z
    (v, f ||| g ||| h)

/-- An element format of an engine operand as a float; none for integers. -/
def Fmt.float? : Fmt → Option FloatFmt
  | .flt g | .coded g => some g
  | _ => none

/-- The integer value of an element of an integer or bit-plane format. -/
def Fmt.integer (f : Fmt) (x : Nat) : Int :=
  match f with
  | .int sgn bits => intValue sgn bits x
  | .plane p => planeValue p x
  | _ => 0

/-- Whether an element is ±0. -/
def Fmt.isZero (f : Fmt) (x : Nat) : Bool :=
  match f.float? with
  | some g => decide (x % 2 ^ (g.man + g.expBits) = 0)
  | none => decide (f.integer x = 0)

/-- One slice applied to the accumulators: rows of A, columns of B. A slice whose A elements are all ±0 changes nothing. -/
def applySlice (fa fb : Fmt) (acc : List (List Nat)) (as bs : List (List Nat)) : List (List Nat) × FpFlags :=
  if as.all (fun row => row.all fa.isZero) then (acc, 0)
  else
    let cell (x : Nat) (a b : List Nat) : Nat × FpFlags :=
      match fa.float?, fb.float? with
      | some ga, some gb => mulAdd ga gb x a b
      | _, _ =>
        let z := (List.zipWith (fun u v => fa.integer u * fb.integer v) a b).sum
        (intBits 32 ((x : Int) + z), 0)
    let rows := List.zipWith (fun row a => List.zipWith (fun x b => cell x a b) row bs) acc as
    (rows.map (fun r => r.map (fun (e : Nat × FpFlags) => e.1)),
     orFlags (rows.map (fun r => orFlags (r.map (fun (e : Nat × FpFlags) => e.2)))))

/-! ### Patches -/

/-- The words of a patch in row order; none where they are poisoned (R225). -/
def State.readPatch (s : State) (core p : Nat) : Option (List (List Nat)) :=
  let key := sramKey core (0x1000 * p)
  if s.poisoned key 4096 then none
  else some ((List.range 32).map (fun i => (List.range 32).map (fun j => readBytes s.mem (key + 128 * i + 4 * j) 4)))

/-- A patch written as a whole. -/
def State.writePatch (s : State) (core p : Nat) (acc : List (List Nat)) : State :=
  s.storeBytes (sramKey core (0x1000 * p)) 4096 (acc.flatten.foldr (fun x n => x % 2 ^ 32 + 2 ^ 32 * n) 0)

def zeroPatch : List (List Nat) := List.replicate 32 (List.replicate 32 0)

/-- The machine as the issuer of a command sees it, its engine's own patches not held (R214). -/
def State.engineView (s : State) (core : Nat) (c : Command) : State :=
  let v := s.asIssuer c.issuer c.issuerCtx c.level
  v.setCore core { v.core core with engine := {} }

/-! ### Storing a patch (R215, R483) -/

/-- An element of the accumulators as the output format holds it. -/
def storedElement (f : Fmt) (sat8 : Bool) (x : Nat) : Nat × FpFlags :=
  match f with
  | .flt g => encodeNum g .rne sat8 (decodeFloat fmtF32 x)
  | .int sgn bits => (intBits bits (saturate sgn bits (intValue true 32 x)).1, 0)
  | _ => (0, 0)

/-- The V-copies of a frame written back and dropped before the tag of one of its words changes (15_memory_map.md R338). -/
def State.dropFrame (s : State) (key : Nat) : State := s.dropLines (fun v => v.frame == key / 128)

/-- A tag effect of R124 or R125 at the word of a key, with the re-check of what waits on it. -/
def State.tagEffect (s : State) (key effect : Nat) (version : BitVec 7) : State :=
  let s := s.dropFrame key
  let t := s.tag key
  let t' := if effect = 1 then mkTag true (tagVer t) else if effect = 2 then mkTag (tagFE t) (tagVer t + 1) else mkTag (tagFE t) version
  (s.setTag key t').recheck (key / 8 * 8) (s.requests.length + 1) (tagVer t' - tagVer t).toNat

/-- The doublewords of a list of keys, each once. -/
def wordKeys (ks : List Nat) : List Nat := (ks.map (fun k => k / 8 * 8)).eraseDups

/-- The tag phase of stores to another package (R215): a releasing store of each doubleword written, held until the data stores are
acknowledged. -/
def State.remoteTags (s : State) (core : Nat) (c : Command) (xs : List Nat) : State :=
  let v := s.engineView core c
  let size := (fmtAt (ptrFmt c.output)).width / 8
  let per := 8 / size
  let words : List (Word × Place × Nat) := (List.range (1024 / per)).filterMap (fun n =>
    let first := n * per
    match (do
      let q ← elementPtr c.output (((first / 32 * c.outputStride + first % 32) * size : Nat))
      let pl ← v.elementPlace q 8 Need.store
      pure (q, pl) : Except ElementFault (Word × Place)) with
    | .error _ => none
    | .ok (q, pl) => some (q, pl, (List.range per).foldr (fun i acc => xs.getD (first + i) 0 + 2 ^ (8 * size) * acc) 0))
  let once := (List.range words.length).filterMap (fun i => match words[i]? with
    | some w => if (words.drop (i + 1)).any (fun x => x.1 == w.1) then none else some w
    | none => none)
  once.foldl (fun (s : State) (w : Word × Place × Nat) =>
    let op : MemOp := if c.tagEffect = 1 then .storeFill else if c.tagEffect = 2 then .storeVnx else .storeVset c.version
    let r := s.unitRequestOf c.issuer c.part c.id w.1 w.2.1 op (wordOf w.2.2)
    { s with nextId := s.nextId + 1
             held := s.held ++ [{ id := r.id, core := r.core, ctx := r.ctx, mask := 0xF, what := .request r }] }) s

/-- What storing the output comes to. -/
inductive Stored where
  /-- every store is performed, with its tag phase -/
  | done (s : State) (flags : FpFlags)
  /-- stores for another package are on their way -/
  | sent (s : State) (flags : FpFlags)
  /-- some elements are stored: those of the list -/
  | partly (s : State) (ns : List Nat)
  | failed (s : State) (e : ElementFault) (flags : FpFlags)

/-- Where an element of the output goes; uncorrectable data that the whole output does not cover is met there (R483, 22_faults.md
R428). -/
def State.outputPlace (v : State) (c : Command) (size n : Nat) : Except ElementFault (Word × Place) := do
  let q ← elementPtr c.output (((n / 32 * c.outputStride + n % 32) * size : Nat))
  let pl ← v.elementPlace q size Need.store
  if v.conflictsUpTo c.id pl.key size then .error (.absent q pl size) else pure (q, pl)

/-- Whether the elements at some keys cover a doubleword. -/
def coversWord (keys : List Nat) (size d : Nat) : Bool :=
  (List.range 8).all (fun i => keys.any (fun k => decide (k ≤ 8 * d + i) && decide (8 * d + i < k + size)))

/-- The output stored (R215): every element converted and written, in any order. Where a store fails each element of the range is its old
value or its new one, as the free values choose, and no tag phase follows (R483). -/
def State.storeOutput (s : State) (core : Nat) (c : Command) (acc : List (List Nat)) (written : Option (List Nat)) : Stored :=
  let v := s.engineView core c
  let f := fmtAt (ptrFmt c.output)
  let size := f.width / 8
  let xs := acc.flatten.map (storedElement f c.sat8)
  let flags := orFlags (xs.map (·.2))
  let places := (List.range 1024).map (v.outputPlace c size)
  let keys := places.filterMap (fun e => match e with
    | .ok x => if x.2.remote.isSome then none else some x.2.key
    | .error _ => none)
  let met := s.poison.filter (fun d => keys.any (fun k => k / 8 == d))
  let failure := match places.findSome? (fun e => match e with
      | .error x => some x
      | .ok _ => none) with
    | some x => some x
    | none => if met.any (fun d => !coversWord keys size d) then some (.poison 0) else none
  let write (s : State) (n : Nat) : State :=
    match places[n]? with
    | some (.ok (q, pl)) =>
      if pl.remote.isSome then s.unitRequest c.issuer c.part c.id q pl (.store size) (wordOf (xs.getD n (0, 0)).1)
      else s.writePlace pl size (xs.getD n (0, 0)).1
    | _ => s
  let chosen := (List.range 1024).filter (fun n => s.free (2000 + n) 2 == 1)
  match failure with
  | some (.absent p pl n) => .failed s (.absent p pl n) flags
  | some e => .failed ((chosen.filter (fun n => !(written.getD []).contains n)).foldl write s) e flags
  | none =>
    if !s.eager ∧ written.isNone then .partly (chosen.foldl write s) chosen
    else
      let t := ((List.range 1024).filter (fun n => !(written.getD []).contains n)).foldl write s
      let t := { t with poison := t.poison.filter (fun d => !met.contains d) }
      let remote := places.any (fun e => match e with
        | .ok x => x.2.remote.isSome
        | .error _ => false)
      if remote then .sent (if c.tagEffect = 0 then t else t.remoteTags core c (xs.map (fun (e : Nat × FpFlags) => e.1))) flags
      else .done (if c.tagEffect = 0 then t else (wordKeys keys).foldl (fun t k => t.tagEffect k c.tagEffect c.version) t) flags

/-! ### Streams (R223) -/

/-- The oldest stream that a receiver takes. -/
def Inlet.head (i : Inlet) : Option EngineStream := i.streams.find? (fun t => !t.dropped)

/-- The next slice of the stream that the receiver takes: one that its sender has stopped short of is as poisoned; none while it has still
to come. -/
def Inlet.next (i : Inlet) : Option Slice :=
  match i.head with
  | none => none
  | some t => match t.slices with
    | x :: _ => some x
    | [] => if t.ended then some { elements := [], bad := true } else none

/-- Whether one of the four buffers is free, or what comes is discarded. -/
def Inlet.room (i : Inlet) : Bool :=
  decide ((i.streams.map (fun t => t.slices.length)).sum < 4) || (match i.streams.getLast? with
    | some t => t.dropped
    | none => false)

/-- Streams that both their ends have left go. -/
def Inlet.tidy (i : Inlet) : Inlet := { i with streams := i.streams.filter (fun t => !(t.dropped && t.ended)) }

/-- A sender begins a stream, pushes a slice onto it, and ends it. -/
def Inlet.begin (i : Inlet) (k fmt : Nat) : Inlet :=
  { streams := i.streams ++ [{ k := k, fmt := fmt, dropped := decide (0 < i.skip) }], skip := i.skip - 1 }
def Inlet.onLast (i : Inlet) (f : EngineStream → EngineStream) : Inlet :=
  match i.streams.getLast? with
  | none => i
  | some t => { i with streams := i.streams.dropLast ++ [f t] }
def Inlet.push (i : Inlet) (x : Slice) : Inlet := i.onLast (fun t => if t.dropped then t else { t with slices := t.slices ++ [x] })
def Inlet.finish (i : Inlet) : Inlet := (i.onLast (fun t => { t with ended := true })).tidy

/-- A receiver changes the stream that it takes; one that leaves discards the rest of it, or all of it where it has still to begin. -/
def Inlet.onHead (i : Inlet) (f : EngineStream → EngineStream) : Inlet :=
  match i.streams.findIdx? (fun t => !t.dropped) with
  | none => i
  | some n => { i with streams := (List.range i.streams.length).filterMap (fun m =>
      (i.streams[m]?).map (fun t => if m = n then f t else t)) }
def Inlet.pop (i : Inlet) : Inlet := i.onHead (fun t => { t with slices := t.slices.tail })
def Inlet.quit (i : Inlet) : Inlet :=
  if i.head.isNone then { i with skip := i.skip + 1 }
  else (i.onHead (fun t => { t with dropped := true, slices := [] })).tidy

/-- The directions of a command's streams: B where `b` is true, else A. -/
def Command.receives (c : Command) (b : Bool) : Bool := c.isBlock && decide ((if b then c.bsrc else c.asrc) = 2)
def Command.forwards (c : Command) (b : Bool) : Bool := c.isBlock && (if b then c.bfwd else c.afwd)
def Engine.inlet (e : Engine) (b : Bool) : Inlet := if b then e.bIn else e.aIn

/-- The streams of a direction at an engine changed. -/
def State.alterInlet (s : State) (core : Nat) (b : Bool) (f : Inlet → Inlet) : State :=
  let k := s.core core
  let e := k.engine
  s.setCore core { k with engine := if b then { e with bIn := f e.bIn } else { e with aIn := f e.aIn } }

/-- The engine that a core forwards to. -/
def forwardTo (core : Nat) (b : Bool) : Nat := neighbour core (if b then 2 else 0)

/-- A format code as the streams carry it: a coded operand forwards its decoded elements (R223). -/
def streamFmt (f : Nat) : Nat := if f = 0x16 then 0x14 else if f = 0x17 then 0x15 else f

/-- A command begins the streams that it forwards, and at its end leaves those that it forwards and those that it takes. -/
def State.beginStreams (s : State) (core : Nat) (c : Command) (fmt : Nat) : State :=
  [false, true].foldl (fun (s : State) b =>
    if c.forwards b then s.alterInlet (forwardTo core b) b (fun i => i.begin c.k (streamFmt (if b then c.bfmt else fmt))) else s) s
def State.leaveStreams (s : State) (core : Nat) (c : Command) : State :=
  [false, true].foldl (fun (s : State) b =>
    let s := if c.receives b then s.alterInlet core b Inlet.quit else s
    if c.forwards b then s.alterInlet (forwardTo core b) b Inlet.finish else s) s

/-! ### Operands (R216, R223, R224) -/

/-- Whether element (r, col) of a plate's pattern is stored, and its place among the values (18_sparse.md R379). -/
def Plate.bit (e : Plate) (r col : Nat) : Bool := (e.bitmap.toList.getD r 0).getLsbD col
def Plate.rank (e : Plate) (r col : Nat) : Nat :=
  ((List.range r).map (fun i => ((List.range 64).filter (fun j => e.bit i j)).length)).sum
    + ((List.range col).filter (fun j => e.bit r j)).length

/-- The source, the array and the format of a side. -/
def Command.source (c : Command) (b : Bool) : Nat := if b then c.bsrc else c.asrc
def Command.array (c : Command) (b : Bool) : Except ElementFault Word :=
  if b then .ok c.bptr else if c.kind = .msp then elementPtr c.aptr 520 else .ok c.aptr
def Command.sideFmt (c : Command) (r : EngineRun) (b : Bool) : Fmt := fmtAt (if b then c.bfmt else r.fmt)
def Command.planesOf (c : Command) (b : Bool) : Nat := if c.kind = .mbs ∧ ¬ b then c.planes else 8

/-- The index in its array of operand x of a slice: by row of A or column of B, k each. An element that a sparse tile does not store has
none (R231). -/
def Command.index (c : Command) (r : EngineRun) (b : Bool) (step x : Nat) : Option Nat :=
  let inner := step * r.k + x % r.k
  if b then some (inner * c.bstride + x / r.k)
  else match c.plate with
    | some e =>
      let row := 32 * c.half + x / r.k
      if e.bit row inner then some (e.rank row inner) else none
    | none => some (x / r.k * c.astride + inner)

/-- The number under which a read operand is kept. -/
def EngineRun.number (r : EngineRun) (b : Bool) (step x : Nat) : Nat := 2 * (step * 32 * r.k + x) + (if b then 1 else 0)

/-- The words that the fetch unit reads for an operand, by pointer; a coded operand is decoded as it enters, and pins nothing. -/
def Command.pointers (c : Command) (r : EngineRun) (b : Bool) (step x : Nat) : List Word :=
  if c.source b ≠ 0 then []
  else match c.array b, c.index r b step x with
    | .ok base, some i =>
      let deltas : List Nat := match c.sideFmt r b with
        | .coded _ => []
        | .plane p => (List.range (min (c.planesOf b) p)).map (fun w => 8 * p * (i / 64) + 8 * w)
        | f => [i * (f.width / 8)]
      deltas.filterMap (fun d => (elementPtr base (d : Int)).toOption)
    | _, _ => []

/-- The number of a line, by space and address. -/
def lineId (q : Word) : Nat := ptrSpace q * 2 ^ 45 + ptrAddr q / 128

/-- The lines of operands that are still to be read: of this slice, those not read yet, and of all later ones. -/
def Command.linesAhead (c : Command) (r : EngineRun) : List Nat :=
  (List.range (r.steps - r.step)).flatMap (fun i => [false, true].flatMap (fun b => (List.range (32 * r.k)).flatMap (fun x =>
    let step := r.step + i
    if (Table.look r.ahead (r.number b step x)).isSome then [] else (c.pointers r b step x).map lineId)))

/-- The pins of lines that supply no further operand are released (R224). -/
def State.release (s : State) (c : Command) (r : EngineRun) : State × EngineRun :=
  if r.pins.isEmpty then (s, r)
  else
    let needed := c.linesAhead r
    let kept := r.pins.filter (fun l => needed.contains l)
    (s.unpin c.id (fun line => kept.contains line), { r with pins := kept })

/-- The lines of an operand pinned: at most 64 at once (R224). The error is what the fetch unit waits at. -/
def State.pinAll (s : State) (core : Nat) (c : Command) (r : EngineRun) : List Word → Except (State × EngineRun × ElementFault) (State × EngineRun)
  | [] => .ok (s, r)
  | q :: rest =>
    if r.pins.contains (lineId q) then s.pinAll core c r rest
    else match (s.engineView core c).elementPlace q 1 Need.load with
      | .error _ => s.pinAll core c r rest
      | .ok pl =>
        let (s, r) := if r.pins.length < 64 then (s, r) else s.release c r
        if 64 ≤ r.pins.length then .error (s, r, .absent q pl 1)
        else match s.pin c.id pl with
          | none => .error (s, r, .absent q pl 1)
          | some t => t.pinAll core c { r with pins := lineId q :: r.pins } rest

/-- An element taken from its array: an index out of a coded region gives ADDRESS (R221). -/
def State.takeElement (v : State) (grp : Nat) (base : Word) (f : Fmt) (stamp : Option Nat) (t : Nat) (i : Nat) :
    Except ElementFault Nat := do
  match ← v.readElement grp base f i 0 stamp t with
  | some x => pure x
  | none => .error (.fault .address base)

/-- One operand read, unless it has been. -/
def State.readOperand (s : State) (core : Nat) (c : Command) (r : EngineRun) (b : Bool) (step x : Nat) :
    State × EngineRun × Option ElementFault :=
  let n := r.number b step x
  if (Table.look r.ahead n).isSome then (s, r, none)
  else match c.index r b step x with
    | none => (s, { r with ahead := Table.put r.ahead n 0 }, none)
    | some i => match s.pinAll core c r (c.pointers r b step x) with
      | .error (s, r, e) => (s, r, some e)
      | .ok (s, r) =>
        match (do
          let base ← c.array b
          (s.engineView core c).takeElement c.id base (c.sideFmt r b) (if c.source b = 0 then some 0 else none) (c.planesOf b) i) with
        | .error e => (s, r, some e)
        | .ok v => (s, { r with ahead := Table.put r.ahead n v }, none)

/-- The operands of a slice's side read, up to the first that cannot be. -/
def State.readSide (s : State) (core : Nat) (c : Command) (r : EngineRun) (b : Bool) : List Nat → State × EngineRun × Option ElementFault
  | [] => (s, r, none)
  | x :: rest => match s.readOperand core c r b r.step x with
    | (s, r, none) => s.readSide core c r b rest
    | z => z

/-- A side of a slice: the stream's next, or what the engine reads itself. -/
def State.takeSide (s : State) (core : Nat) (c : Command) (r : EngineRun) (b : Bool) : State × EngineRun × Except ElementFault Slice :=
  if c.receives b then
    match ((s.core core).engine.inlet b).next with
    | none => (s, r, .error (.absent 0 { key := 0, home := 0, counter := 0, part := 0 } 0))
    | some x => (s, r, .ok x)
  else
    match s.readSide core c r b (List.range (32 * r.k)) with
    | (s, r, some (.absent p pl n)) => (s, r, .error (.absent p pl n))
    | (s, r, some e) => (s, r, .error e)
    | (s, r, none) =>
      let at_ (x : Nat) : Nat := (Table.look r.ahead (r.number b r.step x)).getD 0
      (s, r, .ok { elements := (List.range 32).map (fun i => (List.range r.k).map (fun j => at_ (i * r.k + j))) })

/-! ### Running a command -/

/-- How a command stands: it goes on later, it asks another package for an element, or it has ended. -/
inductive Ran where
  | goes (s : State)
  | asks (s : State) (p : Word) (pl : Place) (size : Nat)
  | ended (s : State)

/-- How far the running command of an engine has come, kept. -/
def State.keepRun (s : State) (core : Nat) (r : EngineRun) : State :=
  let k := s.core core
  s.setCore core { k with engine := { k.engine with run := some r } }

/-- What a command that meets an element it cannot take yet comes to. -/
def State.pauseAt (s : State) (core : Nat) (r : EngineRun) (p : Word) (pl : Place) (size : Nat) : Ran :=
  if pl.remote.isSome then .asks (s.keepRun core r) p pl size else .goes (s.keepRun core r)

/-- The engine of a core is free again, its streams left and its pins released; the MSPs behind may take their identity step, and doomed
plates go. -/
def State.freeEngine (s : State) (core : Nat) : State :=
  let s := match (s.core core).engine.running with
    | some c => (s.unpin c.id (fun _ => false)).leaveStreams core c
    | none => s
  let k := s.core core
  let s := (s.setCore core { k with engine := { k.engine with running := none, run := none } }).identities core
  if core < 4096 then s.dropPlates (superGroupOf core) (fun _ => false) else s

/-- The command goes on with its stores for another package outstanding. -/
def State.keepRunning (s : State) (core : Nat) (c : Command) : State :=
  let k := s.core core
  s.setCore core { k with engine := { k.engine with running := some c } }

/-- The output stored, and the command ended; `steps` is the step index of a failed store (R483). -/
def State.finishOutput (s : State) (core : Nat) (c : Command) (r : EngineRun) (steps : Nat) : Ran :=
  match s.storeOutput core c r.acc r.written with
  | .done t f => .ended ((t.endCommand core c 0 0 0 (r.flags ||| f) 0).freeEngine core)
  | .sent t f => .goes (t.keepRunning core { c with finished := some (r.flags ||| f).toNat })
  | .partly t ns => .goes (t.keepRun core { r with written := some ns })
  | .failed _ (.absent _ _ _) _ => .goes (s.keepRun core r)
  | .failed t e f => .ended ((t.faultCommand core c steps e (r.flags ||| f)).freeEngine core)

/-- The accumulators written back, and stored through OPTR where WB = 1 (R222). -/
def State.deliver (s : State) (core : Nat) (c : Command) (r : EngineRun) : Ran :=
  let t := match c.patchNamed with
    | some p => s.writePatch core p r.acc
    | none => s
  if !c.writesBack then .ended ((t.endCommand core c 0 0 0 r.flags 0).freeEngine core)
  else t.finishOutput core c r (if r.idle then 0 else r.steps)

/-- A command stopped at its step: the patch takes the steps before it, unless Z = 1 and WB = 1 (R225). -/
def State.stopCommand (s : State) (core : Nat) (c : Command) (r : EngineRun) (e : ElementFault) : State :=
  let s := match c.patchNamed with
    | some p => s.writePatch core p r.acc
    | none => s
  (s.faultCommand core c r.step e r.flags).freeEngine core

/-- The slices that were read for a step are used, and what they leave pinned without need is released. -/
def EngineRun.after (r : EngineRun) (acc : List (List Nat)) (f : FpFlags) : EngineRun :=
  let low := r.number false (r.step + 1) 0
  { r with step := r.step + 1, acc := acc, flags := r.flags ||| f, ahead := r.ahead.filter (fun e => decide (low ≤ e.1)) }

/-- One step (R222): both sides are taken and forwarded, a bad one marked, and where both are good the slice is applied. -/
def State.runStep (s : State) (core : Nat) (c : Command) (r : EngineRun) : Ran ⊕ (State × EngineRun) :=
  let room (b : Bool) : Bool := !c.forwards b || ((s.core (forwardTo core b)).engine.inlet b).room
  if !room false || !room true then .inl (.goes (s.keepRun core r))
  else
    let (s, r, a) := s.takeSide core c r false
    let (s, r, y) := s.takeSide core c r true
    match a, y with
    | .error (.absent p pl n), _ | _, .error (.absent p pl n) => .inl (s.pauseAt core r p pl n)
    | a, y =>
      let sent (z : Except ElementFault Slice) : Slice := match z with
        | .ok x => x
        | .error _ => { elements := [], bad := true }
      let pass (s : State) (b : Bool) (z : Except ElementFault Slice) : State :=
        let s := if c.receives b then s.alterInlet core b Inlet.pop else s
        if c.forwards b then s.alterInlet (forwardTo core b) b (fun i => i.push (sent z)) else s
      let s := pass s false a
      let s := pass s true y
      let stop : Option ElementFault := match a, y with
        | .error e, _ => some e
        | _, .error e => some e
        | .ok x, .ok z => if x.bad || z.bad then some (.poison 0) else none
      match stop with
      | some e => if r.idle then .inr (s.release c (r.after r.acc 0)) else .inl (.ended (s.stopCommand core c r e))
      | none =>
        let (acc, f) := if r.idle then (r.acc, 0)
          else applySlice (c.sideFmt r false) (c.sideFmt r true) r.acc (sent a).elements (sent y).elements
        .inr (s.release c (r.after acc f))

/-- The steps of a command in ascending order, as many as it may take now. -/
def State.runSteps (s : State) (core : Nat) (c : Command) : Nat → EngineRun → Ran
  | 0, r => .goes (s.keepRun core r)
  | n + 1, r =>
    if r.steps ≤ r.step then s.deliver core c r
    else match s.runStep core c r with
      | .inl x => x
      | .inr (t, r) => t.runSteps core c n r

/-- Operands read ahead of their slices, a free choice: the elements of a command are read in no fixed order (R220). -/
def State.readAhead (s : State) (core : Nat) (c : Command) (r : EngineRun) : State × EngineRun :=
  if s.eager ∨ r.steps ≤ r.step then (s, r)
  else (List.range (s.free 330 65)).foldl (fun (p : State × EngineRun) i =>
    let b := s.free (400 + 3 * i) 2 == 1
    if c.receives b then p
    else
      let (t, r) := p
      let (t, r, _) := t.readOperand core c r b (r.step + s.free (401 + 3 * i) (r.steps - r.step)) (s.free (402 + 3 * i) (32 * r.k))
      (t, r)) (s, r)

/-- A stream of another K or format is taken whole; then the command ends with FORMAT (R223). -/
def State.drainWrong (s : State) (core : Nat) (c : Command) (r : EngineRun) : Ran :=
  let empty (s : State) (b : Bool) : State :=
    if c.receives b then s.alterInlet core b (fun i => i.onHead (fun t => { t with slices := [] })) else s
  let t := empty s false
  let t := empty t true
  let taken (b : Bool) : Bool := !c.receives b || (match ((t.core core).engine.inlet b).head with
    | some x => x.ended
    | none => false)
  if taken false && taken true then .ended ((t.faultCommand core c 0 (.fault .format 0) 0).freeEngine core) else .goes (t.keepRun core r)

/-- The start of MMA, MBS and MSP (R222, R231): the accumulators loaded, the formats compared, and the streams begun. -/
def State.startBlock (s : State) (core : Nat) (c : Command) : Ran ⊕ (State × EngineRun) :=
  let header := s.tileHeader c.part c.level c.tileAddr
  let tile : Except (Nat × Nat × Word) Nat := if c.kind = .msp then header.map (fun h => bitsOf h.1 63 58) else .ok c.afmt
  let acc := if c.zero then some zeroPatch else s.readPatch core c.patch
  let failed (f : State → State) : Ran ⊕ (State × EngineRun) := .inl (.ended ((f (s.beginStreams core c c.afmt)).freeEngine core))
  match c.plateFailed, acc, tile, stepSize c.kind (tile.toOption.getD 0) c.bfmt with
  | some (code, cause, a), _, _, _ => failed (fun s => s.endCommand core c code cause a 0 0)
  | none, none, _, _ => failed (fun s => s.faultCommand core c 0 (.poison 0) 0)
  | none, some _, .error (code, cause, a), _ => failed (fun s => s.endCommand core c code cause a 0 0)
  | none, some _, .ok _, none => failed (fun s => s.faultCommand core c 0 (.fault .format 0) 0)
  | none, some acc, .ok fa, some k =>
    let e := (s.core core).engine
    if (c.receives false && e.aIn.head.isNone) || (c.receives true && e.bIn.head.isNone) then .inl (.goes s)
    else
      let differs (b : Bool) (f : Nat) : Bool := c.receives b && (match (e.inlet b).head with
        | some t => t.k != c.k || t.fmt != f
        | none => false)
      let empty := match c.plate with
        | some p => decide (p.kind = .empty)
        | none => false
      let steps := if empty && !(c.afwd || c.bfwd) then 0 else c.k / k
      let r : EngineRun := { fmt := fa, k := k, steps := steps, idle := empty, wrong := differs false fa || differs true c.bfmt, acc := acc }
      .inr ((s.beginStreams core c fa).keepRun core r, r)

/-- MMA, MBS and MSP, as far as they go now. -/
def State.runBlock (s : State) (core : Nat) (c : Command) : Ran :=
  let started : Ran ⊕ (State × EngineRun) := match (s.core core).engine.run with
    | some r => .inr (s, r)
    | none => s.startBlock core c
  match started with
  | .inl x => x
  | .inr (s, r) =>
    if r.wrong then s.drainWrong core c r
    else
      let (s, r) := s.readAhead core c r
      s.runSteps core c (if s.eager then r.steps - r.step + 1 else 1 + s.free 331 (r.steps - r.step + 1)) r

/-- MLD: every element is read, in any order, before the patch is written (R215, R483). -/
def State.runLoad (s : State) (core : Nat) (c : Command) : Ran :=
  let v := s.engineView core c
  let f := fmtAt (ptrFmt c.pointer)
  let r := (s.core core).engine.run.getD {}
  let first := r.written.isNone && !s.eager
  let wanted (n : Nat) : Bool := !first || s.free (2000 + n) 2 == 1
  let read (acc : Except ElementFault (Table Nat)) (n : Nat) : Except ElementFault (Table Nat) := do
    let t ← acc
    if (Table.look t n).isSome || !wanted n then pure t
    else
      let x ← v.takeElement c.id c.pointer f none 8 (n / 32 * c.stride + n % 32)
      pure (Table.put t n x)
  match (List.range 1024).foldl read (.ok r.ahead) with
  | .error (.absent p pl n) => s.pauseAt core r p pl n
  | .error e => .ended (((s.dropUnit c.id).faultCommand core c 0 e 0).freeEngine core)
  | .ok got =>
    if first then .goes (s.keepRun core { r with ahead := got, written := some [] })
    else
      let ys := (List.range 1024).map (fun n =>
        let x := (Table.look got n).getD 0
        match f with
        | .flt g => if g = fmtF32 then (x, (0 : FpFlags)) else encodeNum fmtF32 .rne true (decodeFloat g x)
        | _ => (x, 0))
      let rows := (List.range 32).map (fun i => (List.range 32).map (fun j => (ys.getD (32 * i + j) (0, 0)).1))
      let t := (s.dropUnit c.id).writePatch core c.patch rows
      .ended ((t.endCommand core c 0 0 0 (orFlags (ys.map (·.2))) 0).freeEngine core)

/-- MST in each of its forms (R215). -/
def State.runStore (s : State) (core : Nat) (c : Command) : Ran :=
  match s.readPatch core c.patch with
  | none => .ended ((s.faultCommand core c 0 (.poison 0) 0).freeEngine core)
  | some acc => s.finishOutput core c { (s.core core).engine.run.getD {} with acc := acc } 0

/-- The running command of a core, as far as it goes now. -/
def State.runCommand (s : State) (core : Nat) (c : Command) : Ran :=
  match c.finished with
  | some flags =>
    let open_ (q : Request) : Bool := q.grp == c.id && (match q.stage with
      | .failed _ _ _ _ => false
      | _ => true)
    let heldBack (h : Held) : Bool := match h.what with
      | .request q => q.grp == c.id
      | _ => false
    if s.requests.any open_ || s.held.any heldBack then .goes s
    else .ended (((s.dropUnit c.id).endCommand core c 0 0 0 (BitVec.ofNat 6 flags) 0).freeEngine core)
  | none =>
    match c.kind with
    | .mzero => .ended (((s.writePatch core c.patch zeroPatch).endCommand core c 0 0 0 0 0).freeEngine core)
    | .mld => s.runLoad core c
    | .mst => s.runStore core c
    | .mpre => .goes s
    | _ => match (s.core core).engine.run with
      | some r => if r.written.isSome then s.finishOutput core c r (if r.idle then 0 else r.steps) else s.runBlock core c
      | none => s.runBlock core c

end Sys2Proof.Machine
end

