-- ==== Sys2Proof/Machine/Matrix.lean ====
section
/-! DEFINITION. The matrix instructions: MMA, MBS, MSP, MPRE, MPINV, the patch instructions, MCMD and MQRY (08_matrix_instr.md
R215 to R235). A service core has no engine, and these instructions are illegal there (25_package.md R477). -/

namespace Sys2Proof.Machine

/-- The 64-byte block at a pointer, a multiple of 8. -/
def State.blockAt (s : State) (q : Word) : Except Stop (Vector Word 8) := do
  if ptrAddr q % 8 ≠ 0 then trapWith .address q
  let img ← s.fetchImage q 0 8
  pure (Vector.ofFn (fun i : Fin 8 => img.getD i.val 0))

/-- A command of the issuing context (R219), with the next operation number. -/
def State.newCommand (s : State) (kind : CmdKind) (patch : Nat) : Command :=
  { id := s.nextId, kind := kind, target := s.cur.1, issuer := s.cur.1, issuerCtx := s.cur.2, part := s.myPart.getD 0
    opNumber := s.me.opNumber, patch := patch, sat8 := s.me.sat8, level := s.me.level }

/-- A command with its block. -/
def Command.withBlock (c : Command) (b : Vector Word 8) (zero : Bool) (patch : Nat) : Command :=
  { c with block := b, zero := zero, patch := patch, tagEffect := bitsOf (b.toList.getD 6 0) 41 40
           version := BitVec.ofNat 7 (bitsOf (b.toList.getD 6 0) 48 42) }

/-- The stall before a command issues: the engine has accepted eight, or class tl counts 63 operations (R217, R218). -/
def State.engineRoom (s : State) : Except Stop Unit :=
  if 8 ≤ s.mine.engine.accepted.length ∨ s.classFull 3 then stall .retry else .ok ()

/-- The stall of a release over DEXT: the command enters the queue once the counters have drained (R220). -/
def State.drainedDext (s : State) (q : Word) : Except Stop Unit := do
  let mask ← s.extent s.me.dext q
  if !s.drainedNow mask then stall .retry

/-- A command accepted into the own engine's queue as its instruction retires. -/
def State.queueCommand (s : State) (c : Command) (dies : List Reg) (d : Option Reg) : Run := do
  let r ← s.retire 4 dies (match d with
    | some d => [(d, c.opNumber.setWidth 64)]
    | none => [])
  let r := { r with nextId := r.nextId + 1 }
  let r := if c.kind = .mzero then r else r.setMe { r.me with opNumber := r.me.opNumber + 1 }
  pure ((r.beginOp s.cur.1 s.cur.2 3 none).acceptCommand s.cur.1 c)

/-- MMA, MBS and MSP of the core's own program (R217): Z comes from the instruction or, for MSP, from the block. -/
def issueBlock (s : State) (d a : Reg) (l : Bool) (p : BitVec 4) (kind : CmdKind) (zero : Option Bool) : Run := do
  s.engineRoom
  let q ← s.readReg a
  s.notService
  spaces q [0, 1]
  if ptrSpace q = 1 ∧ s.coreNamed q ≠ some (.inl s.cur.1) then trapWith .address q
  let b ← s.blockAt q
  let c := (s.newCommand kind p.toNat).withBlock b (zero.getD (bitAt (b.toList.getD 0 0) 59)) p.toNat
  s.checkBlock s.cur.1 c q
  s.drainedDext q
  s.queueCommand c (used l a) (some d)

/-- MMA (R222). -/
def execMma (d : BitVec 5) (a : BitVec 5) (l : Bool) (p : BitVec 4) (s : State) :
    Host.Outcome State Fault Refusal :=
  concludeAs (Instr.mma d a l p).encoding s (issueBlock s d a l p .mma (some false))

/-- MMAZ: MMA with Z = 1 (R222). -/
def execMmaz (d : BitVec 5) (a : BitVec 5) (l : Bool) (p : BitVec 4) (s : State) :
    Host.Outcome State Fault Refusal :=
  concludeAs (Instr.mmaz d a l p).encoding s (issueBlock s d a l p .mma (some true))

/-- MBS (R222). -/
def execMbs (d : BitVec 5) (a : BitVec 5) (l : Bool) (p : BitVec 4) (s : State) :
    Host.Outcome State Fault Refusal :=
  concludeAs (Instr.mbs d a l p).encoding s (issueBlock s d a l p .mbs (some false))

/-- MBSZ: MBS with Z = 1 (R222). -/
def execMbsz (d : BitVec 5) (a : BitVec 5) (l : Bool) (p : BitVec 4) (s : State) :
    Host.Outcome State Fault Refusal :=
  concludeAs (Instr.mbsz d a l p).encoding s (issueBlock s d a l p .mbs (some true))

/-- MSP (R231). -/
def execMsp (d : BitVec 5) (a : BitVec 5) (l : Bool) (p : BitVec 4) (s : State) :
    Host.Outcome State Fault Refusal :=
  concludeAs (Instr.msp d a l p).encoding s (issueBlock s d a l p .msp none)

/-- The pointer of a sparse tile: VIRT, a multiple of 8 (R231). -/
def tilePointer (p : Word) : Except Stop Unit := do
  spaces p [0]
  if ptrAddr p % 8 ≠ 0 then trapWith .address p

/-- A plate request that completes without the engine queue: at once where the entry exists (R235). -/
def State.plateReady (s : State) (c : Command) : State :=
  match c.plate, c.plateFailed with
  | some e, _ =>
    let kind := match e.kind with
      | .plate => 0
      | .empty => 1
      | .dense => 2
    s.endCommand c.issuer c 0 0 0 0 (wordOf (kind + e.l * 2 ^ 16 + e.nnz * 2 ^ 32))
  | none, some (code, cause, a) => s.endCommand c.issuer c code cause a 0 0
  | none, none => { s with commands := s.commands ++ [c] }

/-- MPRE (R235). -/
def execMpre (d : BitVec 5) (a : BitVec 5) (l : Bool) (s : State) :
    Host.Outcome State Fault Refusal :=
  concludeAs (Instr.mpre d a l).encoding s (do
    let p ← s.readReg a
    s.notService
    tilePointer p
    if s.classFull 3 then stall .retry
    let c := { s.newCommand .mpre 0 with pointer := p }
    let r ← s.retire 4 (used l a) [(d, c.opNumber.setWidth 64)]
    let r := { r with nextId := r.nextId + 1 }
    let r := (r.setMe { r.me with opNumber := r.me.opNumber + 1 }).beginOp s.cur.1 s.cur.2 3 none
    let (t, c) := r.identify (superGroupOf s.cur.1) c
    pure (t.plateReady c))

/-- MPINV: every entry of the partition for the address; a compilation in progress is dropped when it ends (R235). -/
def execMpinv (a : BitVec 5) (l : Bool) (s : State) :
    Host.Outcome State Fault Refusal :=
  concludeAs (Instr.mpinv a l).encoding s (do
    let p ← s.readReg a
    s.notService
    tilePointer p
    let n := s.myPart.getD 0
    let sg := superGroupOf s.cur.1
    let r ← s.retire 4 (used l a) []
    let r := r.dropPlates sg (fun e => e.part == n && e.address == ptrAddr p)
    let g := r.superGroup sg
    let engraver := g.engraver.map (fun e => if e.part = n ∧ e.address = ptrAddr p then { e with drop := true } else e)
    pure (r.setSuperGroup sg { g with engraver := engraver }))

/-- MLD and the forms of MST (R215). -/
def issuePatch (s : State) (d a : Reg) (l : Bool) (b : Reg) (m : Bool) (p : BitVec 4) (kind : CmdKind) (effect : Nat) : Run := do
  s.engineRoom
  let q ← s.readReg a
  let y ← s.readReg b
  s.notService
  if !(if kind = .mld then mldFormat (ptrFmt q) else mstFormat (ptrFmt q)) then trapWith .format q
  let stride := bitsOf y 39 0
  s.engineSpace q [0, 1, 3]
  if effect ≠ 0 ∧ ¬ tagAligned q stride then trapWith .address q
  if !s.patchOk s.cur.1 p.toNat ∨ s.overlaps s.cur.1 p.toNat q (ptrFmt q) 32 stride 32 then trapWith .address q
  s.drainedDext q
  let c := { s.newCommand kind p.toNat with pointer := q, stride := stride, tagEffect := effect
                                            version := BitVec.ofNat 7 (bitsOf y 63 57) }
  s.queueCommand c (used l a ++ used m b) (some d)

/-- MLD (R215). -/
def execMld (d : BitVec 5) (a : BitVec 5) (l : Bool) (b : BitVec 5) (m : Bool) (p : BitVec 4) (s : State) :
    Host.Outcome State Fault Refusal :=
  concludeAs (Instr.mld d a l b m p).encoding s (issuePatch s d a l b m p .mld 0)

/-- MST (R215). -/
def execMst (d : BitVec 5) (a : BitVec 5) (l : Bool) (b : BitVec 5) (m : Bool) (p : BitVec 4) (s : State) :
    Host.Outcome State Fault Refusal :=
  concludeAs (Instr.mst d a l b m p).encoding s (issuePatch s d a l b m p .mst 0)

/-- MST.d.fill (R215). -/
def execMstFill (d : BitVec 5) (a : BitVec 5) (l : Bool) (b : BitVec 5) (m : Bool) (p : BitVec 4) (s : State) :
    Host.Outcome State Fault Refusal :=
  concludeAs (Instr.mstFill d a l b m p).encoding s (issuePatch s d a l b m p .mst 1)

/-- MST.d.vnx (R215). -/
def execMstVnx (d : BitVec 5) (a : BitVec 5) (l : Bool) (b : BitVec 5) (m : Bool) (p : BitVec 4) (s : State) :
    Host.Outcome State Fault Refusal :=
  concludeAs (Instr.mstVnx d a l b m p).encoding s (issuePatch s d a l b m p .mst 2)

/-- MST.d.vset (R215). -/
def execMstVset (d : BitVec 5) (a : BitVec 5) (l : Bool) (b : BitVec 5) (m : Bool) (p : BitVec 4) (s : State) :
    Host.Outcome State Fault Refusal :=
  concludeAs (Instr.mstVset d a l b m p).encoding s (issuePatch s d a l b m p .mst 3)

/-- MZERO (R215): no operation number, and no completion message. -/
def execMzero (p : BitVec 4) (s : State) :
    Host.Outcome State Fault Refusal :=
  concludeAs (Instr.mzero p).encoding s (do
    s.engineRoom
    s.notService
    if !s.patchOk s.cur.1 p.toNat then trapWith .address 0
    s.queueCommand (s.newCommand .mzero p.toNat) [] none)

/-- MRD: waits until no earlier command names the patch, then reads one element (R215). -/
def execMrd (d : BitVec 5) (a : BitVec 5) (l : Bool) (p : BitVec 4) (s : State) :
    Host.Outcome State Fault Refusal :=
  concludeAs (Instr.mrd d a l p).encoding s (do
    let x ← s.readReg a
    s.notService
    if !s.patchOk s.cur.1 p.toNat then trapWith .address 0
    let off := 0x1000 * p.toNat + 128 * bitsOf x 9 5 + 4 * bitsOf x 4 0
    let key := sramKey s.cur.1 off
    if s.patchBusy key ∨ s.conflicts key 4 then stall .retry
    if s.poisoned key 4 then pageTrap (wordOf (2 ^ 52 + 0xFF * 2 ^ 44 + s.cur.1 * 2 ^ 32 + off / 8 * 8)) 5
    s.retire 4 (used l a) [(d, wordOf (readBytes s.mem key 4))])

/-- MCMD: a command block for another core's engine (R226). -/
def execMcmd (d : BitVec 5) (a : BitVec 5) (l : Bool) (b : BitVec 5) (m : Bool) (s : State) :
    Host.Outcome State Fault Refusal :=
  concludeAs (Instr.mcmd d a l b m).encoding s (do
    let q ← s.readReg a
    let y ← s.readReg b
    s.notService
    spaces q [0, 1, 3]
    let blk ← s.blockAt q
    spaces y [1]
    match s.coreNamed y with
    | some (.inl target) =>
      if !s.mayName target then trapWith .address y
      if s.dieLost (coreDie target) then pageTrap y 4
      if s.classFull 3 then stall .retry
      let mask ← s.extent s.me.dext q
      let w0 := blk.toList.getD 0 0
      let counter := s.coreCounter target
      let c := (s.newCommand ((kindOf (bitsOf w0 63 60)).getD .mma) 0).withBlock blk (bitAt w0 59) (bitsOf w0 57 54)
      let c := { c with target := target, viaMcmd := true, counter := some counter }
      let drained := s.drainedNow mask
      let r ← s.retire 4 (used l a ++ used m b) [(d, c.opNumber.setWidth 64)]
      let r := { r with nextId := r.nextId + 1 }
      let r := (r.setMe { r.me with opNumber := r.me.opNumber + 1 }).beginOp s.cur.1 s.cur.2 3 (some counter)
      pure (if drained then { r with commands := r.commands ++ [c] } else r.hold c.id mask (.command c))
    | _ => trapWith .address y)

/-- What MQRY reads of an engine (R228): PINS counts the lines that its fetch unit pins (R224). -/
def engineStatus (e : Engine) : Word :=
  let busy := (List.range 16).foldl (fun n p => n + if e.accepted.any (fun c => c.patchNamed == some p) then 2 ^ p else 0) 0
  let pins := match e.run with
    | some r => r.pins.length
    | none => 0
  wordOf (busy * 2 ^ 32 + pins * 2 ^ 8 + (if e.running.isSome then 16 else 0) + e.queue.length)

/-- MQRY (R228). -/
def execMqry (d : BitVec 5) (a : BitVec 5) (l : Bool) (s : State) :
    Host.Outcome State Fault Refusal :=
  concludeAs (Instr.mqry d a l).encoding s (do
    let x ← s.readReg a
    s.notService
    s.retire 4 (used l a) [(d, if bitsOf x 7 0 = 0 then engineStatus s.mine.engine else 0)])

end Sys2Proof.Machine
end

