-- ==== Sys2Proof/Machine/Commands.lean ====
section
/-! DEFINITION. The steps of the matrix engines and the engravers: commands accepted from other cores, started, completed and moved
(08_matrix_instr.md R218, R226, R227, R229), and plates compiled (R231 to R235, 18_sparse.md R382 to R384). -/

namespace Sys2Proof.Machine

/-! ### Commands from other cores (R226, R227) -/

/-- What a block needs of a capability's rights (R227), bit i standing for bit 40 + i. -/
def Command.needs (c : Command) : Nat :=
  let kind := bitsOf (c.dw 0) 63 60
  (if kind < 3 then 2 ^ kind else 0) + (if c.writesBack then 8 else 0) + (if c.asrc = 1 ∨ c.bsrc = 1 then 16 else 0)

/-- Whether a capability passes (R227): partition, generation, hash and rights. -/
def State.capPasses (s : State) (c : Command) : Bool :=
  let cap := c.dw 7
  match s.part c.part with
  | none => false
  | some p =>
    let gen := bitsOf cap 39 32
    let rights := bitsOf cap 47 40
    let key := if gen = p.generation.toNat then p.key else p.oldKey
    decide (bitsOf cap 63 48 = c.part)
      && (decide (gen = p.generation.toNat) || (decide (gen = (p.generation - 1).toNat) && !p.oldKey.isEmpty))
      && decide (bitsOf cap 31 0 = capabilityHash key c.part rights gen c.target)
      && decide (rights < 32) && decide (rights &&& c.needs = c.needs)

/-- Whether an earlier command of the same source core to the same engine has still to be accepted (R218). -/
def State.commandBehind (s : State) (c : Command) : Bool :=
  (s.commands.takeWhile (fun x => x.id != c.id)).any (fun x => x.viaMcmd && x.issuer == c.issuer && x.target == c.target)

/-- A command whose engine's die is lost before it is accepted is declared lost (16_ordering.md R369, 22_faults.md R433): its counter
keeps the mark, KIND 3 reports it as a message, and its completion is DIE_LOST. -/
def State.loseCommand (s : State) (c : Command) : State :=
  let a := c.counter.getD 0
  let s := { s with commands := s.commands.filter (fun x => x.id ≠ c.id) }
  let s := s.alterCtx c.issuer c.issuerCtx (fun x => { x with acks := x.acks.set a (x.acks.get a - 1) }.markLost a)
  (s.reportLost c.issuer c.issuerCtx 0 (corePtr 0xFF c.target) 0 4 a 0).endCommand c.target c 6 c.target 0 0 0

/-- ENGINE_COMMAND_ACCEPT: a full queue answers with NACK; a capability that fails gives NACK-CAP and nothing else; then the checks of
R217. The acknowledgement counter of the MCMD drops. -/
def State.engineAccept (s : State) (cid : Nat) : State :=
  match s.commands.find? (fun c => c.id == cid && c.viaMcmd) with
  | none => s
  | some c =>
    if s.dieLost (coreDie c.target) then s.loseCommand c
    else if s.commandBehind c ∨ 8 ≤ (s.core c.target).engine.accepted.length then s
    else
      let t := { s with commands := s.commands.filter (fun x => x.id ≠ cid) }
      let t := match c.counter with
        | some a => t.alterCtx c.issuer c.issuerCtx (fun x => { x with acks := x.acks.set a (x.acks.get a - 1) })
        | none => t
      if ¬ s.capPasses c then t.endCommand c.target c 2 0 0 0 0
      else match (s.asIssuer c.issuer c.issuerCtx c.level).checkBlock c.target c 0 with
        | .ok _ => t.acceptCommand c.target { c with viaMcmd := false }
        | .error (.trap x) | .error (.trapIn _ x) => t.endCommand c.target c 7 x.cause.number x.faddr 0 0
        | .error _ => s

/-- ENGINE_COMMAND_ACCEPT (R226). -/
def execEngineCommandAccept (cid : Nat) (s : State) :
    Host.Outcome State Fault Refusal :=
  .next (
  s.engineAccept cid)

/-! ### The queue of an engine (R218, R229) -/

/-- Whether a command is eligible behind the commands before it. -/
def Command.eligible (c : Command) (older : List Command) : Bool :=
  firstOfPatch older c && (c.kind != .msp || c.plate.isSome || c.plateFailed.isSome)

/-- The oldest eligible command of a queue. -/
def oldestEligible (older : List Command) : List Command → Option Command
  | [] => none
  | c :: rest => if c.eligible older then some c else oldestEligible (older ++ [c]) rest

/-- The plate a starting MSP uses becomes the most recently used (R234). -/
def State.touchPlate (s : State) (core : Nat) (c : Command) : State :=
  match c.plate with
  | none => s
  | some e =>
    let sg := superGroupOf core
    let g := s.superGroup sg
    let same (x : Plate) : Bool := x.id == e.id
    { s.setSuperGroup sg { g with plates := g.plates.map (fun x => if same x then { x with used := s.nextOrder } else x) } with
      nextOrder := s.nextOrder + 1 }

/-- ENGINE_COMMAND_START: a free engine starts its oldest eligible command. -/
def State.engineStart (s : State) (core : Nat) : State :=
  let k := s.core core
  if k.engine.running.isSome then s
  else match oldestEligible [] k.engine.queue with
    | none => s
    | some c =>
      (s.setCore core { k with engine := { k.engine with
        running := some c, queue := k.engine.queue.filter (fun x => x.id ≠ c.id) } }).touchPlate core c

/-- ENGINE_COMMAND_START (R218). -/
def execEngineCommandStart (core : Nat) (s : State) :
    Host.Outcome State Fault Refusal :=
  .next (
  s.engineStart core)

/-- ENGINE_COMMAND_COMPLETE: the running command goes on, to its end or until it waits or asks another package for an element. -/
def State.engineComplete (s : State) (core : Nat) : State :=
  match (s.core core).engine.running with
  | none => s
  | some c => match s.runCommand core c with
    | .goes t => t
    | .asks t p pl size => if (t.fetched c.id p).isNone then t.unitRequest c.issuer c.part c.id p pl (.load size false) 0 else t
    | .ended t => t.dropUnit c.id

/-- ENGINE_COMMAND_COMPLETE (R219). -/
def execEngineCommandComplete (core : Nat) (s : State) :
    Host.Outcome State Fault Refusal :=
  .next (
  s.engineComplete core)

/-- ENGINE_COMMAND_MIGRATE: an accepted command that starts from zero and writes back moves once, to the engine of the tile with the
lowest core number that is idle (R229). -/
def State.engineMigrate (s : State) (core cid : Nat) : State :=
  let k := s.core core
  let idle (n : Nat) : Bool := n != core && (s.core n).engine.queue.isEmpty && (s.core n).engine.running.isNone
  match k.engine.queue.find? (fun c => c.id == cid), (tileCores (coreTile core)).find? idle with
  | some c, some n =>
    if (s.partRegs (s.partOf core)).mmigt = 0 ∨ c.moved ∨ ¬ c.isBlock ∨ ¬ c.zero ∨ ¬ c.writesBack ∨ c.asrc ≠ 0 ∨ c.bsrc ≠ 0
        ∨ c.afwd ∨ c.bfwd then s
    else
      let t := s.setCore core { k with engine := { k.engine with queue := k.engine.queue.filter (fun x => x.id ≠ cid) } }
      (t.acceptCommand n { c with moved := true, target := n }).identities core
  | _, _ => s

/-- ENGINE_COMMAND_MIGRATE (R229). -/
def execEngineCommandMigrate (core : Nat) (cid : Nat) (s : State) :
    Host.Outcome State Fault Refusal :=
  .next (
  s.engineMigrate core cid)

/-! ### The engraver (R233, R234; 18_sparse.md R380 to R384) -/

/-- The bits of a row. -/
def rowCount (w : Word) : Nat := ((List.range 64).filter w.getLsbD).length

/-- The pairs (half, slice of k columns) with a stored element (R233). -/
def slicePairs (rows : List Word) (k : Nat) : Nat :=
  ((List.range 2).flatMap (fun h => (List.range (64 / k)).filter (fun i =>
    (List.range 32).any (fun r => (List.range k).any (fun j => (rows.getD (32 * h + r) 0).getLsbD (i * k + j)))))).length

/-- Whether a tile is malformed (R380). -/
def tileMalformed (w : Word) (rows : List Word) : Bool :=
  decide (bitsOf w 44 32 ≠ 0) || !([0x01, 0x05, 0x11, 0x12, 0x13, 0x14, 0x15].contains (bitsOf w 63 58))
    || decide (bitsOf w 57 45 ≠ (rows.map rowCount).sum)

/-- The entry of a tile (R233). -/
def plateOf (r : Engrave) (w : Word) (rows : List Word) (used : Nat) : Plate :=
  let f := bitsOf w 63 58
  let k := if isF8 f ∨ isInt8 f then 2 else 1
  let nnz := (rows.map rowCount).sum
  let size := (rows.map (fun x => (rowCount x + 1) / 2)).sum + 2 * slicePairs rows k
  let kind : PlateKind := if nnz = 0 then .empty else if 1536 < nnz ∨ 1024 < size then .dense else .plate
  { id := used, part := r.part, address := r.address, version := r.version, kind := kind, l := if kind = .plate then size else 0, nnz := nnz
    bitmap := Vector.ofFn (fun i : Fin 64 => rows.getD i.val 0), used := used }

/-- Whether a command waits for the identity of a request. -/
def Engrave.serves (r : Engrave) (c : Command) : Bool :=
  c.part == r.part && c.tileAddr == r.address && c.plateVersion == some r.version && c.plate.isNone && c.plateFailed.isNone

/-- The waiting commands of a super-group changed: MSPs in its engines' queues and MPREs. -/
def State.onWaiting (s : State) (sg : Nat) (r : Engrave) (f : Command → Command) : State :=
  let g (c : Command) : Command := if r.serves c then f c else c
  { s with
    cores := s.cores.map (fun e => if e.1 < 4096 ∧ superGroupOf e.1 = sg then
      (e.1, { e.2 with engine := { e.2.engine with queue := e.2.engine.queue.map g } }) else e)
    commands := s.commands.map (fun c => if superGroupOf c.issuer = sg ∧ c.kind = .mpre then g c else c) }

/-- Every command of a super-group that has still to find its plate seeks it, and MPREs that have it complete. -/
def State.plateRound (s : State) (sg : Nat) : State :=
  let s := s.cores.foldl (fun (s : State) e => if e.1 < 4096 ∧ superGroupOf e.1 = sg then s.identities e.1 else s) s
  let mine (c : Command) : Bool := c.kind == .mpre && superGroupOf c.issuer == sg
  let waiting := s.commands.filter mine
  waiting.foldl (fun (s : State) c =>
    let (t, c') := s.identify sg c
    t.plateReady c') { s with commands := s.commands.filter (fun c => !mine c) }

/-- A request that is over leaves the engraver. -/
def State.dropEngrave (s : State) (sg : Nat) : State :=
  let g := s.superGroup sg
  s.setSuperGroup sg { g with engraver := g.engraver.tail }

/-- A stale request: its commands repeat the identity step (R382). -/
def State.engraveStale (s : State) (sg : Nat) (r : Engrave) : State :=
  ((s.dropEngrave sg).onWaiting sg r (fun c => { c with plateVersion := none })).plateRound sg

/-- A failed compilation: its commands complete with the failure (R383). -/
def State.engraveFailed (s : State) (sg : Nat) (r : Engrave) (e : Nat × Nat × Word) : State :=
  ((s.dropEngrave sg).onWaiting sg r (fun c => { c with plateFailed := some e })).plateRound sg

/-- The least recently used entry that is not in use (R234). -/
def State.replaceable (s : State) (sg : Nat) : Option Plate :=
  ((s.superGroup sg).plates.filter (fun e => !s.plateInUse sg e)).foldl (fun (best : Option Plate) e => match best with
    | none => some e
    | some b => if e.used < b.used then some e else some b) none

/-- An entry built: it takes a place, replacing one where the cache is full, and waits where none can be replaced. A compilation that
MPINV met serves the commands that wait for it and is then dropped (R235). -/
def State.engraveBuilt (s : State) (sg : Nat) (r : Engrave) (e : Plate) : State :=
  let g := s.superGroup sg
  let plates : Option (List Plate) :=
    if g.plates.length < 256 then some g.plates else (s.replaceable sg).map (fun x => g.plates.erase x)
  match plates with
  | none => s
  | some ps =>
    let t := { s.setSuperGroup sg { g with plates := ps ++ [e], engraver := g.engraver.tail } with nextOrder := s.nextOrder + 1 }
    let t := t.plateRound sg
    if r.drop then t.dropPlates sg (fun x => x.id == e.id) else t

/-- ENGRAVE_START: the engraver takes its oldest request and reads the header with its tag (R382, step 1). -/
def State.engraveStart (s : State) (sg : Nat) : State :=
  let g := s.superGroup sg
  match g.engraver with
  | [] => s
  | r :: rest =>
    if r.started then s
    else match s.tileHeader r.part r.level r.address with
      | .error e => s.engraveFailed sg r e
      | .ok (w, v) => if v ≠ r.version then s.engraveStale sg r
        else s.setSuperGroup sg { g with engraver := { r with started := true, header := w } :: rest }

/-- ENGRAVE_START (R382). -/
def execEngraveStart (sg : Nat) (s : State) :
    Host.Outcome State Fault Refusal :=
  .next (
  s.engraveStart sg)

/-- The bitmap doublewords of a list read, of those that have not been; the error is a completion's (R382, step 2; R383). -/
def State.readRows (s : State) (r : Engrave) : List Nat → Except (Nat × Nat × Word) (Table Word)
  | [] => .ok r.rows
  | i :: rest =>
    if (Table.look r.rows i).isSome then s.readRows r rest
    else match s.plateDword r.part r.level (r.address + 8 + 8 * i) with
      | .error e => .error e
      | .ok w => s.readRows { r with rows := Table.put r.rows i w } rest

/-- ENGRAVE_COMPLETE: the bitmap read, its doublewords in a free order and, without `eager`, some of them earlier than the others; then the
header's tag again, the tile checked, and its entry made (R382, steps 2 to 6). -/
def State.engraveComplete (s : State) (sg : Nat) : State :=
  let g := s.superGroup sg
  match g.engraver with
  | [] => s
  | r :: rest =>
    if ¬ r.started then s
    else if ¬ s.eager ∧ r.rows = [] then
      match s.readRows r ((List.range 64).filter (fun i => s.free (2000 + i) 2 == 1)) with
      | .error e => s.engraveFailed sg r e
      | .ok rows => s.setSuperGroup sg { g with engraver := { r with rows := rows } :: rest }
    else match s.readRows r (List.range 64), s.tileHeader r.part r.level r.address with
      | .error e, _ | _, .error e => s.engraveFailed sg r e
      | .ok rows, .ok (_, v) =>
        let rows := (List.range 64).map (fun i => Table.get rows i 0)
        if v ≠ r.version then s.engraveStale sg r
        else if tileMalformed r.header rows then s.engraveFailed sg r (7, Cause.format.number, 0)
        else s.engraveBuilt sg r (plateOf r r.header rows s.nextOrder)

/-- ENGRAVE_COMPLETE (R382). -/
def execEngraveComplete (sg : Nat) (s : State) :
    Host.Outcome State Fault Refusal :=
  .next (
  s.engraveComplete sg)

end Sys2Proof.Machine
end

