-- ==== Sys2Proof/Machine/Control.lean ====
section
/-! DEFINITION. The control flow of 04_scalar.md (R112 to R114). -/

namespace Sys2Proof.Machine

/-- The conditions of BC (03_encoding.md R85); codes 6 and 7 do not decode. -/
def condHolds (c : BitVec 3) (x y : Word) : Bool :=
  match c.toNat with
  | 0 => x == y
  | 1 => x != y
  | 2 => x.slt y
  | 3 => !x.slt y
  | 4 => decide (x < y)
  | _ => !decide (x < y)

/-- A conditional branch (R112, R113): the marked sources die whether or not it is taken. -/
def branch (s : State) (length : Nat) (taken : Bool) (target : Word) (dies : List Reg) : Run :=
  if taken then s.transfer target dies [] else s.retire length dies []

/-- BC (R113). -/
def execBc (a : Reg) (l : Bool) (b : Reg) (m : Bool) (c : BitVec 3) (o : BitVec 10) (s : State) :
    Host.Outcome State Fault Refusal :=
  conclude s (do
    let x ← s.readReg a
    let y ← s.readReg b
    branch s 4 (condHolds c x y) (s.branchTarget o) (used l a ++ used m b))

/-- J (R113). -/
def execJ (o : BitVec 25) (s : State) : Host.Outcome State Fault Refusal :=
  conclude s (s.transfer (s.branchTarget o) [] [])

/-- JAL: g1 takes the address of the next instruction (R113). -/
def execJal (o : BitVec 25) (s : State) : Host.Outcome State Fault Refusal :=
  conclude s (s.transfer (s.branchTarget o) [] [(1, s.me.pc + 4)])

/-- JR (R113). -/
def execJr (d a : Reg) (l : Bool) (i : BitVec 10) (s : State) : Host.Outcome State Fault Refusal :=
  conclude s (do
    let x ← s.readReg a
    s.transfer (x + simm i) (used l a) [(d, s.me.pc + 4)])

/-- LOOP (R114): a counter of 0 falls through and is left at 0. -/
def execLoop (d : Reg) (i : BitVec 10) (s : State) : Host.Outcome State Fault Refusal :=
  conclude s (do
    let c ← s.readReg d
    if c = 0 then s.retire 4 [] []
    else if c = 1 then s.retire 4 [] [(d, 0)]
    else s.transfer (s.branchTarget i) [] [(d, c - 1)])

end Sys2Proof.Machine
end

