-- ==== Sys2Proof/Machine/Pointer.lean ====
section
/-! DEFINITION. The pointer instructions of 04_scalar.md (R107 to R111). -/

namespace Sys2Proof.Machine

/-- The bytes of one element for PIDX; FORMAT for an element that is not whole bytes (R107). SHRD counts elements. -/
def pidxSize (p : Word) : Except Stop Nat :=
  if ptrSpace p = 2 then .ok 1
  else if fmtBytes (ptrFmt p) = 0 then trapWith .format p
  else .ok (fmtBytes (ptrFmt p))

/-- The bounds of the field F of PSET and PGET (R108). -/
def ptrField (f : BitVec 2) : Nat × Nat :=
  match f.toNat with
  | 0 => (63, 58)
  | 1 => (57, 55)
  | 2 => (54, 52)
  | _ => (51, 0)

/-- PCORE's pointer (R109). -/
def corePointer (x y : Word) : Word := setBits (setBits (setBits x 54 52 1) 51 32 (bitsOf y 19 0)) 31 0 (bitsOf x 31 0)

/-- PSHRD's pointer (R110). -/
def shrdPointer (x y : Word) : Word := wordOf (2 * 2 ^ 52 + bitsOf x 11 0 * 2 ^ 40 + bitsOf y 39 0)

/-- EXT's extent (R111). -/
def extentOf (x y : Word) : Word :=
  wordOf (bitsOf x 19 12 * 2 ^ 56 + bitsOf y 19 12 * 2 ^ 48 + bitsOf x 11 0 * 2 ^ 36 + bitsOf y 11 0 * 2 ^ 24)

/-- PADD (R107), for the 32-bit form and C.PADD. -/
def padd (s : State) (length : Nat) (d a : Reg) (l : Bool) (b : Reg) (m : Bool) : Run := do
  let p ← s.readReg a
  let x ← s.readReg b
  let q ← advanceOr p x.toInt
  s.retire length (used l a ++ used m b) [(d, q)]

/-- PADD (R107). -/
def execPadd (d a : Reg) (l : Bool) (b : Reg) (m : Bool) (s : State) : Host.Outcome State Fault Refusal :=
  conclude s (padd s 4 d a l b m)

/-- PIDX: FORMAT comes before PTROVF (R107). -/
def execPidx (d a : Reg) (l : Bool) (b : Reg) (m : Bool) (s : State) : Host.Outcome State Fault Refusal :=
  conclude s (do
    let p ← s.readReg a
    let x ← s.readReg b
    let n ← pidxSize p
    let q ← advanceOr p (x.toInt * n)
    s.retire 4 (used l a ++ used m b) [(d, q)])

/-- PSET (R108). -/
def execPset (d a : Reg) (l : Bool) (b : Reg) (m : Bool) (f : BitVec 2) (s : State) : Host.Outcome State Fault Refusal :=
  binary s 4 d a l b m (fun x y => setBits x (ptrField f).1 (ptrField f).2 y.toNat)

/-- PGET (R108). -/
def execPget (d a : Reg) (l : Bool) (f : BitVec 2) (s : State) : Host.Outcome State Fault Refusal :=
  unary s 4 d a l (fun x => wordOf (bitsOf x (ptrField f).1 (ptrField f).2))

/-- PCORE (R109). -/
def execPcore (d a : Reg) (l : Bool) (b : Reg) (m : Bool) (s : State) : Host.Outcome State Fault Refusal :=
  binary s 4 d a l b m corePointer

/-- PSHRD: an index of 2^40 or more traps with PTROVF (R110). -/
def execPshrd (d a : Reg) (l : Bool) (b : Reg) (m : Bool) (s : State) : Host.Outcome State Fault Refusal :=
  conclude s (do
    let x ← s.readReg a
    let y ← s.readReg b
    if 2 ^ 40 ≤ y.toNat then trapWith .ptrovf y
    s.retire 4 (used l a ++ used m b) [(d, shrdPointer x y)])

/-- EXT (R111). -/
def execExt (d a : Reg) (l : Bool) (b : Reg) (m : Bool) (s : State) : Host.Outcome State Fault Refusal :=
  binary s 4 d a l b m extentOf

end Sys2Proof.Machine
end

