-- ==== Sys2Proof/Machine/Scalar.lean ====
section
/-! DEFINITION. The integer, bit-field, multiply and divide instructions of 04_scalar.md (R98 to R106), each a function of
64-bit values over the shapes of Operands.lean. -/

namespace Sys2Proof.Machine

/-! ### The functions of R98, on values of any width -/

def aluSel (z x y : Word) : Word := if z = 0 then y else x
def aluMin {n : Nat} (x y : BitVec n) : BitVec n := if x.slt y then x else y
def aluMax {n : Nat} (x y : BitVec n) : BitVec n := if x.slt y then y else x
def aluMinu {n : Nat} (x y : BitVec n) : BitVec n := if x < y then x else y
def aluMaxu {n : Nat} (x y : BitVec n) : BitVec n := if x < y then y else x
def aluSlt {n : Nat} (x y : BitVec n) : BitVec n := if x.slt y then 1 else 0
def aluSltu {n : Nat} (x y : BitVec n) : BitVec n := if x < y then 1 else 0

/-- A shift count: the low 6 bits on 64-bit values, the low 5 on 32-bit ones (R98, R99). -/
def count {n : Nat} (y : BitVec n) : Nat := y.toNat % n

def aluShl {n : Nat} (x y : BitVec n) : BitVec n := x <<< count y
def aluShr {n : Nat} (x y : BitVec n) : BitVec n := x >>> count y
def aluSar {n : Nat} (x y : BitVec n) : BitVec n := x.sshiftRight (count y)
def aluRot {n : Nat} (x y : BitVec n) : BitVec n := x.rotateRight (count y)

/-- Leading zero bits, trailing zero bits, bits that are 1. -/
def aluClz {n : Nat} (x : BitVec n) : BitVec n :=
  BitVec.ofNat n (((List.range n).map (fun i => x.getLsbD (n - 1 - i))).takeWhile (! ·)).length
def aluCtz {n : Nat} (x : BitVec n) : BitVec n :=
  BitVec.ofNat n (((List.range n).map (fun i => x.getLsbD i)).takeWhile (! ·)).length
def aluPopc {n : Nat} (x : BitVec n) : BitVec n := BitVec.ofNat n ((List.range n).filter (fun i => x.getLsbD i)).length

/-- Bit i moved to bit 63 - i, and byte i to byte 7 - i. -/
def aluBrev (x : Word) : Word := x.reverse
def aluBswp (x : Word) : Word :=
  x.extractLsb' 0 8 ++ x.extractLsb' 8 8 ++ x.extractLsb' 16 8 ++ x.extractLsb' 24 8 ++ x.extractLsb' 32 8
    ++ x.extractLsb' 40 8 ++ x.extractLsb' 48 8 ++ x.extractLsb' 56 8

/-- A `.w` form: the operation on bits [31:0], the 32-bit result sign-extended (R99, R105). -/
def narrow (f : BitVec 32 → BitVec 32 → BitVec 32) (x y : Word) : Word :=
  (f (x.truncate 32) (y.truncate 32)).signExtend 64
def narrow1 (f : BitVec 32 → BitVec 32) (x : Word) : Word := (f (x.truncate 32)).signExtend 64

/-! ### Bit fields (R103, R104) -/

/-- Bits o + w - 1 down to o of x extended above bit 63 by `fill`. -/
def fieldOf (x : Word) (o w : Nat) (fill : Bool) : Nat :=
  let ext : BitVec 512 := if fill then x.signExtend 512 else x.zeroExtend 512
  ext.toNat / 2 ^ o % 2 ^ w

def bitField (x : Word) (o w : Nat) : Word := wordOf (fieldOf x o w false)
def bitFieldSigned (x : Word) (o w : Nat) : Word :=
  if w = 0 then 0
  else
    let f := fieldOf x o w true
    if f < 2 ^ (w - 1) then wordOf f else wordOfInt ((f : Int) - 2 ^ w)
def bitInsert (y x : Word) (o w : Nat) : Word :=
  let mask := wordOf ((2 ^ w - 1) * 2 ^ o)
  (y &&& ~~~mask) ||| (wordOf (x.toNat * 2 ^ o) &&& mask)

/-- Offset and width of the register forms (R103). -/
def fieldOffset (y : Word) : Nat := bitsOf y 7 0
def fieldWidth (y : Word) : Nat := min (bitsOf y 15 8) 64

/-! ### Multiply and divide (R105, R106) -/

def mulLow {n : Nat} (x y : BitVec n) : BitVec n := x * y
def mulHigh {n : Nat} (x y : BitVec n) : BitVec n := BitVec.ofInt n (x.toInt * y.toInt / 2 ^ n)
def mulHighU {n : Nat} (x y : BitVec n) : BitVec n := BitVec.ofNat n (x.toNat * y.toNat / 2 ^ n)
def quot {n : Nat} (x y : BitVec n) : BitVec n := if y = 0 then BitVec.allOnes n else BitVec.ofInt n (x.toInt.tdiv y.toInt)
def quotU {n : Nat} (x y : BitVec n) : BitVec n := if y = 0 then BitVec.allOnes n else BitVec.ofNat n (x.toNat / y.toNat)
def remS {n : Nat} (x y : BitVec n) : BitVec n := if y = 0 then x else BitVec.ofInt n (x.toInt.tmod y.toInt)
def remU {n : Nat} (x y : BitVec n) : BitVec n := if y = 0 then x else BitVec.ofNat n (x.toNat % y.toNat)

/-- Immediate b of R100. -/
def imm10 (i : BitVec 10) : Word := simm i
/-- The count of an immediate shift, as the second operand of R98. -/
def immCount (c : BitVec 6) : Word := c.zeroExtend 64
/-- Halfword h replaced (R101). -/
def putHalf (z : Word) (h : BitVec 2) (i : BitVec 16) : Word := setBits z (16 * h.toNat + 15) (16 * h.toNat) i.toNat

/-! ### The instructions -/

/-- ADD (R98). -/
def execAdd (d a : Reg) (l : Bool) (b : Reg) (m : Bool) (s : State) : Host.Outcome State Fault Refusal :=
  binary s 4 d a l b m (· + ·)

/-- SUB (R98). -/
def execSub (d a : Reg) (l : Bool) (b : Reg) (m : Bool) (s : State) : Host.Outcome State Fault Refusal :=
  binary s 4 d a l b m (· - ·)

/-- AND (R98). -/
def execAnd (d a : Reg) (l : Bool) (b : Reg) (m : Bool) (s : State) : Host.Outcome State Fault Refusal :=
  binary s 4 d a l b m (· &&& ·)

/-- OR (R98). -/
def execOr (d a : Reg) (l : Bool) (b : Reg) (m : Bool) (s : State) : Host.Outcome State Fault Refusal :=
  binary s 4 d a l b m (· ||| ·)

/-- XOR (R98). -/
def execXor (d a : Reg) (l : Bool) (b : Reg) (m : Bool) (s : State) : Host.Outcome State Fault Refusal :=
  binary s 4 d a l b m (· ^^^ ·)

/-- ANDN (R98). -/
def execAndn (d a : Reg) (l : Bool) (b : Reg) (m : Bool) (s : State) : Host.Outcome State Fault Refusal :=
  binary s 4 d a l b m (fun x y => x &&& ~~~y)

/-- SHL (R98). -/
def execShl (d a : Reg) (l : Bool) (b : Reg) (m : Bool) (s : State) : Host.Outcome State Fault Refusal :=
  binary s 4 d a l b m aluShl

/-- SHR (R98). -/
def execShr (d a : Reg) (l : Bool) (b : Reg) (m : Bool) (s : State) : Host.Outcome State Fault Refusal :=
  binary s 4 d a l b m aluShr

/-- SAR (R98). -/
def execSar (d a : Reg) (l : Bool) (b : Reg) (m : Bool) (s : State) : Host.Outcome State Fault Refusal :=
  binary s 4 d a l b m aluSar

/-- ROT (R98). -/
def execRot (d a : Reg) (l : Bool) (b : Reg) (m : Bool) (s : State) : Host.Outcome State Fault Refusal :=
  binary s 4 d a l b m aluRot

/-- MIN (R98). -/
def execMin (d a : Reg) (l : Bool) (b : Reg) (m : Bool) (s : State) : Host.Outcome State Fault Refusal :=
  binary s 4 d a l b m aluMin

/-- MAX (R98). -/
def execMax (d a : Reg) (l : Bool) (b : Reg) (m : Bool) (s : State) : Host.Outcome State Fault Refusal :=
  binary s 4 d a l b m aluMax

/-- MINU (R98). -/
def execMinu (d a : Reg) (l : Bool) (b : Reg) (m : Bool) (s : State) : Host.Outcome State Fault Refusal :=
  binary s 4 d a l b m aluMinu

/-- MAXU (R98). -/
def execMaxu (d a : Reg) (l : Bool) (b : Reg) (m : Bool) (s : State) : Host.Outcome State Fault Refusal :=
  binary s 4 d a l b m aluMaxu

/-- SLT (R98). -/
def execSlt (d a : Reg) (l : Bool) (b : Reg) (m : Bool) (s : State) : Host.Outcome State Fault Refusal :=
  binary s 4 d a l b m aluSlt

/-- SLTU (R98). -/
def execSltu (d a : Reg) (l : Bool) (b : Reg) (m : Bool) (s : State) : Host.Outcome State Fault Refusal :=
  binary s 4 d a l b m aluSltu

/-- SEL: rd is read as the condition (R98). -/
def execSel (d a : Reg) (l : Bool) (b : Reg) (m : Bool) (s : State) : Host.Outcome State Fault Refusal :=
  ternary s 4 d a l b m aluSel

/-- MOV (R98). -/
def execMov (d a : Reg) (l : Bool) (s : State) : Host.Outcome State Fault Refusal :=
  unary s 4 d a l id

/-- CLZ (R98). -/
def execClz (d a : Reg) (l : Bool) (s : State) : Host.Outcome State Fault Refusal :=
  unary s 4 d a l aluClz

/-- CTZ (R98). -/
def execCtz (d a : Reg) (l : Bool) (s : State) : Host.Outcome State Fault Refusal :=
  unary s 4 d a l aluCtz

/-- POPC (R98). -/
def execPopc (d a : Reg) (l : Bool) (s : State) : Host.Outcome State Fault Refusal :=
  unary s 4 d a l aluPopc

/-- BREV (R98). -/
def execBrev (d a : Reg) (l : Bool) (s : State) : Host.Outcome State Fault Refusal :=
  unary s 4 d a l aluBrev

/-- BSWP (R98). -/
def execBswp (d a : Reg) (l : Bool) (s : State) : Host.Outcome State Fault Refusal :=
  unary s 4 d a l aluBswp

/-- ADD.W (R99). -/
def execAddW (d a : Reg) (l : Bool) (b : Reg) (m : Bool) (s : State) : Host.Outcome State Fault Refusal :=
  binary s 4 d a l b m (narrow (· + ·))

/-- SUB.W (R99). -/
def execSubW (d a : Reg) (l : Bool) (b : Reg) (m : Bool) (s : State) : Host.Outcome State Fault Refusal :=
  binary s 4 d a l b m (narrow (· - ·))

/-- AND.W (R99). -/
def execAndW (d a : Reg) (l : Bool) (b : Reg) (m : Bool) (s : State) : Host.Outcome State Fault Refusal :=
  binary s 4 d a l b m (narrow (· &&& ·))

/-- OR.W (R99). -/
def execOrW (d a : Reg) (l : Bool) (b : Reg) (m : Bool) (s : State) : Host.Outcome State Fault Refusal :=
  binary s 4 d a l b m (narrow (· ||| ·))

/-- XOR.W (R99). -/
def execXorW (d a : Reg) (l : Bool) (b : Reg) (m : Bool) (s : State) : Host.Outcome State Fault Refusal :=
  binary s 4 d a l b m (narrow (· ^^^ ·))

/-- ANDN.W (R99). -/
def execAndnW (d a : Reg) (l : Bool) (b : Reg) (m : Bool) (s : State) : Host.Outcome State Fault Refusal :=
  binary s 4 d a l b m (narrow (fun x y => x &&& ~~~y))

/-- SHL.W (R99). -/
def execShlW (d a : Reg) (l : Bool) (b : Reg) (m : Bool) (s : State) : Host.Outcome State Fault Refusal :=
  binary s 4 d a l b m (narrow aluShl)

/-- SHR.W (R99). -/
def execShrW (d a : Reg) (l : Bool) (b : Reg) (m : Bool) (s : State) : Host.Outcome State Fault Refusal :=
  binary s 4 d a l b m (narrow aluShr)

/-- SAR.W (R99). -/
def execSarW (d a : Reg) (l : Bool) (b : Reg) (m : Bool) (s : State) : Host.Outcome State Fault Refusal :=
  binary s 4 d a l b m (narrow aluSar)

/-- ROT.W (R99). -/
def execRotW (d a : Reg) (l : Bool) (b : Reg) (m : Bool) (s : State) : Host.Outcome State Fault Refusal :=
  binary s 4 d a l b m (narrow aluRot)

/-- MIN.W (R99). -/
def execMinW (d a : Reg) (l : Bool) (b : Reg) (m : Bool) (s : State) : Host.Outcome State Fault Refusal :=
  binary s 4 d a l b m (narrow aluMin)

/-- MAX.W (R99). -/
def execMaxW (d a : Reg) (l : Bool) (b : Reg) (m : Bool) (s : State) : Host.Outcome State Fault Refusal :=
  binary s 4 d a l b m (narrow aluMax)

/-- MINU.W (R99). -/
def execMinuW (d a : Reg) (l : Bool) (b : Reg) (m : Bool) (s : State) : Host.Outcome State Fault Refusal :=
  binary s 4 d a l b m (narrow aluMinu)

/-- MAXU.W (R99). -/
def execMaxuW (d a : Reg) (l : Bool) (b : Reg) (m : Bool) (s : State) : Host.Outcome State Fault Refusal :=
  binary s 4 d a l b m (narrow aluMaxu)

/-- SLT.W (R99). -/
def execSltW (d a : Reg) (l : Bool) (b : Reg) (m : Bool) (s : State) : Host.Outcome State Fault Refusal :=
  binary s 4 d a l b m (narrow aluSlt)

/-- SLTU.W (R99). -/
def execSltuW (d a : Reg) (l : Bool) (b : Reg) (m : Bool) (s : State) : Host.Outcome State Fault Refusal :=
  binary s 4 d a l b m (narrow aluSltu)

/-- CLZ.W (R99). -/
def execClzW (d a : Reg) (l : Bool) (s : State) : Host.Outcome State Fault Refusal :=
  unary s 4 d a l (narrow1 aluClz)

/-- CTZ.W (R99). -/
def execCtzW (d a : Reg) (l : Bool) (s : State) : Host.Outcome State Fault Refusal :=
  unary s 4 d a l (narrow1 aluCtz)

/-- POPC.W (R99). -/
def execPopcW (d a : Reg) (l : Bool) (s : State) : Host.Outcome State Fault Refusal :=
  unary s 4 d a l (narrow1 aluPopc)

/-- ADD with an immediate (R100). -/
def execAddImm (d a : Reg) (l : Bool) (i : BitVec 10) (s : State) : Host.Outcome State Fault Refusal :=
  unary s 4 d a l (fun x => ((· + ·) : Word → Word → Word) x (imm10 i))

/-- AND with an immediate (R100). -/
def execAndImm (d a : Reg) (l : Bool) (i : BitVec 10) (s : State) : Host.Outcome State Fault Refusal :=
  unary s 4 d a l (fun x => ((· &&& ·) : Word → Word → Word) x (imm10 i))

/-- OR with an immediate (R100). -/
def execOrImm (d a : Reg) (l : Bool) (i : BitVec 10) (s : State) : Host.Outcome State Fault Refusal :=
  unary s 4 d a l (fun x => ((· ||| ·) : Word → Word → Word) x (imm10 i))

/-- XOR with an immediate (R100). -/
def execXorImm (d a : Reg) (l : Bool) (i : BitVec 10) (s : State) : Host.Outcome State Fault Refusal :=
  unary s 4 d a l (fun x => ((· ^^^ ·) : Word → Word → Word) x (imm10 i))

/-- SLT with an immediate (R100). -/
def execSltImm (d a : Reg) (l : Bool) (i : BitVec 10) (s : State) : Host.Outcome State Fault Refusal :=
  unary s 4 d a l (fun x => (aluSlt : Word → Word → Word) x (imm10 i))

/-- SLTU with an immediate (R100). -/
def execSltuImm (d a : Reg) (l : Bool) (i : BitVec 10) (s : State) : Host.Outcome State Fault Refusal :=
  unary s 4 d a l (fun x => (aluSltu : Word → Word → Word) x (imm10 i))

/-- MIN with an immediate (R100). -/
def execMinImm (d a : Reg) (l : Bool) (i : BitVec 10) (s : State) : Host.Outcome State Fault Refusal :=
  unary s 4 d a l (fun x => (aluMin : Word → Word → Word) x (imm10 i))

/-- MAX with an immediate (R100). -/
def execMaxImm (d a : Reg) (l : Bool) (i : BitVec 10) (s : State) : Host.Outcome State Fault Refusal :=
  unary s 4 d a l (fun x => (aluMax : Word → Word → Word) x (imm10 i))

/-- SHL with an immediate count (R100). -/
def execShlImm (d a : Reg) (l : Bool) (c : BitVec 6) (s : State) : Host.Outcome State Fault Refusal :=
  unary s 4 d a l (fun x => aluShl x (immCount c))

/-- SHR with an immediate count (R100). -/
def execShrImm (d a : Reg) (l : Bool) (c : BitVec 6) (s : State) : Host.Outcome State Fault Refusal :=
  unary s 4 d a l (fun x => aluShr x (immCount c))

/-- SAR with an immediate count (R100). -/
def execSarImm (d a : Reg) (l : Bool) (c : BitVec 6) (s : State) : Host.Outcome State Fault Refusal :=
  unary s 4 d a l (fun x => aluSar x (immCount c))

/-- ROT with an immediate count (R100). -/
def execRotImm (d a : Reg) (l : Bool) (c : BitVec 6) (s : State) : Host.Outcome State Fault Refusal :=
  unary s 4 d a l (fun x => aluRot x (immCount c))

/-- ADD.W with an immediate (R100). -/
def execAddWImm (d a : Reg) (l : Bool) (i : BitVec 10) (s : State) : Host.Outcome State Fault Refusal :=
  unary s 4 d a l (fun x => narrow (· + ·) x (imm10 i))

/-- LI (R101). -/
def execLi (d : Reg) (i : BitVec 19) (s : State) : Host.Outcome State Fault Refusal := constant s 4 d (simm i)

/-- LIH: rd is read and its halfword h replaced (R101). -/
def execLih (d : Reg) (h : BitVec 2) (i : BitVec 16) (s : State) : Host.Outcome State Fault Refusal :=
  unary s 4 d d false (fun z => putHalf z h i)

/-- BFX with immediate offset and width (R103, R104). -/
def execBfx (d a : Reg) (l : Bool) (o : BitVec 6) (w : BitVec 7) (s : State) : Host.Outcome State Fault Refusal :=
  unary s 4 d a l (fun x => bitField x o.toNat w.toNat)

/-- BFXS with immediate offset and width (R103, R104). -/
def execBfxs (d a : Reg) (l : Bool) (o : BitVec 6) (w : BitVec 7) (s : State) : Host.Outcome State Fault Refusal :=
  unary s 4 d a l (fun x => bitFieldSigned x o.toNat (w.toNat - 64))

/-- BFXS of width 64 (R103, R104). -/
def execBfxs64 (d a : Reg) (l : Bool) (o : BitVec 6) (s : State) : Host.Outcome State Fault Refusal :=
  unary s 4 d a l (fun x => bitFieldSigned x o.toNat 64)

/-- BFI with immediate offset and width: rd is read (R103, R104). -/
def execBfi (d a : Reg) (l : Bool) (o : BitVec 6) (w : BitVec 7) (s : State) : Host.Outcome State Fault Refusal :=
  binary s 4 d a l d false (fun x y => bitInsert y x o.toNat w.toNat)

/-- BFX with offset and width in rs2 (R103, R104). -/
def execBfxReg (d a : Reg) (l : Bool) (b : Reg) (m : Bool) (s : State) : Host.Outcome State Fault Refusal :=
  binary s 4 d a l b m (fun x y => bitField x (fieldOffset y) (fieldWidth y))

/-- BFXS with offset and width in rs2 (R103, R104). -/
def execBfxsReg (d a : Reg) (l : Bool) (b : Reg) (m : Bool) (s : State) : Host.Outcome State Fault Refusal :=
  binary s 4 d a l b m (fun x y => bitFieldSigned x (fieldOffset y) (fieldWidth y))

/-- BFI with offset and width in rs2: rd is read (R103, R104). -/
def execBfiReg (d a : Reg) (l : Bool) (b : Reg) (m : Bool) (s : State) : Host.Outcome State Fault Refusal :=
  ternary s 4 d a l b m (fun z x y => bitInsert z x (fieldOffset y) (fieldWidth y))

/-- MUL (R105, R106). -/
def execMul (d a : Reg) (l : Bool) (b : Reg) (m : Bool) (s : State) : Host.Outcome State Fault Refusal :=
  binary s 4 d a l b m mulLow

/-- MULH (R105, R106). -/
def execMulh (d a : Reg) (l : Bool) (b : Reg) (m : Bool) (s : State) : Host.Outcome State Fault Refusal :=
  binary s 4 d a l b m mulHigh

/-- MULHU (R105, R106). -/
def execMulhu (d a : Reg) (l : Bool) (b : Reg) (m : Bool) (s : State) : Host.Outcome State Fault Refusal :=
  binary s 4 d a l b m mulHighU

/-- DIV (R105, R106). -/
def execDiv (d a : Reg) (l : Bool) (b : Reg) (m : Bool) (s : State) : Host.Outcome State Fault Refusal :=
  binary s 4 d a l b m quot

/-- DIVU (R105, R106). -/
def execDivu (d a : Reg) (l : Bool) (b : Reg) (m : Bool) (s : State) : Host.Outcome State Fault Refusal :=
  binary s 4 d a l b m quotU

/-- REM (R105, R106). -/
def execRem (d a : Reg) (l : Bool) (b : Reg) (m : Bool) (s : State) : Host.Outcome State Fault Refusal :=
  binary s 4 d a l b m remS

/-- REMU (R105, R106). -/
def execRemu (d a : Reg) (l : Bool) (b : Reg) (m : Bool) (s : State) : Host.Outcome State Fault Refusal :=
  binary s 4 d a l b m remU

/-- MUL.W (R105, R106). -/
def execMulW (d a : Reg) (l : Bool) (b : Reg) (m : Bool) (s : State) : Host.Outcome State Fault Refusal :=
  binary s 4 d a l b m (narrow mulLow)

/-- MULH.W (R105, R106). -/
def execMulhW (d a : Reg) (l : Bool) (b : Reg) (m : Bool) (s : State) : Host.Outcome State Fault Refusal :=
  binary s 4 d a l b m (narrow mulHigh)

/-- MULHU.W (R105, R106). -/
def execMulhuW (d a : Reg) (l : Bool) (b : Reg) (m : Bool) (s : State) : Host.Outcome State Fault Refusal :=
  binary s 4 d a l b m (narrow mulHighU)

/-- DIV.W (R105, R106). -/
def execDivW (d a : Reg) (l : Bool) (b : Reg) (m : Bool) (s : State) : Host.Outcome State Fault Refusal :=
  binary s 4 d a l b m (narrow quot)

/-- DIVU.W (R105, R106). -/
def execDivuW (d a : Reg) (l : Bool) (b : Reg) (m : Bool) (s : State) : Host.Outcome State Fault Refusal :=
  binary s 4 d a l b m (narrow quotU)

/-- REM.W (R105, R106). -/
def execRemW (d a : Reg) (l : Bool) (b : Reg) (m : Bool) (s : State) : Host.Outcome State Fault Refusal :=
  binary s 4 d a l b m (narrow remS)

/-- REMU.W (R105, R106). -/
def execRemuW (d a : Reg) (l : Bool) (b : Reg) (m : Bool) (s : State) : Host.Outcome State Fault Refusal :=
  binary s 4 d a l b m (narrow remU)

end Sys2Proof.Machine
end

