-- ==== Sys2Proof/Machine/Compact.lean ====
section
/-! DEFINITION. The compact forms (03_encoding.md R92): each has the effect and the traps of its 32-bit equivalent, the next instruction
2 bytes on, and FADDR of ILLEGAL and PRIV is the halfword. -/

namespace Sys2Proof.Machine

/-- A halfword made of a compact opcode and its operands, as FADDR shows it. -/
def halfword (opcode operands : Nat) : Word := wordOf (opcode * 2 ^ 11 + operands)

/-- C.ADD: add rd, rd, rs. -/
def execCAdd (d : BitVec 5) (b : BitVec 5) (l : Bool) (s : State) :
    Host.Outcome State Fault Refusal :=
  binary s 2 d d false b l (· + ·)

/-- C.ADDI: add rd, rd, imm6. -/
def execCAddi (d : BitVec 5) (i : BitVec 6) (s : State) :
    Host.Outcome State Fault Refusal :=
  unary s 2 d d false (· + simm i)

/-- C.MOV: mov rd, rs. -/
def execCMov (d : BitVec 5) (b : BitVec 5) (l : Bool) (s : State) :
    Host.Outcome State Fault Refusal :=
  unary s 2 d b l (fun x => x)

/-- C.LI: li rd, imm6. -/
def execCLi (d : BitVec 5) (i : BitVec 6) (s : State) :
    Host.Outcome State Fault Refusal :=
  constant s 2 d (simm i)

/-- C.LD: ld.d rd′, [rs′ + 8 × d]. -/
def execCLd (d : BitVec 3) (a : BitVec 3) (l : Bool) (i : BitVec 4) (s : State) :
    Host.Outcome State Fault Refusal :=
  concludeAs (halfword 5 (d.toNat * 256 + a.toNat * 32 + l.toNat * 16 + i.toNat)) s (do
    let b ← s.readReg (compactReg a)
    let p ← advanceOr b (8 * i.toNat : Nat)
    loadAt s 2 p 8 false (compactReg d) (used l (compactReg a)))

/-- C.ST: st.d [base′ + 8 × d], rs′. -/
def execCSt (b : BitVec 3) (m : Bool) (a : BitVec 3) (l : Bool) (i : BitVec 3) (s : State) :
    Host.Outcome State Fault Refusal :=
  concludeAs (halfword 6 (b.toNat * 256 + m.toNat * 128 + a.toNat * 16 + l.toNat * 8 + i.toNat)) s (do
    let q ← s.readReg (compactReg a)
    let v ← s.readReg (compactReg b)
    let p ← advanceOr q (8 * i.toNat : Nat)
    storeAt s 2 p 8 v (used l (compactReg a) ++ used m (compactReg b)))

/-- C.BZ: bc.eq rs′, g0, label. -/
def execCBz (a : BitVec 3) (l : Bool) (o : BitVec 6) (s : State) :
    Host.Outcome State Fault Refusal :=
  conclude s (do
    let x ← s.readReg (compactReg a)
    branch s 2 (x == 0) (s.branchTarget o) (used l (compactReg a)))

/-- C.BNZ: bc.ne rs′, g0, label. -/
def execCBnz (a : BitVec 3) (l : Bool) (o : BitVec 6) (s : State) :
    Host.Outcome State Fault Refusal :=
  conclude s (do
    let x ← s.readReg (compactReg a)
    branch s 2 (x != 0) (s.branchTarget o) (used l (compactReg a)))

/-- C.J: j label. -/
def execCJ (o : BitVec 11) (s : State) :
    Host.Outcome State Fault Refusal :=
  conclude s (s.transfer (s.branchTarget o) [] [])

/-- C.ALU SUB: sub rd′, rd′, rs′. -/
def execCSub (d : BitVec 3) (a : BitVec 3) (l : Bool) (s : State) :
    Host.Outcome State Fault Refusal :=
  binary s 2 (compactReg d) (compactReg d) false (compactReg a) l (· - ·)

/-- C.ALU AND. -/
def execCAnd (d : BitVec 3) (a : BitVec 3) (l : Bool) (s : State) :
    Host.Outcome State Fault Refusal :=
  binary s 2 (compactReg d) (compactReg d) false (compactReg a) l (· &&& ·)

/-- C.ALU OR. -/
def execCOr (d : BitVec 3) (a : BitVec 3) (l : Bool) (s : State) :
    Host.Outcome State Fault Refusal :=
  binary s 2 (compactReg d) (compactReg d) false (compactReg a) l (· ||| ·)

/-- C.ALU XOR. -/
def execCXor (d : BitVec 3) (a : BitVec 3) (l : Bool) (s : State) :
    Host.Outcome State Fault Refusal :=
  binary s 2 (compactReg d) (compactReg d) false (compactReg a) l (· ^^^ ·)

/-- C.ALU SHL. -/
def execCShl (d : BitVec 3) (a : BitVec 3) (l : Bool) (s : State) :
    Host.Outcome State Fault Refusal :=
  binary s 2 (compactReg d) (compactReg d) false (compactReg a) l aluShl

/-- C.ALU SHR. -/
def execCShr (d : BitVec 3) (a : BitVec 3) (l : Bool) (s : State) :
    Host.Outcome State Fault Refusal :=
  binary s 2 (compactReg d) (compactReg d) false (compactReg a) l aluShr

/-- C.WAIT: wait with 0 for each class in the mask and 15 for the others (R94). -/
def execCWait (m : BitVec 4) (s : State) :
    Host.Outcome State Fault Refusal :=
  conclude s (waitFor s 2 ((List.range 4).map (fun i => if m.getLsbD i then 0 else 15)))

/-- C.RECV: recv rd. -/
def execCRecv (d : BitVec 5) (s : State) :
    Host.Outcome State Fault Refusal :=
  concludeAs (halfword 11 (d.toNat * 64)) s (receive s 2 d 0 false)

/-- C.JR: jr g0, rs, 0. -/
def execCJr (a : BitVec 5) (l : Bool) (s : State) :
    Host.Outcome State Fault Refusal :=
  conclude s (do
    let x ← s.readReg a
    s.transfer x (used l a) [])

/-- C.PADD: padd rd, rd, rs. -/
def execCPadd (d : BitVec 5) (b : BitVec 5) (l : Bool) (s : State) :
    Host.Outcome State Fault Refusal :=
  conclude s (padd s 2 d d false b l)

/-- C.SYS NOP. -/
def execCNop (s : State) :
    Host.Outcome State Fault Refusal :=
  idle s 2

/-- C.SYS YIELD. -/
def execCYield (s : State) :
    Host.Outcome State Fault Refusal :=
  yielding s 2

/-- C.SYS HHALT: hhalt with code 0. -/
def execCHhalt (s : State) :
    Host.Outcome State Fault Refusal :=
  concludeAs (halfword 14 512) s (halt s 0)

end Sys2Proof.Machine
end

