-- ==== Sys2Proof/Machine/TensorMap.lean ====
section
/-! DEFINITION. Tensor maps (09_copy_instr.md R245 to R248): the fields of an image, the box it describes, and TMLD, TMSET and
TMGET. Where a check of an image has no address of its own, FADDR is the operand (log 17). -/

namespace Sys2Proof.Machine

/-! ### Fields (R245) -/

def mapDw (m : Vector Word 8) (i : Nat) : Word := m.toList.getD i 0
def mapBase (m : Vector Word 8) : Word := mapDw m 0
def mapFill (m : Vector Word 8) : Nat := (mapDw m 1).toNat
def mapStride (m : Vector Word 8) (d : Nat) : Int := intValue true 32 (bitsOf (mapDw m (2 + d)) 63 32)
def mapSize (m : Vector Word 8) (d : Nat) : Nat := bitsOf (mapDw m (2 + d)) 31 8
def mapLo (m : Vector Word 8) (d : Nat) : Nat := bitsOf (mapDw m (2 + d)) 7 4
def mapHi (m : Vector Word 8) (d : Nat) : Nat := bitsOf (mapDw m (2 + d)) 3 0
/-- PADK: padding is written fill-if-empty. -/
def mapKeeps (m : Vector Word 8) : Bool := bitAt (mapDw m 7) 19
/-- OOBT: out of bounds traps. -/
def mapTraps (m : Vector Word 8) : Bool := bitAt (mapDw m 7) 18
def mapSwz (m : Vector Word 8) : Nat := bitsOf (mapDw m 7) 17 15

/-- The storage dimension seen at a view position. -/
def mapPerm (m : Vector Word 8) (i : Nat) : Nat :=
  if bitsOf (mapDw m 7) 14 0 = 0 then i else bitsOf (mapDw m 7) (3 * i + 2) (3 * i)

/-! ### The box (R246) -/

/-- The extents of the box in view order. -/
def mapBox (m : Vector Word 8) : List Nat := (List.range 5).map (fun i => mapSize m (mapPerm m i))

/-- The extents of the padded box, and the padding below coordinate 0. -/
def mapPadded (m : Vector Word 8) : List Nat :=
  (List.range 5).map (fun i => mapSize m (mapPerm m i) + mapLo m (mapPerm m i) + mapHi m (mapPerm m i))
def mapBelow (m : Vector Word 8) : List Nat := (List.range 5).map (fun i => mapLo m (mapPerm m i))

def product (ns : List Nat) : Nat := ns.foldl (· * ·) 1

/-- A map with any SIZE of 0 has no elements. -/
def mapEmpty (m : Vector Word 8) : Bool := (mapBox m).contains 0

/-- Position n of a box in copy order: view position 0 varies fastest (R254). -/
def boxCoords : List Nat → Nat → List Nat
  | [], _ => []
  | e :: rest, n => n % e :: boxCoords rest (n / e)

/-- Whether a view coordinate lies in the box. -/
def mapHolds (m : Vector Word 8) (c : List Int) : Bool :=
  (List.range 5).all (fun i => decide (0 ≤ c.getD i 0) && decide (c.getD i 0 < (mapBox m).getD i 0))

/-- The linear element index of a view coordinate. -/
def mapIndex (m : Vector Word 8) (c : List Int) : Int :=
  ((List.range 5).map (fun i => c.getD i 0 * mapStride m (mapPerm m i))).sum

/-- The codes of coded and bit-plane formats. -/
def packedFmt (f : Nat) : Bool := f == 0x16 || f == 0x17 || f == 0x20 || f == 0x21 || f == 0x22

/-- The check of R247. -/
def mapError (m : Vector Word 8) : Option Cause :=
  let f := ptrFmt (mapBase m)
  let perm := (List.range 5).map (mapPerm m)
  if bitsOf (mapDw m 7) 63 20 ≠ 0 ∨ ¬ (List.range 5).all (fun d => perm.contains d) ∨ 3 < mapSwz m then some .address
  else if fmtReserved f then some .format
  else if mapSwz m ≠ 0 ∧ (packedFmt f ∨ ptrSpace (mapBase m) = 2) then some .address
  else if ptrSpace (mapBase m) = 2 ∧ f ≠ 0 then some .format
  else none

/-- An image checked; ADDRESS names the operand, FORMAT the map's BASE. -/
def checkMap (m : Vector Word 8) (operand : Word) : Except Stop Unit :=
  match mapError m with
  | none => .ok ()
  | some .format => trapWith .format (mapBase m)
  | some c => trapWith c operand

/-! ### The instructions (R248) -/

/-- Map register n of the issuing context. -/
def State.mapReg (s : State) (n : BitVec 3) : Vector Word 8 := s.me.maps.toList.getD n.toNat (Vector.replicate 8 0)
def State.setMap (s : State) (n : BitVec 3) (m : Vector Word 8) : State :=
  s.setMe { s.me with maps := s.me.maps.setIfInBounds n.toNat m }

/-- TMLD. -/
def execTmld (a : BitVec 5) (l : Bool) (p : BitVec 3) (s : State) :
    Host.Outcome State Fault Refusal :=
  concludeAs (Instr.tmld a l p).encoding s
    (do
    let q ← s.readReg a
    s.notService
    spaces q [0, 1]
    if ptrAddr q % 8 ≠ 0 then trapWith .address q
    let img ← s.fetchImage q 0 8
    let map : Vector Word 8 := Vector.ofFn (fun i : Fin 8 => img.getD i.val 0)
    checkMap map q
    let r ← s.retire 4 (used l a) []
    pure (r.setMap p map))

/-- TMSET. -/
def execTmset (a : BitVec 5) (l : Bool) (n : BitVec 3) (p : BitVec 3) (s : State) :
    Host.Outcome State Fault Refusal :=
  concludeAs (Instr.tmset a l n p).encoding s
    (do
    let x ← s.readReg a
    s.notService
    let map := (s.mapReg p).setIfInBounds n.toNat x
    checkMap map x
    let r ← s.retire 4 (used l a) []
    pure (r.setMap p map))

/-- TMGET. -/
def execTmget (d : BitVec 5) (n : BitVec 3) (p : BitVec 3) (s : State) :
    Host.Outcome State Fault Refusal :=
  concludeAs (Instr.tmget d n p).encoding s
    (do
    s.notService
    s.retire 4 [] [(d, mapDw (s.mapReg p) n.toNat)])

end Sys2Proof.Machine
end

