-- ==== Sys2Proof/Machine/Copy.lean ====
section
/-! DEFINITION. The copy instructions and the copy engine of a tile (09_copy_instr.md R251 to R263; 20_layout.md R400 to R403).
An accepted copy is started by COPY_START and runs at COPY_COMPLETE, whole or in pieces as a free choice: positions are read and written in
no fixed order (R262), and none is written before every earlier one has been read and checked (R261). A CPYQ that finds its channel full is
set aside and goes on at COPYQ_RESUME. -/

namespace Sys2Proof.Machine

/-! ### Issue (R251 to R253) -/

/-- The space of a map's BASE and the checks of R39 to R42 on its address: a failure of any gives ADDRESS (R252). -/
def State.copySpace (s : State) (p : Word) (source : Bool) : Except Stop Unit :=
  if source ∧ ptrSpace p = 2 then
    if s.myPart = none ∨ (s.partRegs s.myPart).atlas = 0 then trapWith .address p else .ok ()
  else do
    spaces p [0, 1, 3]
    if ptrSpace p = 1 then
      match s.coreNamed p with
      | some (.inl _) => pure ()
      | _ => trapWith .address p
    match s.engineSpace p [0, 1, 3] with
    | .ok () => pure ()
    | .error _ => trapWith .address p

/-- Whether a source and a destination format pair (02_numbers.md R45): raw bytes only with raw bytes. -/
def copyPair (src dst : Word) : Bool :=
  if ptrSpace src = 2 then ptrFmt dst != 0 else (ptrFmt src == 0) == (ptrFmt dst == 0)

/-- The element format of a map that is not SHRD. -/
def mapFmt (m : Vector Word 8) : Fmt := (fmtOf (ptrFmt (mapBase m))).getD .raw

/-- The element indexes of a map's box in copy order. -/
def boxIndexes (m : Vector Word 8) : List Int :=
  (List.range (product (mapBox m))).map (fun n => mapIndex m ((boxCoords (mapBox m) n).map Int.ofNat))

/-- A packed destination covers its array exactly and has no padding (R260). -/
def coversExactly (m : Vector Word 8) : Bool :=
  decide (mapPadded m = mapBox m)
    && decide (sortBy (fun a b => decide (a ≤ b)) (boxIndexes m) = (List.range (product (mapBox m))).map Int.ofNat)

/-- The maps a copy names. -/
def Copy.hasSource (c : Copy) : Bool := c.kind != .cpyf
def Copy.hasDest (c : Copy) : Bool := c.kind != .cpyq
def Copy.null (c : Copy) : Bool := (c.hasSource && mapEmpty c.src) || (c.hasDest && mapEmpty c.dst)

/-- The positions of a copy (R254). -/
def Copy.extents (c : Copy) : List Nat :=
  match c.kind with
  | .cpys | .cpyq => mapBox c.src
  | _ => mapPadded c.dst
def Copy.positions (c : Copy) : Nat := product c.extents

/-- The checks of R252 after the null maps, in order. -/
def State.checkCopy (s : State) (c : Copy) : Except Stop Unit := do
  let sized : Word := match c.kind with
    | .cpys | .cpyq => mapBase c.src
    | _ => mapBase c.dst
  if c.hasDest then s.copySpace (mapBase c.dst) false
  if c.hasSource then s.copySpace (mapBase c.src) true
  if c.hasSource ∧ c.hasDest ∧ ¬ copyPair (mapBase c.src) (mapBase c.dst) then trapWith .format (mapBase c.src)
  if (c.kind = .cpyg ∨ c.kind = .cpys) ∧ ptrFmt c.list ≠ 0x03 ∧ ptrFmt c.list ≠ 0x04 then trapWith .format c.list
  if 2 ^ 40 ≤ c.positions then trapWith .address sized
  if c.hasDest ∧ packedFmt (ptrFmt (mapBase c.dst)) ∧ ¬ coversExactly c.dst then trapWith .format (mapBase c.dst)
  if c.kind = .cpyq then
    match s.bound (BitVec.ofNat 3 c.channel) with
    | none => illegal
    | some h => if h.kind ≠ 0 then trapWith .address (mapBase c.src)

/-- The completion of a copy (R261). -/
def State.endCopy (s : State) (c : Copy) (code arg0 : Nat) (arg1 : Word) (flags p : Nat) : State :=
  s.complete c.core c.ctx c.part c.opNumber (some 2) code
    [wordOf arg0, arg1, wordOf (flags + c.core % 4096 * 2 ^ 16), wordOf p]

/-- A copy of the issuing context. -/
def State.newCopy (s : State) (kind : CopyKind) (dst src : Vector Word 8) : Copy :=
  { id := s.nextId, kind := kind, core := s.cur.1, ctx := s.cur.2, part := s.myPart.getD 0, level := s.me.level
    opNumber := s.me.opNumber, dst := dst, src := src, rm := s.me.rm, sat8 := s.me.sat8 }

/-- A copy issued: as a release over DEXT it enters the queue of its tile once the counters have drained. A copy that names a
map without elements completes at once (R252). -/
def issueCopy (s : State) (c : Copy) (d : Reg) (dies : List Reg) : Run := do
  if !c.null then s.checkCopy c
  let tile := coreTile s.cur.1
  let mask ← if c.null then pure 0 else s.extent s.me.dext (mapBase c.dst)
  let drained := s.drainedNow mask
  if s.classFull 2 ∨ (¬ c.null ∧ drained ∧ 16 ≤ (s.tile tile).copies.length) then stall .retry
  let r ← s.retire 4 dies [(d, c.opNumber.setWidth 64)]
  let r := { r with nextId := r.nextId + 1 }
  let r := (r.setMe { r.me with opNumber := r.me.opNumber + 1 }).beginOp s.cur.1 s.cur.2 2 none
  if c.null then pure (r.endCopy c 0 0 0 0 0)
  else if drained then
    let u := r.tile tile
    pure (r.setTile tile { u with copies := u.copies ++ [c] })
  else pure (r.hold c.id mask (.copy tile c))

/-- CPY. -/
def execCpy (d : BitVec 5) (sg : BitVec 3) (p : BitVec 3) (s : State) :
    Host.Outcome State Fault Refusal :=
  concludeAs (Instr.cpy d sg p).encoding s
    (do
    s.notService
    issueCopy s (s.newCopy .cpy (s.mapReg p) (s.mapReg sg)) d [])

/-- CPYG. -/
def execCpyg (d : BitVec 5) (a : BitVec 5) (l : Bool) (sg : BitVec 3) (p : BitVec 3) (s : State) :
    Host.Outcome State Fault Refusal :=
  concludeAs (Instr.cpyg d a l sg p).encoding s
    (do
    let x ← s.readReg a
    s.notService
    issueCopy s { s.newCopy .cpyg (s.mapReg p) (s.mapReg sg) with list := x } d (used l a))

/-- CPYS. -/
def execCpys (d : BitVec 5) (a : BitVec 5) (l : Bool) (sg : BitVec 3) (p : BitVec 3) (s : State) :
    Host.Outcome State Fault Refusal :=
  concludeAs (Instr.cpys d a l sg p).encoding s
    (do
    let x ← s.readReg a
    s.notService
    issueCopy s { s.newCopy .cpys (s.mapReg p) (s.mapReg sg) with list := x } d (used l a))

/-- CPYQ: p names the source. -/
def execCpyq (d : BitVec 5) (q : BitVec 3) (p : BitVec 3) (s : State) :
    Host.Outcome State Fault Refusal :=
  concludeAs (Instr.cpyq d q p).encoding s
    (do
    s.notService
    issueCopy s { s.newCopy .cpyq (s.mapReg p) (s.mapReg p) with channel := q.toNat } d [])

/-- CPYF. -/
def execCpyf (d : BitVec 5) (a : BitVec 5) (l : Bool) (b : BitVec 5) (m : Bool) (p : BitVec 3) (s : State) :
    Host.Outcome State Fault Refusal :=
  concludeAs (Instr.cpyf d a l b m p).encoding s
    (do
    let x ← s.readReg a
    let y ← s.readReg b
    s.notService
    issueCopy s { s.newCopy .cpyf (s.mapReg p) (s.mapReg p) with value := x, tagControl := y } d (used l a ++ used m b))

/-! ### Conversion (R255, R257) -/

/-- A coded element is its decoded one. -/
def Fmt.decoded : Fmt → Fmt
  | .coded g => .flt g
  | f => f

/-- An element converted as it passes: bits of the same format are copied, a NaN becoming the default NaN. -/
def copyConvert (src dst : Fmt) (mode : Rounding) (sat8 : Bool) (x : Nat) : Nat × FpFlags :=
  if src.decoded = dst.decoded then
    match src.decoded with
    | .flt g => (if anyNaN [decodeFloat g x] then defaultNaN g else x, 0)
    | _ => (x, 0)
  else if dst = .plane 1 then
    (match toNum src x with
      | .nan _ => 1
      | .inf neg => if neg then 0 else 1
      | .fin neg mag _ => if neg ∧ mag ≠ 0 then 0 else 1, 0)
  else convert src dst mode sat8 x

/-- A source element as CPYQ pushes it. -/
def pushedWord (f : Fmt) (x : Nat) : Word :=
  match f with
  | .int sgn bits => wordOfInt (intValue sgn bits x)
  | .plane p => wordOfInt (planeValue p x)
  | _ => wordOf x

/-! ### Source elements -/

/-- The machine as a copy's accesses see it: those of its issuing context at the level it had. -/
def State.copyView (s : State) (c : Copy) : State := s.asIssuer c.core c.ctx c.level

/-- The format of the elements a copy reads: for a SHRD map that of the atlas entry. -/
def Copy.srcFmt (c : Copy) : Fmt :=
  if ptrSpace (mapBase c.src) = 2 then
    match c.entry with
    | some e => (fmtOf (entryFmt e)).getD .raw
    | none => .raw
  else mapFmt c.src

/-- Where an element of a SHRD map at a logical index lies (20_layout.md R401 to R403); none beyond the tensor. The state has the shard
cache after the lookup. -/
def State.shardPlace (s : State) (c : Copy) (i : Int) : Except ElementFault (Option (Word × Place) × State) :=
  match c.entry with
  | none => .error (.fault .address (mapBase c.src))
  | some e =>
    let index := (bitsOf (mapBase c.src) 39 0 : Int) + i
    if index < 0 ∨ (entryElements e : Int) ≤ index then .ok (none, s)
    else
      let p := setBits (setBits (mapBase c.src) 39 0 index.toNat) 63 58 0
      match s.lookupShard c.part (coreTile c.core) (bitsOf p 51 40) e index.toNat with
      | .error .address => .error (.fault .address p)
      | .error (.page _) => .error (.fault .page p)
      | .ok (pkg, va, s') =>
        if pkg = 0xFF ∨ pkg = s.pkg.toNat then
          match s'.translate c.part c.level Need.load va with
          | .error _ => .error (.fault .page p)
          | .ok (t, lin) =>
            let pl : Place :=
              { key := lin, home := s.sliceOf c.part (va / 4096), counter := 0, part := c.part, seen := some t
                sealSlot := if bitAt t.leaf 6 then some (bitsOf t.leaf 57 52) else none, line := some (worldTag c.part c.level, va / 128) }
            if s.dieLost (linearDie lin) ∧ ¬ s.onlyCopy (some (worldTag c.part c.level, va / 128)) lin then .error (.fault .page p)
            else .ok (some (p, pl), s')
        else .ok (some (p, { key := va, home := 4352, counter := 3, part := c.part, remote := some pkg }), s')

/-- The element of a SHRD map at a logical index. -/
def State.readShard (s : State) (c : Copy) (i : Int) : Except ElementFault (Option Nat × State) := do
  let (at_, t) ← s.shardPlace c i
  match at_ with
  | none => pure (none, t)
  | some (p, pl) =>
    let x ← (t.copyView c).placeBytes c.id p pl (c.srcFmt.width / 8) (some 0)
    pure (some x, t)

/-- Why a copy stops. -/
inductive CopyStop where
  | fault (e : ElementFault)
  | outside
  deriving DecidableEq, Repr

/-- What fails at an element, as a reason to stop. -/
def orStop {α : Type} (x : Except ElementFault α) : Except CopyStop α :=
  match x with
  | .ok a => .ok a
  | .error e => .error (.fault e)

/-- The source element at a view coordinate; none out of bounds. -/
def State.copySource (s : State) (c : Copy) (at_ : List Int) : Except CopyStop (Option Nat × State) :=
  if !mapHolds c.src at_ then .ok (none, s)
  else if ptrSpace (mapBase c.src) = 2 then orStop (s.readShard c (mapIndex c.src at_))
  else orStop (do
    let x ← (s.copyView c).readElement c.id (mapBase c.src) (mapFmt c.src) (mapIndex c.src at_) (mapSwz c.src) (some (mapSwz c.src)) 8
    pure (x, s))

/-- Entry j of an index list: a signed integer read once, as a plain load. -/
def State.listEntry (s : State) (c : Copy) (j : Nat) : Except CopyStop (Int × Copy) :=
  match Table.look c.lists j with
  | some l => .ok (l, c)
  | none => orStop (do
    let size : Nat := if ptrFmt c.list = 0x03 then 4 else 8
    let q ← elementPtr c.list (size * j)
    let x ← (s.copyView c).elementBytes c.id q size none
    let l := intValue true (8 * size) x
    pure (l, { c with lists := Table.put c.lists j l }))

/-! ### A position read and checked (R254 to R258) -/

/-- The value a source element gives, or FILL where it is out of bounds (R256), converted (R255), or extended for a channel (R257). -/
def Copy.valueOf (c : Copy) (x : Option Nat) : Except CopyStop Taken :=
  if x.isNone ∧ mapTraps c.src then .error .outside
  else
    let f := c.srcFmt
    let pattern := x.getD (mapFill c.src % 2 ^ f.width)
    let (v, g) := if c.kind = .cpyq then ((pushedWord f pattern).toNat, 0) else copyConvert f (mapFmt c.dst) (roundingOf c.rm) c.sat8 pattern
    .ok { value := v, flags := g, oob := x.isNone }

/-- Where an element of a plain destination goes. -/
def State.copyPlace (s : State) (c : Copy) (at_ : List Int) : Except ElementFault (Word × Place) := do
  let size := (mapFmt c.dst).width / 8
  let q ← elementPtr (mapBase c.dst) (mapIndex c.dst at_ * size)
  let p := swizzled (mapSwz c.dst) q
  match (s.copyView c).placeOf p size Need.store false with
  | .error e => .error e.asElement
  | .ok pl => pure (p, pl)

/-- A position of a copy taken, its destination checked; an element that is dropped has none. -/
def State.keepTaken (s : State) (c : Copy) (i : Nat) (to_ : Option (List Int)) (t : Taken) : Except CopyStop (State × Copy) :=
  let put (t : Taken) : State × Copy := (s, { c with taken := Table.put c.taken i t })
  match to_ with
  | none => .ok (put t)
  | some at_ =>
    if packedFmt (ptrFmt (mapBase c.dst)) then .ok (put { t with index := (mapIndex c.dst at_).toNat })
    else orStop (do
      let x ← s.copyPlace c at_
      pure (put { t with place := some x }))

/-- What CPYG has read for an equal entry of the same window of 64 list entries (R256). -/
def Copy.sameSource (c : Copy) (key : Nat × List Int) : Option Taken :=
  (c.taken.find? (fun e => e.2.shared == some key)).map (·.2)

/-- One position read and checked (R254). -/
def State.takePosition (s : State) (c : Copy) (i : Nat) : Except CopyStop (State × Copy) :=
  let raw := (boxCoords c.extents i).map Int.ofNat
  let width := (mapFmt c.dst).width
  match c.kind with
  | .cpyq => do
    let (x, s) ← s.copySource c raw
    let t ← c.valueOf x
    s.keepTaken c i none t
  | .cpys => do
    let (l, c) ← s.listEntry c (raw.getD 4 0).toNat
    let to_ := raw.set 4 l
    let (x, s) ← s.copySource c raw
    if mapHolds c.dst to_ then
      let t ← c.valueOf x
      s.keepTaken c i (some to_) t
    else if mapTraps c.dst then .error .outside
    else s.keepTaken c i none { oob := true }
  | kind =>
    let at_ := (List.range 5).map (fun k => raw.getD k 0 - (mapBelow c.dst).getD k 0)
    if !mapHolds c.dst at_ then s.keepTaken c i (some at_) { value := mapFill c.dst % 2 ^ width, pad := true }
    else match kind with
      | .cpyf => s.keepTaken c i (some at_) { value := c.value.toNat % 2 ^ width }
      | .cpyg => do
        let j := (at_.getD 4 0).toNat
        let (l, c) ← s.listEntry c j
        let from_ := at_.set 4 l
        let key := (j / 64, from_)
        match c.sameSource key with
        | some t => s.keepTaken c i (some at_) t
        | none =>
          let (x, s) ← s.copySource c from_
          let t ← c.valueOf x
          s.keepTaken c i (some at_) { t with shared := some key }
      | _ => do
        let (x, s) ← s.copySource c at_
        let t ← c.valueOf x
        s.keepTaken c i (some at_) t

/-- The stop that a position comes to (R261). -/
def copyEnd (i : Nat) : CopyStop → CopyEnd
  | .outside => { at_ := i, cause := some .address, address := wordOf i }
  | .fault (.fault cause a) => { at_ := i, cause := some cause, address := a }
  | .fault (.poison a) | .fault (.absent a _ _) => { at_ := i, cause := none, address := a }

/-- The positions of a copy before the earliest one that stops it. -/
def Copy.limit (c : Copy) : Nat := match c.stop with
  | some e => e.at_
  | none => c.positions

/-- What an element that is not there yet asks for: a load from another package, or nothing while something else holds it back. -/
def State.askFor (s : State) (c : Copy) (p : Word) (pl : Place) (size : Nat) : State :=
  if pl.remote.isSome ∧ (s.fetched c.id p).isNone then
    s.unitRequest c.core c.part c.id p pl (.load size false) 0
  else s

/-- Positions read: all that are left, or some of them as free values choose; the first that must wait is asked for. -/
def State.takeSome (s : State) (c : Copy) : State × Copy :=
  let wanted (i : Nat) : Bool := s.eager || s.free (2 ^ 22 + i) 2 == 1
  let (s, c, need) := (List.range c.limit).foldl (fun (acc : State × Copy × Option (Word × Place × Nat)) i =>
    let (s, c, need) := acc
    if c.limit ≤ i ∨ (Table.look c.taken i).isSome ∨ !wanted i then acc
    else match s.takePosition c i with
      | .ok (s, c) => (s, c, need)
      | .error (.fault (.absent p pl n)) => (s, c, need.orElse (fun _ => some (p, pl, n)))
      | .error e => (s, { c with stop := some (copyEnd i e) }, need)) (s, c, none)
  match need with
  | some (p, pl, n) => (s.askFor c p pl n, c)
  | none => (s, c)

/-- The positions before the first that has still to be read. -/
def Copy.ready (c : Copy) : Nat := ((List.range c.limit).find? (fun i => (Table.look c.taken i).isNone)).getD c.limit

/-- What a copy has taken at a position. -/
def Copy.at_ (c : Copy) (i : Nat) : Taken := Table.get c.taken i {}

/-! ### Overlap (R262) -/

/-- The bytes of memory at which a copy's source element of a position lies. -/
def State.sourceBytes (s : State) (c : Copy) (i : Nat) : List (Nat × Nat) :=
  let raw := (boxCoords c.extents i).map Int.ofNat
  let at_ := match c.kind with
    | .cpyg =>
      let x := (List.range 5).map (fun k => raw.getD k 0 - (mapBelow c.dst).getD k 0)
      x.set 4 ((Table.look c.lists (x.getD 4 0).toNat).getD (-1))
    | .cpy => (List.range 5).map (fun k => raw.getD k 0 - (mapBelow c.dst).getD k 0)
    | _ => raw
  let v := s.copyView c
  let keyAt (size : Nat) (off : Int) : List (Nat × Nat) := match (do
      let q ← elementPtr (mapBase c.src) off
      v.elementPlace (swizzled (mapSwz c.src) q) size Need.load) with
    | .ok pl => if pl.remote.isSome then [] else [(pl.key, size)]
    | .error _ => []
  if c.kind = .cpyf ∨ !mapHolds c.src at_ then []
  else
    let e := mapIndex c.src at_
    if ptrSpace (mapBase c.src) = 2 then
      match s.shardPlace c e with
      | .ok (some (_, pl), _) => if pl.remote.isSome then [] else [(pl.key, c.srcFmt.width / 8)]
      | _ => []
    else match mapFmt c.src with
      | .coded _ => match v.region c.id (mapBase c.src) none with
        | .ok r => if i = 0 then (List.range (blockArea r.nb + r.len)).flatMap (fun o => keyAt 1 o) else []
        | .error _ => []
      | .plane p => (List.range p).flatMap (fun w => keyAt 8 (8 * p * (e / 64) + 8 * w))
      | f => keyAt (f.width / 8) (e * (f.width / 8 : Nat))

/-- The bytes that a copy reads. -/
def State.sourceRanges (s : State) (c : Copy) : List (Nat × Nat) := (List.range c.positions).flatMap (s.sourceBytes c)

/-- Whether n bytes at a key are among some ranges. -/
def meets (ranges : List (Nat × Nat)) (key n : Nat) : Bool := ranges.any (fun r => decide (r.1 < key + n) && decide (key < r.1 + r.2))

/-! ### Writing (R258, R259, R262) -/

/-- A store of a copy to lost memory: declared lost, with the mark of its counter (R253, 05_memory_instr.md R134). -/
def State.loseCopied (s : State) (c : Copy) (p : Word) (pl : Place) : State :=
  (s.reportLost c.core (c.ctx % 16) 0 p (s.lastSeq c.core pl.home) 0 pl.counter 0).alterCtx c.core c.ctx (fun x => x.markLost pl.counter)

/-- Whether the memory at a place of a copy is lost. -/
def State.placeLost (s : State) (pl : Place) : Bool :=
  pl.lost || (!isSram pl.key && s.dieLost (linearDie pl.key) && !s.onlyCopy pl.line pl.key)

/-- Plain data of a copy at a place: the stamp of its region becomes the map's swizzle (R250). -/
def State.writeCopied (s : State) (c : Copy) (pl : Place) (size x : Nat) : State :=
  let pl := { pl with key := s.finalKey pl.key }
  (s.writePlace pl size x).setStamp pl.key (some (mapSwz c.dst))

/-- The value of a position; where its element is also one that the copy reads it is unpredictable: its old value or one that the copy
writes, as a free value chooses (R262). -/
def State.valueAt (s : State) (c : Copy) (ranges : List (Nat × Nat)) (i : Nat) (pl : Place) (size : Nat) : Nat :=
  let x := (c.at_ i).value
  if meets ranges pl.key size then
    let all := x :: (s.plainRead pl size).getD x :: c.taken.map (fun e => e.2.value)
    all.getD (s.free (2 ^ 20 + i) all.length) x
  else x

/-- Whether a copy writes the tag byte of its words (R259). -/
def Copy.tagging (c : Copy) : Bool := bitAt c.tagControl 8 && c.kind == .cpyf

/-- Whether the elements of a doubleword must be written in one step with its tag (R258, R259). -/
def Copy.byWord (c : Copy) : Bool := c.tagging || mapKeeps c.dst

/-- The doubleword of a position. -/
def Taken.word (t : Taken) : Option Nat := t.place.map (fun x => x.2.key / 8)

/-- A position written: padding with PADK = 1 only where its doubleword is empty (R258). The second part is whether it was. -/
def State.writePosition (s : State) (c : Copy) (ranges : List (Nat × Nat)) (i : Nat) : State × Copy :=
  let size := (mapFmt c.dst).width / 8
  let t := c.at_ i
  let done : Copy := { c with written := i :: c.written }
  match t.place with
  | none => (s, done)
  | some (p, pl) =>
    if s.placeLost pl then (s.loseCopied c p pl, { done with lost := true })
    else if t.pad ∧ mapKeeps c.dst ∧ tagFE (s.tag (s.finalKey pl.key / 8 * 8)) then (s, done)
    else (s.writeCopied c pl size (s.valueAt c ranges i pl size), done)

/-- The tags of some doublewords of a copy, in one step with their data: the tag byte of CPYF, which replaces FE and VER, or FE := 1 where
padding was written into an empty word (R258, R259). The accesses that wait there are re-checked. -/
def State.tagWords (s : State) (c : Copy) (opened written : List Nat) : State :=
  let new : Byte := c.tagControl.setWidth 8
  if c.tagging then
    written.foldl (fun (s : State) w =>
      let k := s.finalKey (8 * w)
      let n := (tagVer new - tagVer (s.tag k)).toNat
      ((s.dropFrame k).setTag k new).recheck k (s.requests.length + 1) n) s
  else opened.foldl (fun (s : State) w => s.tagEffect (s.finalKey (8 * w)) 1 0) s

/-- Positions written now: those read that may be written, all or some as free values choose, and with each the others of its doubleword, in
copy order. An access to a busy patch or behind an earlier one of the context waits. -/
def State.writable (s : State) (c : Copy) : List Nat :=
  let k := c.ready
  let size := (mapFmt c.dst).width / 8
  let v := s.copyView c
  let held (t : Taken) : Bool := match t.place with
    | none => false
    | some (_, pl) => v.patchBusy pl.key || v.conflictsUpTo c.id pl.key size
  let open_ := (List.range k).filter (fun i => !c.written.contains i)
  let wanted (i : Nat) : Bool := s.eager || s.free (2 ^ 21 + i) 2 == 1
  let words := (open_.filter wanted).filterMap (fun i => (c.at_ i).word)
  if c.byWord ∧ k < c.limit then []
  else open_.filter (fun i => !held (c.at_ i) && (match (c.at_ i).word with
    | some w => words.contains w
    | none => wanted i))

/-- Some positions written, with the tags of their doublewords. -/
def State.writeSome (s : State) (c : Copy) : State × Copy :=
  let ns := s.writable c
  let ranges := s.sourceRanges c
  let words (hit : Nat → Bool) : List Nat := ((ns.filter hit).filterMap (fun i => match (c.at_ i).place with
    | some (_, pl) => if s.placeLost pl then none else some (pl.key / 8)
    | none => none)).eraseDups
  let opened := (words (fun i => (c.at_ i).pad && mapKeeps c.dst)).filter (fun w => !tagFE (s.tag (s.finalKey (8 * w))))
  let (t, d) := ns.foldl (fun (acc : State × Copy) i => acc.1.writePosition acc.2 ranges i) (s, c)
  (t.tagWords c opened (words (fun _ => true)), d)

/-! ### Packed destinations (R260; 02_numbers.md R62 to R66) -/

/-- The exponent field of a coded element. -/
def exponentOf (f : FloatFmt) (x : Nat) : Nat := x / 2 ^ f.man % 2 ^ f.expBits

/-- The exponent field that occurs most often, the smaller on a tie. -/
def commonExponent (f : FloatFmt) (xs : List Nat) : Nat :=
  let count (e : Nat) : Nat := (xs.filter (fun x => exponentOf f x == e)).length
  (List.range (2 ^ f.expBits)).foldl (fun best e => if count best < count e then e else best) 0

/-- The bits of a number, the most significant first. -/
def bitList (n width : Nat) : List Nat := (List.range width).map (fun i => n / 2 ^ (width - 1 - i) % 2)

/-- The shortest token of a table for an exponent field, the first on a tie (R65). -/
def encodeToken (f : FloatFmt) (t b e : Nat) : List Nat :=
  let candidates := (tokenBook t).filterMap (fun (x : List Nat × Token) => match x.2 with
    | .diff d => if (b : Int) + d = e then some x.1 else none
    | .zero => if e = 0 then some x.1 else none
    | .raw => some (x.1 ++ bitList e f.expBits))
  candidates.foldl (fun best x => if best.length ≤ x.length then best else x) (bitList 0 64)

/-- Bits packed into bytes, the first bit the most significant. -/
def packBits (bits : List Nat) : List Byte :=
  (List.range ((bits.length + 7) / 8)).map (fun k =>
    BitVec.ofNat 8 ((List.range 8).foldl (fun n i => n + bits.getD (8 * k + i) 0 * 2 ^ (7 - i)) 0))

/-- A block encoded (R62, R65). -/
def encodeBlock (f : FloatFmt) (xs : List Nat) : List Byte :=
  if xs.all (· == 0) then [1]
  else
    let b := commonExponent f xs
    let stream (t : Nat) : List Byte := packBits (xs.flatMap (fun x => encodeToken f t b (exponentOf f x)))
    let t := ([1, 2, 3] : List Nat).foldl (fun best t => if (stream t).length < (stream best).length then t else best) 0
    let fields := xs.map (fun x => x / 2 ^ (f.man + f.expBits) % 2 * 2 ^ f.man + x % 2 ^ f.man)
    let section_ := (List.range fields.length).foldl (fun n i => n + fields.getD i 0 * 2 ^ (i * (1 + f.man))) 0
    BitVec.ofNat 8 (t * 64 + b * 2) :: (bytesOf section_ (xs.length * (1 + f.man) / 8) ++ stream t)

/-- A region encoded from its elements (R61). -/
def encodeRegion (f : FloatFmt) (l : Nat) (xs : List Nat) : List Byte :=
  let nb := (xs.length + l - 1) / l
  let blocks := (List.range nb).map (fun b => encodeBlock f ((List.range l).map (fun i => xs.getD (b * l + i) 0)))
  let offset (b : Nat) : Nat := ((blocks.take b).map List.length).sum
  let dir := (List.range ((nb + 15) / 16)).flatMap (fun j => bytesOf (offset (16 * j)) 4)
  bytesOf nb 4 ++ bytesOf (offset nb) 4 ++ dir ++ List.replicate (blockArea nb - 8 - dir.length) 0 ++ blocks.flatten

/-- A bit-plane array from its elements, completed to a whole group (R66). -/
def encodePlanes (p : Nat) (xs : List Nat) : List Byte :=
  (List.range ((xs.length + 63) / 64)).flatMap (fun g =>
    (List.range p).flatMap (fun w =>
      bytesOf ((List.range 64).foldl (fun n e => n + xs.getD (64 * g + e) 0 / 2 ^ (p - 1 - w) % 2 * 2 ^ e) 0) 8))

/-- The bytes of a packed destination; an element that no position has given is a free value. -/
def State.packedBytes (s : State) (c : Copy) : List Byte :=
  let f := mapFmt c.dst
  let xs := (List.range (product (mapBox c.dst))).map (fun n => match c.taken.find? (fun e => e.2.index == n && e.1 < c.limit) with
    | some e => e.2.value
    | none => s.free (2 ^ 20 + 2 * n + 1) (2 ^ f.width))
  match f with
  | .coded g => encodeRegion g (blockLength (mapBase c.dst)) xs
  | .plane p => encodePlanes p xs
  | _ => []

/-- Where byte n of a packed destination goes. -/
def State.packedPlace (s : State) (c : Copy) (n : Nat) : Except ElementFault (Word × Place) := do
  let q ← elementPtr (mapBase c.dst) n
  let v := s.copyView c
  match v.placeOf q 1 Need.store false with
  | .error e => .error e.asElement
  | .ok pl => if v.patchBusy pl.key || v.conflictsUpTo c.id pl.key 1 then .error (.absent q pl 1) else pure (q, pl)

/-- Bytes of a packed destination written, with the tags of their words; where `choose` says so each is its old value or the new one, as
free values choose. Bytes that cannot be written stay. -/
def State.writePacked (s : State) (c : Copy) (bytes : List Byte) (ns : List Nat) (choose : Nat → Place → Bool) : State × Copy :=
  let write (acc : State × Copy) (n : Nat) : State × Copy :=
    let (s, c) := acc
    match s.packedPlace c n with
    | .error _ => acc
    | .ok (p, pl) =>
      let done : Copy := { c with written := n :: c.written }
      if s.placeLost pl then (s.loseCopied c p pl, { done with lost := true })
      else if choose n pl then (s, done)
      else (s.writeCopied c pl 1 (bytes.getD n 0).toNat, done)
  let words := (ns.filterMap (fun n => match s.packedPlace c n with
    | .ok (_, pl) => if s.placeLost pl then none else some (pl.key / 8)
    | .error _ => none)).eraseDups
  let (t, d) := ns.foldl write (s, c)
  (t.tagWords c [] words, d)

/-! ### The engine (R253, R261) -/

/-- A copy leaves the engine of its tile. -/
def State.dropCopy (s : State) (tile id : Nat) : State :=
  s.setTile tile { s.tile tile with copies := (s.tile tile).copies.filter (fun c => c.id ≠ id) }

/-- A copy of a tile replaced. -/
def State.putCopy (s : State) (tile : Nat) (c : Copy) : State :=
  s.setTile tile { s.tile tile with copies := (s.tile tile).copies.map (fun x => if x.id = c.id then c else x) }

/-- The FPFLAGS bits and the number of out-of-bounds elements of the positions before `n`. -/
def Copy.flagsTo (c : Copy) (n : Nat) : Nat := (orFlags ((c.taken.filter (fun e => decide (e.1 < n))).map (fun e => e.2.flags))).toNat
def Copy.outside (c : Copy) : Nat := (c.taken.filter (fun e => e.2.oob)).length

/-- A copy stopped early (R261), with its progress. -/
def State.stopCopy (s : State) (tile : Nat) (c : Copy) (e : CopyEnd) (p : Nat) : State :=
  let s := (s.dropUnit c.id).dropCopy tile c.id
  let flags := c.flagsTo e.at_
  match e.cause with
  | some cause => s.endCopy c 7 cause.number e.address flags p
  | none => s.endCopy c 5 p e.address flags p

/-- A copy that has done every position: LOST where a store was declared lost, even with elements out of bounds, whose count is then not
given (DESIGN CHOICE, log 88). -/
def State.doneCopy (s : State) (tile : Nat) (c : Copy) : State :=
  let t := (s.dropUnit c.id).dropCopy tile c.id
  let n := c.positions
  if c.lost then t.endCopy c 1 0 0 (c.flagsTo n) n
  else if 0 < c.outside then t.endCopy c 4 c.outside 0 (c.flagsTo n) n
  else t.endCopy c 0 0 0 (c.flagsTo n) n

/-- The copy the engine of a tile runs: the started one that is not set aside. -/
def Tile.runningCopy (t : Tile) : Option Copy := t.copies.find? (fun c => c.started && !c.aside)

/-- A packed destination written once every position has been read: its bytes, all or some as free values choose; where the copy stops the
contents are a free mix of the old bytes and the new (R260). -/
def State.runPacked (s : State) (tile : Nat) (c : Copy) : State :=
  let bytes := s.packedBytes c
  let old (n : Nat) (_ : Place) : Bool := s.free (2 ^ 20 + 2 * n) 2 == 0
  let stop (e : CopyEnd) : State :=
    ((s.writePacked c bytes ((List.range bytes.length).filter (fun n => !c.written.contains n)) old).1).stopCopy tile c { e with at_ := c.limit } 0
  if c.ready < c.limit then s.putCopy tile c
  else match c.stop with
    | some e => stop e
    | none =>
      let left := (List.range bytes.length).filter (fun n => !c.written.contains n)
      match left.findSome? (fun n => match s.packedPlace c n with
        | .error e => some e
        | .ok _ => none) with
      | some (.absent _ _ _) => s.putCopy tile c
      | some e => stop (copyEnd c.positions (.fault e))
      | none =>
        let ranges := s.sourceRanges c
        let ns := if s.eager ∨ c.tagging then left else left.filter (fun n => s.free (2 ^ 21 + n) 2 == 1)
        let (t, d) := s.writePacked c bytes ns (fun n pl => meets ranges pl.key 1 && old n pl)
        if d.written.length < bytes.length then t.putCopy tile d else t.doneCopy tile d

/-- A copy other than CPYQ run: positions read, then those written that may be, until every position before its end has been. -/
def State.runCopy (s : State) (tile : Nat) (c : Copy) : State :=
  let (s, c) := s.takeSome c
  if packedFmt (ptrFmt (mapBase c.dst)) then s.runPacked tile c
  else
    let (s, c) := s.writeSome c
    if (List.range c.limit).all (fun i => c.written.contains i) then
      match c.stop with
      | some e => s.stopCopy tile c e e.at_
      | none => s.doneCopy tile c
    else s.putCopy tile c

/-- The entries of the channel a CPYQ fills; none once the channel or its context is gone. -/
def State.copyChannel (s : State) (c : Copy) : Option Channel :=
  if c.ctx < 16 then
    match s.channel c.core c.ctx c.channel with
    | some h => if h.kind = 0 then some h else none
    | none => none
  else none

/-- A value pushed by CPYQ. -/
def State.copyPush (s : State) (c : Copy) (e : Entry) : State :=
  match s.copyChannel c with
  | none => s
  | some h => s.setEntries c.core c.ctx c.channel h (s.entriesOf c.core h ++ [e])

/-- Whether the channel of a CPYQ has room. -/
def State.copyRoom (s : State) (c : Copy) : Bool :=
  match s.copyChannel c with
  | none => true
  | some h => decide ((s.entriesOf c.core h).length < 16)

/-- A CPYQ stopped: it pushes a control value of all ones before its completion (R257). -/
def State.stopPushes (s : State) (tile : Nat) (c : Copy) (e : CopyEnd) : State :=
  (s.copyPush c { control := true, data := BitVec.allOnes 64 }).stopCopy tile c e c.progress

/-- CPYQ from the position it has reached: it pushes while its channel has room, is set aside when it has none, and ends with a
control value (R257). -/
def State.runPushes (tile : Nat) : Nat → State → Copy → State
  | 0, s, c => s.putCopy tile c
  | n + 1, s, c =>
    if !s.copyRoom c then s.putCopy tile { c with aside := true }
    else match c.failed with
      | some cause => s.stopPushes tile c { at_ := 0, cause := some cause, address := mapBase c.src }
      | none =>
        if c.limit ≤ c.progress then
          match c.stop with
          | some e => s.stopPushes tile c e
          | none => (s.copyPush c { control := true, data := 0 }).doneCopy tile c
        else match Table.look c.taken c.progress with
          | some t => runPushes tile n (s.copyPush c { data := wordOf t.value }) { c with progress := c.progress + 1 }
          | none => match s.takePosition c c.progress with
            | .ok (s, c) => runPushes tile n s c
            | .error (.fault (.absent p pl size)) => (s.putCopy tile c).askFor c p pl size
            | .error e => runPushes tile n s { c with stop := some (copyEnd c.progress e) }

/-- A CPYQ that goes on: whole, or a free number of its steps after reading some positions ahead (R262). -/
def State.runChannel (s : State) (tile : Nat) (c : Copy) : State :=
  let all := 2 * (c.positions + 2 - c.progress)
  if s.eager then State.runPushes tile all s c
  else
    let n := 1 + s.free 342 all
    let (s, c) := s.takeSome c
    State.runPushes tile n s c

/-- COPY_START: the oldest copy not started, while none runs; its SHRD map is looked up now (20_layout.md R401). -/
def State.startCopy (s : State) (tile : Nat) : State :=
  let t := s.tile tile
  if t.runningCopy.isSome then s
  else match t.copies.find? (fun c => !c.started) with
    | none => s
    | some c =>
      let c := { c with started := true, epoch := t.epoch }
      if c.hasSource ∧ ptrSpace (mapBase c.src) = 2 then
        let failed (cause : Cause) : State :=
          if c.kind = .cpyq then s.putCopy tile { c with failed := some cause }
          else s.stopCopy tile c { at_ := 0, cause := some cause, address := mapBase c.src } 0
        match s.lookupEntry c.part tile (bitsOf (mapBase c.src) 51 40) with
        | .error .address => failed .address
        | .error (.page _) => failed .page
        | .ok (e, s') => s'.putCopy tile { c with entry := some e }
      else s.putCopy tile c

/-- COPY_START. -/
def execCopyStart (tile : Nat) (s : State) :
    Host.Outcome State Fault Refusal :=
  .next (s.startCopy tile)

/-- COPY_COMPLETE: the running copy runs, to its end or for a piece, or until it is set aside. -/
def execCopyComplete (tile : Nat) (s : State) :
    Host.Outcome State Fault Refusal :=
  .next (match (s.tile tile).runningCopy with
    | none => s
    | some c => if c.kind = .cpyq then s.runChannel tile c else s.runCopy tile c)

/-- COPYQ_RESUME: a CPYQ that was set aside goes on once its channel has room (R253). -/
def execCopyqResume (tile : Nat) (s : State) :
    Host.Outcome State Fault Refusal :=
  .next (match (s.tile tile).copies.find? (fun c => c.aside && s.copyRoom c) with
    | none => s
    | some c => s.runChannel tile { c with aside := false })

end Sys2Proof.Machine
end

