-- ==== Sys2Proof/Machine/Delivery.lean ====
section
/-! DEFINITION. The steps of the memory system and of messages: acceptance at a home, replays, returning data, acknowledgements,
held releases, barriers, inboxes, handlers, resumes, stops, forwarding, memory streams, lane claims and the register pool
(05_memory_instr.md R118 to R129; 06_task_instr.md R159 to R161, R171, R173; 01_assembly.md R30, R31; 07_vector_instr.md R187, R188;
22_faults.md R424, R427; 24_fabric.md R444). -/

namespace Sys2Proof.Machine

/-! ### Homes (05_memory_instr.md R118) -/

/-- Whether a request finds its home lost: its core's die, or the die of its memory unless it is plain and L2 holds the only copy
(16_ordering.md R374). -/
def State.homeLost (s : State) (r : Request) : Bool :=
  if r.remote.isSome then false
  else if isSram r.key then s.dieLost (coreDie ((r.key - 2 ^ 45) / 2 ^ 18))
  else s.dieLost (linearDie r.key) && !(isPlain r.op && s.onlyCopy r.line r.key)

/-- Two requests of one source whose order their home keeps: to one slice, or to one doubleword of a core, at its old place or its new
one while a migration forwards it (24_fabric.md R444, R445; 16_ordering.md R372). -/
def State.sameHome (s : State) (q r : Request) : Bool :=
  q.core == r.core && q.origin == r.origin && q.remote.isNone
    && (if 4096 ≤ r.home then q.home == r.home else s.finalKey q.key / 8 == s.finalKey r.key / 8)

/-- Whether an earlier request of the same source and home has still to be accepted (16_ordering.md R370). -/
def State.overtakes (s : State) (r : Request) : Bool :=
  s.requests.any (fun q => decide (q.id < r.id) && s.sameHome q r && (match q.stage with
    | .sent | .nacked => true
    | _ => false))

/-- Whether a forwarding entry of the home covers the request's bank (22_faults.md R427). -/
def State.forwardOf (s : State) (r : Request) : Option Forward :=
  if isSram r.key then
    let off := r.key % 2 ^ 18
    (s.core ((r.key - 2 ^ 45) / 2 ^ 18)).forwards.reverse.find? (fun f => f.banks.getLsbD (off / 8192))
  else none

/-- An entry of the fault log, at the same GTC before those of a higher source (00_scope.md R12): the latest 4,096 are kept (25_package.md
R472). -/
def State.logEvent (s : State) (source kind part : Nat) (address detail : Word) : State :=
  let e : LogEntry := { gtc := s.gtc, source := source, kind := kind, part := part, address := address, detail := detail }
  let late (x : LogEntry) : Bool := x.gtc == s.gtc && decide (source < x.source)
  let log := s.log.takeWhile (fun x => !late x) ++ e :: s.log.dropWhile (fun x => !late x)
  { s with log := log.drop (s.log.length + 1 - 4096), logNext := s.logNext + 1 }

/-- Whether a request of another package is performed: it came through a port of the named partition, whose PEER is the sender's
partition (25_package.md R465, R466). -/
def State.admits (s : State) (r : Request) : Bool :=
  match r.origin with
  | none => true
  | some (_, _, sender, port) => match s.part r.part with
    | none => false
    | some p => p.holdsPort port && p.peer == sender && !p.destroying

/-- The sequence number a home expects from a source of another package (24_fabric.md R444). -/
def inboundPair (r : Request) : Nat :=
  match r.origin with
  | some (pkg, src, _, _) => 2 ^ 48 + (pkg * 8192 + src) * 8192 + r.home
  | none => 0

/-- Whether a home holds 16 early arrivals of a request's source before it (24_fabric.md R444). -/
def State.crowded (s : State) (r : Request) : Bool :=
  let expected := Table.get s.seqs (inboundPair r) 0
  let early (q : Request) : Bool := q.stage == .sent && q.origin.isSome && inboundPair q == inboundPair r
    && decide (q.seq ≠ expected ∧ (q.seq + 2 ^ 32 - expected) % 2 ^ 32 < 2 ^ 31)
  decide (16 ≤ (s.requests.takeWhile (fun q => q.id != r.id)).countP early)

/-- The checks that the owner of a CORE address makes for another package (01_assembly.md R40): the offset, and its own partition. -/
def State.ownerChecks (s : State) (r : Request) : Bool :=
  let core := (r.key - 2 ^ 45) / 2 ^ 18
  !isSram r.key || (s.offsetOk core (r.key % 2 ^ 18) r.level && s.partOf core == some r.part)

/-- What becomes of a request that its home has performed or turned away. A failure for another package goes there as a fault
completion. -/
def State.answer (s : State) (r : Request) (a : Answer) : State :=
  match a with
  | .done t v =>
    let waits := r.blocking || isLoad r.op || r.target != .none
    let t := t.putRequest { r with stage := if waits then .returned v else .acked }
    if r.blocking then t.wake r.core r.ctx else t
  | .unmet => s.enqueue r
  | .trap t =>
    if r.origin.isSome then s.putRequest { r with stage := .failed t.cause t.reason t.faddr t.detail5 }
    else if r.blocking then (s.putRequest { r with stage := .failed t.cause t.reason t.faddr t.detail5 }).wake r.core r.ctx
    else if isLoad r.op ∨ r.target ≠ .none then
      (s.finishCounts r).alterCtx r.core r.ctx (fun c => c.loseLoad r.target { address := t.faddr, page := t.reason })
    else s.loseRequest r 0

/-- HOME_ACCEPT: in the order of its source; a request to a busy patch or a moved bank waits (08_matrix_instr.md R214, 22_faults.md
R427); one of another package only under 24_fabric.md R444 and 25_package.md R466. -/
def State.homeAccept (s : State) (rid : Nat) : State :=
  match s.requests.find? (fun q => q.id == rid) with
  | none => s
  | some r =>
    if r.stage ≠ .sent ∨ r.remote.isSome ∨ s.overtakes r ∨ s.patchBusy r.key ∨ (s.forwardOf r).isSome then s
    else match r.origin with
      | none => if s.homeLost r then (s.atSlice r).loseRequest r 0 else s.answer r (s.apply r)
      | some (pkg, src, _, _) =>
        let expected := Table.get s.seqs (inboundPair r) 0
        if ¬ s.admits r then
          (s.dropRequest rid).logEvent r.home 2 r.part r.pointer (wordOf (pkg * 2 ^ 32 + src))
        else if r.seq ≠ expected then
          -- an early arrival waits, beyond 16 of its source it is answered with NACK; a duplicate is discarded and acknowledged again (R444)
          (if (r.seq + 2 ^ 32 - expected) % 2 ^ 32 < 2 ^ 31 then (if s.crowded r then s.putRequest { r with stage := .nacked } else s)
           else s.putRequest { r with stage := .acked })
        else
          let t := if s.homeLost r then s.answer r (.trap { cause := .page, faddr := r.pointer, reason := 4 })
            else if ¬ s.ownerChecks r then s.answer r (.trap { cause := .address, faddr := r.pointer })
            else s.answer r (s.apply r)
          -- one answered with NACK has not been accepted (16_ordering.md R370)
          if t.requests.any (fun q => q.id == rid && q.stage == .nacked) then t
          else { t with seqs := Table.put t.seqs (inboundPair r) ((expected + 1) % 2 ^ 32) }

/-- HOME_ACCEPT (R118). -/
def execHomeAccept (rid : Nat) (s : State) :
    Host.Outcome State Fault Refusal :=
  .next (
  s.homeAccept rid)

/-- RETRY_REPLAY: a request answered with NACK is sent again in its place (R127). -/
def State.retryReplay (s : State) (rid : Nat) : State :=
  match s.requests.find? (fun q => q.id == rid) with
  | none => s
  | some r =>
    if r.stage ≠ .nacked then s
    else if r.remote.isSome then s.replay rid
    else s.putRequest { r with stage := .sent }

/-- RETRY_REPLAY (R127). -/
def execRetryReplay (rid : Nat) (s : State) :
    Host.Outcome State Fault Refusal :=
  .next (
  s.retryReplay rid)

/-! ### Answers on their way back (R119, R120) -/

/-- The word of a stopped context's save area that holds a register place, brought up to date. -/
def State.saveReg (s : State) (core ctx place : Nat) (v : Word) : State :=
  let c := s.ctx core ctx
  let off := if place < 32 then 8 * place else if place < 36 then 0x1A0 + 8 * (place - 32) else 0x1C0 + 8 * (place - 36)
  let saved : Bool := match c.run with
    | .faulted | .preempted | .gangStopped => true
    | _ => false
  if saved ∧ c.level < 2 then
    match s.partOf core, s.saveArea core ctx with
    | some n, some va => (match s.superWrite n va [(off, 8, v)] with
      | .ok t => t
      | .error _ => s)
    | _, _ => s
  else s

/-- The destination of a load written. -/
def State.deliverData (s : State) (r : Request) (v : Word) : State :=
  if 16 ≤ r.ctx then s
  else match r.target with
    | .none => s
    | .reg p => (s.alterCtx r.core r.ctx (fun c => c.write p v)).saveReg r.core r.ctx p v
    | .element reg i code => s.alterCtx r.core r.ctx (fun c =>
        match c.claim, fmtOf code with
        | some q, some f =>
          let n : BitVec 4 := BitVec.ofNat 4 reg
          { c with claim := some (q.setReg n ((putElement (q.reg n) f i v.toNat).take q.g)) }
        | _, _ => c)

/-- What the operation of another package's answer gives its register. -/
def answerWord (op : MemOp) (data : Word) : Word :=
  match op with
  | .load size sgn => extended size sgn (bitsOf data (8 * size - 1) 0)
  | _ => data

/-- The trap cause of a number (10_system_instr.md R275) that an owner may report. -/
def ownerCause (n : Nat) : Cause :=
  match n with
  | 2 => .priv
  | 6 => .format
  | 7 => .page
  | 9 => .layout
  | _ => .address

/-- The fault completion of another package for a request (01_assembly.md R40). An access that holds its context traps; one that has
retired ends, a value that it was to bring is free, and the completion reaches its context (log 82). -/
def State.ownerFault (s : State) (r : Request) (fault : Nat) (detail : Word) : State :=
  let cause := ownerCause (fault % 256)
  if r.blocking then (s.putRequest { r with stage := .failed cause (fault / 256) r.pointer detail }).wake r.core r.ctx
  else ((s.deliverData r (s.freeWord 1)).finishCounts r).complete r.core r.ctx r.part (BitVec.ofNat 16 (s.free 2 (2 ^ 16))) none 7
    [wordOf cause.number, r.pointer]

/-- What another package makes of a request: 0 where it performs it, else its fault completion, a cause of 10_system_instr.md R275 and its
REASON above it; and the value the completion carries. Nothing here determines it: a free value of the request (log 82). -/
def Request.verdict (r : Request) : Nat × Word :=
  ([0, 0, 2, 5, 6, 9, 7 + 256 * (Config.choice r.id 3 % 6)].getD (Config.choice r.id 2 % 7) 0, wordOf (Config.choice r.id 4))

/-- Whether a request has gone to another package and has had no answer. -/
def Request.abroad (r : Request) : Bool := r.remote.isSome && (r.stage == .sent || r.stage == .nacked)

/-- LOAD_DATA_RETURN: data of a request performed here is what its home returned; a request of another package takes the data, or the
fault completion, that arrives. -/
def State.dataReturn (s : State) (rid : Nat) (data : Word) : State :=
  match s.requests.find? (fun q => q.id == rid) with
  | none => s
  | some r =>
    let value : Option Word := match r.stage with
      | .returned v => some v
      | .sent | .nacked => if r.remote.isSome then some (answerWord r.op data) else none
      | _ => none
    match value with
    | none => s
    | some v =>
      if r.abroad ∧ r.verdict.1 ≠ 0 then s.ownerFault r r.verdict.1 r.verdict.2
      else if r.blocking then
        (if r.remote.isSome ∧ (r.stage = .sent ∨ r.stage = .nacked) then
          (s.putRequest { r with stage := .returned v }).wake r.core r.ctx else s)
      else if r.origin.isSome then s.dropRequest rid
      else (s.deliverData r v).finishCounts r

/-- LOAD_DATA_RETURN (R119). -/
def execLoadDataReturn (rid : Nat) (data : Word) (s : State) :
    Host.Outcome State Fault Refusal :=
  .next (
  s.dataReturn rid data)

/-- STORE_ACK: an acknowledgement or a fault completion, of a request or of a message for another package; and the answer that goes to
another package. -/
def State.storeAck (s : State) (rid : Nat) : State :=
  match s.requests.find? (fun q => q.id == rid) with
  | some r =>
    if r.origin.isSome then (match r.stage with
      | .acked | .failed _ _ _ _ => s.dropRequest rid
      | _ => s)
    else if r.stage = .acked then s.finishCounts r
    else if r.abroad ∧ ¬ isLoad r.op ∧ r.target = .none then
      (if r.verdict.1 ≠ 0 then s.ownerFault r r.verdict.1 r.verdict.2
       else if r.blocking ∧ r.cls.isSome then (s.putRequest { r with stage := .returned 0 }).wake r.core r.ctx
       else s.finishCounts r)
    else s
  | none => match s.flights.find? (fun f => f.id == rid) with
    | some f => (match f.dest with
      | .remote _ _ => s.landed f
      | _ => s)
    | none => s

/-- STORE_ACK (R120). -/
def execStoreAck (rid : Nat) (s : State) :
    Host.Outcome State Fault Refusal :=
  .next (
  s.storeAck rid)

/-! ### Held releases (R128) -/

/-- RELEASE_SEND: what a context handed on goes out once its counters have drained. -/
def State.releaseSend (s : State) (hid : Nat) : State :=
  match s.held.find? (fun h => h.id == hid) with
  | none => s
  | some h =>
    let t := { s with held := s.held.filter (fun x => x.id ≠ hid) }
    match h.what with
    | .admin _ => if 16 ≤ h.ctx then t else s
    | what =>
      if ¬ s.drained h.core h.ctx h.id h.mask then s
      else match what with
        | .request r => t.sendCounted r (t.homeLost r)
        | .message f => t.sendMessage { f with gtc := t.gtc }
        | .task tile x => t.enterRelief tile { x with gtc := t.gtc }
        | .launch l => { t with launchQueue := t.launchQueue ++ [l] }
        | .crew sg c => (t.crewArrive sg c).getD s
        | .command c => { t with commands := t.commands ++ [c] }
        | .copy tile c =>
          if 16 ≤ (s.tile tile).copies.length then s
          else t.setTile tile { t.tile tile with copies := (t.tile tile).copies ++ [c] }
        | .admin _ => s

/-- RELEASE_SEND (R128). -/
def execReleaseSend (hid : Nat) (s : State) :
    Host.Outcome State Fault Refusal :=
  .next (
  s.releaseSend hid)

/-! ### Barriers (06_task_instr.md R171) -/

/-- BAR_COMPLETE: a context whose epoch is full goes on. -/
def State.barComplete (s : State) (core ctx : Nat) : State :=
  let mine (a : Arrival) : Bool := a.core == core && a.ctx == ctx
  if s.barriers.any (fun b => b.arrivals.any (fun a => mine a && b.full a.epoch)) then
    s.alterCtx core ctx (fun c => if c.wait = .barrier then { c with wait := .retry } else c)
  else s

/-- BAR_COMPLETE (R171). -/
def execBarComplete (core : Nat) (ctx : Nat) (s : State) :
    Host.Outcome State Fault Refusal :=
  .next (
  s.barComplete core ctx)

/-! ### Messages (06_task_instr.md R159 to R161) -/

/-- A message arrives, or is declared lost where its core has gone with its die (R159, 16_ordering.md R369). -/
def State.atPort (s : State) (f : Flight) : State :=
  match f.dest with
  | .core n => if f.issuer.isSome ∧ n < 4096 ∧ s.dieLost (coreDie n) ∧ ¬ s.behind f then s.loseFlight f 0 else s.arrive f
  | _ => s.arrive f

/-- MESSAGE_ARRIVAL. -/
def State.messageArrival (s : State) (mid : Nat) : State :=
  match s.flights.find? (fun f => f.id == mid) with
  | none => s
  | some f => if f.nacked then s else s.atPort f

/-- MESSAGE_ARRIVAL (R159). -/
def execMessageArrival (mid : Nat) (s : State) :
    Host.Outcome State Fault Refusal :=
  .next (
  s.messageArrival mid)

/-- MESSAGE_REPLAY: a message answered with NACK is sent again. -/
def State.messageReplay (s : State) (mid : Nat) : State :=
  match s.flights.find? (fun f => f.id == mid) with
  | none => s
  | some f =>
    if ¬ f.nacked then s
    else
      let g := { f with nacked := false }
      let s := { s with flights := s.flights.map (fun (x : Flight) => if x.id = mid then g else x) }
      s.atPort g

/-- MESSAGE_REPLAY (R161). -/
def execMessageReplay (mid : Nat) (s : State) :
    Host.Outcome State Fault Refusal :=
  .next (
  s.messageReplay mid)

/-- The highest-numbered free reserved helper of a core (R160). -/
def Core.freeReserved (k : Core) : Option Nat :=
  ([9, 8, 7, 6, 5, 4, 3, 2, 1] : List Nat).find? (fun h => k.reserved h && (k.ctx h).run == .free)

/-- The message as registers a0 to a7 hold it. -/
def Message.dwords (m : Message) : List Word := m.header :: m.payload

/-- HANDLER_START: the oldest message of the inbox that has a handler starts it, and it acquires (R152, R160, R308). -/
def State.handlerStart (s : State) (core : Nat) : State :=
  if isService core ∨ s.gangStopping core then s
  else
    let k := s.core core
    match k.inbox.find? (s.startsHandler core), k.freeReserved with
    | some m, some h => match s.handlerOf core m.cls with
      | some pc =>
        let c := { Ctx.start pc 0 .handler (startArgs m.dwords) with replyTo := some m.source }
        (s.setCore core { k.setCtx h c with inbox := dropFirst (s.startsHandler core) k.inbox }).acquire core
      | none => s
    | _, _ => s

/-- HANDLER_START (R160). -/
def execHandlerStart (core : Nat) (s : State) :
    Host.Outcome State Fault Refusal :=
  .next (
  s.handlerStart core)

/-! ### Resume and stop (R159; 22_faults.md R424, R425) -/

/-- A resumed context takes its saved cause through the handler path, as though it were not PAGE (R424, D = 1). -/
def State.handlerPath (s : State) (core ctx : Nat) : State :=
  let c := s.ctx core ctx
  let level := if c.level = 2 then 2 else 1
  let vec := (if level = 2 then s.fwvec else (s.partRegs (s.partOf core)).xvec) &&& ~~~1#64
  if c.inTrap ∨ vec = 0 then
    let s1 := { s.setCtx core ctx (c.fault s.nextOrder) with nextOrder := s.nextOrder + 1 }
    match s.partOf core with
    | none => s1
    | some n =>
      let rep (t : State) : State := t.report n core core ctx 1 0 (bitsOf c.cause 7 0) c.faddr c.xpc 0 0
      if level = 2 then rep s1
      else match s1.save core ctx false with
        | .ok t => rep t
        | .error va => s1.saveFailed core ctx 1 va
  else
    s.setCtx core ctx { c with
      status := setBits (setBits (setBits c.status 15 14 c.level) 13 12 level) 11 11 1
      pc := vec }

/-- A FAULTED context resumes (R424): its area is reloaded, D = 1 takes the handler path, and a gang stop in progress holds it
(R425). A context at level 2 has no area, and goes on as it stands (R480, log 23). -/
def State.resume (s : State) (core ctx : Nat) (d : Bool) : State :=
  let (t, ok) := if (s.ctx core ctx).level = 2 then (s, true) else s.reloadOrFault core ctx
  if ¬ ok then t
  else
    let c := t.ctx core ctx
    let t := t.setCtx core ctx { c with run := .ready, wait := .none, pc := if d then c.xpc else c.pc }
    let t := if d then t.handlerPath core ctx else t
    let c := t.ctx core ctx
    if c.run = .ready ∧ t.gangStopping core then
      (if c.level = 2 then t.setCtx core ctx { c with pendingStop := some .gangStopped }
       else t.layAndSave core ctx .gangStopped false false)
    else t.seat core ctx

/-- RESUME_MESSAGE: class 3. One with a reserved bit set, or for a context that is not FAULTED, is discarded. -/
def State.resumeMessage (s : State) (mid : Nat) : State :=
  match s.flights.find? (fun f => f.id == mid) with
  | none => s
  | some f => match f.dest with
    | .core n =>
      if f.msg.cls ≠ 3 ∨ s.behind f ∨ ((s.core n).forwardOf f.msg).isSome then s
      else
        let t := s.landed f
        let m := f.msg
        let reserved := m.arg0 &&& ~~~1 ≠ 0 ∨ [m.arg1, m.arg2, m.arg3, m.arg4, m.arg5, m.arg6].any (· != 0)
        if reserved ∨ (t.ctx n m.dctx).run ≠ .faulted then t else t.resume n m.dctx (bitAt m.arg0 0)
    | _ => s

/-- RESUME_MESSAGE (R424). -/
def execResumeMessage (mid : Nat) (s : State) :
    Host.Outcome State Fault Refusal :=
  .next (
  s.resumeMessage mid)

/-- STOP_MESSAGE: class 5 ends the helper as though it had executed HHALT with code 0xFFFE, without the drain. -/
def State.stopMessage (s : State) (mid : Nat) : State :=
  match s.flights.find? (fun f => f.id == mid) with
  | none => s
  | some f => match f.dest with
    | .core n =>
      if f.msg.cls ≠ 5 ∨ s.behind f ∨ ((s.core n).forwardOf f.msg).isSome then s
      else
        let t := s.landed f
        let h := f.msg.dctx
        if h = 0 ∨ ¬ (t.ctx n h).isLive then t else t.stopHelper n h
    | _ => s

/-- STOP_MESSAGE (R159). -/
def execStopMessage (mid : Nat) (s : State) :
    Host.Outcome State Fault Refusal :=
  .next (
  s.stopMessage mid)

/-! ### Forwarding (22_faults.md R427, 16_ordering.md R372) -/

/-- A forwarding entry of a core has forwarded: its count starts again. -/
def State.restartForward (s : State) (core : Nat) (f : Forward) : State :=
  let k := s.core core
  s.setCore core { k with forwards := k.forwards.map (fun x => if x = f then { f with since := s.cycle } else x) }

/-- FORWARD_REQUEST: a CORE request to a moved bank, or a message for a moved helper, is passed on. -/
def State.forwardOne (s : State) (rid : Nat) : State :=
  match s.requests.find? (fun q => q.id == rid) with
  | some r =>
    (match r.stage, s.forwardOf r with
      | .sent, some f =>
        if r.remote.isSome ∨ s.overtakes r then s
        else (s.restartForward ((r.key - 2 ^ 45) / 2 ^ 18) f).putRequest { r with key := sramKey f.toCore (r.key % 2 ^ 18), home := f.toCore }
      | _, _ => s)
  | none => match s.flights.find? (fun f => f.id == rid) with
    | none => s
    | some f => match f.dest with
      | .core n =>
        (match (s.core n).forwardOf f.msg with
          | some e =>
            if s.behind f then s
            else
              let g := { f with dest := .core e.toCore, nacked := false
                                msg := { f.msg with header := setBits f.msg.header 39 36 e.toHelper } }
              { s.restartForward n e with flights := s.flights.map (fun x => if x.id = rid then g else x) }
          | none => s)
      | _ => s

/-- FORWARD_REQUEST (R427). -/
def execForwardRequest (rid : Nat) (s : State) :
    Host.Outcome State Fault Refusal :=
  .next (
  s.forwardOne rid)

/-- FORWARD_EXPIRE: an entry goes when nothing awaits forwarding through it and 2^20 cycles have passed since it last forwarded. -/
def State.forwardExpire (s : State) (core index : Nat) : State :=
  let k := s.core core
  match k.forwards[index]? with
  | none => s
  | some e =>
    let waits := s.requests.any (fun r => r.stage == .sent && r.remote.isNone && r.home == core && s.forwardOf r == some e)
      || s.flights.any (fun f => f.dest == .core core && k.forwardOf f.msg == some e)
    if waits ∨ s.cycle < e.since + 2 ^ 20 then s else s.setCore core { k with forwards := k.forwards.eraseIdx index }

/-- FORWARD_EXPIRE (R427). -/
def execForwardExpire (core : Nat) (index : Nat) (s : State) :
    Host.Outcome State Fault Refusal :=
  .next (
  s.forwardExpire core index)

/-! ### Memory streams (06_task_instr.md R173, 18_sparse.md R389) -/

/-- The group of a memory stream's requests to other packages: a number no identifier reaches. -/
def channelGroup (core ctx q : Nat) : Nat := 2 ^ 65 + core * 128 + ctx * 8 + q

/-- MEMORY_STREAM_READ: the next doubleword, read as a plain load of the context, or the closing control value. A doubleword that
cannot be read is not delivered, and is tried again (log 24). -/
def State.streamRead (s : State) (core ctx q : Nat) : State :=
  match s.channel core ctx q with
  | none => s
  | some h =>
    if h.kind ≠ 4 ∨ h.closed ∨ 16 ≤ h.entries.length then s
    else if h.count ≤ h.delivered then
      s.setChannel core ctx q { h with closed := true, entries := h.entries ++ [{ control := true, data := 0 }] }
    else
      let grp := channelGroup core ctx q
      let v := s.asIssuer core ctx (s.ctx core ctx).level
      match elementPtr h.pointer (8 * h.delivered : Nat) with
      | .error _ => s
      | .ok p => match v.elementBytes grp p 8 none with
        | .ok x =>
          (s.dropUnit grp).setChannel core ctx q
            { h with delivered := h.delivered + 1, entries := h.entries ++ [{ data := wordOf x }] }
        | .error (.absent p pl size) =>
          if pl.remote.isSome ∧ (s.fetched grp p).isNone then
            s.unitRequest core ((s.partOf core).getD 0) grp p pl (.load size false) 0
          else s
        | .error _ => s

/-- MEMORY_STREAM_READ (R173). -/
def execMemoryStreamRead (core : Nat) (ctx : Nat) (q : BitVec 3) (s : State) :
    Host.Outcome State Fault Refusal :=
  .next (
  s.streamRead core ctx q.toNat)

/-! ### Registers (01_assembly.md R30, R31) -/

/-- REGISTER_PREEMPT: a helper stalled for registers for more than 4,096 cycles is pre-empted; it waits in its place for as many as it had
drawn. -/
def State.registerPreempt (s : State) (core ctx : Nat) : State :=
  let k := s.core core
  let c := k.ctx ctx
  if ctx = 0 ∨ c.run ≠ .ready ∨ c.wait ≠ .register ∨ c.level = 2 ∨ ¬ k.waiters.any (fun w => w.ctx == ctx && decide (w.since + 4096 < s.cycle)) then s
  else
    match (s.lay core ctx .preempted true).save core ctx false with
    | .ok t =>
      let k := t.core core
      t.setCore core { k with waiters := k.waiters.map (fun w =>
        if w.ctx = ctx then { w with preempted := true, need := c.holds - 16 } else w) }
    | .error va =>
      -- FAULTED as it stands: once resumed it stalls, and waits, again (22_faults.md R420)
      let t := s.saveFailed core ctx 1 va
      t.setCore core { t.core core with waiters := k.waiters.filter (fun w => w.ctx ≠ ctx) }

/-- REGISTER_PREEMPT (R31). -/
def execRegisterPreempt (core : Nat) (ctx : Nat) (s : State) :
    Host.Outcome State Fault Refusal :=
  .next (
  s.registerPreempt core ctx)

/-- REGISTER_GRANT: the waiter that has waited longest tries again, or resumes once as many registers are free as it needs. One that has
been stopped for good meanwhile waits no longer. A supervisor that gave a pre-empted helper more live registers makes it wait for them
(log 81). -/
def State.registerGrant (s : State) (core : Nat) : State :=
  let k := s.core core
  match k.waiters with
  | [] => s
  | w :: rest =>
    let c := k.ctx w.ctx
    let drop (t : State) : State := t.setCore core { t.core core with waiters := rest }
    if w.preempted then
      if ¬ c.isPreempted then drop s
      else if 64 < k.sharedUsed + w.need ∨ c.run ≠ .preempted then s
      else
        let (t, ok) := s.reloadOrFault core w.ctx
        if ¬ ok then drop t
        else
          let need := (t.ctx core w.ctx).holds - 16
          if 64 < k.sharedUsed + need then s.setCore core { k with waiters := { w with need := need } :: rest }
          else drop ((t.lift core w.ctx).alterCtx core w.ctx (fun c => { c with wait := if c.wait = .barrier ∨ c.wait = .claim then c.wait else .retry }))
    else if c.run = .gangStopped then s
    else if c.run ≠ .ready then drop s
    else match c.wait with
      | .register => if k.sharedUsed < 64 then s.setCore core (k.setCtx w.ctx { c with wait := .retry }) else s
      | .retry => s
      | _ => drop s

/-- REGISTER_GRANT (R30). -/
def execRegisterGrant (core : Nat) (s : State) :
    Host.Outcome State Fault Refusal :=
  .next (
  s.registerGrant core)

/-! ### Lane claims (07_vector_instr.md R187, R188) -/

/-- The stopped claims of a tile above their floors, as core and context, the latest stop first. -/
def State.reclaimable (s : State) (tile : Nat) : Option (Nat × Nat) :=
  let all : List (Nat × Nat × Nat) := (tileCores tile).flatMap (fun n => (s.core n).ctxs.filterMap (fun e => match e.2.claim with
    | some q =>
      let c := e.2
      if c.stopOrder ≠ 0 ∧ c.claimFloor q < 16 * q.groups.length then some (c.stopOrder, n, e.1) else none
    | none => none))
  (all.foldl (fun (best : Option (Nat × Nat × Nat)) e => match best with
    | none => some e
    | some b => if b.1 < e.1 then some e else some b) none).map (·.2)

/-- Units taken from stopped claims, highest lanes first, until a test holds or none is left. -/
def State.reclaim (s : State) (tile : Nat) (met : State → Bool) : Nat → State
  | 0 => s
  | fuel + 1 =>
    if met s then s
    else match s.reclaimable tile with
      | none => s
      | some (n, h) =>
        (s.alterCtx n h (fun c => { c with claim := c.claim.map (fun q => { q with groups := q.groups.dropLast }) })).reclaim tile met fuel

/-- CLAIM_GRANT: units are reclaimed for the head of the queue; a resuming claim is restored with lanes 0 to gn − 1, and a waiting
VCLAIM or VRENEG executes again. -/
def State.claimGrant (s : State) (tile : Nat) : State :=
  match (s.tile tile).claimQueue with
  | [] => s
  | r :: rest =>
    let c := s.ctx r.core r.ctx
    if c.wait ≠ .claim then s
    else if r.resuming then
      let t := s.reclaim tile (fun t => decide (r.minreq ≤ 16 * t.freeGroups tile)) 64
      let lanes := 16 * t.freeGroups tile
      if r.minreq ≤ lanes then
        (t.setTile tile { t.tile tile with claimQueue := rest }).alterCtx r.core r.ctx (fun c =>
          { c with wait := .none, claim := c.claim.map (fun q =>
              q.regrant (min r.req lanes) (t.pickGroups (min r.req lanes / 16) (t.openGroups tile))) })
      else s
    else
      let met (t : State) : Bool := match c.claim with
        | some q => decide (r.minreq ≤ q.settled.g + 16 * (t.otherGroups tile q.settled).length)
        | none => decide (r.minreq ≤ 16 * t.freeGroups tile)
      let t := s.reclaim tile met 64
      if met t then t.alterCtx r.core r.ctx (fun c => { c with wait := .retry }) else s

/-- CLAIM_GRANT (R187). -/
def execClaimGrant (tile : Nat) (s : State) :
    Host.Outcome State Fault Refusal :=
  .next (
  s.claimGrant tile)

end Sys2Proof.Machine
end

