-- ==== Sys2Proof/Machine/Loss.lean ====
section
/-! DEFINITION. Upsets and losses: the heat sweep (15_memory_map.md R347), poisoned doublewords (22_faults.md R428), the loss of a die
or of the package (22_faults.md R433), the torus routers and their drains (24_fabric.md R456 to R461), and packets in transit, LOSS
packets and time exchanges (24_fabric.md R447, R448, R455). -/

namespace Sys2Proof.Machine

/-! ### Heat (15_memory_map.md R347) -/

/-- A leaf with RH and WH, where they are not 0, lowered by 1. -/
def cooler (leaf : Word) : Word :=
  let r := bitsOf leaf 9 8
  let w := bitsOf leaf 11 10
  setBits (setBits leaf 9 8 (r - 1)) 11 10 (w - 1)

/-- The sweep of a table with a number of levels to go: its leaves cool, the tables it leads to are passed over, and an entry that a walk
would fail at is left alone. -/
def State.coolTable (s : State) (p : Partition) : Nat → Nat → State
  | 0, _ => s
  | k + 1, table =>
    (List.range 256).foldl (fun (s : State) i =>
      match linearOf (table + 8 * i) with
      | none => s
      | some lin =>
        let e := s.dword lin
        match s.tableEntry p k e with
        | .error _ => s
        | .ok (.inr _) => if cooler e = e then s else s.storeBytes lin 8 (cooler e).toNat
        | .ok (.inl next) => s.coolTable p k next) s

/-- HEAT_SWEEP: one pass over the page table of a partition; none while HEATFADE = 0. -/
def State.heatSweep (s : State) (part : Nat) : State :=
  match s.part part with
  | none => s
  | some p => match p.root with
    | .error _ => s
    | .ok root => if s.heatfade = 0 then s else s.coolTable p 5 root

/-- HEAT_SWEEP (R347). -/
def execHeatSweep (part : Nat) (s : State) :
    Host.Outcome State Fault Refusal :=
  .next (s.heatSweep part)

/-! ### Upsets (22_faults.md R428) -/

/-- MEMORY_DOUBLE_UPSET: the doubleword that holds a byte, of memory or of a core's local SRAM, is poisoned. -/
def State.doubleUpset (s : State) (key : Nat) : State :=
  if (key < 0x14000000000 ∨ isSram key) ∧ ¬ s.poison.contains (key / 8) then { s with poison := key / 8 :: s.poison } else s

/-- MEMORY_DOUBLE_UPSET (R428). -/
def execMemoryDoubleUpset (address : Nat) (s : State) :
    Host.Outcome State Fault Refusal :=
  .next (s.doubleUpset address)

/-! ### Torus flits (24_fabric.md R456 to R461) -/

def Flit.age (f : Flit) : Nat := bitsOf f.header 63 56
def Flit.part (f : Flit) : Nat := bitsOf f.header 55 52
def Flit.dst (f : Flit) : Nat := bitsOf f.header 51 39
def Flit.src (f : Flit) : Nat := bitsOf f.header 38 26
def Flit.ty (f : Flit) : Nat := bitsOf f.header 19 16
def Flit.tag (f : Flit) : Nat := bitsOf f.header 15 0

/-- The packet of a flit. -/
def Flit.packet (f : Flit) : Nat × Nat × Nat := (f.part, f.src, f.tag)

/-- A flit deflected: AGE + 1, at most 255. -/
def Flit.older (f : Flit) : Flit := { f with header := setBits f.header 63 56 (min 255 (f.age + 1)) }

/-- Whether a flit ranks before another (R457): higher AGE first, then lower SRC. -/
def Flit.before (f g : Flit) : Bool := decide (g.age < f.age) || (f.age == g.age && decide (f.src < g.src))

/-- Flits in rank order. -/
def rankIn (f : Flit) : List Flit → List Flit
  | [] => [f]
  | g :: rest => if g.before f then g :: rankIn f rest else f :: g :: rest
def ranked (fs : List Flit) : List Flit := fs.foldr rankIn []

/-- The optical I/O die that the die-to-die links of a compute die lead to (00_scope.md R1); the hub links of all lead to the cache die. -/
def ioDie (die : Nat) : Nat := die / 2

/-- The router through which a node ejects: a core's own; of the hub node 4,096 + d or the I/O node 4,104 + d, which stands for the hub
link of die d or its link to I/O die `ioDie d`, a router of die d (R1, R456). -/
def nodeOf (dst : Nat) : Nat :=
  if dst < 4096 then dst
  else
    let n := Config.nodeRouter dst % 512
    coreAt ((dst - 4096) % 8 * 16 + n % 16) (n / 16)

/-- The productive ports of a flit at a router, less the dead ones (R459). -/
def State.productive (s : State) (router : Nat) (f : Flit) : BitVec 4 :=
  let mask : BitVec 4 :=
    if f.dst < 4096 then s.routerEntry router (coreX f.dst) ||| s.routerEntry router (128 + coreY f.dst)
    else s.routerEntry router (160 + (f.dst - 4096))
  mask &&& ~~~(s.router router).dead

/-- The first port of a mask in +X, −X, +Y, −Y order. -/
def firstPort (m : BitVec 4) : Option Nat := ([0, 1, 2, 3] : List Nat).find? (fun d => m.getLsbD d)

/-- What one cycle of a router has settled so far: the free live ports, whether the ejection port is free, the flits sent by direction,
the flit ejected, the flits that found no port (log 30), and the flits discarded by a drain. -/
structure Routing where
  ports : BitVec 4
  eject : Bool := true
  sent : Table Flit := []
  out : Option Flit := none
  left : List Flit := []
  discarded : List Flit := []

/-- One flit of the ranked arrivals. In a drain a flit with no live productive port keeps its AGE, and from the first table write on is
discarded (R460). -/
def State.routeFlit (s : State) (router : Nat) (drain : Bool) (r : Routing) (f : Flit) : Routing :=
  let prod := s.productive router f
  if nodeOf f.dst = router ∧ r.eject then { r with eject := false, out := some f }
  else if drain ∧ s.drainWritten ∧ prod = 0 ∧ nodeOf f.dst ≠ router then { r with discarded := r.discarded ++ [f] }
  else match firstPort (prod &&& r.ports) with
    | some d => { r with ports := r.ports &&& ~~~((1 : BitVec 4) <<< d), sent := Table.put r.sent d f }
    | none => match firstPort r.ports with
      | some d => { r with ports := r.ports &&& ~~~((1 : BitVec 4) <<< d)
                           sent := Table.put r.sent d (if drain ∧ prod = 0 then f else f.older) }
      | none => { r with left := r.left ++ [f] }

/-- The flit of a LOSS report to the source of a discarded flit (R456, R460). Its data and its tag are not laid down. -/
def lossFlit (choice router : Nat) (f : Flit) : Flit :=
  { header := wordOf (f.part * 2 ^ 52 + f.src * 2 ^ 39 + router * 2 ^ 26 + 15 * 2 ^ 16 + f.tag)
    data := BitVec.ofNat 256 (Config.choice choice (5000 + f.tag)) }

/-- A flit at the network interface of a node (R461): one of another partition, or of a packet that a drain has broken up, is
discarded. -/
def State.ejectFlit (s : State) (router : Nat) (f : Flit) : State :=
  let own := s.partOf router
  if f.dst < 4096 ∧ own ≠ some f.part then
    s.logEvent router 1 (own.getD 0xFF) 0 (wordOf (f.part * 2 ^ 32 + f.src))
  else if s.lostPackets.contains f.packet ∧ f.ty ≠ 15 then s
  else s.setRouter router { s.router router with ejected := (s.router router).ejected ++ [f] }

/-- The kept copy of the flit a router sent in a direction, while its neighbour still holds the flit (R458). -/
def State.keptFlit (s : State) (router dir : Nat) : Option Flit :=
  match Table.look (s.router router).kept dir with
  | some f => if (s.router (neighbour router dir)).arriving.contains f then some f else none
  | none => none

/-- The kept copy of a direction ranked again among a router's arrivals; the receiver discards its own (R458). -/
def State.takeBack (s : State) (router dir : Nat) : State :=
  match s.keptFlit router dir with
  | none => s
  | some f =>
    let n := neighbour router dir
    let s := s.setRouter n { s.router n with arriving := (s.router n).arriving.erase f }
    let x := s.router router
    s.setRouter router { x with arriving := x.arriving ++ [f], kept := Table.drop x.kept dir }

/-- A waiting injection: on a free productive port, unless its die is paused (R457, R460). -/
def State.injectFlit (s : State) (router : Nat) (r : Routing) : Routing × List Flit :=
  match (s.router router).injecting with
  | [] => (r, [])
  | f :: rest =>
    if s.paused.getLsbD (coreDie router) then (r, f :: rest)
    else match firstPort (s.productive router f &&& r.ports) with
      | some d => ({ r with sent := Table.put r.sent d f }, rest)
      | none => (r, f :: rest)

/-- ROUTER_CYCLE: bit d of `damaged` says that the flit this router sent last in direction d was reported with a double error. -/
def State.routerCycle (s : State) (router : Nat) (damaged : BitVec 4) : State :=
  if 4096 ≤ router ∨ s.dieLost (coreDie router) then s
  else
    let s := ([0, 1, 2, 3] : List Nat).foldl (fun (s : State) d => if damaged.getLsbD d then s.takeBack router d else s) s
    let drain := s.paused.getLsbD (coreDie router)
    let x := s.router router
    let r := (ranked x.arriving).foldl (s.routeFlit router drain) { ports := ~~~x.dead }
    let (r, waiting) := s.injectFlit router r
    let losses := r.discarded.filter (fun f => f.ty ≠ 15) |>.map (lossFlit s.choice router)
    let s := s.setRouter router { x with arriving := r.left, injecting := waiting ++ losses, kept := r.sent }
    let s := r.sent.foldl (fun (s : State) e =>
      let n := neighbour router e.1
      s.setRouter n { s.router n with arriving := (s.router n).arriving ++ [e.2] }) s
    let s := match r.out with
      | some f => s.ejectFlit router f
      | none => s
    r.discarded.foldl (fun (s : State) f =>
      let n := nodeOf f.dst
      let y := s.router n
      { s.setRouter n { y with ejected := y.ejected.filter (fun g => g.packet ≠ f.packet) } with
        lostPackets := f.packet :: s.lostPackets }) s

/-- ROUTER_CYCLE (R457). -/
def execRouterCycle (router : Nat) (damaged : BitVec 4) (s : State) :
    Host.Outcome State Fault Refusal :=
  .next (s.routerCycle router damaged)

/-- A link marked dead by the router at one of its ends: its die is paused, and a flit still on the link is ranked again. -/
def State.markDead (s : State) (router dir : Nat) : State :=
  let s := s.takeBack router dir
  let x := s.router router
  let s := s.setRouter router { x with dead := x.dead ||| ((1 : BitVec 4) <<< dir) }
  { s with paused := s.paused ||| ((1 : BitVec 8) <<< coreDie router) }

/-- LINK_DEAD (R460): both routers at its ends find the link silent. -/
def State.linkDead (s : State) (router dir : Nat) : State :=
  if 4096 ≤ router then s
  else (s.markDead router dir).markDead (neighbour router dir) (opposite dir)

/-- LINK_DEAD (R460). -/
def execLinkDead (router : Nat) (dir : BitVec 2) (s : State) :
    Host.Outcome State Fault Refusal :=
  .next (s.linkDead router dir.toNat)

/-! ### The loss of a die (22_faults.md R433) -/

/-- The links into a lost die: routers of the columns beside it, with the direction that leads in. -/
def linksInto (die : Nat) : List (Nat × Nat) :=
  (List.range 32).flatMap (fun y => [(coreAt ((16 * die + 127) % 128) y, 0), (coreAt ((16 * die + 16) % 128) y, 1)])

/-- Every link into the die is marked dead, the die and both its neighbours are paused, and what the die's routers hold is gone. -/
def State.cutOff (s : State) (die : Nat) : State :=
  let s := (linksInto die).foldl (fun (s : State) e => s.markDead e.1 e.2) s
  { s with
    paused := s.paused ||| ((1 : BitVec 8) <<< die)
    routers := s.routers.map (fun e =>
      (e.1, if coreDie e.1 = die then { e.2 with arriving := [], injecting := [], ejected := [], kept := [] } else e.2)) }

/-- Whether a core lies on a die. -/
def onDie (die core : Nat) : Bool := decide (core < 4096) && coreDie core == die

/-- What contexts of the die have sent and handed on goes with them; a message on its way elsewhere, and a task that a living tile has
yet to accept, belong to no context any more. -/
def State.dropWork (s : State) (die : Nat) : State :=
  let mine (n : Nat) : Bool := onDie die n
  let task (t : Task) : Task := if (t.issuer.map (fun e => mine e.1)) = some true then { t with issuer := none } else t
  let own (e : Option (Nat × Nat × Nat)) : Option (Nat × Nat × Nat) := e.filter (fun x => !mine x.1)
  { s with
    requests := s.requests.filter (fun r => r.origin.isSome || !mine r.core)
    held := s.held.filter (fun h => !mine h.core)
    commands := s.commands.filter (fun c => !mine c.issuer)
    flights := s.flights.map (fun (f : Flight) => { f with issuer := own f.issuer, ends := own f.ends })
    tiles := s.tiles.map (fun e => (e.1, { e.2 with deciding := e.2.deciding.map task, held := e.2.held.map task
                                                    offered := e.2.offered.map task })) }

/-- MCMDs that engines of the die have accepted complete to their living issuers with DIE_LOST. -/
def State.endCommandsOn (s : State) (die : Nat) : State :=
  s.cores.foldl (fun (s : State) e =>
    if onDie die e.1 then
      e.2.engine.accepted.foldl (fun (s : State) c => if onDie die c.issuer then s else s.endCommand e.1 c 6 e.1 0 0 0) s
    else s) s

/-- The units of the die and everything in them. -/
def State.clearDie (s : State) (die : Nat) : State :=
  let gone (l : Launch) : Launch := { l with dies := Table.drop l.dies die, toPlace := l.toPlace.filter (· != die) }
  let bar (b : Barrier) : Barrier :=
    { b with counts := b.counts.filter (fun e => !onDie die e.1), arrivals := b.arrivals.filter (fun a => !onDie die a.core) }
  { s with
    cores := s.cores.filter (fun e => !onDie die e.1)
    tiles := s.tiles.filter (fun e => tileDie e.1 != die)
    superGroups := s.superGroups.filter (fun e => e.1 / 4 != die)
    crews := s.crews.filter (fun c => c.sg / 4 != die)
    launches := (s.launches.map gone).filter (fun l => !(l.dies.isEmpty && l.toPlace.isEmpty))
    barriers := s.barriers.map bar }

/-- A request whose home is lost (R433, 16_ordering.md R369, R373): one of another package is dropped here, and a LOSS packet goes to its
source (24_fabric.md R448). -/
def State.loseAt (s : State) (rid : Nat) : State :=
  match s.requests.find? (fun r => r.id == rid) with
  | none => s
  | some r => match r.origin with
    | none => s.loseRequest r 0
    | some (pkg, src, _, _) =>
      let t := s.dropRequest rid
      match s.portFor r.part pkg r.home src with
        | some port => t.queueFlits port 2
        | none => t

/-- Whether a home has still to perform a request. -/
def Request.pending (r : Request) : Bool :=
  match r.stage with
  | .sent | .nacked | .waiting _ _ => true
  | _ => false

/-- Whether a partition holds a super-group or memory of a die. -/
def Partition.touchesDie (p : Partition) (die : Nat) : Bool :=
  (List.range 4).any (fun k => p.holdsSuperGroup (4 * die + k))
    || (List.range 1280).any (fun g => p.holdsGigabyte g && linearDie (g * 2 ^ 30) == die)

/-- DIE_LOST: the links, the requests and messages bound for the die, the work on it, and the report to the pager of every partition
that held something of it. -/
def State.loseDie (s : State) (die : Nat) : State :=
  if 8 ≤ die ∨ s.dieLost die then s
  else
    let s := { s with lostDies := s.lostDies ||| ((1 : BitVec 8) <<< die) }
    let s := (s.cutOff die).dropWork die
    let s := s.endCommandsOn die
    let lost := s.requests.filter (fun r => r.pending && s.homeLost r)
    let stray := s.flights.filter (fun f => match f.dest with
      | .core n => onDie die n
      | _ => false)
    let aimed := s.commands.filter (fun c => onDie die c.target)
    let s := s.clearDie die
    let s := lost.foldl (fun (s : State) r => s.loseAt r.id) s
    let s := stray.foldl (fun (s : State) f => s.loseFlight f 0) s
    let s := aimed.foldl State.loseCommand s
    s.parts.foldl (fun (s : State) e =>
      if e.2.touchesDie die then s.report e.1 4108 noContext 0 2 0 0 0 0 (wordOf s.lostDies.toNat) 0 else s) s

/-- DIE_LOST (R433). -/
def execDieLost (die : Nat) (s : State) :
    Host.Outcome State Fault Refusal :=
  .next (s.loseDie die)

/-- PACKAGE_LOSS (R433, 25_package.md R478): reason 1 the cache die, 2 optical I/O die 0. The fault log records it, the root of trust
reports it, and the package stands still; no class 2 report is sent. -/
def State.losePackage (s : State) (reason : Nat) : State :=
  { s.logEvent 4108 3 0xFF 0 (wordOf reason) with reports := (3, reason) :: s.reports, halted := true }

/-- PACKAGE_LOSS (R433). -/
def execPackageLoss (reason : Nat) (s : State) :
    Host.Outcome State Fault Refusal :=
  .next (s.losePackage reason)

/-! ### Packets of other packages, LOSS packets and the time (24_fabric.md R447, R448, R455) -/

/-- The port by which this package sends on a packet of others: of all its ports that are up, as R446 chooses. -/
def State.transitPort (s : State) (pkg source homekey : Nat) : Option Nat :=
  let hops (n : Nat) : Nat := match Table.look (s.port n).routes pkg with
    | some (true, h) => if (s.port n).up then h else 0
    | _ => 0
  let c := (List.range 16).filter (fun n => decide (hops n ≠ 0))
  let best := c.foldl (fun m n => min m (hops n)) 16
  let ports := c.filter (fun n => decide (hops n = best))
  let k := (source * 2 ^ 48) ^^^ homekey
  let h := k * 0x9E3779B97F4A7C15 % 2 ^ 64 / 2 ^ 32
  ports[h * ports.length / 2 ^ 32]?

/-- A packet discarded: a LOSS packet goes to its source, where a route leads there. -/
def State.sendLoss (s : State) (t : Transit) : State :=
  match s.transitPort (t.source / 8192) 4112 (t.source % 8192) with
  | some port => s.queueFlits port 2
  | none => s

/-- FABRIC_TRANSIT: the packet leaves with its hop limit lowered, or is discarded (R447). -/
def State.transit (s : State) (index : Nat) : State :=
  match s.transits[index]? with
  | none => s
  | some t =>
    let s := { s with transits := s.transits.eraseIdx index }
    if t.hopLimit = 0 then s.sendLoss t
    else match s.transitPort t.dest (t.source % 8192) t.homekey with
      | some port => s.queueFlits port (1 + t.flits)
      | none => s.sendLoss t

/-- FABRIC_TRANSIT (R447). -/
def execFabricTransit (index : Nat) (s : State) :
    Host.Outcome State Fault Refusal :=
  .next (s.transit index)

/-- LOSS_PACKET: the source declares each of at most 8 listed requests and messages lost (R448). Numbers count per pair of source and
home, so a number names every request of the source that bears it and has had no answer (log 31). -/
def State.lossPacket (s : State) (source : Nat) (seqs : List Nat) : State :=
  let listed (n : Nat) : Bool := (seqs.take 8).contains n
  let rs := s.requests.filter (fun r => r.core == source && r.origin.isNone && r.remote.isSome && listed r.seq
    && (match r.stage with
      | .sent | .nacked => true
      | _ => false))
  let fs := s.flights.filter (fun f => f.source == source && listed f.seq && (match f.dest with
    | .remote _ _ => true
    | _ => false))
  let s := rs.foldl (fun (s : State) r => s.loseRequest r 0) s
  fs.foldl (fun (s : State) f => s.loseFlight f 0) s

/-- LOSS_PACKET (R448). -/
def execLossPacket (source : Nat) (seqs : List Nat) (s : State) :
    Host.Outcome State Fault Refusal :=
  .next (s.lossPacket source seqs)

/-- TIME_EXCHANGE (R455): GTC moves by at most 1 towards the reference, a package of a lower fabric number, and never backwards. By how
much is open. -/
def State.timeExchange (s : State) (port : Nat) (peer : BitVec 8) (time : Word) : State :=
  if (s.port port).up ∧ peer.toNat < s.pkg.toNat ∧ s.gtc.toNat < time.toNat then { s with gtc := s.gtc + wordOf (s.free 0 2) }
  else s

/-- TIME_EXCHANGE (R455). -/
def execTimeExchange (port : Nat) (peer : BitVec 8) (time : Word) (s : State) :
    Host.Outcome State Fault Refusal :=
  .next (s.timeExchange port peer time)

end Sys2Proof.Machine
end

