-- ==== Sys2Proof/Machine/Firmware.lean ====
section
/-! DEFINITION. Secure firmware: bring-up, power and cooling (25_package.md R477, R478), and the vendor-defined requests of the management
session (R463 to R466, R469, R472, R484). -/

namespace Sys2Proof.Machine

/-! ### Bring-up, power and cooling (R477, R478) -/

/-- A ring as training leaves it: active and locked at its H* where it carries a wavelength. -/
def trainedRing (choice r : Nat) : Ring :=
  if r % 20 < 16 then
    { heat := BitVec.ofNat 12 (Config.resonance r (r % 20) choice), mon := 2048, state := 5, lambda := BitVec.ofNat 5 (r % 20) }
  else {}

/-- A fabric port as training leaves it. -/
def trainedPort (far : BitVec 8 × BitVec 4) : Port := { up := true, fpkg := far.1, fport := far.2, opark := 0, oqthr := 0 }

/-- POWER_GOOD: a firmware image whose signature fails holds the package in reset, which is reported; otherwise the package comes up with
GTC 0, memory scrubbed, every trained port awake, and READY set. Host memory and the non-volatile state index stay; the model's own
counters go on. -/
def State.bringUp (s : State) (signatureOk : Bool) (trained : BitVec 16) (peers : List (BitVec 8 × BitVec 4)) : State :=
  let base : State :=
    { State.reset with
      agenda := s.agenda, eager := s.eager, choice := s.choice, cycle := s.cycle, nextId := s.nextId, nextOrder := s.nextOrder
      mem := s.mem.filter (fun c => decide (2 ^ 64 ≤ c.1)), firmware := s.firmware
      spdm := { xmssIndex := s.spdm.xmssIndex }, reports := s.reports }
  if ¬ signatureOk then { base with heldInReset := true, reports := (0, 0) :: s.reports }
  else
    let up := (List.range 16).filter (fun n => trained.getLsbD n)
    let rings := up.flatMap (fun n => ((portRings n).filter (fun r => decide (r % 20 < 16))).map (fun r => (r, trainedRing s.choice r)))
    { base with ports := up.map (fun n => (n, trainedPort (peers.getD n (0, 0)))), rings := rings, ready := true }

/-- POWER_GOOD (R477). -/
def execPowerGood (signatureOk : Bool) (trained : BitVec 16) (peers : List (BitVec 8 × BitVec 4)) (s : State) :
    Host.Outcome State Fault Refusal :=
  .next (s.bringUp signatureOk trained peers)

/-- THERMAL_THROTTLE: stall cycles are inserted and counted; GTC is unaffected (R478). -/
def execThermalThrottle (s : State) :
    Host.Outcome State Fault Refusal :=
  .next ({ s with throttled := s.throttled + 1 })

/-- THERMAL_TRIP: a loss of the package, reported over I3C (R478, R472). -/
def execThermalTrip (s : State) :
    Host.Outcome State Fault Refusal :=
  .next (s.losePackage 0)

/-- D3HOT_REQUEST: accepted only while no partition exists (R478). -/
def execD3hotRequest (s : State) :
    Host.Outcome State Fault Refusal :=
  .next (if s.parts = [] then { s with d3hot := true } else s)

/-! ### Vendor-defined requests (R472) -/

/-- A vendor-defined request refused or done: the state, STATUS, and the BODY of the response. -/
abbrev Handled := State × Nat × List Byte

/-- A byte and a little-endian number of a body. -/
def byteAt (b : List Byte) (i : Nat) : Nat := (b.getD i 0).toNat
def numberAt (b : List Byte) (i n : Nat) : Nat := ofBytes ((b.drop i).take n)

/-- A response kept: the SPDM message that carries it (log 33). -/
def State.sendResponse (s : State) (r : List Byte) : State := { s with spdm := { s.spdm with responses := r :: s.spdm.responses } }

/-- The payload of a response in a VENDOR_DEFINED_RESPONSE (log 33): StandardID 3 and the vendor ID. -/
def vendorResponse (op status : Nat) (body : List Byte) : List Byte :=
  let body := if status = 0 then body else []
  let payload := bytesOf (op % 128 + 128) 1 ++ bytesOf status 1 ++ bytesOf body.length 2 ++ body
  ([0x13, 0x7E, 0, 0, 3, 0, 2] : List Byte) ++ bytesOf Config.vendorId.toNat 2 ++ bytesOf payload.length 2 ++ payload

/-- An SPDM error (log 33): its code. -/
def spdmError (code : Byte) : List Byte := [0x13, 0x7F, code, 0]

/-- A request of the management session handled; outside a secure session it is answered with an SPDM error and has no effect. -/
def State.handle (s : State) (op : Nat) (f : State → Handled) : State :=
  if ¬ s.spdm.session then s.sendResponse (spdmError 0x0B)
  else
    let (t, status, body) := f s
    t.sendResponse (vendorResponse op status body)

/-! ### CREATE (R463 to R465, R469, R484) -/

/-- The record of a CREATE body, and whether its reserved fields are 0 and the limits of R463 hold. -/
def recordOf (body : List Byte) : Vector Word 64 := Vector.ofFn (fun i : Fin 64 => wordOf (numberAt body (8 + 8 * i.val) 8))
def Partition.wellMade (p : Partition) : Bool :=
  decide (bitsOf (p.dw 0) 63 32 = 0) && decide (bitsOf (p.dw 5) 63 16 = 0)
    && decide (bitsOf (p.dw 7) 63 52 = 0) && decide (bitsOf (p.dw 7) 10 0 = 0)
    && decide (bitsOf (p.dw 9) 63 52 = 0) && decide (bitsOf (p.dw 9) 11 4 = 0)
    && decide (bitsOf (p.dw 11) 63 52 = 0) && decide (bitsOf (p.dw 11) 11 0 = 0) && decide (bitsOf (p.dw 12) 63 4 = 0)
    && ([13, 14, 15] : List Nat).all (fun i => p.dw i == 0) && (List.range 28).all (fun i => p.dw (36 + i) == 0)
    && decide (p.dw 0 ≠ 0) && ([1, 2, 3, 4] : List Nat).any (fun i => p.dw i != 0)
    && (List.range 20).any (fun i => p.dw (16 + i) != 0)

/-- Whether two records claim one resource. -/
def Partition.overlaps (p q : Partition) : Bool :=
  (([0, 1, 2, 3, 4, 5, 6] : List Nat) ++ (List.range 20).map (16 + ·)).any (fun i => (p.dw i &&& q.dw i) != 0)

/-- The cores of a record. -/
def Partition.holdsCore (p : Partition) (n : Nat) : Bool := decide (n < 4096) && p.holdsSuperGroup (superGroupOf n)

/-- Whether the byte of a key is memory or local SRAM of a record. -/
def Partition.holdsByte (p : Partition) (key : Nat) : Bool :=
  if isSram key then p.holdsCore ((key - 2 ^ 45) / 2 ^ 18) else p.holdsGigabyte (key / 2 ^ 30)

/-- Every resource of a record scrubbed (R465): memory and scratchpad, slices, plate and atlas caches, inboxes and queues, and its key
slots. -/
def State.scrubPart (s : State) (n : Nat) (p : Partition) : State :=
  let mine (key : Nat) : Bool := p.holdsByte key
  { s with
    mem := s.mem.filter (fun c => !mine c.1)
    tags := s.tags.filter (fun c => !mine (c.1 * 8))
    stamps := s.stamps.filter (fun c => !mine (c.1 * 4096))
    poison := s.poison.filter (fun d => !mine (d * 8))
    vcopies := s.vcopies.filter (fun v => tagPart v.part != n)
    translations := s.translations.filter (fun t => t.part != n)
    accumulators := s.accumulators.filter (fun a => a.2.part != n)
    cores := s.cores.filter (fun e => !p.holdsCore e.1)
    tiles := s.tiles.filter (fun e => !p.holdsSuperGroup (tileSuperGroup e.1))
    superGroups := s.superGroups.filter (fun e => !p.holdsSuperGroup e.1)
    keySlots := s.keySlots.filter (fun e => !p.holdsKey e.1) }

/-- Every control context of a partition started at level 1 at ENTRY, with a0 the partition number. -/
def State.startControls (s : State) (n : Nat) (p : Partition) : State :=
  ((List.range 4096).filter (fun c => p.holdsCore c && !s.dieLost (coreDie c))).foldl (fun (s : State) c =>
    s.setCore c { ctxs := [(0, Ctx.start (p.dw 10) 1 .control (startArgs [wordOf n]))] }) s

/-- The direct routes of a new partition (R484). -/
def State.directRoutes (s : State) (p : Partition) : State :=
  ((List.range 16).filter (fun n => p.holdsPort n && (s.port n).up)).foldl (fun (s : State) n =>
    s.writeRoute n (s.port n).fpkg.toNat true 1) s

/-- The measurement of a partition (R469). -/
def measurementOf (firmware : List Byte) (record : Vector Word 64) : List Byte :=
  shake256 (ascii "EXNUM-MEAS" ++ firmware ++ record.toList.flatMap (fun w => bytesOf w.toNat 8)) 64

/-- CREATE. -/
def handleCreate (body : List Byte) (s : State) : Handled :=
  let n := byteAt body 0
  let p : Partition := { record := recordOf body }
  if body.length ≠ 520 ∨ 16 ≤ n ∨ numberAt body 1 7 ≠ 0 ∨ ¬ p.wellMade then (s, 2, [])
  else if (s.part n).any (·.destroying) then (s, 5, [])
  else if (s.part n).isSome ∨ s.parts.any (fun e => e.2.overlaps p) then (s, 1, [])
  else
    let m := measurementOf s.firmware p.record
    let s := (s.scrubPart n p).setPart n { p with key := s.randomBytes 0 32, measurement := m }
    ((s.startControls n p).directRoutes p, 0, m)

/-- CREATE (R465). -/
def execCreate (body : List Byte) (s : State) :
    Host.Outcome State Fault Refusal :=
  .next (s.handle 1 (handleCreate body))

/-! ### DESTROY (R465) -/

/-- Whether every engine command, copy and stream of a partition has ended. A stream or a CPYQ that waits for a reader that is
stopped has come to its end here (log 34). -/
def State.unitsIdle (s : State) (n : Nat) (p : Partition) : Bool :=
  s.cores.all (fun e => !p.holdsCore e.1 || (e.2.engine.accepted.isEmpty
      && e.2.streams.all (fun x => !x.2.started || x.2.ended || decide (16 ≤ x.2.queue.length))))
    && s.tiles.all (fun e => !p.holdsSuperGroup (tileSuperGroup e.1) || e.2.copies.all (·.aside))
    && !s.commands.any (fun c => c.part == n && c.kind != .mpre)

/-- Whether every context of a partition has stopped; one at level 2 stops when it comes back below it (22_faults.md R480). -/
def State.allStopped (s : State) (n : Nat) : Bool := (s.otherContexts n 5000 0).all (fun e => (s.ctx e.1 e.2).run != .ready)

/-- The partition gone: its key slots cleared, its resources scrubbed, and whatever of it is on its way dropped, but for messages to host
queues. -/
def State.endPart (s : State) (n : Nat) (p : Partition) : State :=
  let s := s.scrubPart n p
  { s with
    parts := Table.drop s.parts n
    keySlots := s.keySlots.filter (fun e => e.2.part != n)
    requests := s.requests.filter (fun r => r.part != n)
    held := s.held.filter (fun h => !p.holdsCore h.core)
    flights := (s.flights.filter (fun f => match f.dest with
      | .hostQueue _ _ => true
      | _ => f.part != n)).map (fun (f : Flight) => if f.part = n then { f with issuer := none, ends := none } else f)
    commands := s.commands.filter (fun c => c.part != n)
    crews := s.crews.filter (fun c => c.part != n)
    barriers := s.barriers.filter (fun b => b.part != n)
    launches := s.launches.filter (fun l => l.part != n)
    launchQueue := s.launchQueue.filter (fun l => l.part != n) }

/-- DESTROY: the partition is stopped as GSTOP does, and goes once its units are idle. While they are not, the request is still being
handled, and handling goes on with the next DESTROY step of the partition. -/
def State.destroyPart (s : State) (body : List Byte) : State :=
  let n := byteAt body 0
  if body.length ≠ 8 ∨ numberAt body 1 7 ≠ 0 ∨ 16 ≤ n then s.handle 2 (fun s => (s, 2, []))
  else match s.part n with
    | none => s.handle 2 (fun s => (s, 3, []))
    | some p =>
      if ¬ s.spdm.session ∧ ¬ p.destroying then s.handle 2 (fun s => (s, 0, []))
      else
        let s := if p.destroying then s
          else (s.setPart n { p with destroying := true, gang := some { entered := s.gtc, core := 5000, ctx := 0 } }).gangStop n 5000 0
        match s.part n with
        | some q => if s.allStopped n && s.unitsIdle n q then (s.endPart n q).sendResponse (vendorResponse 2 0 []) else s
        | none => s

/-- DESTROY (R465). -/
def execDestroy (body : List Byte) (s : State) :
    Host.Outcome State Fault Refusal :=
  .next (s.destroyPart body)

/-! ### SET_KEY, SET_PKG, LOG, ROUTE (R469, R472, R484) -/

/-- SET_KEY: a slot that the partition does not hold is refused; a slot that is loaded first invalidates the lines filled under it. -/
def handleSetKey (body : List Byte) (s : State) : Handled :=
  let n := byteAt body 0
  let slot := byteAt body 1
  let part (i len : Nat) : List Byte := (body.drop i).take len
  if body.length ≠ 168 ∨ 16 ≤ n ∨ 64 ≤ slot ∨ numberAt body 2 6 ≠ 0 then (s, 2, [])
  else match s.part n with
    | none => (s, 3, [])
    | some p =>
      if p.destroying then (s, 5, [])
      else if ¬ p.holdsKey slot then (s, 1, [])
      else if part 8 64 ≠ measurementOf s.firmware p.record then (s, 4, [])
      else
        let k : KeySlot := { part := n, data1 := part 72 32, data2 := part 104 32, mac := part 136 32 }
        ({ s with keySlots := Table.put s.keySlots slot k, vcopies := s.vcopies.filter (fun v => v.slot != some slot) }, 0, [])

/-- SET_KEY (R469). -/
def execSetKey (body : List Byte) (s : State) :
    Host.Outcome State Fault Refusal :=
  .next (s.handle 3 (handleSetKey body))

/-- SET_PKG. -/
def handleSetPkg (body : List Byte) (s : State) : Handled :=
  if body.length ≠ 8 ∨ 0xFC < byteAt body 0 ∨ numberAt body 1 7 ≠ 0 then (s, 2, [])
  else if s.parts ≠ [] then (s, 1, [])
  else ({ s with pkg := BitVec.ofNat 8 (byteAt body 0) }, 0, [])

/-- SET_PKG (R472). -/
def execSetPkg (body : List Byte) (s : State) :
    Host.Outcome State Fault Refusal :=
  .next (s.handle 4 (handleSetPkg body))

/-- The 32 bytes of a log entry. -/
def LogEntry.bytes (e : LogEntry) : List Byte :=
  bytesOf e.gtc.toNat 8 ++ bytesOf e.source 2 ++ bytesOf e.kind 1 ++ bytesOf e.part 1 ++ bytesOf 0 4 ++ bytesOf e.address.toNat 8
    ++ bytesOf e.detail.toNat 8

/-- LOG: the entries from an index on, or from the oldest that is kept. -/
def handleLog (body : List Byte) (s : State) : Handled :=
  let most := numberAt body 4 2
  if body.length ≠ 8 ∨ most = 0 ∨ 64 < most ∨ numberAt body 6 2 ≠ 0 then (s, 2, [])
  else
    let oldest := s.logNext - s.log.length
    let es := (s.log.drop (numberAt body 0 4 - oldest)).take most
    (s, 0, bytesOf s.logNext 4 ++ bytesOf es.length 2 ++ bytesOf 0 2 ++ es.flatMap LogEntry.bytes)

/-- LOG (R472). -/
def execLog (body : List Byte) (s : State) :
    Host.Outcome State Fault Refusal :=
  .next (s.handle 5 (handleLog body))

/-- ROUTE: ORTE of a port for a package. -/
def handleRoute (body : List Byte) (s : State) : Handled :=
  let port := byteAt body 0
  let dest := byteAt body 1
  let valid := decide (byteAt body 2 = 1)
  let hops := byteAt body 3
  if body.length ≠ 8 ∨ 16 ≤ port ∨ 0xFC < dest ∨ 1 < byteAt body 2 ∨ 15 < hops ∨ decide (hops = 0) = valid
      ∨ numberAt body 4 4 ≠ 0 then (s, 2, [])
  else (s.writeRoute port dest valid hops, 0, [])

/-- ROUTE (R472). -/
def execRoute (body : List Byte) (s : State) :
    Host.Outcome State Fault Refusal :=
  .next (s.handle 6 (handleRoute body))

/-- VENDOR_DEFINED_REQUEST: a payload whose OP is none of 1 to 6, whose reserved byte is not 0 or whose LEN is wrong is answered with
STATUS 2; any other is the request that OP names. -/
def State.vendorRequest (s : State) (r : List Byte) : State :=
  let op := byteAt r 0
  let body := r.drop 4
  if op = 0 ∨ 6 < op ∨ r.length < 4 ∨ byteAt r 1 ≠ 0 ∨ numberAt r 2 2 ≠ body.length then s.handle op (fun s => (s, 2, []))
  else match op with
    | 1 => s.handle 1 (handleCreate body)
    | 2 => s.destroyPart body
    | 3 => s.handle 3 (handleSetKey body)
    | 4 => s.handle 4 (handleSetPkg body)
    | 5 => s.handle 5 (handleLog body)
    | _ => s.handle 6 (handleRoute body)

/-- VENDOR_DEFINED_REQUEST (R472). -/
def execVendorDefinedRequest (request : List Byte) (s : State) :
    Host.Outcome State Fault Refusal :=
  .next (s.vendorRequest request)

end Sys2Proof.Machine
end

