-- ==== Sys2Proof/Machine/Functions.lean ====
section
/-! DEFINITION. The transcendentals of 02_numbers.md R60 and 07_vector_instr.md R195 and R196. R60 gives their F32 results to
within 2 ulp and no more, so a result is a free choice among the F32 numbers that lie so near the exact one, which the
model computes in fixed point with 256 bits below the point; the results of R196 are exact (log 8). -/

namespace Sys2Proof.Machine

/-- The fixed-point unit. -/
def fxBits : Nat := 256
def fxOne : Int := 2 ^ 256

/-- π and ln 2 in fixed point, truncated. -/
def fxPi : Int := 0x3243f6a8885a308d313198a2e03707344a4093822299f31d0082efa98ec4e6c89
def fxLn2 : Int := 0xb17217f7d1cf79abc9e3b39803f2f6af40f343267298b62d8a0d175b8baafa2b

def fxMul (a b : Int) : Int := a * b / fxOne
def fxDiv (a b : Int) : Int := a * fxOne / b

/-- A finite datum in fixed point, truncated below. -/
def fxOf (neg : Bool) (mag : Nat) (exp : Int) : Int :=
  let m : Int := if 0 ≤ exp + 256 then (mag : Int) * 2 ^ (exp + 256).toNat else (mag : Int) / 2 ^ (-(exp + 256)).toNat
  if neg then -m else m

/-- A fixed-point number scaled by 2^i, as a datum. -/
def fxNum (x i : Int) : Num := .fin (decide (x < 0)) x.natAbs (i - 256)

/-- The sum of the terms t, t·x/1!·…, each from the one before: term k is the last one times x divided by d k. -/
def fxSeries (x : Int) (d : Nat → Int) : Nat → Nat → Int → Int → Int
  | 0, _, _, acc => acc
  | n + 1, k, t, acc =>
    let t' := fxMul t x / d k
    fxSeries x d n (k + 1) t' (acc + t')

/-- e^x for |x| ≤ 1. -/
def fxExp (x : Int) : Int := fxSeries x (fun k => (k : Int) + 1) 60 0 fxOne fxOne

/-- 2^f for 0 ≤ f < 1. -/
def fxExp2 (f : Int) : Int := fxExp (fxMul f fxLn2)

/-- 2·atanh z = ln((1 + z)/(1 − z)) for |z| ≤ 1/3: the odd powers. -/
def fxAtanh2 (z : Int) : Int :=
  let z2 := fxMul z z
  let rec go : Nat → Nat → Int → Int → Int
    | 0, _, _, acc => acc
    | n + 1, k, p, acc => let p' := fxMul p z2; go n (k + 2) p' (acc + p' / ((k : Int) + 2))
  2 * go 90 1 z z

/-- ln m for a fixed-point m of 1 to 2. -/
def fxLn (m : Int) : Int := fxAtanh2 (fxDiv (m - fxOne) (m + fxOne))

/-- sin and cos of |x| ≤ π/4 or so. -/
def fxSin (x : Int) : Int := fxSeries (-(fxMul x x)) (fun k => (2 * (k : Int) + 2) * (2 * k + 3)) 35 0 x x
def fxCos (x : Int) : Int := fxSeries (-(fxMul x x)) (fun k => (2 * (k : Int) + 1) * (2 * k + 2)) 35 0 fxOne fxOne

/-- The operations, with the numbers of R195. -/
inductive Transcendental where
  | rcp | rsq | exp | log | sin | cos | tanh
  deriving DecidableEq, Repr

def Transcendental.number : Transcendental → Nat
  | .rcp => 4
  | .rsq => 5
  | .exp => 6
  | .log => 7
  | .sin => 8
  | .cos => 9
  | .tanh => 10

/-- A result that R196 fixes, or the exact value (approximated far below an ulp) around which the result is free. -/
inductive Exact where
  | fixed (x : Num) (f : FpFlags)
  | near (x : Num)
  deriving DecidableEq, Repr

/-- The power of two of a magnitude, when it is one. -/
def powerOfTwo (mag : Nat) (exp : Int) : Option Int :=
  if mag = 2 ^ Nat.log2 mag then some ((Nat.log2 mag : Int) + exp) else none

/-- sin x when `cosine` is false, else cos x, from quadrant and remainder. -/
def fxTrig (cosine : Bool) (x : Int) : Int :=
  let half := fxPi / 2
  let q := (x + half / 2) / half
  let r := x - q * half
  match (q + (if cosine then 1 else 0)) % 4 with
  | 0 => fxSin r
  | 1 => fxCos r
  | 2 => -(fxSin r)
  | _ => -(fxCos r)

/-- A transcendental of a finite datum that is not 0. -/
def transcendentalFin (op : Transcendental) (neg : Bool) (mag : Nat) (exp : Int) : Exact :=
  match op with
  | .rcp => match powerOfTwo mag exp with
    | some e => .fixed (.fin neg 1 (-e)) 0
    | none => .near (.fin neg (2 ^ 400 / mag) (-exp - 400))
  | .rsq =>
    if neg then .fixed (.nan false) flagIV
    else
      let e := if exp % 2 = 0 then exp else exp - 1
      let m := if exp % 2 = 0 then mag else 2 * mag
      .near (.fin false (Nat.sqrt (2 ^ 600 / m)) (-(e / 2) - 300))
  | .exp =>
    let big := decide (9 < (Nat.log2 mag : Int) + exp)
    if big then .near (.fin false 1 (if neg then -4000 else 4000))
    else
      let x := fxOf neg mag exp
      let i := x / fxOne
      let f := x - i * fxOne
      if f = 0 ∧ mag * 2 ^ (exp.toNat) % 2 ^ ((-exp).toNat) = 0 then .fixed (.fin false 1 i) 0
      else .near (fxNum (fxExp2 f) i)
  | .log =>
    if neg then .fixed (.nan false) flagIV
    else match powerOfTwo mag exp with
      | some e => .fixed (intNum e) 0
      | none =>
        let k := Nat.log2 mag
        let m := (mag : Int) * fxOne / 2 ^ k
        let e : Int := (k : Int) + exp
        .near (fxNum (e * fxOne + fxDiv (fxLn m) fxLn2) 0)
  | .sin | .cos =>
    if 22 ≤ (Nat.log2 mag : Int) + exp then .fixed (.nan false) flagRG
    else
      -- below 2^-40 the sine is its argument and the cosine 1, to far less than an ulp
      if (Nat.log2 mag : Int) + exp < -40 then
        .near (if op = .sin then .fin neg (mag * 2 ^ 100 - 1) (exp - 100) else .fin false (2 ^ 100 - 1) (-100))
      else .near (fxNum (fxTrig (decide (op = .cos)) (fxOf neg mag exp)) 0)
  | .tanh =>
    if (Nat.log2 mag : Int) + exp < -40 then .near (.fin neg (mag * 2 ^ 100 - 1) (exp - 100))
    else if 6 ≤ (Nat.log2 mag : Int) + exp then .near (.fin neg (2 ^ 100 - 1) (-100))
    else
      -- tanh x = (1 − w)/(1 + w) with w = e^(−2|x|) = 2^(−2|x|/ln 2)
      let y := fxDiv (2 * fxOf false mag exp) fxLn2
      let i := y / fxOne
      let w := fxExp2 (fxOne - (y - i * fxOne)) / 2 ^ (i + 1).toNat
      let t := fxDiv (fxOne - w) (fxOne + w)
      .near (fxNum (if neg then -t else t) 0)

/-- A transcendental (R60, R195, R196). -/
def transcendental (op : Transcendental) (x : Num) : Exact :=
  match op, x with
  | _, .nan s => .fixed (.nan false) (if s then flagIV else 0)
  | .rcp, .inf n => .fixed (.fin n 0 0) 0
  | .rsq, .inf n => if n then .fixed (.nan false) flagIV else .fixed (.fin false 0 0) 0
  | .exp, .inf n => if n then .fixed (.fin false 0 0) 0 else .fixed (.inf false) 0
  | .log, .inf n => if n then .fixed (.nan false) flagIV else .fixed (.inf false) 0
  | .sin, .inf _ | .cos, .inf _ => .fixed (.nan false) (flagIV ||| flagRG)
  | .tanh, .inf n => .fixed (.fin n 1 0) 0
  | op, .fin neg mag exp =>
    if mag = 0 then
      match op with
      | .rcp | .rsq => .fixed (.inf neg) flagDZ
      | .exp | .cos => .fixed (.fin false 1 0) 0
      | .log => .fixed (.inf true) flagDZ
      | .sin | .tanh => .fixed (.fin neg 0 0) 0
    else transcendentalFin op neg mag exp

/-- The value of an F32 magnitude pattern, in units of 2^-149. -/
def patternUnits (m : Nat) : Nat := if m < 2 ^ 23 then m else (2 ^ 23 + m % 2 ^ 23) * 2 ^ (m / 2 ^ 23 - 1)

/-- Whether a finite magnitude pattern lies within 2 ulp of mag × 2^exp, an ulp being the step of F32 at that number (R60). -/
def withinTwoUlp (mag : Nat) (exp : Int) (m : Nat) : Bool :=
  let ulp : Nat := ((Nat.log2 mag : Int) + exp + 126).toNat
  let low : Nat := (-(exp + 149)).toNat
  let exact : Int := (mag * 2 ^ (exp + 149).toNat : Nat)
  decide ((((patternUnits m * 2 ^ low : Nat) : Int) - exact).natAbs ≤ 2 * 2 ^ ulp * 2 ^ low)

/-- An F32 result moved to one of the finite patterns within 2 ulp of the exact magnitude. -/
def nudge (mag : Nat) (exp : Int) (bits choice : Nat) : Nat :=
  let m := bits % 2 ^ 31
  let near := ((List.range 9).map (fun i => m + i - 4)).filter (fun x => decide (x ≤ 0x7F7FFFFF) && withinTwoUlp mag exp x)
  if 0x7F7FFFFF < m then bits else bits / 2 ^ 31 * 2 ^ 31 + near.getD (choice % near.length) m

/-- The F32 result, with its flags: inexact unless the result is exact (R195). -/
def transcendentalF32 (op : Transcendental) (ty operand : Nat) (x : Num) : Nat × FpFlags :=
  match transcendental op x with
  | .fixed y f =>
    let (v, g) := resultNum fmtF32 .rne y
    (v, f ||| g)
  | .near y =>
    let (v, g) := resultNum fmtF32 .rne y
    let v' := match y with
      | .fin _ mag exp => nudge mag exp v (Config.transcendental op.number ty operand)
      | _ => v
    -- only a reciprocal root of a power of four has a representable value, and only that result is exact
    let exact := match op, y with
      | .rsq, .fin _ m e => decide (v' = v) && decide (roundNum fmtF32 .rne true false m e = (v, 0))
      | _, _ => false
    (v', if exact then 0 else g ||| flagNX)

/-- The result in a format: computed in F32 and, for F16 and BF16, rounded once under RNE (R60). -/
def transcendentalIn (op : Transcendental) (ty : Nat) (f : FloatFmt) (operand : Nat) : Nat × FpFlags :=
  let (v, g) := transcendentalF32 op ty operand (decodeFloat f operand)
  if f = fmtF32 then (v, g)
  else
    let (w, h) := encodeNum f .rne true (decodeFloat fmtF32 v)
    (w, g ||| h)

end Sys2Proof.Machine
end

