-- ==== Sys2Proof/Machine/HostLink.lean ====
section
/-! DEFINITION. The host link: launches, commands and queues of the host (25_package.md R473 to R476). -/

namespace Sys2Proof.Machine

/-! ### Writes of the host (R473) -/

/-- A host write discarded and counted in the fault log (25_package.md R472, R474 to R476): the source is the host. -/
def State.discardWrite (s : State) (part offset length : Nat) : State :=
  s.logEvent 8191 0 part 0 (wordOf (length * 2 ^ 32 + offset % 2 ^ 32))

/-- The partition of a window that starts at an offset of BAR0. -/
def windowPart (base offset : Nat) : Option Nat :=
  if base ≤ offset ∧ offset < base + 0x10000 then some ((offset - base) / 0x1000) else none

/-- Whether a partition takes work of the host: it exists and is not being destroyed (R465). -/
def State.takesWork (s : State) (part : Nat) : Bool :=
  match s.part part with
  | some p => !p.destroying
  | none => false

/-- The doublewords of a write. -/
def dwordsOf (bytes : List Byte) : List Word :=
  (List.range (bytes.length / 8)).map (fun i => wordOf (ofBytes ((bytes.drop (8 * i)).take 8)))

/-- The entry address of a host launch, or the cause of its FAULT (R474). -/
def State.hostLaunchEntry (s : State) (part : Nat) (w : List Word) : Except Cause Word :=
  let rdir := (s.partRegs (some part)).rdir
  if ¬ packetOk w then .error .address
  else if bitsOf (w.getD 0 0) 51 48 ≠ part then .error .priv
  else if rdir = 0 then .error .address
  else match s.hwRead part (ptrAddr rdir + 16 * bitsOf (w.getD 0 0) 63 52) 2 with
    | some [e0, e1] => (match directoryEntry e0 e1 with
      | some e => .ok e
      | none => .error .address)
    | _ => .error .page

/-- HOST_LAUNCH_WRITE (R474). -/
def State.hostLaunch (s : State) (offset : Nat) (bytes : List Byte) : State :=
  match windowPart 0x10000 offset with
  | none => s
  | some n =>
    if bytes.length ≠ 128 ∨ offset % 128 ≠ 0 ∨ ¬ s.takesWork n then s.discardWrite n offset bytes.length
    else
      let w := dwordsOf bytes
      let r : LaunchRequest := { packet := Vector.ofFn (fun i : Fin 16 => w.getD i.val 0), part := n, entry := 0 }
      match s.hostLaunchEntry n w with
      | .ok e => { s with launchQueue := s.launchQueue ++ [{ r with entry := e }] }
      | .error c => s.launchReply r 7 [wordOf c.number]

/-- HOST_LAUNCH_WRITE (R474). -/
def execHostLaunchWrite (offset : Nat) (bytes : List Byte) (s : State) :
    Host.Outcome State Fault Refusal :=
  .next (s.hostLaunch offset bytes)

/-- HOST_COMMAND_WRITE: the message goes to the control context of the named core as class 6, with TAG as the host gave it (R476, 06_task_instr.md
R149). -/
def State.hostCommand (s : State) (offset : Nat) (bytes : List Byte) : State :=
  match windowPart 0x30000 offset with
  | none => s
  | some n =>
    let w := dwordsOf bytes
    let d (i : Nat) : Word := w.getD i 0
    let core := bitsOf (d 0) 11 0
    if bytes.length ≠ 128 ∨ offset % 128 ≠ 0 ∨ ¬ s.takesWork n ∨ s.partOf core ≠ some n then
      s.discardWrite n offset bytes.length
    else
      s.post (.core core)
        { header := headerOf 0xFE 0 0 0 (bitsOf (d 1) 31 16) 0 6
          arg0 := d 2, arg1 := d 3, arg2 := d 4, arg3 := d 5, arg4 := d 6, arg5 := d 7, arg6 := d 8 } 8191 n none

/-- HOST_COMMAND_WRITE (R476). -/
def execHostCommandWrite (offset : Nat) (bytes : List Byte) (s : State) :
    Host.Outcome State Fault Refusal :=
  .next (s.hostCommand offset bytes)

/-! ### Host queues (R475) -/

/-- The host queue whose registers an offset of BAR0 selects, and the offset in its slot. -/
def queueSlot (offset : Nat) : Option (Nat × Nat × Nat) :=
  match windowPart 0x20000 offset with
  | none => none
  | some n =>
    let o := offset % 0x1000
    if o < 0x400 then some (n, o / 0x40, o % 0x40) else none

def State.hostQueue (s : State) (part q : Nat) : HostQueue := Table.get s.hostQueues (part * 16 + q) {}
def State.setHostQueue (s : State) (part q : Nat) (h : HostQueue) : State :=
  { s with hostQueues := Table.put s.hostQueues (part * 16 + q) h }

/-- A write to the queue register at `reg` of its slot: of 8 aligned bytes, where the register takes the value; anything else is
discarded and counted. -/
def State.writeQueue (s : State) (offset : Nat) (bytes : List Byte) (reg : Nat) (take : HostQueue → Word → Option HostQueue) :
    State :=
  match queueSlot offset with
  | none => s
  | some (n, q, o) =>
    if o / 8 ≠ reg / 8 then s
    else if bytes.length ≠ 8 ∨ offset % 8 ≠ 0 then s.discardWrite n offset bytes.length
    else match take (s.hostQueue n q) (wordOf (ofBytes bytes)) with
      | some h => s.setHostQueue n q h
      | none => s.discardWrite n offset bytes.length

/-- HQBASE_WRITE: discarded while the queue is on. -/
def State.writeHqbase (s : State) (offset : Nat) (bytes : List Byte) : State :=
  s.writeQueue offset bytes 0x00 (fun h v => if h.logSize = 0 then some { h with base := v &&& ~~~0xFFF#64 } else none)

/-- HQBASE_WRITE (R475). -/
def execHqbaseWrite (offset : Nat) (bytes : List Byte) (s : State) :
    Host.Outcome State Fault Refusal :=
  .next (s.writeHqbase offset bytes)

/-- HQSIZE_WRITE: TAIL and HEAD are set to 0. A write with LOG of 1 to 3 or above 16, for which the manual gives no meaning, is discarded
(log 32). -/
def State.writeHqsize (s : State) (offset : Nat) (bytes : List Byte) : State :=
  s.writeQueue offset bytes 0x08 (fun h v =>
    let n := bitsOf v 4 0
    if n = 0 ∨ (4 ≤ n ∧ n ≤ 16) then some { h with logSize := n, vec := bitsOf v 26 16, tail := 0, head := 0 } else none)

/-- HQSIZE_WRITE (R475). -/
def execHqsizeWrite (offset : Nat) (bytes : List Byte) (s : State) :
    Host.Outcome State Fault Refusal :=
  .next (s.writeHqsize offset bytes)

/-- HQHEAD_WRITE: the host frees entries. -/
def State.writeHqhead (s : State) (offset : Nat) (bytes : List Byte) : State :=
  s.writeQueue offset bytes 0x18 (fun h v => some { h with head := bitsOf v 15 0 })

/-- HQHEAD_WRITE (R475). -/
def execHqheadWrite (offset : Nat) (bytes : List Byte) (s : State) :
    Host.Outcome State Fault Refusal :=
  .next (s.writeHqhead offset bytes)

/-- Whether a message stands before another in the order of R12: its time, its source, and the order of sending. -/
def Flight.before (f g : Flight) : Bool :=
  decide (f.gtc.toNat < g.gtc.toNat) || (f.gtc == g.gtc && (decide (f.source < g.source)
    || (f.source == g.source && decide (f.order < g.order))))

/-- HOST_QUEUE_DELIVER: the entry, then TAIL, then the interrupt. A message waits until no other can bear its stamp any
more (00_scope.md R12). A queue that is off discards the message; a full one answers with NACK. -/
def State.hostDeliver (s : State) (mid : Nat) : State :=
  match s.flights.find? (fun f => f.id == mid) with
  | none => s
  | some f => match f.dest with
    | .hostQueue n q =>
      let h := s.hostQueue n q
      let size := 2 ^ h.logSize
      if s.gtc.toNat ≤ f.gtc.toNat ∨ s.flights.any (fun g => g.dest == f.dest && g.before f) then s
      else if h.logSize = 0 then (s.landed f).logEvent f.source 4 n 0 (wordOf q)
      else if (h.tail + 1) % size = h.head % size then
        { s with flights := s.flights.map (fun (g : Flight) => if g.id = mid then { g with nacked := true } else g) }
      else
        let at_ := hostKey ((h.base.toNat + 64 * h.tail) % 2 ^ 64)
        let data := f.msg.dwords.flatMap (fun w => bytesOf w.toNat 8)
        let s := { s with mem := writeList s.mem at_ data }
        (s.setHostQueue n q { h with tail := (h.tail + 1) % size, interrupts := h.interrupts + 1 }).landed f
    | _ => s

/-- HOST_QUEUE_DELIVER (R475). -/
def execHostQueueDeliver (mid : Nat) (s : State) :
    Host.Outcome State Fault Refusal :=
  .next (s.hostDeliver mid)

end Sys2Proof.Machine
end

