-- ==== Sys2Proof/Machine/VectorMem.lean ====
section
/-! DEFINITION. Vector memory: VLD, VST, VLDF, VLDS, VSTS, VGTH and VSCT (07_vector_instr.md R208 to R211). -/

namespace Sys2Proof.Machine

/-- The element format and size a base pointer names (R208). -/
def vectorFormat (p : Word) : Except Stop (Fmt × Nat) :=
  match fmtOf (ptrFmt p) with
  | some (.int sgn bits) => .ok (.int sgn bits, bits / 8)
  | some (.flt f) => .ok (.flt f, (Fmt.flt f).width / 8)
  | _ => trapWith .format p

/-- The checks of one element: PTROVF, then alignment, then the space rules and the translation (R209). -/
def State.elementAt (s : State) (p : Word) (size : Nat) (need : Need) (delta : Int) : Except Stop (Word × Place) := do
  let q ← advanceOr p delta
  if q.toNat % size ≠ 0 then trapWith .address q
  let pl ← s.placeOf q size need false
  pure (q, pl)

/-- The place of each element of a list of deltas, or the first failure (R209). -/
def State.elementPlaces (s : State) (p : Word) (size : Nat) (need : Need) : List Int → Except Stop (List (Word × Place))
  | [] => .ok []
  | dl :: rest => do
    let (q, pl) ← s.elementAt p size need dl
    let more ← s.elementPlaces p size need rest
    pure ((q, pl) :: more)

/-- The elements before the first failure, and that failure (R210). -/
def State.elementsUntil (s : State) (p : Word) (size : Nat) (need : Need) : List Int → List (Word × Place) × Option Stop
  | [] => ([], none)
  | dl :: rest =>
    match s.elementAt p size need dl with
    | .error e => ([], some e)
    | .ok x =>
      let (more, e) := s.elementsUntil p size need rest
      (x :: more, e)

/-- Whether a place's request can leave for another package. -/
def State.routed (s : State) (pl : Place) : Bool :=
  match pl.remote with
  | none => true
  | some pkg => (s.portFor pl.part pkg s.cur.1 (homekeyOf pl.home pl.key)).isSome

/-- The requests of one instruction, which are one operation of its class (R209): each is performed now, sent, or lost. The
count begins once and ends with the last. -/
def State.sendGroup (s : State) (grp cls : Nat) (counter : Option Nat) (rs : List (Request × Bool)) : State :=
  let one (s : State) (x : Request × Bool) : State :=
    let r := { x.1 with id := s.nextId, grp := grp, cls := some cls, counter := counter }
    let s := { s with nextId := s.nextId + 1 }
    let noRoute := match r.remote with
      | none => false
      | some pkg => (s.portFor r.part pkg r.core (homekeyOf r.home r.key)).isNone
    if x.2 || noRoute then
      let why := if noRoute then 2 else 0
      let (seq, s) := match r.remote with
        | some pkg => s.takeSeq r.core pkg r.home
        | none => (s.lastSeq r.core r.home, s)
      if isLoad r.op then
        s.alterCtx r.core r.ctx (fun c => c.loseLoad r.target { address := r.pointer, page := 4, why := why, seq := seq })
      else
        let s := s.alterCtx r.core r.ctx (fun c => c.markLost (counter.getD 0))
        s.reportLost r.core r.ctx why r.pointer seq (lostKind r.op) (counter.getD 0) 0
    else if r.remote.isSome ∨ ¬ s.nowAt r.key then s.dispatch r
    else match s.apply r with
      | .done t _ => t
      | _ => s
  let s := rs.foldl one (s.beginOp s.cur.1 s.cur.2 cls counter)
  if s.requests.any (fun q => q.grp == grp) then s else s.endOp s.cur.1 s.cur.2 cls counter

/-- The stalls before a vector access is issued. -/
def State.groupReady (s : State) (places : List (Word × Place)) (size cls : Nat) : Except Stop Unit :=
  if s.classFull cls ∨ places.any (fun e => s.conflicts e.2.key size || (e.2.remote.isSome && s.replayFull)) then stall .retry
  else .ok ()

/-- Whether an element of a load is not read as the load is issued, unless it hits near: its home is lost, it lies on another
package, or its request travels. -/
def State.elementLater (s : State) (pl : Place) : Bool := pl.lost || pl.remote.isSome || !s.nowAt pl.key

/-- What an element of a load leaves: its translation, and the line near the core and at L2 (15_memory_map.md R338, R348). -/
def State.elementLoaded (s : State) (q : Word) (pl : Place) (hint : BitVec 2) : State :=
  match pl.line, s.nearHit q pl hint with
  | some l, some d => s.moveNear s.cur.1 l.2 d hint
  | _, _ =>
    if pl.remote.isSome then s else if s.elementLater pl then s.depart pl
    else (s.depart pl).loaded { s.requestOf q pl (.load 0 false) 0 0 none .none with hint := hint }

/-- The elements of a load read now: its format's values, or the PAGE trap of a poisoned one (22_faults.md R428). An
element whose home is lost, or which leaves the package, reads as what the register holds until then. -/
def State.readElements (s : State) (size : Nat) (old : List Nat) (hint : BitVec 2) : List (Word × Place) → Except Stop (List Nat)
  | [] => .ok []
  | (q, pl) :: rest => do
    let v ← if (s.nearHit q pl hint).isNone ∧ s.elementLater pl then pure (old.headD 0)
      else match s.ownRead q pl size hint with
        | some v => .ok v
        | none => pageTrap (dwordPtr q) 5
    let more ← s.readElements size old.tail hint rest
    pure (v :: more)

/-- A vector load into vd of the elements at the given places; one without an active element completes at issue (R209). -/
def vectorLoad (s : State) (c : Claim) (f : Fmt) (size : Nat) (d : BitVec 4) (code : Nat) (places : List (Word × Place))
    (dies : List Reg) (hint : BitVec 2) : Run := do
  if places.isEmpty then s.retireV dies [] none c 0
  else
  s.groupReady places size 0
  s.writableV d
  let v := c.reg d
  let old := (List.range places.length).map (element v f.width)
  let vals ← s.readElements size old hint places
  let c := c.setReg d (putElements v f 0 vals)
  let r ← s.retireV dies [] (some d) c 0
  let r := places.foldl (fun r e => r.elementLoaded e.1 e.2 hint) r
  let left := (List.range places.length).filterMap (fun i => (places[i]?).bind (fun e =>
    if (s.nearHit e.1 e.2 hint).isNone ∧ s.elementLater e.2 then
      some ({ s.requestOf e.1 e.2 (.load size false) 0 0 none (.element d.toNat i code) with id := 0, hint := hint }, e.2.lost)
    else none))
  pure (if left = [] then r else r.sendGroup r.nextId 0 none left)

/-- A vector store of vd's elements at the given places, in ascending order (R211). -/
def vectorStore (s : State) (c : Claim) (f : Fmt) (size : Nat) (d : BitVec 4) (places : List (Word × Place))
    (dies : List Reg) (hint : BitVec 2) : Run := do
  if places.isEmpty then s.retire 4 dies []
  else
  s.groupReady places size 1
  let v ← s.readV c d
  let r ← s.retire 4 dies []
  let r := places.foldl (fun r e => if e.2.remote.isSome then r else r.depart e.2) r
  let rs := (List.range places.length).filterMap (fun i => (places[i]?).map (fun e =>
    ({ s.requestOf e.1 e.2 (.store size) (wordOf (element v f.width i)) 1 none .none with hint := hint }, e.2.lost)))
  pure (match places with
    | [] => r
    | e :: _ => r.sendGroup r.nextId 1 (some e.2.counter) rs)

/-- The claim, base pointer and format of a vector memory instruction, in the order of R192. -/
def State.vectorBase (s : State) (a : Reg) : Except Stop (Word × Claim × Fmt × Nat) := do
  let p ← s.readReg a
  let c ← s.needClaim
  let (f, size) ← vectorFormat p
  pure (p, c, f, size)

/-- Deltas i × stride. -/
def strided (n : Nat) (stride : Int) : List Int := (List.range n).map (fun (i : Nat) => (i : Int) * stride)

/-- VLD (R208). -/
def execVld (d : BitVec 4) (a : BitVec 5) (l : Bool) (k : BitVec 2) (h : BitVec 2) (s : State) :
    Host.Outcome State Fault Refusal :=
  concludeAs (Instr.vld d a l k h).encoding s (do
    let (p, c, f, size) ← s.vectorBase a
    let places ← s.elementPlaces p size Need.load (strided (active c k f.width) size)
    vectorLoad s c f size d (ptrFmt p) places (used l a) h)

/-- VST (R208). -/
def execVst (d : BitVec 4) (a : BitVec 5) (l : Bool) (k : BitVec 2) (h : BitVec 2) (s : State) :
    Host.Outcome State Fault Refusal :=
  concludeAs (Instr.vst d a l k h).encoding s (do
    let (p, c, f, size) ← s.vectorBase a
    let places ← s.elementPlaces p size Need.store (strided (active c k f.width) size)
    vectorStore s c f size d places (used l a) h)

/-- VLDF: loads up to the first element that fails, and sets k to what it loaded (R210). -/
def execVldf (d : BitVec 4) (a : BitVec 5) (l : Bool) (k : BitVec 2) (h : BitVec 2) (s : State) :
    Host.Outcome State Fault Refusal :=
  concludeAs (Instr.vldf d a l k h).encoding s (do
    if k = 0 then illegal
    let (p, c, f, size) ← s.vectorBase a
    let (places, failure) := s.elementsUntil p size Need.load (strided (active c k f.width) size)
    match failure with
    | none => vectorLoad s c f size d (ptrFmt p) places (used l a) h
    | some e =>
      if places = [] then .error e
      else vectorLoad s (c.setPred k (lanesOf f.width places.length)) f size d (ptrFmt p) places (used l a) h)

/-- VLDS (R208). -/
def execVlds (d : BitVec 4) (a : BitVec 5) (l : Bool) (b : BitVec 5) (m : Bool) (k : BitVec 2) (h : BitVec 2)
    (s : State) : Host.Outcome State Fault Refusal :=
  concludeAs (Instr.vlds d a l b m k h).encoding s (do
    let _ ← s.readReg a
    let y ← s.readReg b
    let (p, c, f, size) ← s.vectorBase a
    let places ← s.elementPlaces p size Need.load (strided (active c k f.width) y.toInt)
    vectorLoad s c f size d (ptrFmt p) places (used l a ++ used m b) h)

/-- VSTS (R208). -/
def execVsts (d : BitVec 4) (a : BitVec 5) (l : Bool) (b : BitVec 5) (m : Bool) (k : BitVec 2) (h : BitVec 2)
    (s : State) : Host.Outcome State Fault Refusal :=
  concludeAs (Instr.vsts d a l b m k h).encoding s (do
    let _ ← s.readReg a
    let y ← s.readReg b
    let (p, c, f, size) ← s.vectorBase a
    let places ← s.elementPlaces p size Need.store (strided (active c k f.width) y.toInt)
    vectorStore s c f size d places (used l a ++ used m b) h)

/-- The deltas of a gather or scatter: the elements of an index register, signed, times the element size (R208). -/
def gathered (v : List Lane) (size n : Nat) : List Int :=
  (List.range n).map (fun i =>
    (if size = 8 then intValue true 64 (element v 64 i) else intValue true 32 (element v 32 i)) * size)

/-- VGTH (R208). -/
def execVgth (d : BitVec 4) (a : BitVec 5) (l : Bool) (w : BitVec 4) (k : BitVec 2) (h : BitVec 2) (s : State) :
    Host.Outcome State Fault Refusal :=
  concludeAs (Instr.vgth d a l w k h).encoding s (do
    let (p, c, f, size) ← s.vectorBase a
    let x ← s.readV c w
    let places ← s.elementPlaces p size Need.load (gathered x size (active c k f.width))
    vectorLoad s c f size d (ptrFmt p) places (used l a) h)

/-- VSCT (R208). -/
def execVsct (d : BitVec 4) (a : BitVec 5) (l : Bool) (w : BitVec 4) (k : BitVec 2) (h : BitVec 2) (s : State) :
    Host.Outcome State Fault Refusal :=
  concludeAs (Instr.vsct d a l w k h).encoding s (do
    let (p, c, f, size) ← s.vectorBase a
    let x ← s.readV c w
    let places ← s.elementPlaces p size Need.store (gathered x size (active c k f.width))
    vectorStore s c f size d places (used l a) h)

end Sys2Proof.Machine
end

