-- ==== Sys2Proof/Machine/Sparse.lean ====
section
/-! DEFINITION. Hash accumulation and carries: HACC, HDRN, SBND and CARRY (08_matrix_instr.md R236 to R240; 18_sparse.md R392,
R393). Each input of a HACC is one indivisible step, and what the inputs before a trap or a pause did remains. -/

namespace Sys2Proof.Machine

/-! ### Hash tables (R236) -/

/-- A hash table: the core and offset of its header, LOGC, VFMT and COP. -/
structure HashTable where
  core : Nat
  off : Nat
  logc : Nat
  vfmt : Nat
  cop : Nat
  deriving DecidableEq, Repr

def HashTable.key (t : HashTable) : Nat := sramKey t.core t.off
/-- The key doubleword of entry e. -/
def HashTable.slot (t : HashTable) (e : Nat) : Nat := t.key + 16 + 16 * e
def HashTable.size (t : HashTable) : Nat := 2 ^ t.logc
def HashTable.format (t : HashTable) : Fmt := (fmtOf t.vfmt).getD .raw

/-- The pointer of a doubleword of a table (22_faults.md R428). -/
def tablePtr (core key : Nat) : Word := corePtr 0xFF core ||| wordOf (key % 2 ^ 18 / 8 * 8)

/-- A doubleword of a table that the issuing core's local memory unit is to read or write: it waits for a busy patch and for the earlier
accesses of the context (08_matrix_instr.md R214, 05_memory_instr.md R122). -/
def State.tableReach (s : State) (key : Nat) : Except Stop Unit :=
  if s.patchBusy key ∨ s.conflicts key 8 then stall .retry else .ok ()

/-- A doubleword of a table used: a poisoned one faults (22_faults.md R428). -/
def State.tableUse (s : State) (key : Nat) : Except Stop Unit := do
  s.tableReach key
  if s.poisoned key 8 then pageTrap (tablePtr s.cur.1 key) 5

/-- The header of the table that a pointer names: in the scratchpad of the issuing core, as R236 lays down. -/
def State.tableHeader (s : State) (p : Word) : Except Stop HashTable := do
  spaces p [1]
  if s.coreNamed p ≠ some (.inl s.cur.1) ∨ ptrOff p % 16 ≠ 0 then trapWith .address p
  if !s.offsetOk s.cur.1 (ptrOff p) s.me.level then trapWith .address p
  let key := sramKey s.cur.1 (ptrOff p)
  s.tableUse key
  s.tableUse (key + 8)
  let w0 := s.dword key
  let w1 := s.dword (key + 8)
  let t : HashTable := { core := s.cur.1, off := ptrOff p, logc := bitsOf w0 4 0, vfmt := bitsOf w0 23 16, cop := bitsOf w0 15 14 }
  if bitsOf w0 31 24 ≠ 0 ∨ bitsOf w0 13 5 ≠ 0 ∨ bitsOf w1 63 32 ≠ 0 ∨ t.logc < 4 ∨ 12 < t.logc
      ∨ !([0x04, 0x08, 0x10, 0x11].contains t.vfmt) then trapWith .address p
  pure t

/-- The table that a pointer names, all of it in the scratchpad. -/
def State.hashTable (s : State) (p : Word) : Except Stop HashTable := do
  let t ← s.tableHeader p
  if !(List.range (2 * t.size)).all (fun i => s.offsetOk s.cur.1 (t.off + 16 + 8 * i) s.me.level) then trapWith .address p
  pure t

/-- A doubleword of a table written by the issuing core. -/
def State.tableWrite (s : State) (key : Nat) (v : Word) : State :=
  (s.takeBank s.cur.1 s.cur.2 key).storeBytes key 8 v.toNat

/-- FE of a key word set or cleared, with the re-check of what waits on it (05_memory_instr.md R127). -/
def State.tableTag (s : State) (key : Nat) (fe : Bool) : State :=
  (s.setTag key (mkTag fe (tagVer (s.tag key)))).recheck key (s.requests.length + 1) 0

/-- COUNT and BOUND. -/
def State.tableCount (s : State) (t : HashTable) : Nat := readBytes s.mem (t.key + 8) 4
def State.tableBound (s : State) (t : HashTable) : Nat := readBytes s.mem (t.key + 4) 4
def State.setTableCount (s : State) (t : HashTable) (n : Nat) : State :=
  (s.takeBank s.cur.1 s.cur.2 t.key).storeBytes (t.key + 8) 4 n

/-- combine(value, val) (R237), on patterns of VFMT. -/
def HashTable.combine (t : HashTable) (old new : Nat) : Nat × FpFlags :=
  match t.format with
  | .flt g =>
    let x := decodeFloat g old
    let y := decodeFloat g new
    let pick (f : Num → Num → Num) : Num × FpFlags := if anyNaN [x, y] then (.nan false, snan [x, y]) else (f x y, 0)
    if t.cop = 3 then (new, 0)
    else
      let (z, f) := if t.cop = 0 then addNum .rne x y else if t.cop = 1 then pick numMin else pick numMax
      let (v, h) := resultNum g .rne z
      (v, f ||| h)
  | f =>
    let sgn := match f with
      | .int b _ => b
      | _ => false
    let x := intValue sgn 64 old
    let y := intValue sgn 64 new
    (match t.cop with
      | 0 => intBits 64 (x + y)
      | 1 => intBits 64 (min x y)
      | 2 => intBits 64 (max x y)
      | _ => new, 0)

/-- The value of an entry: an F32 stands in the low half of its doubleword, and the upper half is written as 0 (log 84). -/
def HashTable.value (t : HashTable) (w : Word) : Nat := if t.vfmt = 0x11 then bitsOf w 31 0 else w.toNat

/-- Where a key stands among its eight probes (R237): at a match, at the first empty slot, or nowhere. The probes stop there, and each uses
its key word. -/
inductive Probe where
  | found (e : Nat)
  | empty (e : Nat)
  | full
  deriving DecidableEq, Repr

def State.probe (s : State) (t : HashTable) (key : Word) : Except Stop Probe :=
  let h := key.toNat * 0x9E3779B97F4A7C15 % 2 ^ 64 / 2 ^ (64 - t.logc)
  (List.range 8).foldr (fun i rest => do
    let e := (h + i) % t.size
    s.tableUse (t.slot e)
    if !tagFE (s.tag (t.slot e)) then pure (.empty e)
    else if s.dword (t.slot e) = key then pure (.found e)
    else rest) (.ok .full)

/-! ### HACC (R237) -/

/-- The array descriptor at rs2: keys, values and a count (R237, R239). -/
def State.arrayDescriptor (s : State) (p : Word) : Except Stop (Word × Word × Nat) := do
  spaces p [0, 1]
  if ptrAddr p % 8 ≠ 0 then trapWith .address p
  let img ← s.fetchImage p 0 3
  if bitsOf (img.getD 2 0) 63 40 ≠ 0 then trapWith .address p
  pure (img.getD 0 0, img.getD 1 0, bitsOf (img.getD 2 0) 39 0)

/-- The formats of a value array that HACC takes. -/
def haccValue (f : Nat) : Bool := (decide (0x01 ≤ f) && decide (f ≤ 0x08)) || (decide (0x10 ≤ f) && decide (f ≤ 0x15))

/-- A stop in the midst of the inputs: what the earlier ones did remains, and HPROG names the input (R237). -/
def Stop.keeping (e : Stop) (s : State) : Stop :=
  match e with
  | .trap t => .trapIn s t
  | .trapIn s' t => .trapIn s' t
  | .wait w => .waitIn s w
  | .waitIn s' w => .waitIn s' w

def State.setHprog (s : State) (e : Nat) : State := s.setMe { s.me with hprog := wordOf (e % 2 ^ 40) }

/-- One input of a HACC. -/
def State.haccOne (s : State) (t : HashTable) (keys vals : Word) (e : Nat) : Except Stop State := do
  let kf := (fmtOf (ptrFmt keys)).getD .raw
  let vf := (fmtOf (ptrFmt vals)).getD .raw
  let kp ← advanceOr keys ((e * fmtBytes (ptrFmt keys) : Nat))
  let k ← s.fetchData kp (fmtBytes (ptrFmt keys))
  let vp ← advanceOr vals ((e * fmtBytes (ptrFmt vals) : Nat))
  let x ← s.fetchData vp (fmtBytes (ptrFmt vals))
  let key := extended (fmtBytes (ptrFmt keys)) (match kf with
    | .int sgn _ => sgn
    | _ => false) k
  let (v, f) := convert vf t.format .rne true x
  match ← s.probe t key with
  | .found i =>
    s.tableReach (t.slot i + 8)
    if t.cop ≠ 3 then s.tableUse (t.slot i + 8)
    let (w, g) := t.combine (t.value (s.dword (t.slot i + 8))) v
    pure ((s.tableWrite (t.slot i + 8) (wordOf w)).raise (f ||| g))
  | .empty i =>
    s.tableReach (t.slot i + 8)
    if s.tableBound t ≠ 0 ∧ s.tableBound t ≤ s.tableCount t then trapWith .bound kp
    let s := ((s.tableWrite (t.slot i) key).tableTag (t.slot i) true).tableWrite (t.slot i + 8) (wordOf v)
    pure ((s.setTableCount t (s.tableCount t + 1)).raise f)
  | .full => trapWith .hovf kp

/-- The inputs from e on; `fuel` counts them, and where `pause` holds the instruction pauses after the last. -/
def State.haccFrom (s : State) (t : HashTable) (keys vals : Word) (pause : Bool) : Nat → Nat → Except Stop State
  | 0, _ => if pause then .error (.waitIn s .none) else .ok s
  | fuel + 1, e =>
    match s.haccOne t keys vals e with
    | .error x => .error (x.keeping (s.setHprog e))
    | .ok s' => (s'.setHprog (e + 1)).haccFrom t keys vals pause fuel (e + 1)

/-- HACC (R237). -/
def execHacc (d : BitVec 5) (a : BitVec 5) (l : Bool) (b : BitVec 5) (m : Bool) (s : State) :
    Host.Outcome State Fault Refusal :=
  concludeAs (Instr.hacc d a l b m).encoding s (do
    let p ← s.readReg a
    let y ← s.readReg b
    let t ← s.hashTable p
    let (keys, vals, n) ← s.arrayDescriptor y
    if !([0x03, 0x04, 0x07, 0x08].contains (ptrFmt keys)) then trapWith .format keys
    if !haccValue (ptrFmt vals) then trapWith .format vals
    let e := bitsOf s.me.hprog 39 0
    let turns := if s.eager then n - e else min (n - e) (1 + s.free 321 (n - e))
    let r ← s.haccFrom t keys vals (turns < n - e) turns e
    match (r.setHprog 0).retire 4 (used l a ++ used m b) [(d, wordOf n)] with
    | .ok z => pure z
    | .error x => .error (x.keeping r))

/-! ### HDRN and SBND (R238, R239) -/

/-- The occupied entries of a table in ascending order of their keys. -/
def State.occupied (s : State) (t : HashTable) : List (Word × Word) :=
  let es := ((List.range t.size).filter (fun e => tagFE (s.tag (t.slot e)))).map (fun e =>
    (s.dword (t.slot e), s.dword (t.slot e + 8)))
  sortBy (fun a b => decide (a.1 ≤ b.1)) es

/-- The doublewords of a table that an HDRN uses: every key word, and the values of the occupied entries. -/
def State.tableUses (s : State) (t : HashTable) : Except Stop Unit :=
  (List.range t.size).forM (fun i => do
    s.tableUse (t.slot i)
    if tagFE (s.tag (t.slot i)) then s.tableUse (t.slot i + 8))

/-- The places of the elements an HDRN stores, from element i on. -/
def State.drainPlaces (s : State) (p : Word) (size : Nat) : Nat → Nat → Except Stop (List (Word × Place))
  | _, 0 => .ok []
  | i, n + 1 => do
    let q ← advanceOr p ((size * i : Nat))
    let pl ← s.placeOf q size Need.store false
    if s.conflicts pl.key size then stall .retry
    let rest ← s.drainPlaces p size (i + 1) n
    pure ((q, pl) :: rest)

/-- The stores of one array, which count as one operation of class st (R239, 07_vector_instr.md R209). -/
def State.storeArray (s : State) (places : List (Word × Place)) (size : Nat) (vs : List Word) : State :=
  match places with
  | [] => s
  | e :: _ =>
    let s := places.foldl (fun (r : State) x => if x.2.remote.isSome then r else r.depart x.2) s
    let rs := (places.zip vs).map (fun x => (s.requestOf x.1.1 x.1.2 (.store size) x.2 1 none .none, x.1.2.lost))
    s.sendGroup s.nextId 1 (some e.2.counter) rs

/-- HDRN: writes the occupied entries out in ascending order of key and empties the table, in one step (R239). -/
def execHdrn (d : BitVec 5) (a : BitVec 5) (l : Bool) (b : BitVec 5) (m : Bool) (s : State) :
    Host.Outcome State Fault Refusal :=
  concludeAs (Instr.hdrn d a l b m).encoding s (do
    let p ← s.readReg a
    let y ← s.readReg b
    let t ← s.hashTable p
    let (keys, vals, cap) ← s.arrayDescriptor y
    if !([0x04, 0x08].contains (ptrFmt keys)) then trapWith .format keys
    if ptrFmt vals ≠ t.vfmt then trapWith .format vals
    s.tableUses t
    let es := s.occupied t
    if cap < es.length then trapWith .address y
    let size := fmtBytes t.vfmt
    let kps ← s.drainPlaces keys 8 0 es.length
    let vps ← s.drainPlaces vals size 0 es.length
    if 62 ≤ s.me.outstanding.get 1 then stall .retry
    let r ← s.retire 4 (used l a ++ used m b) [(d, wordOf es.length)]
    let r := (r.storeArray kps 8 (es.map (fun (x : Word × Word) => x.1))).storeArray vps size
      (es.map (fun (x : Word × Word) => x.2))
    let r := (List.range t.size).foldl (fun r e => if tagFE (r.tag (t.slot e)) then r.tableTag (t.slot e) false else r) r
    pure (r.setTableCount t 0))

/-- SBND: BOUND := bits(rs2, 31, 0) (R238). -/
def execSbnd (a : BitVec 5) (l : Bool) (b : BitVec 5) (m : Bool) (s : State) :
    Host.Outcome State Fault Refusal :=
  concludeAs (Instr.sbnd a l b m).encoding s (do
    let p ← s.readReg a
    let y ← s.readReg b
    let t ← s.tableHeader p
    let r ← s.retire 4 (used l a ++ used m b) []
    pure ((r.takeBank s.cur.1 s.cur.2 t.key).storeBytes (t.key + 4) 4 (bitsOf y 31 0)))

/-! ### CARRY (R240) -/

/-- CARRY: appends to a carry table at the home of its header. It counts as an atomic (05_memory_instr.md R120), and retires when the
translation of its entry has been obtained there (R240). -/
def execCarry (d : BitVec 5) (a : BitVec 5) (l : Bool) (b : BitVec 5) (m : Bool) (s : State) :
    Host.Outcome State Fault Refusal :=
  concludeAs (Instr.carry d a l b m).encoding s (do
    let p ← s.readReg a
    let y ← s.readReg b
    spaces p [0, 3]
    s.atHome 16 (if d = 0 then 1 else 0) d (used l a ++ used m b) .carry (do
      let pl ← s.placeOf p 16 Need.both true
      pure (p, pl, y)) (fun _ => .ok ()))

end Sys2Proof.Machine
end

