-- ==== Sys2Proof/Machine/Spdm.lean ====
section
/-! DEFINITION. The SPDM responder of the root of trust (25_package.md R471). The manual names the requests and the signature scheme; the
order in which requests are taken and the codes of messages are SPDM 1.3's, and what messages carry beyond them is open (log 33). -/

namespace Sys2Proof.Machine

/-- Bytes of a message that the manual does not give: free in length and value. -/
def State.openBytes (s : State) (slot : Nat) : List Byte :=
  (List.range (s.free slot 4096)).map (fun i => BitVec.ofNat 8 (Config.choice s.choice (slot + 1 + i)))

/-- A request and its response enter the transcript, and the response is sent. -/
def State.converse (s : State) (request response : List Byte) : State :=
  { s with spdm := { s.spdm with transcript := s.spdm.transcript ++ request ++ response } }.sendResponse response

/-- A response of a code with an open body. -/
def State.openResponse (s : State) (code : Byte) : List Byte := [0x13, code, 0, 0] ++ s.openBytes 20000

/-- A request taken out of turn is answered with an error, and has no effect. -/
def State.inTurn (s : State) (turn : Bool) (f : State → State) : State := if turn then f s else s.sendResponse (spdmError 0x04)

/-- A signature of the identity key (R471): the state index is advanced and committed before the signature is released; an exhausted
key signs nothing and answers with an error. -/
def State.signed (s : State) (request : List Byte) (code : Byte) (f : State → List Byte → State) : State :=
  if 2 ^ 20 ≤ s.spdm.xmssIndex then s.sendResponse (spdmError 0x05)
  else
    let index := s.spdm.xmssIndex
    let s := { s with spdm := { s.spdm with xmssIndex := index + 1 } }
    let body := s.openResponse code
    f s (body ++ Config.xmssSign index (s.spdm.transcript ++ request ++ body))

/-- GET_VERSION begins a conversation afresh. -/
def State.getVersion (s : State) (request : List Byte) : State :=
  { s with spdm := { xmssIndex := s.spdm.xmssIndex, responses := s.spdm.responses, versioned := true } }.converse request
    [0x10, 0x04, 0, 0, 0, 1, 0x00, 0x13]

/-- GET_VERSION (R471). -/
def execGetVersion (request : List Byte) (s : State) :
    Host.Outcome State Fault Refusal :=
  .next (s.getVersion request)

/-- GET_CAPABILITIES. -/
def State.getCapabilities (s : State) (request : List Byte) : State :=
  s.inTurn s.spdm.versioned (fun s => { s with spdm := { s.spdm with capable := true } }.converse request (s.openResponse 0x61))

/-- GET_CAPABILITIES (R471). -/
def execGetCapabilities (request : List Byte) (s : State) :
    Host.Outcome State Fault Refusal :=
  .next (s.getCapabilities request)

/-- NEGOTIATE_ALGORITHMS. -/
def State.negotiate (s : State) (request : List Byte) : State :=
  s.inTurn s.spdm.capable (fun s => { s with spdm := { s.spdm with negotiated := true } }.converse request (s.openResponse 0x63))

/-- NEGOTIATE_ALGORITHMS (R471). -/
def execNegotiateAlgorithms (request : List Byte) (s : State) :
    Host.Outcome State Fault Refusal :=
  .next (s.negotiate request)

/-- GET_DIGESTS: digests of the certificate chain. -/
def State.getDigests (s : State) (request : List Byte) : State :=
  s.inTurn s.spdm.negotiated (fun s => s.converse request (s.openResponse 0x01))

/-- GET_DIGESTS (R471). -/
def execGetDigests (request : List Byte) (s : State) :
    Host.Outcome State Fault Refusal :=
  .next (s.getDigests request)

/-- GET_CERTIFICATE: the portion of the chain that the request names by offset and length, and how much is left. -/
def State.getCertificate (s : State) (request : List Byte) : State :=
  s.inTurn s.spdm.negotiated (fun s =>
    let rest := Config.certificates.drop (numberAt request 4 2)
    let portion := rest.take (numberAt request 6 2)
    s.converse request (([0x13, 0x02, 0, 0] : List Byte) ++ bytesOf portion.length 2 ++ bytesOf (rest.length - portion.length) 2 ++ portion))

/-- GET_CERTIFICATE (R471). -/
def execGetCertificate (request : List Byte) (s : State) :
    Host.Outcome State Fault Refusal :=
  .next (s.getCertificate request)

/-- CHALLENGE. -/
def State.challenge (s : State) (request : List Byte) : State :=
  s.inTurn s.spdm.negotiated (fun s => s.signed request 0x03 (fun s r => s.converse request r))

/-- CHALLENGE (R471). -/
def execChallenge (request : List Byte) (s : State) :
    Host.Outcome State Fault Refusal :=
  .next (s.challenge request)

/-- GET_MEASUREMENTS. -/
def State.getMeasurements (s : State) (request : List Byte) : State :=
  s.inTurn s.spdm.negotiated (fun s => s.signed request 0x60 (fun s r => s.converse request r))

/-- GET_MEASUREMENTS (R471). -/
def execGetMeasurements (request : List Byte) (s : State) :
    Host.Outcome State Fault Refusal :=
  .next (s.getMeasurements request)

/-- KEY_EXCHANGE: a secret is shared, and a handshake stands open until FINISH. -/
def State.exchange (s : State) (request : List Byte) : State :=
  s.inTurn s.spdm.negotiated (fun s => s.signed request 0x64 (fun s r =>
    let (share, secret) := Config.keyExchange (s.randomBytes 64 64) request
    { s with spdm := { s.spdm with handshake := true, secret := secret } }.converse request (r ++ share)))

/-- KEY_EXCHANGE (R471). -/
def execKeyExchange (request : List Byte) (s : State) :
    Host.Outcome State Fault Refusal :=
  .next (s.exchange request)

/-- FINISH: the secure session stands once the requester's verify data, which ends the request, is right. -/
def State.finishSession (s : State) (request : List Byte) : State :=
  s.inTurn s.spdm.handshake (fun s =>
    let want := Config.finishMac s.spdm.secret s.spdm.transcript
    if want.isSuffixOf request then
      { s with spdm := { s.spdm with handshake := false, session := true } }.converse request (s.openResponse 0x65)
    else s.sendResponse (spdmError 0x06))

/-- FINISH (R471). -/
def execFinish (request : List Byte) (s : State) :
    Host.Outcome State Fault Refusal :=
  .next (s.finishSession request)

end Sys2Proof.Machine
end

