-- ==== Sys2Proof/Machine/Surveyor.lean ====
section
/-! DEFINITION. The surveyor (08_matrix_instr.md R241 to R243; 18_sparse.md R386 to R388): SURV bind, unbind, start and stop, the
kernel's instructions, and the runs and gathers of a stream. -/

namespace Sys2Proof.Machine

/-! ### Kernels (R242) -/

/-- The forms a kernel may contain; registers are numbered 0 to 7 for a0 to a7. -/
inductive KernelOp where
  | add (d a : Nat)
  | addi (d : Nat) (i : Int)
  | mov (d a : Nat)
  | li (d : Nat) (i : Int)
  | ld (d a off : Nat)
  | alu (op d a : Nat)
  | branch (onZero : Bool) (a : Nat) (o : Int)
  | jump (o : Int)
  | nop
  | halt
  | fetch (a b i : Nat)
  | emit (a i : Nat)
  deriving DecidableEq, Repr

/-- A halfword as a kernel's instruction, its fields laid out as 03_encoding.md R92; none where R242 forbids it. -/
def kernelOp (h : BitVec 16) : Option KernelOp :=
  let f (lo n : Nat) : Nat := h.toNat / 2 ^ lo % 2 ^ n
  let reg (v : Nat) : Option Nat := if 4 ≤ v ∧ v ≤ 11 then some (v - 4) else none
  let two (g : Nat → Nat → KernelOp) : Option KernelOp := match reg (f 6 5), reg (f 1 5) with
    | some d, some a => some (g d a)
    | _, _ => none
  match h.toNat / 2 ^ 11 with
  | 1 => two .add
  | 2 => (reg (f 6 5)).map (fun d => .addi d (intValue true 6 (f 0 6)))
  | 3 => two .mov
  | 4 => (reg (f 6 5)).map (fun d => .li d (intValue true 6 (f 0 6)))
  | 5 => some (.ld (f 8 3) (f 5 3) (f 0 4))
  | 7 => some (.branch (f 10 1 == 0) (f 7 3) (intValue true 6 (f 0 6)))
  | 8 => some (.jump (intValue true 11 (f 0 11)))
  | 9 => if f 8 3 < 6 ∧ f 0 1 = 0 then some (.alu (f 8 3) (f 5 3) (f 2 3)) else none
  | 14 => if f 0 11 = 0 then some .nop else if f 0 11 = 512 then some .halt else none
  | 15 =>
    if f 10 1 = 0 then (if f 2 2 = 3 then none else some (.fetch (f 7 3) (f 4 3) (f 0 4)))
    else if f 4 3 = 0 ∧ f 0 4 < 2 then some (.emit (f 7 3) (f 0 4))
    else none
  | _ => none

/-- The halfword C.SYS HHALT. -/
def kernelHalt : BitVec 16 := 0x7200

/-- Whether a halfword at an index of a kernel of n halfwords keeps R242: an allowed form, and a branch target inside. -/
def kernelAllows (n i : Nat) (h : BitVec 16) : Bool :=
  let inside (o : Int) : Bool := decide (0 ≤ (i : Int) + o) && decide ((i : Int) + o < n)
  match kernelOp h with
  | none => false
  | some (.branch _ _ o) | some (.jump o) => inside o
  | some _ => true

/-- The first halfword that breaks R242. -/
def kernelError (ks : List (BitVec 16)) : Option (BitVec 16) :=
  (((List.range ks.length).zip ks).find? (fun e => !kernelAllows ks.length e.1 e.2)).map (·.2)

/-- The halfwords from a kernel address up to its first C.SYS HHALT; none where the bound holds none. They are read as
executable memory. -/
def State.kernelFrom (s : State) (va : Word) : Nat → Except Stop (Option (List (BitVec 16)))
  | 0 => .ok none
  | n + 1 =>
    match s.fetchPlace va with
    | .error r => if r = 16 then trapWith .address va else pageTrap va r
    | .ok pl =>
      match s.plainRead pl 2 with
      | none => pageTrap (dwordPtr va) 5
      | some v => do
        let h := BitVec.ofNat 16 v
        if h = kernelHalt then pure (some [h])
        else
          let rest ← s.kernelFrom (va + 2) n
          pure (rest.map (h :: ·))

/-! ### The instructions (R241) -/

/-- SURV bind; the inner error is FADDR of the ILLEGAL of a bad kernel. -/
def survBind (s : State) (d a : Reg) (l : Bool) (b : Reg) (m : Bool) : Except Stop (Except Word State) := do
  let p ← s.readReg a
  let y ← s.readReg b
  s.notService
  spaces p [0, 1]
  if ptrAddr p % 8 ≠ 0 then trapWith .address p
  let desc ← s.fetchImage p 0 4
  let lines := desc.getD 0 0
  spaces lines [0]
  if ptrAddr lines % 64 ≠ 0 then trapWith .address lines
  if bitsOf (desc.getD 1 0) 63 40 ≠ 0 ∨ desc.getD 3 0 ≠ 0 then trapWith .address p
  if bitAt y 0 then trapWith .address y
  match ← s.kernelFrom y 64 with
  | none => pure (.error 0)
  | some ks =>
    match kernelError ks with
    | some h => pure (.error (h.setWidth 64))
    | none =>
      let free := ([1, 2, 3, 4] : List Nat).find? (fun n => (Table.look s.mine.streams n).isNone)
      let r ← s.retire 4 (used l a ++ used m b) [(d, wordOf (free.getD 0))]
      match free with
      | none => pure (.ok r)
      | some n =>
        let t : Stream := { ctx := s.cur.2, kernel := ks, pointer := lines, lines := bitsOf (desc.getD 1 0) 39 0
                            base := desc.getD 2 0, level := s.me.level }
        pure (.ok (r.setMine { r.mine with streams := Table.put r.mine.streams n t }))

/-- SURV bind (R241, R242). -/
def execSurvBind (d : BitVec 5) (a : BitVec 5) (l : Bool) (b : BitVec 5) (m : Bool) (s : State) :
    Host.Outcome State Fault Refusal :=
  match survBind s d a l b m with
  | .error e => concludeAs (Instr.survBind d a l b m).encoding s (.error e)
  | .ok (.error h) => conclude s (trapWith .illegal h)
  | .ok (.ok t) => conclude s (.ok t)

/-- The stream a register names, bound by the issuing context. -/
def State.streamNamed (s : State) (x : Word) : Except Stop (Nat × Stream) :=
  match Table.look s.mine.streams (bitsOf x 2 0) with
  | some t => if t.ctx = s.cur.2 then .ok (bitsOf x 2 0, t) else trapWith .address x
  | none => trapWith .address x

/-- A stream of a core replaced. -/
def State.setStream (s : State) (core n : Nat) (t : Stream) : State :=
  s.setCore core { s.core core with streams := Table.put (s.core core).streams n t }

/-- An instruction on a bound stream. -/
def onStream (s : State) (a : Reg) (l : Bool) (f : State → Nat → Stream → State) : Run := do
  let x ← s.readReg a
  s.notService
  let (n, t) ← s.streamNamed x
  let r ← s.retire 4 (used l a) []
  pure (f r n t)

/-- SURV unbind (R241). -/
def execSurvUnbind (a : BitVec 5) (l : Bool) (s : State) :
    Host.Outcome State Fault Refusal :=
  concludeAs (Instr.survUnbind a l).encoding s
    (onStream s a l (fun r n _ => r.unbindStream s.cur.1 n))

/-- SURV start: from index line 0, a0 to a7 at 0 (R241, R243). -/
def execSurvStart (a : BitVec 5) (l : Bool) (s : State) :
    Host.Outcome State Fault Refusal :=
  concludeAs (Instr.survStart a l).encoding s
    (onStream s a l (fun r n t =>
    r.setStream s.cur.1 n
      { t with started := true, ended := false, nextLine := 0, at_ := none, ahead := [], regs := Vector.replicate 8 0 }))

/-- SURV stop (R241, 18_sparse.md R388). -/
def execSurvStop (a : BitVec 5) (l : Bool) (s : State) :
    Host.Outcome State Fault Refusal :=
  concludeAs (Instr.survStop a l).encoding s
    (onStream s a l (fun r n t => (r.dropStreamRequests s.cur.1 n).setStream s.cur.1 n (t.stop 1)))

/-- SV.FETCH on a core: opcode 15 is decoded only by a surveyor (03_encoding.md R93). -/
def execSvFetch (a : BitVec 3) (b : BitVec 3) (i : BitVec 4) (s : State) :
    Host.Outcome State Fault Refusal :=
  concludeAs (Instr.svFetch a b i).encoding s
    illegal

/-- SV.EMIT on a core (03_encoding.md R93). -/
def execSvEmit (a : BitVec 3) (b : BitVec 3) (i : BitVec 4) (s : State) :
    Host.Outcome State Fault Refusal :=
  concludeAs (Instr.svEmit a b i).encoding s
    illegal

/-! ### Runs (R243, 18_sparse.md R386, R387) -/

/-- The data of the control value that follows a fault. -/
def faultMark : Word := BitVec.allOnes 64

/-- A completion of a stream: its number stands in TAG, and it counts in no class. -/
def State.streamCompletion (s : State) (core n : Nat) (t : Stream) (code : Nat) (args : List Word) : State :=
  s.complete core t.ctx ((s.partOf core).getD 0) (BitVec.ofNat 16 n) none code args

/-- The completion code and arguments of a stream that a fault stops: ARG0 of POISON, for which no step is given, is 0
(DESIGN CHOICE, log 86). -/
def ElementFault.streamEnd : ElementFault → Nat × List Word
  | .fault c a => (7, [wordOf c.number, a])
  | .poison a | .absent a _ _ => (5, [0, a])

/-- A stream stopped by a fault, with its completion. -/
def State.faultStream (s : State) (core n : Nat) (t : Stream) (e : Nat × List Word) : State :=
  ((s.dropStreamRequests core n).setStream core n (t.stop faultMark)).streamCompletion core n t e.1 e.2

/-- The machine as a stream's loads see it: those of the context that bound it. -/
def State.streamView (s : State) (core : Nat) (t : Stream) : State := s.asIssuer core t.ctx t.level

/-- Whether a stream has an index line still to be read, within the 8 in flight (R386). -/
def Stream.wantsLine (t : Stream) : Bool :=
  t.started && !t.ended && decide (t.ahead.length < 8) && decide (t.nextLine + t.ahead.length < t.lines)

/-- Whether a stream's next line has arrived and no run of it is in progress. -/
def Stream.ready (t : Stream) : Bool := t.started && !t.ended && t.at_.isNone && !t.ahead.isEmpty

/-- The stream whose run comes next: round-robin after the one served last, while no run is in progress (R386). -/
def Core.nextRun (k : Core) : Option Nat :=
  if k.streams.any (fun e => e.2.at_.isSome) then none
  else ((List.range 4).map (fun i => (k.servedStream + i) % 4 + 1)).find? (fun n => match Table.look k.streams n with
    | some t => t.ready
    | none => false)

/-- Register a_i of a stream. -/
def Stream.reg (t : Stream) (i : Nat) : Word := t.regs.toList.getD i 0
def Stream.setReg (t : Stream) (i : Nat) (v : Word) : Stream := { t with regs := t.regs.setIfInBounds i v }

/-- The doubleword of the current line that C.LD reads. -/
def Stream.lineWord (t : Stream) (x : Word) : Word := wordOf (ofBytes ((t.line.drop (bitsOf x 5 3 * 8)).take 8))

/-- The ALU operations of a kernel. -/
def kernelAlu (op : Nat) (x y : Word) : Word :=
  match op with
  | 0 => x - y
  | 1 => x &&& y
  | 2 => x ||| y
  | 3 => x ^^^ y
  | 4 => x <<< (y.toNat % 64)
  | _ => x >>> (y.toNat % 64)

/-- What one instruction of a run comes to. -/
inductive KernelStep where
  /-- the run goes on at an index -/
  | goes (t : Stream) (i : Nat)
  /-- a prefetch of the line at an address, into the core's cache too or into L2 only; the run goes on -/
  | prefetches (q : Word) (near : Bool)
  | stalls
  | ends
  | faults (e : ElementFault)

/-- One instruction of a run, at index i of the kernel. -/
def Stream.execute (t : Stream) (i : Nat) : KernelStep :=
  let on (t : Stream) : KernelStep := .goes t (i + 1)
  let to_ (o : Int) : KernelStep := .goes t ((i : Int) + o).toNat
  match kernelOp (t.kernel.getD i kernelHalt) with
  | some (.add d a) => on (t.setReg d (t.reg d + t.reg a))
  | some (.addi d z) => on (t.setReg d (t.reg d + wordOfInt z))
  | some (.mov d a) => on (t.setReg d (t.reg a))
  | some (.li d z) => on (t.setReg d (wordOfInt z))
  | some (.ld d a off) => on (t.setReg d (t.lineWord (t.reg a + wordOf (8 * off))))
  | some (.alu op d a) => on (t.setReg d (kernelAlu op (t.reg d) (t.reg a)))
  | some (.branch z a o) => if (t.reg a == 0) = z then to_ o else on t
  | some (.jump o) => to_ o
  | some .nop => on t
  | some .halt | none => .ends
  | some (.emit a k) =>
    if 16 ≤ t.queue.length then .stalls
    else on { t with queue := t.queue ++ [{ control := k == 1, data := t.reg a }] }
  | some (.fetch a b k) =>
    match advance (t.reg a) ((t.reg b).toInt * 2 ^ (k % 4)) with
    | none => .faults (.fault .ptrovf (t.reg a))
    | some q =>
      if k / 4 ≠ 2 then .prefetches q (k / 4 = 0)
      else if 16 ≤ t.queue.length then .stalls
      else on { t with queue := t.queue ++ [{ reserved := some q }] }

/-- A doubleword of an index line, read at L2 with hint `.str` and past the core's cache, after the earlier accesses to it of the context
that bound the stream (R376, R386). -/
def State.lineDword (v : State) (grp : Nat) (q : Word) : Except ElementFault Nat := do
  let pl ← v.elementPlace q 8 Need.load
  v.placeBytes grp q pl 8 none

/-- The pointers of the doublewords of an index line. -/
def Stream.linePointers (t : Stream) (n : Nat) : Except ElementFault (List Word) :=
  (List.range 8).mapM (fun i => elementPtr t.pointer (64 * n + 8 * i))

/-- What a plain load of a unit at a pointer leaves: the line filled in L2 with a hint and, where `near` says so, in the core's cache. -/
def State.fillFor (v : State) (q : Word) (hint : BitVec 2) (near : Bool) (s : State) : State :=
  match v.elementPlace q 8 Need.load with
  | .error _ => s
  | .ok pl =>
    if pl.remote.isSome ∨ (near ∧ (v.nearHit q pl hint).isSome) then s
    else match pl.line with
      | none => s
      | some l =>
        let s := (s.note pl).fill pl.line pl.key pl.sealSlot hint true
        if near ∧ ptrSpace q = 0 then s.fillNear v.cur.1 l.2 hint (s.copyOf pl.line pl.key) else s

/-- The next index line of a stream arrives, whole or with its fault; a doubleword of another package is asked for first. -/
def State.readIndexLine (s : State) (core n : Nat) (t : Stream) : State :=
  let v := s.streamView core t
  let keep (s : State) (l : IndexLine) : State := (s.dropUnit (indexGroup core n)).setStream core n { t with ahead := t.ahead ++ [l] }
  match (do
    let qs ← t.linePointers (t.nextLine + t.ahead.length)
    let ws ← qs.mapM (v.lineDword (indexGroup core n))
    pure (qs, ws)) with
  | .ok (qs, ws) => keep (v.fillFor (qs.headD 0) 1 false s) (.bytes (ws.flatMap (fun w => bytesOf w 8)))
  | .error (.absent p pl size) =>
    if pl.remote.isSome ∧ (s.fetched (indexGroup core n) p).isNone then
      s.unitRequest core ((s.partOf core).getD 0) (indexGroup core n) p pl (.load size false) 0
    else s
  | .error e => keep s (.failed e.streamEnd.1 e.streamEnd.2)

/-- The end of the index lines: a control value with data 0, then the OK completion. Every gather has returned by then, since each happens
before the RECV of the completion (R243, 17_program_trisolve.md R376). -/
def State.endStream (s : State) (core n : Nat) (t : Stream) : State :=
  if 16 ≤ t.queue.length ∨ t.queue.any (·.reserved.isSome) then s
  else
    let u := { t with started := false, ended := true, queue := t.queue ++ [{ control := true, data := 0 }] }
    (s.setStream core n u).streamCompletion core n t 0 []

/-- The run of a stream's next line starts, or the fault that the line met stops the stream. -/
def State.startRun (s : State) (core n : Nat) (t : Stream) : State :=
  match t.ahead with
  | [] => s
  | .failed code args :: _ => s.faultStream core n t (code, args)
  | .bytes b :: rest =>
    let u := { t with at_ := some (0, 0), line := b, ahead := rest
                      regs := (t.regs.set 0 (wordOf t.nextLine)).set 1 t.base }
    (s.setCore core { s.core core with servedStream := n }).setStream core n u

/-- One instruction of a run in progress, at index i after `count` others (R243). -/
def State.runKernel (s : State) (core n : Nat) (t : Stream) (i count : Nat) : State :=
  let at_ (u : Stream) (j : Nat) : State := s.setStream core n { u with at_ := some (j, count + 1) }
  if 256 ≤ count then s.faultStream core n t (7, [wordOf Cause.illegal.number, wordOf t.nextLine])
  else match t.execute i with
    | .goes u j => at_ u j
    | .prefetches q near =>
      let r := at_ t (i + 1)
      if ptrSpace q = 0 then r.prefetchLine core t.level (ptrAddr q / 128) 0 near else r
    | .stalls => s
    | .ends => s.setStream core n { t with at_ := none, nextLine := t.nextLine + 1 }
    | .faults e => s.faultStream core n t e.streamEnd

/-- One step of a stream: an index line that arrives, one instruction of its run, the start of its next run, or its end. While it could do
something else, whether a line arrives now is a free choice (R243, R386). -/
def State.surveyorStep (s : State) (core n : Nat) : State :=
  match Table.look (s.core core).streams n with
  | none => s
  | some t =>
    let idle := t.at_.isNone && !(s.core core).nextRun == some n
    if t.wantsLine && ((t.ahead.isEmpty && t.at_.isNone) || (!s.eager && (idle || s.free 340 2 == 1))) then s.readIndexLine core n t
    else match t.at_ with
      | some (i, count) => s.runKernel core n t i count
      | none =>
        if t.started ∧ ¬ t.ended ∧ t.lines ≤ t.nextLine then s.endStream core n t
        else if (s.core core).nextRun = some n then s.startRun core n t
        else s

/-- SURVEYOR_RUN. -/
def execSurveyorRun (core : Nat) (stream : Nat) (s : State) :
    Host.Outcome State Fault Refusal :=
  .next (s.surveyorStep core stream)

/-- Entry i of a queue filled. -/
def fillEntry (v : Word) (i : Nat) (es : List Entry) : List Entry := es.modify i (fun e => { e with reserved := none, data := v })

/-- The entries of a queue whose gathers are still to be read, with their pointers. -/
def gathersOf (es : List Entry) : List (Nat × Word) :=
  ((List.range es.length).zip es).filterMap (fun e => e.2.reserved.map (fun q => (e.1, q)))

/-- The doubleword of a gather, read as the plain load of the context that bound the stream. -/
def State.gatherDword (v : State) (grp : Nat) (q : Word) : Except ElementFault Nat := do
  let pl ← v.elementPlace q 8 Need.load
  if pl.remote.isSome then v.placeBytes grp q pl 8 none
  else if v.conflicts pl.key 8 then .error (.absent q pl 8)
  else match v.ownRead q pl 8 0 with
    | some x => .ok x
    | none => .error (.poison (dwordPtr q))

/-- A gather of a stream, the oldest or another as a free choice, returns its data, or faults: gathers are performed in no fixed order
(R211, R243, R387). -/
def State.gatherReturn (s : State) (core n : Nat) : State :=
  match Table.look (s.core core).streams n with
  | none => s
  | some t =>
    let gs := gathersOf t.queue
    match gs[if s.eager then 0 else s.free 341 gs.length]? with
    | none => s
    | some (i, q) =>
      let grp := streamGroup core n
      let v := s.streamView core t
      match v.gatherDword grp q with
      | .ok x =>
        let s := v.fillFor q 0 true { s with requests := s.requests.filter (fun r => !(r.grp == grp && r.pointer == q)) }
        s.setStream core n { t with queue := fillEntry (wordOf x) i t.queue }
      | .error (.absent p pl size) =>
        if pl.remote.isSome ∧ (s.fetched grp p).isNone then
          s.unitRequest core ((s.partOf core).getD 0) grp p pl (.load size false) 0
        else s
      | .error e => s.faultStream core n t e.streamEnd

/-- SURVEYOR_GATHER_RETURN. -/
def execSurveyorGatherReturn (core : Nat) (stream : Nat) (s : State) :
    Host.Outcome State Fault Refusal :=
  .next (s.gatherReturn core stream)

end Sys2Proof.Machine
end

