-- ==== Sys2Proof/Machine/VectorArith.lean ====
section
/-! DEFINITION. Vector arithmetic, conversion, logic, reductions, moves and merges (07_vector_instr.md R193 to R207): each is a
function of elements over a few shapes, under the common rules of R190 to R192. -/

namespace Sys2Proof.Machine

/-- What an operation gives for one element: its pattern and the flags it raises. -/
abbrev Result := Nat × FpFlags

/-- An exact datum rounded once, with the flags of how it came about. -/
def roundTo (f : FloatFmt) (mode : Rounding) (x : Num × FpFlags) : Result :=
  let (v, g) := resultNum f mode x.1
  (v, x.2 ||| g)

/-- The exact value of an element of an integer type. -/
def Fmt.value (f : Fmt) (x : Nat) : Int := intValue f.isSigned f.width x

/-! ### The functions of R193 and R194 -/

/-- An integer function and a floating one. -/
def arith2 (i : Fmt → Int → Int → Int) (g : Rounding → Num → Num → Num × FpFlags) (f : Fmt) (mode : Rounding) (x y : Nat) :
    Result :=
  match f with
  | .flt t => roundTo t mode (g mode (decodeFloat t x) (decodeFloat t y))
  | _ => (intBits f.width (i f (f.value x) (f.value y)), 0)

/-- The quotient of R106 at the width of the type: all ones for a zero divisor. -/
def intQuotient (_ : Fmt) (x y : Int) : Int := if y = 0 then -1 else x.tdiv y

def subNum (mode : Rounding) (x y : Num) : Num × FpFlags := addNum mode x (negNum y)

def absdNum (mode : Rounding) (x y : Num) : Num × FpFlags :=
  let (z, f) := subNum mode x y
  (absNum z, f)

/-- The smaller or the larger: a NaN operand gives the default NaN (R193). -/
def pickNum (pick : Num → Num → Num) (x y : Num) : Num × FpFlags :=
  if anyNaN [x, y] then (.nan false, snan [x, y]) else (pick x y, 0)

/-- The high half of the exact product. -/
def mulHighInt (f : Fmt) (x y : Int) : Int := x * y / 2 ^ f.width

/-- va × vb + vd and vd − va × vb (R194). -/
def fused (negate : Bool) (f : Fmt) (mode : Rounding) (x y z : Nat) : Result :=
  match f with
  | .flt t =>
    let p := decodeFloat t x
    roundTo t mode (fmaNum mode (if negate then negNum p else p) (decodeFloat t y) (decodeFloat t z))
  | _ =>
    let p := f.value x * f.value y
    (intBits f.width (if negate then f.value z - p else f.value z + p), 0)

/-! ### The functions of R195 -/

/-- |a| and −a: on floating types the sign bit alone changes, but a NaN gives the default NaN. -/
def signOf (i : Int → Int) (flip : Bool → Bool) (f : Fmt) (_ : Rounding) (x : Nat) : Result :=
  match f with
  | .flt t =>
    match decodeFloat t x with
    | .nan q => (defaultNaN t, if q then flagIV else 0)
    | _ =>
      let top := 2 ^ (t.man + t.expBits)
      (signed t (flip (decide (top ≤ x))) (x % top), 0)
  | _ => (intBits f.width (i (f.value x)), 0)

def rootOf (f : Fmt) (mode : Rounding) (x : Nat) : Result :=
  match f with
  | .flt t => roundTo t mode (sqrtNum (decodeFloat t x))
  | _ => (x, 0)

def functionOf (op : Transcendental) (ty : BitVec 4) (f : Fmt) (_ : Rounding) (x : Nat) : Result :=
  match f with
  | .flt t => transcendentalIn op ty.toNat t x
  | _ => (x, 0)

/-! ### Shifts and conditions (R198, R199) -/

def shiftLeft (f : Fmt) (_ : Rounding) (x y : Nat) : Result := (x * 2 ^ (y % f.width) % 2 ^ f.width, 0)
def shiftRight (f : Fmt) (_ : Rounding) (x y : Nat) : Result := (x / 2 ^ (y % f.width), 0)
def shiftArith (f : Fmt) (_ : Rounding) (x y : Nat) : Result :=
  (intBits f.width (intValue true f.width x / 2 ^ (y % f.width)), 0)

/-- Whether a condition holds, and the invalid flag of R199. -/
def condition (c : BitVec 3) (f : Fmt) (x y : Nat) : Bool × FpFlags :=
  match f with
  | .flt t =>
    let a := decodeFloat t x
    let b := decodeFloat t y
    let nan := anyNaN [a, b]
    let quiet := snan [a, b]
    let loud := if nan then flagIV else 0
    match c.toNat with
    | 0 => (numEq a b, quiet)
    | 1 => (!numEq a b, quiet)
    | 2 => (!nan && numLt a b, loud)
    | 3 => (!nan && !numLt b a, loud)
    | 4 => (!nan && numLt b a, loud)
    | 5 => (!nan && !numLt a b, loud)
    | 6 => (nan, quiet)
    | _ => (!nan, quiet)
  | _ =>
    let a := f.value x
    let b := f.value y
    (match c.toNat with
      | 0 => decide (a = b)
      | 1 => decide (a ≠ b)
      | 2 => decide (a < b)
      | 3 => decide (a ≤ b)
      | 4 => decide (a > b)
      | 5 => decide (a ≥ b)
      | _ => false, 0)

/-! ### Lanes copied whole (R198, R200, R203) -/

/-- The lane or lanes of element i. -/
def lanesAt (v : List Lane) (w i : Nat) : List Lane :=
  if w = 64 then [v.getD (2 * i) 0, v.getD (2 * i + 1) 0] else [v.getD i 0]

/-- The lane or lanes of element i written. -/
def putLanes (v : List Lane) (w i : Nat) (x : List Lane) : List Lane :=
  match x with
  | [lo, hi] => if w = 64 then (v.set (2 * i) lo).set (2 * i + 1) hi else v
  | [lane] => v.set i lane
  | _ => v

/-- Elements 0 to a − 1 given by their lanes. -/
def putAll (v : List Lane) (w a : Nat) (x : Nat → List Lane) : List Lane :=
  (List.range a).foldl (fun v i => putLanes v w i (x i)) v

/-! ### The shapes -/

/-- Each active vd[i] := f(va[i]). -/
def vector1 (s : State) (d a : BitVec 4) (k : BitVec 2) (t : BitVec 4) (x : BitVec 3) (lo hi : Nat)
    (op : Fmt → Rounding → Nat → Result) : Run := do
  let c ← s.needClaim
  let f ← typeIn t lo hi
  let va ← s.readV c a
  s.writableV d
  let rs := (List.range (active c k f.width)).map (fun i => op f (s.me.mode x) (element va f.width i))
  s.retireV [] [] (some d) (c.setReg d (putElements (c.reg d) f 0 (rs.map (·.1)))) (orFlags (rs.map (·.2)))

/-- Each active vd[i] := f(va[i], vb[i]). -/
def vector2 (s : State) (d a b : BitVec 4) (k : BitVec 2) (t : BitVec 4) (x : BitVec 3) (lo hi : Nat)
    (op : Fmt → Rounding → Nat → Nat → Result) : Run := do
  let c ← s.needClaim
  let f ← typeIn t lo hi
  let va ← s.readV c a
  let vb ← s.readV c b
  s.writableV d
  let w := f.width
  let rs := (List.range (active c k w)).map (fun i => op f (s.me.mode x) (element va w i) (element vb w i))
  s.retireV [] [] (some d) (c.setReg d (putElements (c.reg d) f 0 (rs.map (·.1)))) (orFlags (rs.map (·.2)))

/-- Each active vd[i] := f(va[i], vb[i], vd[i]). -/
def vector3 (s : State) (d a b : BitVec 4) (k : BitVec 2) (t : BitVec 4) (x : BitVec 3) (lo hi : Nat)
    (op : Fmt → Rounding → Nat → Nat → Nat → Result) : Run := do
  let c ← s.needClaim
  let f ← typeIn t lo hi
  let va ← s.readV c a
  let vb ← s.readV c b
  let vd ← s.readV c d
  let w := f.width
  let rs := (List.range (active c k w)).map (fun i =>
    op f (s.me.mode x) (element va w i) (element vb w i) (element vd w i))
  s.retireV [] [] (some d) (c.setReg d (putElements vd f 0 (rs.map (·.1)))) (orFlags (rs.map (·.2)))

/-- Each active lane of vd := f(lane of va, lane of vb) (R198). -/
def lanewise (s : State) (d a b : BitVec 4) (k : BitVec 2) (t : BitVec 4) (op : Lane → Lane → Lane) : Run := do
  let c ← s.needClaim
  let f ← typeIn t 0 11
  let va ← s.readV c a
  let vb ← s.readV c b
  s.writableV d
  let w := f.width
  let v := putAll (c.reg d) w (active c k w) (fun i => List.zipWith op (lanesAt va w i) (lanesAt vb w i))
  s.retireV [] [] (some d) (c.setReg d v) 0

/-! ### VARITH and VFMA (R193, R194) -/

/-- VADD (R193). -/
def execVadd (d : BitVec 4) (a : BitVec 4) (b : BitVec 4) (k : BitVec 2) (t : BitVec 4) (x : BitVec 3) (s : State) :
    Host.Outcome State Fault Refusal :=
  concludeAs (Instr.vadd d a b k t x).encoding s (vector2 s d a b k t x 0 11 (arith2 (fun _ x y => x + y) addNum))

/-- VSUB (R193). -/
def execVsub (d : BitVec 4) (a : BitVec 4) (b : BitVec 4) (k : BitVec 2) (t : BitVec 4) (x : BitVec 3) (s : State) :
    Host.Outcome State Fault Refusal :=
  concludeAs (Instr.vsub d a b k t x).encoding s (vector2 s d a b k t x 0 11 (arith2 (fun _ x y => x - y) subNum))

/-- VMUL (R193). -/
def execVmul (d : BitVec 4) (a : BitVec 4) (b : BitVec 4) (k : BitVec 2) (t : BitVec 4) (x : BitVec 3) (s : State) :
    Host.Outcome State Fault Refusal :=
  concludeAs (Instr.vmul d a b k t x).encoding s (vector2 s d a b k t x 0 11 (arith2 (fun _ x y => x * y) (fun _ => mulNum)))

/-- VDIV (R193). -/
def execVdiv (d : BitVec 4) (a : BitVec 4) (b : BitVec 4) (k : BitVec 2) (t : BitVec 4) (x : BitVec 3) (s : State) :
    Host.Outcome State Fault Refusal :=
  concludeAs (Instr.vdiv d a b k t x).encoding s (vector2 s d a b k t x 0 11 (arith2 intQuotient (fun _ => divNum)))

/-- VMIN (R193). -/
def execVmin (d : BitVec 4) (a : BitVec 4) (b : BitVec 4) (k : BitVec 2) (t : BitVec 4) (x : BitVec 3) (s : State) :
    Host.Outcome State Fault Refusal :=
  concludeAs (Instr.vmin d a b k t x).encoding s (vector2 s d a b k t x 0 11 (arith2 (fun _ => min) (fun _ => pickNum numMin)))

/-- VMAX (R193). -/
def execVmax (d : BitVec 4) (a : BitVec 4) (b : BitVec 4) (k : BitVec 2) (t : BitVec 4) (x : BitVec 3) (s : State) :
    Host.Outcome State Fault Refusal :=
  concludeAs (Instr.vmax d a b k t x).encoding s (vector2 s d a b k t x 0 11 (arith2 (fun _ => max) (fun _ => pickNum numMax)))

/-- VABSD (R193). -/
def execVabsd (d : BitVec 4) (a : BitVec 4) (b : BitVec 4) (k : BitVec 2) (t : BitVec 4) (x : BitVec 3) (s : State) :
    Host.Outcome State Fault Refusal :=
  concludeAs (Instr.vabsd d a b k t x).encoding s (vector2 s d a b k t x 0 11 (arith2 (fun _ x y => |x - y|) absdNum))

/-- VMULH (R193). -/
def execVmulh (d : BitVec 4) (a : BitVec 4) (b : BitVec 4) (k : BitVec 2) (t : BitVec 4) (x : BitVec 3) (s : State) :
    Host.Outcome State Fault Refusal :=
  concludeAs (Instr.vmulh d a b k t x).encoding s (vector2 s d a b k t x 0 7 (arith2 mulHighInt (fun _ => mulNum)))

/-- VFMA (R194). -/
def execVfma (d : BitVec 4) (a : BitVec 4) (b : BitVec 4) (k : BitVec 2) (t : BitVec 4) (x : BitVec 3) (s : State) :
    Host.Outcome State Fault Refusal :=
  concludeAs (Instr.vfma d a b k t x).encoding s (vector3 s d a b k t x 0 11 (fused false))

/-- VFMS (R194). -/
def execVfms (d : BitVec 4) (a : BitVec 4) (b : BitVec 4) (k : BitVec 2) (t : BitVec 4) (x : BitVec 3) (s : State) :
    Host.Outcome State Fault Refusal :=
  concludeAs (Instr.vfms d a b k t x).encoding s (vector3 s d a b k t x 0 11 (fused true))

/-! ### VUNARY (R195 to R197) -/

/-- VCVT: as many elements as the wider type has (R197). -/
def execVcvt (d : BitVec 4) (a : BitVec 4) (sg : BitVec 4) (k : BitVec 2) (t : BitVec 4) (x : BitVec 3) (s : State) :
    Host.Outcome State Fault Refusal :=
  concludeAs (Instr.vcvt d a sg k t x).encoding s (do
    let c ← s.needClaim
    let f ← typeIn t 0 13
    let g ← typeIn sg 0 13
    let va ← s.readV c a
    s.writableV d
    let n := active c k (max f.width g.width)
    let rs := (List.range n).map (fun i => convert g f (s.me.mode x) s.me.sat8 (element va g.width i))
    s.retireV [] [] (some d) (c.setReg d (putElements (c.reg d) f 0 (rs.map (·.1)))) (orFlags (rs.map (·.2))))

/-- VABS (R195). -/
def execVabs (d : BitVec 4) (a : BitVec 4) (k : BitVec 2) (t : BitVec 4) (x : BitVec 3) (s : State) :
    Host.Outcome State Fault Refusal :=
  concludeAs (Instr.vabs d a k t x).encoding s (vector1 s d a k t x 0 11 (signOf (fun z => |z|) (fun _ => false)))

/-- VNEG (R195). -/
def execVneg (d : BitVec 4) (a : BitVec 4) (k : BitVec 2) (t : BitVec 4) (x : BitVec 3) (s : State) :
    Host.Outcome State Fault Refusal :=
  concludeAs (Instr.vneg d a k t x).encoding s (vector1 s d a k t x 0 11 (signOf (fun z => -z) (!·)))

/-- VSQRT (R195). -/
def execVsqrt (d : BitVec 4) (a : BitVec 4) (k : BitVec 2) (t : BitVec 4) (x : BitVec 3) (s : State) :
    Host.Outcome State Fault Refusal :=
  concludeAs (Instr.vsqrt d a k t x).encoding s (vector1 s d a k t x 8 11 rootOf)

/-- VRCP (R195, R196). -/
def execVrcp (d : BitVec 4) (a : BitVec 4) (k : BitVec 2) (t : BitVec 4) (x : BitVec 3) (s : State) :
    Host.Outcome State Fault Refusal :=
  concludeAs (Instr.vrcp d a k t x).encoding s (vector1 s d a k t x 9 11 (functionOf .rcp t))

/-- VRSQ (R195, R196). -/
def execVrsq (d : BitVec 4) (a : BitVec 4) (k : BitVec 2) (t : BitVec 4) (x : BitVec 3) (s : State) :
    Host.Outcome State Fault Refusal :=
  concludeAs (Instr.vrsq d a k t x).encoding s (vector1 s d a k t x 9 11 (functionOf .rsq t))

/-- VEXP (R195, R196). -/
def execVexp (d : BitVec 4) (a : BitVec 4) (k : BitVec 2) (t : BitVec 4) (x : BitVec 3) (s : State) :
    Host.Outcome State Fault Refusal :=
  concludeAs (Instr.vexp d a k t x).encoding s (vector1 s d a k t x 9 11 (functionOf .exp t))

/-- VLOG (R195, R196). -/
def execVlog (d : BitVec 4) (a : BitVec 4) (k : BitVec 2) (t : BitVec 4) (x : BitVec 3) (s : State) :
    Host.Outcome State Fault Refusal :=
  concludeAs (Instr.vlog d a k t x).encoding s (vector1 s d a k t x 9 11 (functionOf .log t))

/-- VSIN (R195, R196). -/
def execVsin (d : BitVec 4) (a : BitVec 4) (k : BitVec 2) (t : BitVec 4) (x : BitVec 3) (s : State) :
    Host.Outcome State Fault Refusal :=
  concludeAs (Instr.vsin d a k t x).encoding s (vector1 s d a k t x 9 11 (functionOf .sin t))

/-- VCOS (R195, R196). -/
def execVcos (d : BitVec 4) (a : BitVec 4) (k : BitVec 2) (t : BitVec 4) (x : BitVec 3) (s : State) :
    Host.Outcome State Fault Refusal :=
  concludeAs (Instr.vcos d a k t x).encoding s (vector1 s d a k t x 9 11 (functionOf .cos t))

/-- VTANH (R195, R196). -/
def execVtanh (d : BitVec 4) (a : BitVec 4) (k : BitVec 2) (t : BitVec 4) (x : BitVec 3) (s : State) :
    Host.Outcome State Fault Refusal :=
  concludeAs (Instr.vtanh d a k t x).encoding s (vector1 s d a k t x 9 11 (functionOf .tanh t))

/-! ### Logic, shifts, compare and select (R198 to R200) -/

/-- VAND (R198). -/
def execVand (d : BitVec 4) (a : BitVec 4) (b : BitVec 4) (k : BitVec 2) (t : BitVec 4) (x : BitVec 3) (s : State) :
    Host.Outcome State Fault Refusal :=
  concludeAs (Instr.vand d a b k t x).encoding s (lanewise s d a b k t (· &&& ·))

/-- VOR (R198). -/
def execVor (d : BitVec 4) (a : BitVec 4) (b : BitVec 4) (k : BitVec 2) (t : BitVec 4) (x : BitVec 3) (s : State) :
    Host.Outcome State Fault Refusal :=
  concludeAs (Instr.vor d a b k t x).encoding s (lanewise s d a b k t (· ||| ·))

/-- VXOR (R198). -/
def execVxor (d : BitVec 4) (a : BitVec 4) (b : BitVec 4) (k : BitVec 2) (t : BitVec 4) (x : BitVec 3) (s : State) :
    Host.Outcome State Fault Refusal :=
  concludeAs (Instr.vxor d a b k t x).encoding s (lanewise s d a b k t (· ^^^ ·))

/-- VANDN (R198). -/
def execVandn (d : BitVec 4) (a : BitVec 4) (b : BitVec 4) (k : BitVec 2) (t : BitVec 4) (x : BitVec 3) (s : State) :
    Host.Outcome State Fault Refusal :=
  concludeAs (Instr.vandn d a b k t x).encoding s (lanewise s d a b k t (fun x y => x &&& ~~~y))

/-- VSHL (R198). -/
def execVshl (d : BitVec 4) (a : BitVec 4) (b : BitVec 4) (k : BitVec 2) (t : BitVec 4) (x : BitVec 3) (s : State) :
    Host.Outcome State Fault Refusal :=
  concludeAs (Instr.vshl d a b k t x).encoding s (vector2 s d a b k t x 0 7 shiftLeft)

/-- VSHR (R198). -/
def execVshr (d : BitVec 4) (a : BitVec 4) (b : BitVec 4) (k : BitVec 2) (t : BitVec 4) (x : BitVec 3) (s : State) :
    Host.Outcome State Fault Refusal :=
  concludeAs (Instr.vshr d a b k t x).encoding s (vector2 s d a b k t x 0 7 shiftRight)

/-- VSAR (R198). -/
def execVsar (d : BitVec 4) (a : BitVec 4) (b : BitVec 4) (k : BitVec 2) (t : BitVec 4) (x : BitVec 3) (s : State) :
    Host.Outcome State Fault Refusal :=
  concludeAs (Instr.vsar d a b k t x).encoding s (vector2 s d a b k t x 0 7 shiftArith)

/-- VCMP: a mask in whole lanes (R199). -/
def execVcmp (d : BitVec 4) (a : BitVec 4) (b : BitVec 4) (k : BitVec 2) (t : BitVec 4) (c : BitVec 3) (s : State) :
    Host.Outcome State Fault Refusal :=
  concludeAs (Instr.vcmp d a b k t c).encoding s (do
    let cl ← s.needClaim
    let f ← typeIn t 0 11
    if f.isInt ∧ 6 ≤ c.toNat then illegal
    let va ← s.readV cl a
    let vb ← s.readV cl b
    s.writableV d
    let w := f.width
    let rs := (List.range (active cl k w)).map (fun i => condition c f (element va w i) (element vb w i))
    let mask (i : Nat) : Lane := if (rs.map (·.1)).getD i false then BitVec.allOnes 32 else 0
    let v := putAll (cl.reg d) w rs.length (fun i => (lanesAt va w i).map (fun _ => mask i))
    s.retireV [] [] (some d) (cl.setReg d v) (orFlags (rs.map (·.2))))

/-- VSEL: by whether any bit of the old vd[i] is 1 (R200). -/
def execVsel (d : BitVec 4) (a : BitVec 4) (b : BitVec 4) (k : BitVec 2) (t : BitVec 4) (x : BitVec 3) (s : State) :
    Host.Outcome State Fault Refusal :=
  concludeAs (Instr.vsel d a b k t x).encoding s (do
    let c ← s.needClaim
    let f ← typeIn t 0 11
    let va ← s.readV c a
    let vb ← s.readV c b
    let vd ← s.readV c d
    let w := f.width
    let v := putAll vd w (active c k w) (fun i =>
      if (lanesAt vd w i).all (· == 0) then lanesAt vb w i else lanesAt va w i)
    s.retireV [] [] (some d) (c.setReg d v) 0)

/-! ### Reductions (R201, R202) -/

/-- One level of the tree of 02_numbers.md R68: an element without a partner passes up unchanged. -/
def sumLevel (f : FloatFmt) (mode : Rounding) : List Nat → List Nat × FpFlags
  | x :: y :: rest =>
    let (z, g) := roundTo f mode (addNum mode (decodeFloat f x) (decodeFloat f y))
    let (zs, h) := sumLevel f mode rest
    (z :: zs, g ||| h)
  | xs => (xs, 0)

/-- The tree: `fuel` levels, of which no more than the count's logarithm are needed. -/
def sumTree (f : FloatFmt) (mode : Rounding) : Nat → List Nat → FpFlags → Result
  | 0, xs, g => (xs.headD 0, g)
  | n + 1, xs, g =>
    if xs.length ≤ 1 then (xs.headD 0, g)
    else
      let (ys, h) := sumLevel f mode xs
      sumTree f mode n ys (g ||| h)

/-- A reduction to a scalar register: the value of the active elements, and of n positions. -/
def reduce (s : State) (a : BitVec 4) (d : Reg) (k : BitVec 2) (t : BitVec 4) (x : BitVec 3)
    (op : Fmt → Rounding → Nat → List Nat → Word × FpFlags) : Run := do
  let c ← s.needClaim
  let f ← typeIn t 0 11
  let va ← s.readV c a
  let w := f.width
  let (v, g) := op f (s.me.mode x) (positions w c.g) ((List.range (active c k w)).map (element va w))
  s.retireV [] [(d, v)] none c g

/-- VSUM's value: floating sums by the tree over n positions, inactive ones +0; integers modulo 2^64. -/
def sumOf (f : Fmt) (mode : Rounding) (n : Nat) (xs : List Nat) : Word × FpFlags :=
  match f with
  | .flt t =>
    let (v, g) := sumTree t mode 9 (xs ++ List.replicate (n - xs.length) 0) 0
    (wordOf v, g)
  | _ => ((xs.map (extendElement f)).foldl (· + ·) 0, 0)

/-- VRMAX's and VRMIN's value: a NaN gives the default NaN; of no elements, the identity. -/
def extremeOf (greatest : Bool) (f : Fmt) (xs : List Nat) : Word × FpFlags :=
  match f with
  | .flt t =>
    let ns := xs.map (decodeFloat t)
    if anyNaN ns then (wordOf (defaultNaN t), snan ns)
    else (wordOf (resultNum t .rne (ns.foldl (if greatest then numMax else numMin) (.inf greatest))).1, 0)
  | _ =>
    let zs := xs.map f.value
    let z := if greatest then zs.foldl max (intMin f.isSigned f.width) else zs.foldl min (intMax f.isSigned f.width)
    (extendElement f (intBits f.width z), 0)

/-- VSUM (R201, 02_numbers.md R68). -/
def execVsum (a : BitVec 4) (g : BitVec 5) (k : BitVec 2) (t : BitVec 4) (x : BitVec 3) (s : State) :
    Host.Outcome State Fault Refusal :=
  concludeAs (Instr.vsum a g k t x).encoding s (reduce s a g k t x sumOf)

/-- VRMAX (R201, 02_numbers.md R69). -/
def execVrmax (a : BitVec 4) (g : BitVec 5) (k : BitVec 2) (t : BitVec 4) (x : BitVec 3) (s : State) :
    Host.Outcome State Fault Refusal :=
  concludeAs (Instr.vrmax a g k t x).encoding s (reduce s a g k t x (fun f _ _ xs => extremeOf true f xs))

/-- VRMIN (R201, 02_numbers.md R69). -/
def execVrmin (a : BitVec 4) (g : BitVec 5) (k : BitVec 2) (t : BitVec 4) (x : BitVec 3) (s : State) :
    Host.Outcome State Fault Refusal :=
  concludeAs (Instr.vrmin a g k t x).encoding s (reduce s a g k t x (fun f _ _ xs => extremeOf false f xs))

/-- The running sums after a first element, each rounded (R202). -/
def scanFrom (f : Fmt) (mode : Rounding) (acc : Nat) : List Nat → List Result
  | [] => []
  | x :: rest =>
    let r := arith2 (fun _ x y => x + y) addNum f mode acc x
    r :: scanFrom f mode r.1 rest

/-- VSCAN (R202): vd[0] is va[0] as it stands. -/
def execVscan (d : BitVec 4) (a : BitVec 4) (k : BitVec 2) (t : BitVec 4) (x : BitVec 3) (s : State) :
    Host.Outcome State Fault Refusal :=
  concludeAs (Instr.vscan d a k t x).encoding s (do
    let c ← s.needClaim
    let f ← typeIn t 0 11
    let va ← s.readV c a
    s.writableV d
    let w := f.width
    let v := c.reg d
    let r : List Lane × FpFlags := match (List.range (active c k w)).map (element va w) with
      | [] => (v, 0)
      | x0 :: xs =>
        let rs := scanFrom f (s.me.mode x) x0 xs
        (putElements (putElement v f 0 x0) f 1 (rs.map (·.1)), orFlags (rs.map (·.2)))
    s.retireV [] [] (some d) (c.setReg d r.1) r.2)

/-! ### Moves and permutes (R203, R204) -/

/-- VPERM: the index is the low lane of vb[i] (R203). -/
def execVperm (d : BitVec 4) (a : BitVec 4) (b : BitVec 4) (k : BitVec 2) (t : BitVec 4) (x : BitVec 3) (s : State) :
    Host.Outcome State Fault Refusal :=
  concludeAs (Instr.vperm d a b k t x).encoding s (do
    let c ← s.needClaim
    let f ← typeIn t 0 13
    let va ← s.readV c a
    let vb ← s.readV c b
    s.writableV d
    let w := f.width
    let v := putAll (c.reg d) w (active c k w) (fun i =>
      let j := ((lanesAt vb w i).headD 0).toNat
      if j < positions w c.g then lanesAt va w j else (lanesAt va w 0).map (fun _ => 0))
    s.retireV [] [] (some d) (c.setReg d v) 0)

/-- VBC (R203). -/
def execVbc (d : BitVec 4) (g : BitVec 5) (l : Bool) (k : BitVec 2) (t : BitVec 4) (x : BitVec 3) (s : State) :
    Host.Outcome State Fault Refusal :=
  concludeAs (Instr.vbc d g l k t x).encoding s (do
    let y ← s.readReg g
    let c ← s.needClaim
    let f ← typeIn t 0 13
    s.writableV d
    let xs := List.replicate (active c k f.width) (y.toNat % 2 ^ f.width)
    s.retireV (used l g) [] (some d) (c.setReg d (putElements (c.reg d) f 0 xs)) 0)

/-- VEXT: the last active element, or 0 (R203). -/
def execVext (a : BitVec 4) (g : BitVec 5) (k : BitVec 2) (t : BitVec 4) (x : BitVec 3) (s : State) :
    Host.Outcome State Fault Refusal :=
  concludeAs (Instr.vext a g k t x).encoding s (do
    let c ← s.needClaim
    let f ← typeIn t 0 13
    let va ← s.readV c a
    let n := active c k f.width
    s.retireV [] [(g, if n = 0 then 0 else extendElement f (element va f.width (n - 1)))] none c 0)

/-- VINS: the first element that is not active (R203). -/
def execVins (d : BitVec 4) (g : BitVec 5) (l : Bool) (k : BitVec 2) (t : BitVec 4) (x : BitVec 3) (s : State) :
    Host.Outcome State Fault Refusal :=
  concludeAs (Instr.vins d g l k t x).encoding s (do
    let y ← s.readReg g
    let c ← s.needClaim
    let f ← typeIn t 0 13
    s.writableV d
    let n := active c k f.width
    let v := c.reg d
    let v := if n < positions f.width c.g then putElement v f n (y.toNat % 2 ^ f.width) else v
    s.retireV (used l g) [] (some d) (c.setReg d v) 0)

/-- VIOTA (R203). -/
def execViota (d : BitVec 4) (k : BitVec 2) (t : BitVec 4) (x : BitVec 3) (s : State) :
    Host.Outcome State Fault Refusal :=
  concludeAs (Instr.viota d k t x).encoding s (do
    let c ← s.needClaim
    let f ← typeIn t 0 7
    s.writableV d
    let xs := (List.range (active c k f.width)).map (fun i => i % 2 ^ f.width)
    s.retireV [] [] (some d) (c.setReg d (putElements (c.reg d) f 0 xs)) 0)

/-- VMOV: bit for bit (R203). -/
def execVmov (d : BitVec 4) (a : BitVec 4) (k : BitVec 2) (t : BitVec 4) (x : BitVec 3) (s : State) :
    Host.Outcome State Fault Refusal :=
  concludeAs (Instr.vmov d a k t x).encoding s (do
    let c ← s.needClaim
    let f ← typeIn t 0 13
    let va ← s.readV c a
    s.writableV d
    let v := putAll (c.reg d) f.width (active c k f.width) (lanesAt va f.width)
    s.retireV [] [] (some d) (c.setReg d v) 0)

/-- The entries ahead of the first control value whose data is there. -/
def dataEntries (es : List Entry) : List Entry := (readyEntries es).takeWhile (fun e => !e.control)

/-- VQMOV from a channel (R204). -/
def execVqmovPop (d : BitVec 4) (q : BitVec 3) (k : BitVec 2) (t : BitVec 4) (x : BitVec 3) (s : State) :
    Host.Outcome State Fault Refusal :=
  concludeAs (Instr.vqmovPop d q k t x).encoding s (do
    if k = 0 then illegal
    let c ← s.needClaim
    let f ← typeIn t 0 13
    let h ← s.openChannel q true
    let n := active c k f.width
    if n = 0 then s.retireV [] [] none (c.setPred k 0) 0
    else
      s.writableV d
      let es := s.entriesOf s.cur.1 h
      match headEntry es with
      | none => s.awaitEntry h
      | some e =>
        if e.control then (s.setEntries s.cur.1 s.cur.2 q.toNat h es.tail).lightEntry e.data
        else
          let taken := (dataEntries es).take n
          let v := putElements (c.reg d) f 0 (taken.map (fun e => e.data.toNat % 2 ^ f.width))
          let r ← s.retireV [] [] (some d) ((c.setReg d v).setPred k (lanesOf f.width taken.length)) 0
          pure (r.setEntries s.cur.1 s.cur.2 q.toNat h (es.drop taken.length)))

/-- VQMOV to a channel (R204). -/
def execVqmovPush (q : BitVec 3) (a : BitVec 4) (k : BitVec 2) (t : BitVec 4) (x : BitVec 3) (s : State) :
    Host.Outcome State Fault Refusal :=
  concludeAs (Instr.vqmovPush q a k t x).encoding s (do
    if k = 0 then illegal
    let c ← s.needClaim
    let f ← typeIn t 0 13
    let h ← s.openChannel q false
    let n := active c k f.width
    let es := s.entriesOf s.cur.1 h
    if n = 0 then s.retireV [] [] none (c.setPred k 0) 0
    else if 16 ≤ es.length then stall .retry
    else
      let va ← s.readV c a
      let j := min n (16 - es.length)
      let pushed := (List.range j).map (fun i => ({ data := extendElement f (element va f.width i) } : Entry))
      let r ← s.retireV [] [] none (c.setPred k (lanesOf f.width j)) 0
      pure (r.setEntries s.cur.1 s.cur.2 q.toNat h (es ++ pushed)))

/-! ### Merge (R205 to R207) -/

/-- The place of a key in the order of R206. -/
def keyOrder (f : Fmt) (x : Nat) : Int :=
  match f with
  | .flt t =>
    let top := 2 ^ (t.man + t.expBits)
    let nan := match decodeFloat t x with
      | .nan _ => true
      | _ => false
    if x < top then (x : Int)
    else if nan then (x : Int) - 2 ^ 68
    else -((x - top : Nat) : Int) - 1
  | _ => f.value x

/-- The loop of VMRG over two lists of entries: what is left of each, the elements taken, and whether both heads are
control values; it ends where an input is empty or `n` elements are taken, then with `last`. -/
def mergeLoop (f : Fmt) (last : Bool) : Nat → List Entry → List Entry → List Nat → List Entry × List Entry × List Nat × Bool
  | 0, xs, ys, out => (xs, ys, out.reverse, last)
  | n + 1, xs, ys, out =>
    match xs, ys with
    | x :: xs', y :: ys' =>
      let kx := x.data.toNat % 2 ^ f.width
      let ky := y.data.toNat % 2 ^ f.width
      if x.control ∧ y.control then (xs, ys, out.reverse, true)
      else if x.control ∨ (¬ y.control ∧ keyOrder f ky < keyOrder f kx) then mergeLoop f last n xs ys' (ky :: out)
      else mergeLoop f last n xs' ys (kx :: out)
    | _, _ => (xs, ys, out.reverse, false)

/-- VMRG (R206): what it has merged stays in vd and MRGST when it pauses, where it waits or, without `eager`, between two iterations
(R207); mergeAt keeps its lanes per element for the floor of R188. -/
def execVmrg (d : BitVec 4) (a : BitVec 3) (b : BitVec 3) (k : BitVec 2) (t : BitVec 4) (x : BitVec 3) (s : State) :
    Host.Outcome State Fault Refusal :=
  concludeAs (Instr.vmrg d a b k t x).encoding s (do
    if k = 0 ∨ a = b then illegal
    let cl ← s.needClaim
    let f ← typeIn t 0 11
    let ha ← s.openChannel a true
    let hb ← s.openChannel b true
    s.writableV d
    let n := active cl k f.width
    let pos := if bitAt s.me.mrgst 63 then bitsOf s.me.mrgst 8 0 else 0
    let ea := s.entriesOf s.cur.1 ha
    let eb := s.entriesOf s.cur.1 hb
    let turns := if s.eager then n - pos else min (n - pos) (1 + s.free 320 (n - pos))
    let (xs, ys, out, finished) := mergeLoop f (turns == n - pos) turns (readyEntries ea) (readyEntries eb) []
    let v := putElements (cl.reg d) f pos out
    let done := pos + out.length
    let merged (s : State) : State :=
      let s := s.setEntries s.cur.1 s.cur.2 a.toNat ha (ea.drop ((readyEntries ea).length - xs.length))
      s.setEntries s.cur.1 s.cur.2 b.toNat hb (eb.drop ((readyEntries eb).length - ys.length))
    if finished then
      let r ← s.retireV [] [] (some d) ((cl.setReg d v).setPred k (min cl.g (lanesOf f.width done))) 0
      let r := merged r
      pure (r.setMe { r.me with mrgst := if out = [] then setBits r.me.mrgst 63 63 0 else wordOf done })
    else
      let h := if xs = [] then ha else hb
      let r := s.setMe { s.me with mergeAt := some (s.me.pc, if f.width = 64 then 2 else 1) }
      let next := if out = [] ∧ h.kind = 4 ∧ h.entries = [] ∧ h.delivered < h.count then s.streamNext h else .ok 0
      match next with
      | .error (.trap t) => .error (.trapIn r t)
      | .error e => .error e
      | .ok _ =>
        let r := merged (r.setClaim (cl.setReg d v))
        .error (.waitIn (r.setMe { r.me with mrgst := if out = [] then r.me.mrgst else wordOf (2 ^ 63 + done) })
          (if xs = [] ∨ ys = [] then .retry else .none)))

end Sys2Proof.Machine
end

