-- ==== Sys2Proof/Machine/Dispatch.lean ====
section
/-! DEFINITION. One arm for every constructor of Instr: a direct call of its meaning. -/

namespace Sys2Proof.Machine

def exec (i : Instr) (s : State) : Host.Outcome State Fault Refusal :=
  match i with
  | .padd d a l b m => Sys2Proof.Machine.execPadd d a l b m s
  | .pidx d a l b m => Sys2Proof.Machine.execPidx d a l b m s
  | .pset d a l b m f => Sys2Proof.Machine.execPset d a l b m f s
  | .pget d a l f => Sys2Proof.Machine.execPget d a l f s
  | .pcore d a l b m => Sys2Proof.Machine.execPcore d a l b m s
  | .pshrd d a l b m => Sys2Proof.Machine.execPshrd d a l b m s
  | .ext d a l b m => Sys2Proof.Machine.execExt d a l b m s
  | .bc a l b m c o => Sys2Proof.Machine.execBc a l b m c o s
  | .j o => Sys2Proof.Machine.execJ o s
  | .jal o => Sys2Proof.Machine.execJal o s
  | .jr d a l imm => Sys2Proof.Machine.execJr d a l imm s
  | .loop d imm => Sys2Proof.Machine.execLoop d imm s
  | .ld d a l sg z h imm => Sys2Proof.Machine.execLd d a l sg z h imm s
  | .ldFut d a l h imm => Sys2Proof.Machine.execLdFut d a l h imm s
  | .ldTake d a l h imm => Sys2Proof.Machine.execLdTake d a l h imm s
  | .st d a l e z h imm => Sys2Proof.Machine.execSt d a l e z h imm s
  | .stFill d a l e h imm => Sys2Proof.Machine.execStFill d a l e h imm s
  | .stGive d a l e h imm => Sys2Proof.Machine.execStGive d a l e h imm s
  | .ldx d a l b m sg z h x => Sys2Proof.Machine.execLdx d a l b m sg z h x s
  | .stx d a l b m e z h x => Sys2Proof.Machine.execStx d a l b m e z h x s
  | .ldtVeq d a l b m h => Sys2Proof.Machine.execLdtVeq d a l b m h s
  | .ldtVge d a l b m h => Sys2Proof.Machine.execLdtVge d a l b m h s
  | .sttVnx d a l e h => Sys2Proof.Machine.execSttVnx d a l e h s
  | .sttVset d a l b m e h => Sys2Proof.Machine.execSttVset d a l b m e h s
  | .lds d a l b m sg z h => Sys2Proof.Machine.execLds d a l b m sg z h s
  | .sts d a l b m e z h => Sys2Proof.Machine.execSts d a l b m e z h s
  | .amoSwap d a l b m z h => Sys2Proof.Machine.execAmoSwap d a l b m z h s
  | .amoAdd d a l b m z h => Sys2Proof.Machine.execAmoAdd d a l b m z h s
  | .amoAnd d a l b m z h => Sys2Proof.Machine.execAmoAnd d a l b m z h s
  | .amoOr d a l b m z h => Sys2Proof.Machine.execAmoOr d a l b m z h s
  | .amoXor d a l b m z h => Sys2Proof.Machine.execAmoXor d a l b m z h s
  | .amoMin d a l b m z h => Sys2Proof.Machine.execAmoMin d a l b m z h s
  | .amoMax d a l b m z h => Sys2Proof.Machine.execAmoMax d a l b m z h s
  | .amoMinu d a l b m z h => Sys2Proof.Machine.execAmoMinu d a l b m z h s
  | .amoMaxu d a l b m z h => Sys2Proof.Machine.execAmoMaxu d a l b m z h s
  | .cas d a l b m z h => Sys2Proof.Machine.execCas d a l b m z h s
  | .redo d a l b m f => Sys2Proof.Machine.execRedo d a l b m f s
  | .reda a l b m f => Sys2Proof.Machine.execReda a l b m f s
  | .redr d a l f => Sys2Proof.Machine.execRedr d a l f s
  | .redc d a l f => Sys2Proof.Machine.execRedc d a l f s
  | .jinit d a l b m => Sys2Proof.Machine.execJinit d a l b m s
  | .join d a l b m => Sys2Proof.Machine.execJoin d a l b m s
  | .fence d a l => Sys2Proof.Machine.execFence d a l s
  | .flush a l b m => Sys2Proof.Machine.execFlush a l b m s
  | .cinv a l b m => Sys2Proof.Machine.execCinv a l b m s
  | .wait a b c d => Sys2Proof.Machine.execWait a b c d s
  | .pref h a l b m => Sys2Proof.Machine.execPref h a l b m s
  | .vrecl a l b m => Sys2Proof.Machine.execVrecl a l b m s
  | .tagr d a l => Sys2Proof.Machine.execTagr d a l s
  | .tagw a l b m => Sys2Proof.Machine.execTagw a l b m s
  | .mcast d a l b m => Sys2Proof.Machine.execMcast d a l b m s
  | .spawn a l b m => Sys2Proof.Machine.execSpawn a l b m s
  | .launch d a l => Sys2Proof.Machine.execLaunch d a l s
  | .yield => Sys2Proof.Machine.execYield s
  | .prio d a l => Sys2Proof.Machine.execPrio d a l s
  | .sendm a l b m => Sys2Proof.Machine.execSendm a l b m s
  | .recv d a l => Sys2Proof.Machine.execRecv d a l s
  | .peek d => Sys2Proof.Machine.execPeek d s
  | .reply a l => Sys2Proof.Machine.execReply a l s
  | .hstart d a l b m => Sys2Proof.Machine.execHstart d a l b m s
  | .hhalt a l => Sys2Proof.Machine.execHhalt a l s
  | .hhaltRetain a l b m => Sys2Proof.Machine.execHhaltRetain a l b m s
  | .hwait d a l => Sys2Proof.Machine.execHwait d a l s
  | .crew a l b m => Sys2Proof.Machine.execCrew a l b m s
  | .crewx d => Sys2Proof.Machine.execCrewx d s
  | .bar d a l n => Sys2Proof.Machine.execBar d a l n s
  | .qbind a l b m q => Sys2Proof.Machine.execQbind a l b m q s
  | .qfree q => Sys2Proof.Machine.execQfree q s
  | .qctlPop d q => Sys2Proof.Machine.execQctlPop d q s
  | .qctlPush a l q => Sys2Proof.Machine.execQctlPush a l q s
  | .qctlPushc a l q => Sys2Proof.Machine.execQctlPushc a l q s
  | .qctlFlush q => Sys2Proof.Machine.execQctlFlush q s
  | .qstat d q => Sys2Proof.Machine.execQstat d q s
  | .qhnd a l => Sys2Proof.Machine.execQhnd a l s
  | .qret => Sys2Proof.Machine.execQret s
  | .vclaim d a l => Sys2Proof.Machine.execVclaim d a l s
  | .vreneg d a l => Sys2Proof.Machine.execVreneg d a l s
  | .vrel => Sys2Proof.Machine.execVrel s
  | .pcnt d k => Sys2Proof.Machine.execPcnt d k s
  | .pwhile d a l b m k => Sys2Proof.Machine.execPwhile d a l b m k s
  | .pmin a l k kb => Sys2Proof.Machine.execPmin a l k kb s
  | .vld d a l k h => Sys2Proof.Machine.execVld d a l k h s
  | .vst d a l k h => Sys2Proof.Machine.execVst d a l k h s
  | .vldf d a l k h => Sys2Proof.Machine.execVldf d a l k h s
  | .vlds d a l b m k h => Sys2Proof.Machine.execVlds d a l b m k h s
  | .vsts d a l b m k h => Sys2Proof.Machine.execVsts d a l b m k h s
  | .vgth d a l w k h => Sys2Proof.Machine.execVgth d a l w k h s
  | .vsct d a l w k h => Sys2Proof.Machine.execVsct d a l w k h s
  | .vadd d a b k t x => Sys2Proof.Machine.execVadd d a b k t x s
  | .vsub d a b k t x => Sys2Proof.Machine.execVsub d a b k t x s
  | .vmul d a b k t x => Sys2Proof.Machine.execVmul d a b k t x s
  | .vdiv d a b k t x => Sys2Proof.Machine.execVdiv d a b k t x s
  | .vmin d a b k t x => Sys2Proof.Machine.execVmin d a b k t x s
  | .vmax d a b k t x => Sys2Proof.Machine.execVmax d a b k t x s
  | .vabsd d a b k t x => Sys2Proof.Machine.execVabsd d a b k t x s
  | .vmulh d a b k t x => Sys2Proof.Machine.execVmulh d a b k t x s
  | .vfma d a b k t x => Sys2Proof.Machine.execVfma d a b k t x s
  | .vfms d a b k t x => Sys2Proof.Machine.execVfms d a b k t x s
  | .vcvt d a sg k t x => Sys2Proof.Machine.execVcvt d a sg k t x s
  | .vabs d a k t x => Sys2Proof.Machine.execVabs d a k t x s
  | .vneg d a k t x => Sys2Proof.Machine.execVneg d a k t x s
  | .vsqrt d a k t x => Sys2Proof.Machine.execVsqrt d a k t x s
  | .vrcp d a k t x => Sys2Proof.Machine.execVrcp d a k t x s
  | .vrsq d a k t x => Sys2Proof.Machine.execVrsq d a k t x s
  | .vexp d a k t x => Sys2Proof.Machine.execVexp d a k t x s
  | .vlog d a k t x => Sys2Proof.Machine.execVlog d a k t x s
  | .vsin d a k t x => Sys2Proof.Machine.execVsin d a k t x s
  | .vcos d a k t x => Sys2Proof.Machine.execVcos d a k t x s
  | .vtanh d a k t x => Sys2Proof.Machine.execVtanh d a k t x s
  | .vand d a b k t x => Sys2Proof.Machine.execVand d a b k t x s
  | .vor d a b k t x => Sys2Proof.Machine.execVor d a b k t x s
  | .vxor d a b k t x => Sys2Proof.Machine.execVxor d a b k t x s
  | .vandn d a b k t x => Sys2Proof.Machine.execVandn d a b k t x s
  | .vshl d a b k t x => Sys2Proof.Machine.execVshl d a b k t x s
  | .vshr d a b k t x => Sys2Proof.Machine.execVshr d a b k t x s
  | .vsar d a b k t x => Sys2Proof.Machine.execVsar d a b k t x s
  | .vcmp d a b k t c => Sys2Proof.Machine.execVcmp d a b k t c s
  | .vsel d a b k t x => Sys2Proof.Machine.execVsel d a b k t x s
  | .vsum a g k t x => Sys2Proof.Machine.execVsum a g k t x s
  | .vrmax a g k t x => Sys2Proof.Machine.execVrmax a g k t x s
  | .vrmin a g k t x => Sys2Proof.Machine.execVrmin a g k t x s
  | .vscan d a k t x => Sys2Proof.Machine.execVscan d a k t x s
  | .vperm d a b k t x => Sys2Proof.Machine.execVperm d a b k t x s
  | .vbc d g l k t x => Sys2Proof.Machine.execVbc d g l k t x s
  | .vext a g k t x => Sys2Proof.Machine.execVext a g k t x s
  | .vins d g l k t x => Sys2Proof.Machine.execVins d g l k t x s
  | .viota d k t x => Sys2Proof.Machine.execViota d k t x s
  | .vmov d a k t x => Sys2Proof.Machine.execVmov d a k t x s
  | .vqmovPop d q k t x => Sys2Proof.Machine.execVqmovPop d q k t x s
  | .vqmovPush q a k t x => Sys2Proof.Machine.execVqmovPush q a k t x s
  | .vmrg d a b k t x => Sys2Proof.Machine.execVmrg d a b k t x s
  | .mma d a l p => Sys2Proof.Machine.execMma d a l p s
  | .mmaz d a l p => Sys2Proof.Machine.execMmaz d a l p s
  | .mbs d a l p => Sys2Proof.Machine.execMbs d a l p s
  | .mbsz d a l p => Sys2Proof.Machine.execMbsz d a l p s
  | .msp d a l p => Sys2Proof.Machine.execMsp d a l p s
  | .mpre d a l => Sys2Proof.Machine.execMpre d a l s
  | .mpinv a l => Sys2Proof.Machine.execMpinv a l s
  | .mld d a l b m p => Sys2Proof.Machine.execMld d a l b m p s
  | .mst d a l b m p => Sys2Proof.Machine.execMst d a l b m p s
  | .mzero p => Sys2Proof.Machine.execMzero p s
  | .mrd d a l p => Sys2Proof.Machine.execMrd d a l p s
  | .mstFill d a l b m p => Sys2Proof.Machine.execMstFill d a l b m p s
  | .mstVnx d a l b m p => Sys2Proof.Machine.execMstVnx d a l b m p s
  | .mstVset d a l b m p => Sys2Proof.Machine.execMstVset d a l b m p s
  | .mcmd d a l b m => Sys2Proof.Machine.execMcmd d a l b m s
  | .mqry d a l => Sys2Proof.Machine.execMqry d a l s
  | .hacc d a l b m => Sys2Proof.Machine.execHacc d a l b m s
  | .hdrn d a l b m => Sys2Proof.Machine.execHdrn d a l b m s
  | .sbnd a l b m => Sys2Proof.Machine.execSbnd a l b m s
  | .carry d a l b m => Sys2Proof.Machine.execCarry d a l b m s
  | .survBind d a l b m => Sys2Proof.Machine.execSurvBind d a l b m s
  | .survUnbind a l => Sys2Proof.Machine.execSurvUnbind a l s
  | .survStart a l => Sys2Proof.Machine.execSurvStart a l s
  | .survStop a l => Sys2Proof.Machine.execSurvStop a l s
  | .tmld a l p => Sys2Proof.Machine.execTmld a l p s
  | .tmset a l n p => Sys2Proof.Machine.execTmset a l n p s
  | .tmget d n p => Sys2Proof.Machine.execTmget d n p s
  | .cpy d sg p => Sys2Proof.Machine.execCpy d sg p s
  | .cpyg d a l sg p => Sys2Proof.Machine.execCpyg d a l sg p s
  | .cpys d a l sg p => Sys2Proof.Machine.execCpys d a l sg p s
  | .cpyq d q p => Sys2Proof.Machine.execCpyq d q p s
  | .cpyf d a l b m p => Sys2Proof.Machine.execCpyf d a l b m p s
  | .srd g n => Sys2Proof.Machine.execSrd g n s
  | .swr g l n => Sys2Proof.Machine.execSwr g l n s
  | .trap n => Sys2Proof.Machine.execTrap n s
  | .capMint => Sys2Proof.Machine.execCapMint s
  | .capNewGeneration => Sys2Proof.Machine.execCapNewGeneration s
  | .xret => Sys2Proof.Machine.execXret s
  | .brk n => Sys2Proof.Machine.execBrk n s
  | .nop => Sys2Proof.Machine.execNop s
  | .synci => Sys2Proof.Machine.execSynci s
  | .ptinv a l b m => Sys2Proof.Machine.execPtinv a l b m s
  | .atset a l b m => Sys2Proof.Machine.execAtset a l b m s
  | .atsync d => Sys2Proof.Machine.execAtsync d s
  | .migr d a l b m => Sys2Proof.Machine.execMigr d a l b m s
  | .gstop d a l => Sys2Proof.Machine.execGstop d a l s
  | .svFetch a b imm => Sys2Proof.Machine.execSvFetch a b imm s
  | .svEmit a b imm => Sys2Proof.Machine.execSvEmit a b imm s
  | .add d a l b m => Sys2Proof.Machine.execAdd d a l b m s
  | .sub d a l b m => Sys2Proof.Machine.execSub d a l b m s
  | .and d a l b m => Sys2Proof.Machine.execAnd d a l b m s
  | .or d a l b m => Sys2Proof.Machine.execOr d a l b m s
  | .xor d a l b m => Sys2Proof.Machine.execXor d a l b m s
  | .andn d a l b m => Sys2Proof.Machine.execAndn d a l b m s
  | .shl d a l b m => Sys2Proof.Machine.execShl d a l b m s
  | .shr d a l b m => Sys2Proof.Machine.execShr d a l b m s
  | .sar d a l b m => Sys2Proof.Machine.execSar d a l b m s
  | .rot d a l b m => Sys2Proof.Machine.execRot d a l b m s
  | .min d a l b m => Sys2Proof.Machine.execMin d a l b m s
  | .max d a l b m => Sys2Proof.Machine.execMax d a l b m s
  | .minu d a l b m => Sys2Proof.Machine.execMinu d a l b m s
  | .maxu d a l b m => Sys2Proof.Machine.execMaxu d a l b m s
  | .slt d a l b m => Sys2Proof.Machine.execSlt d a l b m s
  | .sltu d a l b m => Sys2Proof.Machine.execSltu d a l b m s
  | .sel d a l b m => Sys2Proof.Machine.execSel d a l b m s
  | .mov d a l => Sys2Proof.Machine.execMov d a l s
  | .clz d a l => Sys2Proof.Machine.execClz d a l s
  | .ctz d a l => Sys2Proof.Machine.execCtz d a l s
  | .popc d a l => Sys2Proof.Machine.execPopc d a l s
  | .brev d a l => Sys2Proof.Machine.execBrev d a l s
  | .bswp d a l => Sys2Proof.Machine.execBswp d a l s
  | .addW d a l b m => Sys2Proof.Machine.execAddW d a l b m s
  | .subW d a l b m => Sys2Proof.Machine.execSubW d a l b m s
  | .andW d a l b m => Sys2Proof.Machine.execAndW d a l b m s
  | .orW d a l b m => Sys2Proof.Machine.execOrW d a l b m s
  | .xorW d a l b m => Sys2Proof.Machine.execXorW d a l b m s
  | .andnW d a l b m => Sys2Proof.Machine.execAndnW d a l b m s
  | .shlW d a l b m => Sys2Proof.Machine.execShlW d a l b m s
  | .shrW d a l b m => Sys2Proof.Machine.execShrW d a l b m s
  | .sarW d a l b m => Sys2Proof.Machine.execSarW d a l b m s
  | .rotW d a l b m => Sys2Proof.Machine.execRotW d a l b m s
  | .minW d a l b m => Sys2Proof.Machine.execMinW d a l b m s
  | .maxW d a l b m => Sys2Proof.Machine.execMaxW d a l b m s
  | .minuW d a l b m => Sys2Proof.Machine.execMinuW d a l b m s
  | .maxuW d a l b m => Sys2Proof.Machine.execMaxuW d a l b m s
  | .sltW d a l b m => Sys2Proof.Machine.execSltW d a l b m s
  | .sltuW d a l b m => Sys2Proof.Machine.execSltuW d a l b m s
  | .clzW d a l => Sys2Proof.Machine.execClzW d a l s
  | .ctzW d a l => Sys2Proof.Machine.execCtzW d a l s
  | .popcW d a l => Sys2Proof.Machine.execPopcW d a l s
  | .addImm d a l imm => Sys2Proof.Machine.execAddImm d a l imm s
  | .andImm d a l imm => Sys2Proof.Machine.execAndImm d a l imm s
  | .orImm d a l imm => Sys2Proof.Machine.execOrImm d a l imm s
  | .xorImm d a l imm => Sys2Proof.Machine.execXorImm d a l imm s
  | .shlImm d a l c => Sys2Proof.Machine.execShlImm d a l c s
  | .shrImm d a l c => Sys2Proof.Machine.execShrImm d a l c s
  | .sarImm d a l c => Sys2Proof.Machine.execSarImm d a l c s
  | .rotImm d a l c => Sys2Proof.Machine.execRotImm d a l c s
  | .sltImm d a l imm => Sys2Proof.Machine.execSltImm d a l imm s
  | .sltuImm d a l imm => Sys2Proof.Machine.execSltuImm d a l imm s
  | .minImm d a l imm => Sys2Proof.Machine.execMinImm d a l imm s
  | .maxImm d a l imm => Sys2Proof.Machine.execMaxImm d a l imm s
  | .addWImm d a l imm => Sys2Proof.Machine.execAddWImm d a l imm s
  | .li d imm => Sys2Proof.Machine.execLi d imm s
  | .lih d h imm => Sys2Proof.Machine.execLih d h imm s
  | .bfx d a l o w => Sys2Proof.Machine.execBfx d a l o w s
  | .bfxs d a l o w => Sys2Proof.Machine.execBfxs d a l o w s
  | .bfxs64 d a l o => Sys2Proof.Machine.execBfxs64 d a l o s
  | .bfi d a l o w => Sys2Proof.Machine.execBfi d a l o w s
  | .bfxReg d a l b m => Sys2Proof.Machine.execBfxReg d a l b m s
  | .bfxsReg d a l b m => Sys2Proof.Machine.execBfxsReg d a l b m s
  | .bfiReg d a l b m => Sys2Proof.Machine.execBfiReg d a l b m s
  | .mul d a l b m => Sys2Proof.Machine.execMul d a l b m s
  | .mulh d a l b m => Sys2Proof.Machine.execMulh d a l b m s
  | .mulhu d a l b m => Sys2Proof.Machine.execMulhu d a l b m s
  | .div d a l b m => Sys2Proof.Machine.execDiv d a l b m s
  | .divu d a l b m => Sys2Proof.Machine.execDivu d a l b m s
  | .rem d a l b m => Sys2Proof.Machine.execRem d a l b m s
  | .remu d a l b m => Sys2Proof.Machine.execRemu d a l b m s
  | .mulW d a l b m => Sys2Proof.Machine.execMulW d a l b m s
  | .mulhW d a l b m => Sys2Proof.Machine.execMulhW d a l b m s
  | .mulhuW d a l b m => Sys2Proof.Machine.execMulhuW d a l b m s
  | .divW d a l b m => Sys2Proof.Machine.execDivW d a l b m s
  | .divuW d a l b m => Sys2Proof.Machine.execDivuW d a l b m s
  | .remW d a l b m => Sys2Proof.Machine.execRemW d a l b m s
  | .remuW d a l b m => Sys2Proof.Machine.execRemuW d a l b m s
  | .cAdd d b l => Sys2Proof.Machine.execCAdd d b l s
  | .cAddi d imm => Sys2Proof.Machine.execCAddi d imm s
  | .cMov d b l => Sys2Proof.Machine.execCMov d b l s
  | .cLi d imm => Sys2Proof.Machine.execCLi d imm s
  | .cLd d a l imm => Sys2Proof.Machine.execCLd d a l imm s
  | .cSt b m a l imm => Sys2Proof.Machine.execCSt b m a l imm s
  | .cBz a l o => Sys2Proof.Machine.execCBz a l o s
  | .cBnz a l o => Sys2Proof.Machine.execCBnz a l o s
  | .cJ o => Sys2Proof.Machine.execCJ o s
  | .cSub d a l => Sys2Proof.Machine.execCSub d a l s
  | .cAnd d a l => Sys2Proof.Machine.execCAnd d a l s
  | .cOr d a l => Sys2Proof.Machine.execCOr d a l s
  | .cXor d a l => Sys2Proof.Machine.execCXor d a l s
  | .cShl d a l => Sys2Proof.Machine.execCShl d a l s
  | .cShr d a l => Sys2Proof.Machine.execCShr d a l s
  | .cWait m => Sys2Proof.Machine.execCWait m s
  | .cRecv d => Sys2Proof.Machine.execCRecv d s
  | .cJr a l => Sys2Proof.Machine.execCJr a l s
  | .cPadd d b l => Sys2Proof.Machine.execCPadd d b l s
  | .cNop => Sys2Proof.Machine.execCNop s
  | .cYield => Sys2Proof.Machine.execCYield s
  | .cHhalt => Sys2Proof.Machine.execCHhalt s
  | .claimGrant tile => Sys2Proof.Machine.execClaimGrant tile s
  | .lsplitWrite core cw => Sys2Proof.Machine.execLsplitWrite core cw s
  | .vgroupWrite tile en => Sys2Proof.Machine.execVgroupWrite tile en s
  | .homeAccept rid => Sys2Proof.Machine.execHomeAccept rid s
  | .retryReplay rid => Sys2Proof.Machine.execRetryReplay rid s
  | .loadDataReturn rid data => Sys2Proof.Machine.execLoadDataReturn rid data s
  | .storeAck rid => Sys2Proof.Machine.execStoreAck rid s
  | .releaseSend hid => Sys2Proof.Machine.execReleaseSend hid s
  | .barComplete core ctx => Sys2Proof.Machine.execBarComplete core ctx s
  | .messageArrival mid => Sys2Proof.Machine.execMessageArrival mid s
  | .messageReplay mid => Sys2Proof.Machine.execMessageReplay mid s
  | .handlerStart core => Sys2Proof.Machine.execHandlerStart core s
  | .resumeMessage mid => Sys2Proof.Machine.execResumeMessage mid s
  | .stopMessage mid => Sys2Proof.Machine.execStopMessage mid s
  | .forwardRequest rid => Sys2Proof.Machine.execForwardRequest rid s
  | .forwardExpire core index => Sys2Proof.Machine.execForwardExpire core index s
  | .registerPreempt core ctx => Sys2Proof.Machine.execRegisterPreempt core ctx s
  | .registerGrant core => Sys2Proof.Machine.execRegisterGrant core s
  | .engineCommandAccept cid => Sys2Proof.Machine.execEngineCommandAccept cid s
  | .engineCommandStart core => Sys2Proof.Machine.execEngineCommandStart core s
  | .engineCommandComplete core => Sys2Proof.Machine.execEngineCommandComplete core s
  | .engineCommandMigrate core cid => Sys2Proof.Machine.execEngineCommandMigrate core cid s
  | .engraveStart sg => Sys2Proof.Machine.execEngraveStart sg s
  | .engraveComplete sg => Sys2Proof.Machine.execEngraveComplete sg s
  | .copyStart tile => Sys2Proof.Machine.execCopyStart tile s
  | .copyComplete tile => Sys2Proof.Machine.execCopyComplete tile s
  | .copyqResume tile => Sys2Proof.Machine.execCopyqResume tile s
  | .surveyorRun core stream => Sys2Proof.Machine.execSurveyorRun core stream s
  | .surveyorGatherReturn core stream => Sys2Proof.Machine.execSurveyorGatherReturn core stream s
  | .memoryStreamRead core ctx q => Sys2Proof.Machine.execMemoryStreamRead core ctx q s
  | .launchDistribute => Sys2Proof.Machine.execLaunchDistribute s
  | .launchEntryPlace die => Sys2Proof.Machine.execLaunchEntryPlace die s
  | .dispatch tile => Sys2Proof.Machine.execDispatch tile s
  | .placementDecision tile => Sys2Proof.Machine.execPlacementDecision tile s
  | .heldTaskResume tile => Sys2Proof.Machine.execHeldTaskResume tile s
  | .spillRefill tile => Sys2Proof.Machine.execSpillRefill tile s
  | .spillOfferRetry tile => Sys2Proof.Machine.execSpillOfferRetry tile s
  | .queueAgeing tile => Sys2Proof.Machine.execQueueAgeing tile s
  | .pressureSample tile => Sys2Proof.Machine.execPressureSample tile s
  | .contourStep tile => Sys2Proof.Machine.execContourStep tile s
  | .crewGrant sg => Sys2Proof.Machine.execCrewGrant sg s
  | .crewTarget sg => Sys2Proof.Machine.execCrewTarget sg s
  | .crewSwap sg => Sys2Proof.Machine.execCrewSwap sg s
  | .crewRestore sg => Sys2Proof.Machine.execCrewRestore sg s
  | .heatSweep part => Sys2Proof.Machine.execHeatSweep part s
  | .memoryDoubleUpset address => Sys2Proof.Machine.execMemoryDoubleUpset address s
  | .dieLost die => Sys2Proof.Machine.execDieLost die s
  | .routerCycle router damaged => Sys2Proof.Machine.execRouterCycle router damaged s
  | .linkDead router dir => Sys2Proof.Machine.execLinkDead router dir s
  | .drainWrite mask => Sys2Proof.Machine.execDrainWrite mask s
  | .fabricTimedReplay rid => Sys2Proof.Machine.execFabricTimedReplay rid s
  | .fabricTransit index => Sys2Proof.Machine.execFabricTransit index s
  | .lossPacket source seqs => Sys2Proof.Machine.execLossPacket source seqs s
  | .timeExchange port peer time => Sys2Proof.Machine.execTimeExchange port peer time s
  | .flitArrival port flit => Sys2Proof.Machine.execFlitArrival port flit s
  | .linkNakResend port lseq => Sys2Proof.Machine.execLinkNakResend port lseq s
  | .sendWindowDoubleUpset port lseq => Sys2Proof.Machine.execSendWindowDoubleUpset port lseq s
  | .replayNotice rid => Sys2Proof.Machine.execReplayNotice rid s
  | .portDown port => Sys2Proof.Machine.execPortDown port s
  | .orteWrite svc value => Sys2Proof.Machine.execOrteWrite svc value s
  | .oparkWrite svc value => Sys2Proof.Machine.execOparkWrite svc value s
  | .oheatWrite svc value => Sys2Proof.Machine.execOheatWrite svc value s
  | .oasgnWrite svc value => Sys2Proof.Machine.execOasgnWrite svc value s
  | .opticalWakeTrigger port => Sys2Proof.Machine.execOpticalWakeTrigger port s
  | .ringSettleDone ring => Sys2Proof.Machine.execRingSettleDone ring s
  | .ringLocked ring => Sys2Proof.Machine.execRingLocked ring s
  | .ringLockTimeout ring => Sys2Proof.Machine.execRingLockTimeout ring s
  | .ringDeskewDone ring => Sys2Proof.Machine.execRingDeskewDone ring s
  | .stripeWiden port => Sys2Proof.Machine.execStripeWiden port s
  | .monitorSample ring => Sys2Proof.Machine.execMonitorSample ring s
  | .parkFlit port mask => Sys2Proof.Machine.execParkFlit port mask s
  | .wakeFlit port mask => Sys2Proof.Machine.execWakeFlit port mask s
  | .lockReport port => Sys2Proof.Machine.execLockReport port s
  | .hostLaunchWrite offset bytes => Sys2Proof.Machine.execHostLaunchWrite offset bytes s
  | .hostCommandWrite offset bytes => Sys2Proof.Machine.execHostCommandWrite offset bytes s
  | .hostQueueDeliver mid => Sys2Proof.Machine.execHostQueueDeliver mid s
  | .hqsizeWrite offset bytes => Sys2Proof.Machine.execHqsizeWrite offset bytes s
  | .hqheadWrite offset bytes => Sys2Proof.Machine.execHqheadWrite offset bytes s
  | .hqbaseWrite offset bytes => Sys2Proof.Machine.execHqbaseWrite offset bytes s
  | .powerGood signatureOk trained peers => Sys2Proof.Machine.execPowerGood signatureOk trained peers s
  | .thermalThrottle => Sys2Proof.Machine.execThermalThrottle s
  | .thermalTrip => Sys2Proof.Machine.execThermalTrip s
  | .d3hotRequest => Sys2Proof.Machine.execD3hotRequest s
  | .getVersion request => Sys2Proof.Machine.execGetVersion request s
  | .getCapabilities request => Sys2Proof.Machine.execGetCapabilities request s
  | .negotiateAlgorithms request => Sys2Proof.Machine.execNegotiateAlgorithms request s
  | .getDigests request => Sys2Proof.Machine.execGetDigests request s
  | .getCertificate request => Sys2Proof.Machine.execGetCertificate request s
  | .challenge request => Sys2Proof.Machine.execChallenge request s
  | .getMeasurements request => Sys2Proof.Machine.execGetMeasurements request s
  | .keyExchange request => Sys2Proof.Machine.execKeyExchange request s
  | .finish request => Sys2Proof.Machine.execFinish request s
  | .create body => Sys2Proof.Machine.execCreate body s
  | .destroy body => Sys2Proof.Machine.execDestroy body s
  | .setKey body => Sys2Proof.Machine.execSetKey body s
  | .setPkg body => Sys2Proof.Machine.execSetPkg body s
  | .log body => Sys2Proof.Machine.execLog body s
  | .route body => Sys2Proof.Machine.execRoute body s
  | .packageLoss reason => Sys2Proof.Machine.execPackageLoss reason s
  | .illegalEncoding encoding wide => Sys2Proof.Machine.execIllegalEncoding encoding wide s
  | .fetchFault address reason => Sys2Proof.Machine.execFetchFault address reason s
  | .vendorDefinedRequest request => Sys2Proof.Machine.execVendorDefinedRequest request s

end Sys2Proof.Machine
end

