-- ==== Sys2Proof/Machine/Rounds.lean ====
section
/-! DEFINITION. The cycles of the machine (12_execution.md R297, R304, R313; log 1): which contexts of a core are ready, what each unit may
do next, and the turns of one cycle. Everything that may happen is given a delay, a free finite number of cycles, and happens when it has
run out. -/

namespace Sys2Proof.Machine

noncomputable section

/-! ### The context a core issues from (R297) -/

/-- Whether a context that waits would wait on: executing its instruction again changes nothing but that. -/
def State.stalls (s : State) (core ctx : Nat) : Bool :=
  (s.ctx core ctx).wait == .retry && (match (s.issueFrom core ctx).fetchInstr with
    | (i, t) => match exec i t with
      | .next u => u == t.block .retry
      | _ => false)

/-- Whether the fetch of a context's next instruction is through. -/
def State.fetchThrough (s : State) (core ctx : Nat) : Bool := !s.delays.any (fun e => e.1 == .issue core ctx && e.2 != 0)

/-- Whether a context is ready: live, and neither stalled, waiting, FAULTED nor pre-empted. One that yielded is skipped while another is
ready (06_task_instr.md R157). -/
def State.isReady (s : State) (core ctx : Nat) (yields : Bool) : Bool :=
  (s.ctx core ctx).canIssue yields && s.fetchThrough core ctx && !s.stalls core ctx

/-- The context a core issues from: the first ready one after the last in the cyclic order. -/
def State.nextIssue (s : State) (core : Nat) : Option Nat :=
  let order := (s.core core).order
  match order.find? (fun n => s.isReady core n false) with
  | some n => some n
  | none => order.find? (fun n => s.isReady core n true)

/-! ### What may come next -/

/-- The contexts that may issue once their instruction is fetched. -/
def State.issues (s : State) : List Turn :=
  s.cores.flatMap (fun e => e.2.ctxs.filterMap (fun x => if x.2.canIssue true then some (.issue e.1 x.1) else none))

/-- What another package answers to a request, which nothing here determines. -/
def Request.answers (r : Request) : List Instr :=
  if isLoad r.op ∨ r.target ≠ .none then [.loadDataReturn r.id (wordOf (Config.choice r.id 1))] else [.storeAck r.id]

/-- Steps of the memory system, the barriers, the messages and the pools that may come next. -/
def State.memoryEvents (s : State) : List Instr :=
  ([ s.requests.flatMap (fun r => match r.stage with
      | .sent => if r.remote.isNone then [.homeAccept r.id, .forwardRequest r.id] else .fabricTimedReplay r.id :: r.answers
      | .nacked => [.retryReplay r.id]
      | .waiting _ _ => []
      | .returned v => [.loadDataReturn r.id v]
      | .acked => [.storeAck r.id]
      | .failed _ _ _ _ => if r.origin.isSome then [.storeAck r.id] else []),
    s.held.map (fun h => .releaseSend h.id),
    s.barriers.flatMap (fun b => b.arrivals.map (fun a => .barComplete a.core a.ctx)),
    s.flights.flatMap (fun f => match f.dest with
      | .core _ => [if f.nacked then .messageReplay f.id
          else if f.msg.cls = 3 then .resumeMessage f.id
          else if f.msg.cls = 5 then .stopMessage f.id
          else .messageArrival f.id, .forwardRequest f.id]
      | .hostQueue _ _ => [.hostQueueDeliver f.id]
      | .remote _ _ => [.fabricTimedReplay f.id, .storeAck f.id]),
    s.commands.map (fun c => .engineCommandAccept c.id) ] : List (List Instr)).flatten

/-- Steps of a core's units that may come next. -/
def Core.events (n : Nat) (k : Core) : List Instr :=
  ([ (if k.inbox = [] then [] else [.handlerStart n]),
    (if k.waiters = [] then []
        else .registerGrant n :: k.ctxs.map (fun e => .registerPreempt n e.1)),
    (if k.engine.queue = [] then [] else .engineCommandStart n :: k.engine.queue.map (fun c => .engineCommandMigrate n c.id)),
    (if k.engine.running.isSome then [.engineCommandComplete n] else []),
    k.streams.flatMap (fun e => [.surveyorRun n e.1, .surveyorGatherReturn n e.1]),
    k.ctxs.flatMap (fun e => e.2.channels.map (fun q => .memoryStreamRead n e.1 (BitVec.ofNat 3 q.1))),
    (List.range k.forwards.length).map (fun i => .forwardExpire n i) ] : List (List Instr)).flatten

/-- Steps of a tile's units that may come next, beside those of every cycle. -/
def Tile.events (n : Nat) (t : Tile) : List Instr :=
  ([ [.pressureSample n, .contourStep n],
    (if t.queue = [] then [] else [.spillRefill n]),
    (if t.offered = [] then [] else [.spillOfferRetry n]),
    (if t.claimQueue = [] then [] else [.claimGrant n]),
    (if t.copies = [] then [] else [.copyStart n, .copyComplete n, .copyqResume n]) ] : List (List Instr)).flatten

/-- Steps of a super-group's units that may come next, beside those of every cycle. -/
def SuperGroup.events (n : Nat) (g : SuperGroup) : List Instr :=
  (if g.requests = [] then [] else [.crewSwap n]) ++ (if g.engraver = [] then [] else [.engraveStart n, .engraveComplete n])

/-- Steps of a fabric port and of its rings that may come next (23_program_optics.md R437, R438). -/
def portEvents (n : Nat) : List Instr := [.opticalWakeTrigger n, .stripeWiden n]
def ringEvents (n : Nat) : List Instr := [.ringSettleDone n, .ringLocked n, .ringLockTimeout n, .ringDeskewDone n, .monitorSample n]

/-- The steps of the package's own units that may come next, beside those of every cycle. -/
def State.events (s : State) : List Instr :=
  ([ s.memoryEvents,
    s.cores.flatMap (fun e => e.2.events e.1),
    s.parts.flatMap (fun e => Instr.heatSweep e.1 :: (s.tilesOf e.1).flatMap (fun t => (s.tile t).events t)),
    s.superGroups.flatMap (fun e => e.2.events e.1),
    (if s.launchQueue = [] then [] else [.launchDistribute]),
    s.parts.filterMap (fun e => if e.2.destroying then some (.destroy [BitVec.ofNat 8 e.1, 0, 0, 0, 0, 0, 0, 0]) else none),
    s.routers.map (fun e => .routerCycle e.1 0),
    s.ports.flatMap (fun e => portEvents e.1),
    s.rings.flatMap (fun e => ringEvents e.1),
    (List.range s.transits.length).map (fun i => .fabricTransit i) ] : List (List Instr)).flatten

/-! ### The steps of the tiles in every cycle (R304) -/

/-- Whether a tile has something to dispatch or to decide, or may come to have it in this cycle. -/
def State.tileActive (s : State) (t : Nat) : Bool :=
  let u := s.tile t
  !u.queue.isEmpty || !u.deciding.isEmpty || !u.held.isEmpty || s.launches.any (fun l => l.toPlace.contains (tileDie t))
    || (tileCores t).any (fun n => (s.core n).ctxs.any (fun e => e.2.isLive))

/-- Whether an entry of a tile queue is to age at a time (R302). -/
def State.ageingDue (s : State) (t : Nat) (gtc : Word) : Bool :=
  match s.partOfGroup (tileSuperGroup t) with
  | none => false
  | some part => (s.tile t).queue.any (fun e =>
      decide (e.level < 7) && aged (gtc.toNat / 1000 * 1000) (s.partRegs (some part)).ageus.toNat e.joined.toNat)

/-- After the halts, which are the issues' own: crew grants; ageing; arrivals, with launch entries after tasks; dispatch. -/
def State.tileTurns (s : State) (gtc : Word) : List Instr :=
  let tiles := (s.parts.flatMap (fun e => s.tilesOf e.1)).filter s.tileActive
  let groups := (s.superGroups.filter (fun e => !(e.2.requests.isEmpty && e.2.spilled.isEmpty))).map (·.1)
  ([ groups.flatMap (fun g => [.crewGrant g, .crewRestore g, .crewTarget g]),
    (tiles.filter (fun t => s.ageingDue t gtc)).map (fun t => .queueAgeing t),
    (tiles.filter (fun t => !(s.tile t).held.isEmpty)).map (fun t => .heldTaskResume t),
    (tiles.filter (fun t => !(s.tile t).deciding.isEmpty)).map (fun t => .placementDecision t),
    s.launches.flatMap (fun l => l.toPlace.map (fun d => .launchEntryPlace d)),
    tiles.map (fun t => .dispatch t) ] : List (List Instr)).flatten

/-! ### One cycle -/

/-- A list in a freely chosen order. -/
def shuffled (choice : Nat → Nat) : Nat → List Turn → List Turn
  | 0, _ => []
  | n + 1, l => match l[choice n % l.length]? with
    | none => []
    | some x => x :: shuffled choice n (l.erase x)

/-- Where a turn stands among those that reach one context in a cycle: the instruction or its trap, a class 5 stop, a class 3 resume, a swap,
a pre-emption for registers (22_faults.md R434). -/
def Turn.rank : Turn → Option Nat
  | .slot _ => some 1
  | .event (.stopMessage _) => some 2
  | .event (.resumeMessage _) => some 3
  | .event (.crewSwap _) => some 4
  | .event (.registerPreempt _ _) => some 5
  | _ => none

/-- The turns of a list that R434 orders put into its order, in the places that they hold together. -/
def inOrder (l : List Turn) : List Turn :=
  let sorted := ([1, 2, 3, 4, 5] : List Nat).flatMap (fun k => l.filter (fun t => t.rank == some k))
  (l.foldl (fun (acc : List Turn × List Turn) t =>
    match t.rank, acc.2 with
    | some _, x :: rest => (acc.1 ++ [x], rest)
    | _, _ => (acc.1 ++ [t], acc.2)) ([], sorted)).1

/-- What may come next with the cycles that it has still to wait: a free number where it has just become possible. -/
def State.offers (s : State) : List (Turn × Nat) :=
  let next := Turn.tick :: s.issues ++ s.events.map Turn.event
  (List.range next.length).map (fun i =>
    let t := next.getD i .tick
    match s.delays.find? (fun e => e.1 == t) with
    | some e => e
    | none => (t, Config.choice s.choice (2 ^ 61 + i)))

/-- The turns of a new cycle: the time, where it moves on; what is due and one issue of every core, in a free order but for R434; and the steps
of the tiles. -/
def State.newCycle (s : State) : State :=
  let offers := s.offers
  let isIssue (t : Turn) : Bool := match t with
    | .issue _ _ => true
    | _ => false
  let due := (offers.filter (fun e => e.2 == 0 && !isIssue e.1)).map (·.1)
  let left := (offers.filter (fun e => e.2 != 0 || isIssue e.1)).map (fun e => (e.1, e.2 - 1))
  let slots := (s.cores.filter (fun e => e.2.ctxs.any (fun x => x.2.canIssue true))).map (fun e => Turn.slot e.1)
  let free := (due.filter (· != .tick)) ++ slots
  let time := if due.contains .tick then [Turn.tick] else []
  let gtc := s.gtc + wordOf time.length
  { s with
    eager := Config.choice s.choice (2 ^ 63) % 2 == 0
    cycle := s.cycle + 1
    delays := left
    agenda := time ++ inOrder (shuffled (fun i => Config.choice s.choice (2 ^ 62 + i)) free.length free) ++ (s.tileTurns gtc).map Turn.event }

/-- What passes in the background of a step: the free values, the heat of pages, the flits that the ports send, the lines that the caches
replace; and where the turns of a cycle are over, the next one begins. -/
def State.background (s : State) : State :=
  let b := s.tick.heat.pump.replaceCopy
  match b.agenda with
  | [] => if b.stopped then b else b.newCycle
  | _ => b

end

end Sys2Proof.Machine
end

