-- ==== Sys2Proof/Machine/Step.lean ====
section
/-! DEFINITION. One step: the time passes, whoever's turn it is makes its step, and the next program word placed from outside. -/

namespace Sys2Proof.Machine

noncomputable section

/-- Whether a step can be made while the package stands still: only POWER_GOOD brings it up again (25_package.md R477). -/
def wakesPackage (i : Instr) : Bool :=
  match i with
  | .powerGood _ _ _ => true
  | _ => false

/-- The issue of one instruction from a context: nothing where its core does not turn to it (12_execution.md R297). -/
def issueStep (s : State) (core ctx : Nat) : Host.Outcome State Fault Refusal :=
  if s.nextIssue core = some ctx then
    let (i, t) := (s.issueFrom core ctx).fetchInstr
    exec i t
  else .next s

/-- The turn at the head of the agenda, or the one chosen, is taken. -/
def takeTurn (s : State) (t : Turn) : Host.Outcome State Fault Refusal :=
  match t with
  | .event i => if s.stopped && !wakesPackage i then .fault .stopped else exec i s
  | .issue core ctx => if s.stopped then .fault .stopped else issueStep s core ctx
  | .slot core => if s.stopped then .fault .stopped else (match s.nextIssue core with
    | some ctx => issueStep s core ctx
    | none => .next s)
  | .tick => if s.stopped then .fault .stopped else .next s.passTime

/-- One step of the machine. -/
def step (s : State) : Host.Outcome State Fault Refusal :=
  let b := s.background
  match b.turn with
  | none => if b.stopped then .fault .stopped else .next b
  | some t => takeTurn { b with agenda := b.agenda.drop 1 } t

/-- An instruction of `nbits` bits stored where the current context fetches its next instruction, whose turn is then next (log 1). -/
def State.withFetchWord (s : State) (nbits w : Nat) : State :=
  if nbits ≤ 16 then s.placeWord (BitVec.ofNat 16 w) 0 else s.placeWord (BitVec.ofNat 16 (w / 65536)) (BitVec.ofNat 16 w)

end

end Sys2Proof.Machine
end

