-- ==== Sys2Proof/Safety.lean ====
section
/-! DEFINITION. The terms in which claims are made: what it is for an instruction to complete, the shapes of register instructions, what an
instruction leaves alone, and the invariants of the machine. -/

namespace Sys2Proof.Machine

/-! ### Completion -/

/-- The instruction gives a next state. -/
def Completes (i : Instr) (s t : State) : Prop := exec i s = .next t

/-- Register r of the issuing context can be read, and holds x (01_assembly.md R27; 05_memory_instr.md R119). -/
def Reads (s : State) (r : Reg) (x : Word) : Prop := s.readReg r = .ok x

/-- The state after an instruction of `len` bytes has retired, with the registers it kills and writes, stepped where STATUS.STEP asks for
it. -/
def State.advanced (s : State) (len : Nat) (dies : List Reg) (writes : List (Reg × Word)) : State :=
  s.afterStep (s.retiredTo (s.me.pc + wordOf len) dies writes)

/-- The same after a transfer of control. -/
def State.landedAt (s : State) (target : Word) (dies : List Reg) (writes : List (Reg × Word)) : State :=
  s.afterStep (s.retiredTo target dies writes)

/-! ### Shapes of register instructions: what they write to rd, whatever the operands -/

/-- rd := f(rs1, rs2). -/
def Binary (len : Nat) (mk : Reg → Reg → Bool → Reg → Bool → Instr) (f : Word → Word → Word) : Prop :=
  ∀ (s : State) (d a : Reg) (l : Bool) (b : Reg) (m : Bool) (x y : Word), Reads s a x → Reads s b y →
    s.mayRetire (used l a ++ used m b) [(d, f x y)] = true →
    Completes (mk d a l b m) s (s.advanced len (used l a ++ used m b) [(d, f x y)])

/-- rd := f(rs1). -/
def Unary (len : Nat) (mk : Reg → Reg → Bool → Instr) (f : Word → Word) : Prop :=
  ∀ (s : State) (d a : Reg) (l : Bool) (x : Word), Reads s a x → s.mayRetire (used l a) [(d, f x)] = true →
    Completes (mk d a l) s (s.advanced len (used l a) [(d, f x)])

/-- rd := f(rs1, imm). -/
def UnaryImm (n : Nat) (mk : Reg → Reg → Bool → BitVec n → Instr) (f : Word → BitVec n → Word) : Prop :=
  ∀ (s : State) (d a : Reg) (l : Bool) (i : BitVec n) (x : Word), Reads s a x → s.mayRetire (used l a) [(d, f x i)] = true →
    Completes (mk d a l i) s (s.advanced 4 (used l a) [(d, f x i)])

/-- rd := f(old rd, rs1, rs2). -/
def Ternary (mk : Reg → Reg → Bool → Reg → Bool → Instr) (f : Word → Word → Word → Word) : Prop :=
  ∀ (s : State) (d a : Reg) (l : Bool) (b : Reg) (m : Bool) (z x y : Word), Reads s d z → Reads s a x → Reads s b y →
    s.mayRetire (used l a ++ used m b) [(d, f z x y)] = true →
    Completes (mk d a l b m) s (s.advanced 4 (used l a ++ used m b) [(d, f z x y)])

/-- A 32-bit result on the low halves, sign-extended (04_scalar.md R99, R105). -/
def low32 (f : BitVec 32 → BitVec 32 → BitVec 32) (x y : Word) : Word := (f (x.setWidth 32) (y.setWidth 32)).signExtend 64

/-! ### Shapes of memory instructions -/

/-- The state after an instruction of `len` bytes has retired from a state t that its effect on memory gave. -/
def State.after (s t : State) (len : Nat) (dies : List Reg) (writes : List (Reg × Word)) : State :=
  s.afterStep (t.retiredTo (t.me.pc + wordOf len) dies writes)

/-- The state after an instruction has retired from t with a destination register that is live but waits for its data
(05_memory_instr.md R119). -/
def State.pending (t : State) (len : Nat) (dies : List Reg) (d : Reg) : State :=
  let w := t.retiredTo (t.me.pc + wordOf len) dies [(d, 0)]
  w.setMe { w.me with past := t.me.past }

/-- The place lies on this package, and its memory is not lost. -/
structure Place.Here (pl : Place) : Prop where
  here : pl.remote = none
  kept : pl.lost = false

/-- The instruction, from a state u in which its operands and place are known and no stall of 05_memory_instr.md R120 and R122 holds,
retires with the value of a near hit in rd (15_memory_map.md R348, R349); without one it sends op to the place of pointer p: it retires
with the answer of the home in rd where that comes at once, and otherwise with rd waiting while the request is on its way, or with the
load lost where its home is lost. -/
def LoadGives (i : Instr) (s u : State) (p : Word) (pl : Place) (n : Nat) (op : MemOp) (data expected : Word) (d : Reg) (len : Nat)
    (dies : List Reg) (hint : BitVec 2 := 0) : Prop :=
  u.readyToSend pl n 0 = .ok () →
    let r := { u.requestOf p pl op data 0 none (u.targetOf d) with expected := expected, length := len, hint := hint }
    (∀ line held v, u.nearLoad p pl op hint = some (line, held, v) →
      (u.moveNear u.cur.1 line held hint).mayRetire dies [(d, v)] = true →
      Completes i s (s.after (u.moveNear u.cur.1 line held hint) len dies [(d, v)]))
    ∧ (u.nearLoad p pl op hint = none →
      (pl.Here → u.nowAt pl.key = true → ∀ t v, (u.depart pl).apply r = .done t v → t.mayRetire dies [(d, v)] = true →
        Completes i s (s.after t len dies [(d, v)]))
      ∧ (pl.Here → u.nowAt pl.key = false → (u.depart pl).mayRetire dies [(d, 0)] = true →
        Completes i s (s.afterStep (((u.depart pl).pending len dies d).launchRequest r)))
      ∧ (pl.remote = none → pl.lost = true → (u.depart pl).mayRetire dies [(d, 0)] = true →
        Completes i s (s.afterStep ((((u.depart pl).pending len dies d).beginRequest r).loseHere r)))
      ∧ (pl.remote ≠ none → u.mayRetire dies [(d, 0)] = true →
        Completes i s (s.afterStep ((u.pending len dies d).launchRequest r))))

/-- The instruction sends op to the place of pointer p and retires without a result: the home answers at once, or the request is on its
way, or the store is lost where its home is lost. -/
def StoreGives (i : Instr) (s u : State) (p : Word) (pl : Place) (n : Nat) (op : MemOp) (data expected : Word) (len : Nat)
    (dies : List Reg) (hint : BitVec 2 := 0) : Prop :=
  u.readyToSend pl n 1 = .ok () →
    let r := { u.requestOf p pl op data 1 (some pl.counter) .none with expected := expected, length := len, hint := hint }
    let gone (t : State) : State := t.retiredTo (t.me.pc + wordOf len) dies []
    (pl.Here → u.nowAt pl.key = true → ∀ t v, (u.depart pl).apply r = .done t v → t.mayRetire dies [] = true →
      Completes i s (s.after t len dies []))
    ∧ (pl.Here → u.nowAt pl.key = false → (u.depart pl).mayRetire dies [] = true →
      Completes i s (s.afterStep ((gone (u.depart pl)).launchRequest r)))
    ∧ (pl.remote = none → pl.lost = true → (u.depart pl).mayRetire dies [] = true →
      Completes i s (s.afterStep (((gone (u.depart pl)).beginRequest r).loseHere r)))
    ∧ (pl.remote ≠ none → u.mayRetire dies [] = true → Completes i s (s.afterStep ((gone u).launchRequest r)))

/-- A releasing store (05_memory_instr.md R128): sent as it issues when the counters of DEXT have drained; otherwise it retires and is
held at the core. -/
def ReleaseGives (i : Instr) (s : State) (p : Word) (pl : Place) (n : Nat) (op : MemOp) (data : Word) (dies : List Reg)
    (hint : BitVec 2 := 0) : Prop :=
  ∀ mask, s.extent s.me.dext p = .ok mask →
    (s.drainedNow mask = true → StoreGives i s s p pl n op data 0 4 dies hint)
    ∧ (s.drainedNow mask = false → s.readyToSend pl n 1 = .ok () → (s.note pl).mayRetire dies [(0, 0)] = true →
        let r := { s.requestOf p pl op data 1 (some pl.counter) .none with length := 4, hint := hint }
        Completes i s (s.afterStep ((((s.note pl).pending 4 dies 0).beginRequest r).hold r.id mask (.request r))))

/-- An access that holds its context until its home has answered, sent from a state u in which its operands and place are known and no
stall holds (05_memory_instr.md R119, R120): it retires with the answer of its home, and acquires where its form does; or it traps with
what the home answers; or its context waits: in the retry list of the home, or for the answer to a request on its way; or it traps where
its home is lost (16_ordering.md R373). -/
def HomeGives (i : Instr) (s u : State) (p : Word) (pl : Place) (n cls : Nat) (d : Reg) (op : MemOp) (data : Word) (dies : List Reg) : Prop :=
  u.readyToSend pl n cls = .ok () → u.mayRetire dies [(d, 0)] = true →
    let r := { u.requestOf p pl op data cls (if cls = 1 then some pl.counter else none) .none with
      blocking := true, dies := dies, target := u.targetOf d }
    (pl.Here → u.nowAt pl.key = true →
      (∀ t v, (u.depart pl).apply r = .done t v → (t.satisfied op).mayRetire dies [(d, v)] = true →
        Completes i s (s.after (t.satisfied op) 4 dies [(d, v)]))
      ∧ (∀ t, (u.depart pl).apply r = .trap t → t.cause ≠ .illegal → t.cause ≠ .priv → Completes i s (s.takeTrap t))
      ∧ ((u.depart pl).apply r = .unmet →
        Completes i s (((((u.setAside dies d).depart pl).beginRequest r).enqueue r).block (.request r.id))))
    ∧ (pl.Here → u.nowAt pl.key = false →
      Completes i s ((((u.setAside dies d).depart pl).launchRequest r).block (.request r.id)))
    ∧ (pl.remote = none → pl.lost = true →
      Completes i s (((u.depart pl).atSlice r).takeTrap { cause := .page, faddr := p, reason := 4 }))
    ∧ (pl.remote ≠ none → Completes i s (((u.setAside dies d).launchRequest r).block (.request r.id)))

/-- A synchronising access that blocks until it is satisfied (05_memory_instr.md R120, R124 to R128): its context holds no release, and
where it releases, the counters of DEXT have drained. -/
def BlockingGives (i : Instr) (s : State) (p : Word) (pl : Place) (cls : Nat) (releases : Bool) (d : Reg) (op : MemOp) (data : Word)
    (dies : List Reg) : Prop :=
  s.mySync = none → s.holding = false →
  ∀ mask, s.extent s.me.dext p = .ok mask → (releases = true → s.drainedNow mask = true) → HomeGives i s s p pl 8 cls d op data dies

/-! ### Shapes of vector instructions (07_vector_instr.md R179 to R192) -/

/-- The state after a vector instruction has retired, its claim written and its flags raised. -/
def State.wroteV (s : State) (dies : List Reg) (writes : List (Reg × Word)) (c : Claim) (f : FpFlags) : State :=
  s.afterStep (((s.retiredTo (s.me.pc + 4) dies writes).setClaim c).raise f)

/-- The issuing context holds claim c, and type t, between lo and hi, is the format f. -/
structure State.VectorOf (s : State) (c : Claim) (t : BitVec 4) (lo hi : Nat) (f : Fmt) : Prop where
  claim : s.me.claim = some c
  low : lo ≤ t.toNat
  high : t.toNat ≤ hi
  format : fmtOf (typeCode t.toNat) = some f

/-- Vector register v can be written now, and no load into it has been lost. -/
structure State.FreeV (s : State) (v : BitVec 4) : Prop where
  come : s.vAwaited v = false
  kept : Table.look s.me.lostLoads (64 + v.toNat) = none
  fits : s.mayRetire [] [] = true

/-- Each active vd[i] := op(va[i]). -/
def Vector1 (mk : BitVec 4 → BitVec 4 → BitVec 2 → BitVec 4 → BitVec 3 → Instr) (lo hi : Nat)
    (op : BitVec 4 → Fmt → Rounding → Nat → Result) : Prop :=
  ∀ (s : State) (d a : BitVec 4) (k : BitVec 2) (t : BitVec 4) (x : BitVec 3) (c : Claim) (f : Fmt) (va : List Lane),
    s.VectorOf c t lo hi f → s.readV c a = .ok va → s.FreeV d →
    let rs := (List.range (active c k f.width)).map (fun i => op t f (s.me.mode x) (element va f.width i))
    Completes (mk d a k t x) s
      (s.wroteV [] [] (c.setReg d (putElements (c.reg d) f 0 (rs.map (·.1)))) (orFlags (rs.map (·.2))))

/-- Each active vd[i] := op(va[i], vb[i]). -/
def Vector2 (mk : BitVec 4 → BitVec 4 → BitVec 4 → BitVec 2 → BitVec 4 → BitVec 3 → Instr) (lo hi : Nat)
    (op : Fmt → Rounding → Nat → Nat → Result) : Prop :=
  ∀ (s : State) (d a b : BitVec 4) (k : BitVec 2) (t : BitVec 4) (x : BitVec 3) (c : Claim) (f : Fmt) (va vb : List Lane),
    s.VectorOf c t lo hi f → s.readV c a = .ok va → s.readV c b = .ok vb → s.FreeV d →
    let rs := (List.range (active c k f.width)).map (fun i =>
      op f (s.me.mode x) (element va f.width i) (element vb f.width i))
    Completes (mk d a b k t x) s
      (s.wroteV [] [] (c.setReg d (putElements (c.reg d) f 0 (rs.map (·.1)))) (orFlags (rs.map (·.2))))

/-- Each active lane of vd := op(lane of va, lane of vb). -/
def Lanewise (mk : BitVec 4 → BitVec 4 → BitVec 4 → BitVec 2 → BitVec 4 → BitVec 3 → Instr) (op : Lane → Lane → Lane) : Prop :=
  ∀ (s : State) (d a b : BitVec 4) (k : BitVec 2) (t : BitVec 4) (x : BitVec 3) (c : Claim) (f : Fmt) (va vb : List Lane),
    s.VectorOf c t 0 11 f → s.readV c a = .ok va → s.readV c b = .ok vb → s.FreeV d →
    Completes (mk d a b k t x) s (s.wroteV [] [] (c.setReg d (putAll (c.reg d) f.width (active c k f.width)
      (fun i => List.zipWith op (lanesAt va f.width i) (lanesAt vb f.width i)))) 0)

/-- A scalar register := op of the active elements, out of n positions. -/
def Reduction (mk : BitVec 4 → BitVec 5 → BitVec 2 → BitVec 4 → BitVec 3 → Instr)
    (op : Fmt → Rounding → Nat → List Nat → Word × FpFlags) : Prop :=
  ∀ (s : State) (a : BitVec 4) (g : BitVec 5) (k : BitVec 2) (t : BitVec 4) (x : BitVec 3) (c : Claim) (f : Fmt) (va : List Lane),
    s.VectorOf c t 0 11 f → s.readV c a = .ok va →
    let r := op f (s.me.mode x) (positions f.width c.g) ((List.range (active c k f.width)).map (element va f.width))
    s.mayRetire [] [(g, r.1)] = true → Completes (mk a g k t x) s (s.wroteV [] [(g, r.1)] c r.2)

/-- The instruction loads the elements at these places into vd (07_vector_instr.md R208, R209): without an active element it completes;
with elements that can all be read now, every home on this package and no element poisoned, it retires with them in vd; with elements
whose requests all have to travel, it retires as one operation on its way. -/
def VectorLoads (i : Instr) (s : State) (c : Claim) (f : Fmt) (size : Nat) (d : BitVec 4) (code : Nat) (places : List (Word × Place))
    (dies : List Reg) (hint : BitVec 2) : Prop :=
  s.mayRetire dies [] = true →
    (places = [] → Completes i s (s.wroteV dies [] c 0))
    ∧ (places ≠ [] → s.groupReady places size 0 = .ok () → s.FreeV d →
      (∀ vals : List Nat, places.map (fun e => s.ownRead e.1 e.2 size hint) = vals.map some →
        (∀ e ∈ places, e.2.Here ∧ s.nowAt e.2.key = true) →
        let u := ((s.retiredTo (s.me.pc + 4) dies []).setClaim (c.setReg d (putElements (c.reg d) f 0 vals))).raise 0
        Completes i s (s.afterStep (places.foldl (fun r e => r.elementLoaded e.1 e.2 hint) u)))
      ∧ ((∀ e ∈ places, s.nearHit e.1 e.2 hint = none ∧ s.elementLater e.2 = true) → ∀ old : List Nat,
        old = (List.range places.length).map (element (c.reg d) f.width) → ∀ u : State,
        places.foldl (fun r e => r.elementLoaded e.1 e.2 hint)
          (((s.retiredTo (s.me.pc + 4) dies []).setClaim (c.setReg d (putElements (c.reg d) f 0 old))).raise 0) = u →
        let rs := (List.range places.length).filterMap (fun j => (places[j]?).map (fun e =>
          ({ s.requestOf e.1 e.2 (.load size false) 0 0 none (.element d.toNat j code) with id := 0, hint := hint }, e.2.lost)))
        Completes i s (s.afterStep (u.sendGroup u.nextId 0 none rs))))

/-- The instruction stores the active elements of vd at these places, in ascending order, as one operation (07_vector_instr.md R209,
R211). -/
def VectorStores (i : Instr) (s : State) (c : Claim) (f : Fmt) (size : Nat) (d : BitVec 4) (places : List (Word × Place)) (dies : List Reg)
    (hint : BitVec 2) : Prop :=
  s.mayRetire dies [] = true →
    (places = [] → Completes i s (s.advanced 4 dies []))
    ∧ (∀ (v : List Lane) e rest, places = e :: rest → s.groupReady places size 1 = .ok () → s.readV c d = .ok v →
      let u := places.foldl (fun (r : State) e => if e.2.remote.isSome then r else r.depart e.2) (s.retiredTo (s.me.pc + 4) dies [])
      let rs := (List.range places.length).filterMap (fun j => (places[j]?).map (fun e =>
        ({ s.requestOf e.1 e.2 (.store size) (wordOf (element v f.width j)) 1 none .none with hint := hint }, e.2.lost)))
      Completes i s (s.afterStep (u.sendGroup u.nextId 1 (some e.2.counter) rs)))

/-! ### Shapes of engine instructions (08_matrix_instr.md R217 to R220) -/

/-- The engine of the issuing core has accepted fewer than 8 commands, fewer than 63 commands of the context are outstanding, and the counters of DEXT have
drained. -/
structure State.EngineOpen (s : State) (q : Word) : Prop where
  room : s.mine.engine.accepted.length < 8
  few : s.classFull 3 = false
  drained : ∃ mask, s.extent s.me.dext q = .ok mask ∧ s.drainedNow mask = true

/-- The command enters the queue of the core's own engine, and its operation number is in rd. -/
def QueuesCommand (i : Instr) (s : State) (c : Command) (d : Reg) (dies : List Reg) : Prop :=
  s.mayRetire dies [(d, c.opNumber.setWidth 64)] = true →
    let u := s.retiredTo (s.me.pc + 4) dies [(d, c.opNumber.setWidth 64)]
    let u := { u with nextId := u.nextId + 1 }
    let u := u.setMe { u.me with opNumber := u.me.opNumber + 1 }
    Completes i s (s.afterStep ((u.beginOp s.cur.1 s.cur.2 3 none).acceptCommand s.cur.1 c))

end Sys2Proof.Machine
end

