-- ==== Sys2Proof/Certificates/Slice0/Obligations.lean ====
section
/-! DEFINITION. The obligations: what the claims about this machine say, each a Prop. An instruction's result statements conclude that it
completes, in the state that the manual gives; what it leaves alone is that state, and `Obligations.RegisterFrame` and
`Obligations.StoresAreReadBack` say what the states of register and store instructions leave alone. -/

open Sys2Proof Sys2Proof.Machine

/-! ### Scalar arithmetic (04_scalar.md) -/

/-- Each register operation of major 0x00 writes its function of the 64-bit sources to rd (04_scalar.md R98). What CLZ, CTZ, POPC, BREV
and BSWP compute, bit by bit (04_scalar.md R98). -/
def Obligations.Alu64Results : Prop :=
  (Binary 4 .add (fun x y => x + y) ∧ Binary 4 .sub (fun x y => x - y) ∧ Binary 4 .and (fun x y => x &&& y)
  ∧ Binary 4 .or (fun x y => x ||| y) ∧ Binary 4 .xor (fun x y => x ^^^ y) ∧ Binary 4 .andn (fun x y => x &&& ~~~y)
  ∧ Binary 4 .shl (fun x y => x <<< (y.toNat % 64)) ∧ Binary 4 .shr (fun x y => x >>> (y.toNat % 64))
  ∧ Binary 4 .sar (fun x y => x.sshiftRight (y.toNat % 64)) ∧ Binary 4 .rot (fun x y => x.rotateRight (y.toNat % 64))
  ∧ Binary 4 .min (fun x y => if x.toInt ≤ y.toInt then x else y) ∧ Binary 4 .max (fun x y => if x.toInt ≤ y.toInt then y else x)
  ∧ Binary 4 .minu (fun x y => if x.toNat ≤ y.toNat then x else y) ∧ Binary 4 .maxu (fun x y => if x.toNat ≤ y.toNat then y else x)
  ∧ Binary 4 .slt (fun x y => if x.toInt < y.toInt then 1 else 0) ∧ Binary 4 .sltu (fun x y => if x.toNat < y.toNat then 1 else 0)
  ∧ Ternary .sel (fun z x y => if z ≠ 0 then x else y)
  ∧ Unary 4 .mov (fun x => x) ∧ Unary 4 .clz aluClz ∧ Unary 4 .ctz aluCtz ∧ Unary 4 .popc aluPopc
  ∧ Unary 4 .brev aluBrev ∧ Unary 4 .bswp aluBswp)
  ∧ (∀ x : Word,
    ((aluClz x).toNat ≤ 64 ∧ (∀ i < (aluClz x).toNat, x.getLsbD (63 - i) = false)
      ∧ ((aluClz x).toNat < 64 → x.getLsbD (63 - (aluClz x).toNat) = true))
    ∧ ((aluCtz x).toNat ≤ 64 ∧ (∀ i < (aluCtz x).toNat, x.getLsbD i = false)
      ∧ ((aluCtz x).toNat < 64 → x.getLsbD (aluCtz x).toNat = true))
    ∧ (aluPopc x).toNat = ((List.range 64).map (fun i => (x.getLsbD i).toNat)).sum
    ∧ (∀ i < 64, (aluBrev x).getLsbD i = x.getLsbD (63 - i))
    ∧ (∀ i < 8, ∀ j < 8, (aluBswp x).getLsbD (8 * i + j) = x.getLsbD (8 * (7 - i) + j)))

/-- Each `.w` operation of major 0x01 writes the sign-extended 32-bit result on the low halves (04_scalar.md R99). -/
def Obligations.Alu32Results : Prop :=
  Binary 4 .addW (low32 (fun x y => x + y)) ∧ Binary 4 .subW (low32 (fun x y => x - y)) ∧ Binary 4 .andW (low32 (fun x y => x &&& y))
  ∧ Binary 4 .orW (low32 (fun x y => x ||| y)) ∧ Binary 4 .xorW (low32 (fun x y => x ^^^ y))
  ∧ Binary 4 .andnW (low32 (fun x y => x &&& ~~~y))
  ∧ Binary 4 .shlW (low32 (fun x y => x <<< (y.toNat % 32))) ∧ Binary 4 .shrW (low32 (fun x y => x >>> (y.toNat % 32)))
  ∧ Binary 4 .sarW (low32 (fun x y => x.sshiftRight (y.toNat % 32))) ∧ Binary 4 .rotW (low32 (fun x y => x.rotateRight (y.toNat % 32)))
  ∧ Binary 4 .minW (low32 (fun x y => if x.toInt ≤ y.toInt then x else y))
  ∧ Binary 4 .maxW (low32 (fun x y => if x.toInt ≤ y.toInt then y else x))
  ∧ Binary 4 .minuW (low32 (fun x y => if x.toNat ≤ y.toNat then x else y))
  ∧ Binary 4 .maxuW (low32 (fun x y => if x.toNat ≤ y.toNat then y else x))
  ∧ Binary 4 .sltW (low32 (fun x y => if x.toInt < y.toInt then 1 else 0))
  ∧ Binary 4 .sltuW (low32 (fun x y => if x.toNat < y.toNat then 1 else 0))
  ∧ Unary 4 .clzW (fun x => (aluClz (x.setWidth 32)).signExtend 64) ∧ Unary 4 .ctzW (fun x => (aluCtz (x.setWidth 32)).signExtend 64)
  ∧ Unary 4 .popcW (fun x => (aluPopc (x.setWidth 32)).signExtend 64)

/-- The immediate operations take the sign-extended imm10, or a count, as their second value (04_scalar.md R100); LI writes the
sign-extended imm19, and LIH replaces halfword h of rd (R101). -/
def Obligations.ImmediateResults : Prop :=
  UnaryImm 10 .addImm (fun x i => x + i.signExtend 64) ∧ UnaryImm 10 .andImm (fun x i => x &&& i.signExtend 64)
  ∧ UnaryImm 10 .orImm (fun x i => x ||| i.signExtend 64) ∧ UnaryImm 10 .xorImm (fun x i => x ^^^ i.signExtend 64)
  ∧ UnaryImm 6 .shlImm (fun x c => x <<< c.toNat) ∧ UnaryImm 6 .shrImm (fun x c => x >>> c.toNat)
  ∧ UnaryImm 6 .sarImm (fun x c => x.sshiftRight c.toNat) ∧ UnaryImm 6 .rotImm (fun x c => x.rotateRight c.toNat)
  ∧ UnaryImm 10 .sltImm (fun x i => if x.toInt < (i.signExtend 64).toInt then 1 else 0)
  ∧ UnaryImm 10 .sltuImm (fun x i => if x.toNat < (i.signExtend 64).toNat then 1 else 0)
  ∧ UnaryImm 10 .minImm (fun x i => if x.toInt ≤ (i.signExtend 64).toInt then x else i.signExtend 64)
  ∧ UnaryImm 10 .maxImm (fun x i => if x.toInt ≤ (i.signExtend 64).toInt then i.signExtend 64 else x)
  ∧ UnaryImm 10 .addWImm (fun x i => low32 (fun u v => u + v) x (i.signExtend 64))
  ∧ (∀ (s : State) (d : Reg) (i : BitVec 19), s.mayRetire [] [(d, i.signExtend 64)] = true →
      Completes (.li d i) s (s.advanced 4 [] [(d, i.signExtend 64)]))
  ∧ (∀ (s : State) (d : Reg) (h : BitVec 2) (i : BitVec 16) (z v : Word), Reads s d z →
      (∀ k < 64, v.getLsbD k = if k / 16 = h.toNat then i.getLsbD (k % 16) else z.getLsbD k) →
      s.mayRetire [] [(d, v)] = true → Completes (.lih d h i) s (s.advanced 4 [] [(d, v)]))

/-- The bit-field instructions take their offset and width from the immediate, or from rs2 (04_scalar.md R103), and write their field
function (R104). The field functions, bit by bit: above bit 63 BFX and BFI see zeros and BFXS copies of bit 63; bits that BFI would put
above bit 63 are dropped (04_scalar.md R104). -/
def Obligations.BitFieldInstructions : Prop :=
  ((∀ (s : State) (d a : Reg) (l : Bool) (o : BitVec 6) (w : BitVec 7) (x : Word), Reads s a x →
    (s.mayRetire (used l a) [(d, bitField x o.toNat w.toNat)] = true →
      Completes (.bfx d a l o w) s (s.advanced 4 (used l a) [(d, bitField x o.toNat w.toNat)]))
    ∧ (s.mayRetire (used l a) [(d, bitFieldSigned x o.toNat (w.toNat - 64))] = true →
      Completes (.bfxs d a l o w) s (s.advanced 4 (used l a) [(d, bitFieldSigned x o.toNat (w.toNat - 64))]))
    ∧ (s.mayRetire (used l a) [(d, bitFieldSigned x o.toNat 64)] = true →
      Completes (.bfxs64 d a l o) s (s.advanced 4 (used l a) [(d, bitFieldSigned x o.toNat 64)]))
    ∧ (∀ y, Reads s d y → s.mayRetire (used l a) [(d, bitInsert y x o.toNat w.toNat)] = true →
      Completes (.bfi d a l o w) s (s.advanced 4 (used l a) [(d, bitInsert y x o.toNat w.toNat)])))
  ∧ Binary 4 .bfxReg (fun x y => bitField x (y.toNat % 256) (min (y.toNat / 256 % 256) 64))
  ∧ Binary 4 .bfxsReg (fun x y => bitFieldSigned x (y.toNat % 256) (min (y.toNat / 256 % 256) 64))
  ∧ Ternary .bfiReg (fun z x y => bitInsert z x (y.toNat % 256) (min (y.toNat / 256 % 256) 64)))
  ∧ (∀ (x y : Word) (o w i : Nat), o < 256 → w ≤ 64 → i < 64 →
    (bitField x o w).getLsbD i = (decide (i < w) && x.getLsbD (o + i))
    ∧ (bitFieldSigned x o w).getLsbD i = (decide (0 < w) && x.getLsbD (min 63 (o + min i (w - 1))))
    ∧ (bitInsert y x o w).getLsbD i = if o ≤ i ∧ i < o + w then x.getLsbD (i - o) else y.getLsbD i)

/-- The products and quotients of major 0x05: high halves of exact products, quotients truncated towards zero (04_scalar.md R105), a zero
divisor giving all ones and the dividend (R106). -/
def Obligations.MulDivResults : Prop :=
  Binary 4 .mul (fun x y => BitVec.ofNat 64 (x.toNat * y.toNat))
  ∧ Binary 4 .mulh (fun x y => BitVec.ofInt 64 (x.toInt * y.toInt / 2 ^ 64))
  ∧ Binary 4 .mulhu (fun x y => BitVec.ofNat 64 (x.toNat * y.toNat / 2 ^ 64))
  ∧ Binary 4 .div (fun x y => if y = 0 then BitVec.allOnes 64 else BitVec.ofInt 64 (x.toInt.tdiv y.toInt))
  ∧ Binary 4 .divu (fun x y => if y = 0 then BitVec.allOnes 64 else BitVec.ofNat 64 (x.toNat / y.toNat))
  ∧ Binary 4 .rem (fun x y => if y = 0 then x else BitVec.ofInt 64 (x.toInt.tmod y.toInt))
  ∧ Binary 4 .remu (fun x y => if y = 0 then x else BitVec.ofNat 64 (x.toNat % y.toNat))
  ∧ Binary 4 .mulW (low32 (fun x y => BitVec.ofNat 32 (x.toNat * y.toNat)))
  ∧ Binary 4 .mulhW (low32 (fun x y => BitVec.ofInt 32 (x.toInt * y.toInt / 2 ^ 32)))
  ∧ Binary 4 .mulhuW (low32 (fun x y => BitVec.ofNat 32 (x.toNat * y.toNat / 2 ^ 32)))
  ∧ Binary 4 .divW (low32 (fun x y => if y = 0 then BitVec.allOnes 32 else BitVec.ofInt 32 (x.toInt.tdiv y.toInt)))
  ∧ Binary 4 .divuW (low32 (fun x y => if y = 0 then BitVec.allOnes 32 else BitVec.ofNat 32 (x.toNat / y.toNat)))
  ∧ Binary 4 .remW (low32 (fun x y => if y = 0 then x else BitVec.ofInt 32 (x.toInt.tmod y.toInt)))
  ∧ Binary 4 .remuW (low32 (fun x y => if y = 0 then x else BitVec.ofNat 32 (x.toNat % y.toNat)))

/-! ### Pointers and control flow (04_scalar.md R107 to R114) -/

/-- PADD and PIDX move the address field of the pointer's space by the exact delta, and trap with PTROVF where the result leaves the field
(04_scalar.md R107); PSET and PGET replace and read one field (R108), and PSHRD builds a SHRD pointer, or traps on an index of 2^40 or
more (R110). -/
def Obligations.PointerResults : Prop :=
  (∀ (s : State) (d a : Reg) (l : Bool) (b : Reg) (m : Bool) (p y : Word), Reads s a p → Reads s b y →
    let top := if ptrSpace p = 1 then 31 else if ptrSpace p = 2 then 39 else 51
    let t : Int := (bitsOf p top 0 : Int) + y.toInt
    let q := setBits p top 0 t.toNat
    let dies := used l a ++ used m b
    ((0 ≤ t ∧ t < 2 ^ (top + 1) ∧ s.mayRetire dies [(d, q)] = true) → Completes (.padd d a l b m) s (s.advanced 4 dies [(d, q)]))
    ∧ ((t < 0 ∨ 2 ^ (top + 1) ≤ t) → Completes (.padd d a l b m) s (s.takeTrap { cause := .ptrovf, faddr := p })))
  ∧ (∀ (s : State) (d a : Reg) (l : Bool) (b : Reg) (m : Bool) (p y : Word), Reads s a p → Reads s b y →
    let top := if ptrSpace p = 1 then 31 else if ptrSpace p = 2 then 39 else 51
    let size := if ptrSpace p = 2 then 1 else fmtBytes (ptrFmt p)
    let t : Int := (bitsOf p top 0 : Int) + y.toInt * size
    let q := setBits p top 0 t.toNat
    let dies := used l a ++ used m b
    ((size ≠ 0 ∧ 0 ≤ t ∧ t < 2 ^ (top + 1) ∧ s.mayRetire dies [(d, q)] = true) → Completes (.pidx d a l b m) s (s.advanced 4 dies [(d, q)]))
    ∧ (size = 0 → Completes (.pidx d a l b m) s (s.takeTrap { cause := .format, faddr := p }))
    ∧ ((size ≠ 0 ∧ (t < 0 ∨ 2 ^ (top + 1) ≤ t)) → Completes (.pidx d a l b m) s (s.takeTrap { cause := .ptrovf, faddr := p })))
  ∧ (∀ f : BitVec 2, Binary 4 (fun d a l b m => .pset d a l b m f) (fun x y => setBits x (ptrField f).1 (ptrField f).2 y.toNat))
  ∧ (∀ f : BitVec 2, Unary 4 (fun d a l => .pget d a l f) (fun x => wordOf (bitsOf x (ptrField f).1 (ptrField f).2)))
  ∧ (∀ (s : State) (d a : Reg) (l : Bool) (b : Reg) (m : Bool) (x y : Word), Reads s a x → Reads s b y →
    let v := wordOf (2 * 2 ^ 52 + bitsOf x 11 0 * 2 ^ 40 + bitsOf y 39 0)
    (y.toNat < 2 ^ 40 ∧ s.mayRetire (used l a ++ used m b) [(d, v)] = true →
      Completes (.pshrd d a l b m) s (s.advanced 4 (used l a ++ used m b) [(d, v)]))
    ∧ (2 ^ 40 ≤ y.toNat → Completes (.pshrd d a l b m) s (s.takeTrap { cause := .ptrovf, faddr := y })))

/-- PCORE copies FMT and BLK, sets SPACE to 1, and takes PKG, X and Y from rs2 and OFF from rs1 (04_scalar.md R109). -/
def Obligations.PcoreBuilds : Prop :=
  ∀ (s : State) (d a : Reg) (l : Bool) (b : Reg) (m : Bool) (x y v : Word), Reads s a x → Reads s b y →
    bitsOf v 63 55 = bitsOf x 63 55 → bitsOf v 54 52 = 1 → bitsOf v 51 32 = bitsOf y 19 0 → bitsOf v 31 0 = bitsOf x 31 0 →
    s.mayRetire (used l a ++ used m b) [(d, v)] = true →
    Completes (.pcore d a l b m) s (s.advanced 4 (used l a ++ used m b) [(d, v)])

/-- EXT puts the corners of rs1 and rs2 into an extent (04_scalar.md R111). -/
def Obligations.ExtBuilds : Prop :=
  ∀ (s : State) (d a : Reg) (l : Bool) (b : Reg) (m : Bool) (x y v : Word), Reads s a x → Reads s b y →
    bitsOf v 63 56 = bitsOf x 19 12 → bitsOf v 55 48 = bitsOf y 19 12 → bitsOf v 47 41 = bitsOf x 11 5 → bitsOf v 40 36 = bitsOf x 4 0 →
    bitsOf v 35 29 = bitsOf y 11 5 → bitsOf v 28 24 = bitsOf y 4 0 → bitsOf v 23 0 = 0 →
    s.mayRetire (used l a ++ used m b) [(d, v)] = true →
    Completes (.ext d a l b m) s (s.advanced 4 (used l a ++ used m b) [(d, v)])

/-- Branches and jumps: the target counts halfwords from the instruction, an odd target traps with ADDRESS and writes nothing
(04_scalar.md R112); BC, J, JAL and JR (R113) and LOOP (R114). -/
def Obligations.ControlFlow : Prop :=
  (∀ (s : State) (a : Reg) (l : Bool) (b : Reg) (m : Bool) (c : BitVec 3) (o : BitVec 10) (x y : Word), Reads s a x → Reads s b y →
    let dies := used l a ++ used m b
    let taken : Bool := match c.toNat with
      | 0 => x == y
      | 1 => x != y
      | 2 => decide (x.toInt < y.toInt)
      | 3 => decide (y.toInt ≤ x.toInt)
      | 4 => decide (x.toNat < y.toNat)
      | _ => decide (y.toNat ≤ x.toNat)
    let target := s.me.pc + o.signExtend 64 * 2
    (taken = false → s.mayRetire dies [] = true → Completes (.bc a l b m c o) s (s.advanced 4 dies []))
    ∧ (taken = true → target.getLsbD 0 = false → s.mayRetire dies [] = true →
        Completes (.bc a l b m c o) s (s.landedAt target dies []))
    ∧ (taken = true → target.getLsbD 0 = true →
        Completes (.bc a l b m c o) s (s.takeTrap { cause := .address, faddr := target })))
  ∧ (∀ (s : State) (o : BitVec 25), (s.me.pc + o.signExtend 64 * 2).getLsbD 0 = false →
    (s.mayRetire [] [] = true → Completes (.j o) s (s.landedAt (s.me.pc + o.signExtend 64 * 2) [] []))
    ∧ (s.mayRetire [] [(1, s.me.pc + 4)] = true →
        Completes (.jal o) s (s.landedAt (s.me.pc + o.signExtend 64 * 2) [] [(1, s.me.pc + 4)])))
  ∧ (∀ (s : State) (o : BitVec 25), let target := s.me.pc + o.signExtend 64 * 2
    target.getLsbD 0 = true → Completes (.j o) s (s.takeTrap { cause := .address, faddr := target })
      ∧ Completes (.jal o) s (s.takeTrap { cause := .address, faddr := target }))
  ∧ (∀ (s : State) (d a : Reg) (l : Bool) (i : BitVec 10) (x : Word), Reads s a x → (x + i.signExtend 64).getLsbD 0 = true →
    Completes (.jr d a l i) s (s.takeTrap { cause := .address, faddr := x + i.signExtend 64 }))
  ∧ (∀ (s : State) (d a : Reg) (l : Bool) (i : BitVec 10) (x : Word), Reads s a x → (x + i.signExtend 64).getLsbD 0 = false →
    s.mayRetire (used l a) [(d, s.me.pc + 4)] = true →
    Completes (.jr d a l i) s (s.landedAt (x + i.signExtend 64) (used l a) [(d, s.me.pc + 4)]))
  ∧ (∀ (s : State) (d : Reg) (i : BitVec 10) (x : Word), Reads s d x →
    let target := s.me.pc + i.signExtend 64 * 2
    (x = 0 → s.mayRetire [] [] = true → Completes (.loop d i) s (s.advanced 4 [] []))
    ∧ (x = 1 → s.mayRetire [] [(d, 0)] = true → Completes (.loop d i) s (s.advanced 4 [] [(d, 0)]))
    ∧ (x ≠ 0 → x ≠ 1 → target.getLsbD 0 = false → s.mayRetire [] [(d, x - 1)] = true →
        Completes (.loop d i) s (s.landedAt target [] [(d, x - 1)]))
    ∧ (x ≠ 0 → x ≠ 1 → target.getLsbD 0 = true → Completes (.loop d i) s (s.takeTrap { cause := .address, faddr := target })))

/-! ### Memory (05_memory_instr.md) -/

/-- Plain loads (05_memory_instr.md R122, R123, R132): LD, LDX and LDS, and the compact C.LD, send a load of 2^size bytes to the place of
their effective address and write the extended answer to rd, at once or when it comes back; a load that hits in the core cache or victim
pool takes it there (15_memory_map.md R348, R349), unless its hint is `.byp`. An LDS whose owner is another package waits for the owner's
answer (05_memory_instr.md R119). -/
def Obligations.PlainLoads : Prop :=
  (∀ (s : State) (d a : Reg) (l sg : Bool) (z h : BitVec 2) (i : BitVec 7) (b p : Word) (pl : Place), Reads s a b →
    advance b (i.toInt * 2 ^ z.toNat) = some p → s.placeOf p (2 ^ z.toNat) Need.load false = .ok pl →
    LoadGives (.ld d a l sg z h i) s s p pl (2 ^ z.toNat) (.load (2 ^ z.toNat) sg) 0 0 d 4 (used l a) h)
  ∧ (∀ (s : State) (d a : Reg) (l : Bool) (b : Reg) (m sg : Bool) (z h x : BitVec 2) (q y p : Word) (pl : Place), Reads s a q →
    Reads s b y → advance q (y.toInt * 2 ^ x.toNat) = some p → s.placeOf p (2 ^ z.toNat) Need.load false = .ok pl →
    LoadGives (.ldx d a l b m sg z h x) s s p pl (2 ^ z.toNat) (.load (2 ^ z.toNat) sg) 0 0 d 4 (used l a ++ used m b) h)
  ∧ (∀ (s : State) (d a : Reg) (l : Bool) (b : Reg) (m sg : Bool) (z h : BitVec 2) (q y p : Word) (pl : Place) (u : State),
    isService s.cur.1 = false → Reads s a q → Reads s b y → ptrSpace q = 2 → advance q y.toInt = some p →
    s.mySync = none → s.placeShard p (2 ^ z.toNat) Need.load = .ok (pl, u) →
    (pl.remote = none →
      LoadGives (.lds d a l b m sg z h) s u p pl (2 ^ z.toNat) (.load (2 ^ z.toNat) sg) 0 0 d 4 (used l a ++ used m b) h)
    ∧ (pl.remote ≠ none → u.mySync = none →
      HomeGives (.lds d a l b m sg z h) s u p pl (2 ^ z.toNat) 0 d (.load (2 ^ z.toNat) sg) 0 (used l a ++ used m b)))
  ∧ (∀ (s : State) (d a : BitVec 3) (l : Bool) (i : BitVec 4) (b p : Word) (pl : Place), Reads s (compactReg a) b →
    advance b (8 * i.toNat : Nat) = some p → s.placeOf p 8 Need.load false = .ok pl →
    LoadGives (.cLd d a l i) s s p pl 8 (.load 8 false) 0 0 (compactReg d) 2 (used l (compactReg a)))

/-- Plain stores (05_memory_instr.md R122, R132): ST, STX, STS and the compact C.ST send the low 2^size bytes of their data register; an
STS whose owner is another package waits for the owner's answer (05_memory_instr.md R119). -/
def Obligations.PlainStores : Prop :=
  (∀ (s : State) (d a : Reg) (l e : Bool) (z h : BitVec 2) (i : BitVec 7) (b p v : Word) (pl : Place), Reads s a b → Reads s d v →
    advance b (i.toInt * 2 ^ z.toNat) = some p → s.placeOf p (2 ^ z.toNat) Need.store false = .ok pl →
    StoreGives (.st d a l e z h i) s s p pl (2 ^ z.toNat) (.store (2 ^ z.toNat)) v 0 4 (used l a ++ used e d) h)
  ∧ (∀ (s : State) (d a : Reg) (l : Bool) (b : Reg) (m e : Bool) (z h x : BitVec 2) (q y p v : Word) (pl : Place), Reads s a q →
    Reads s b y → Reads s d v → advance q (y.toInt * 2 ^ x.toNat) = some p → s.placeOf p (2 ^ z.toNat) Need.store false = .ok pl →
    StoreGives (.stx d a l b m e z h x) s s p pl (2 ^ z.toNat) (.store (2 ^ z.toNat)) v 0 4 (used l a ++ used m b ++ used e d) h)
  ∧ (∀ (s : State) (d a : Reg) (l : Bool) (b : Reg) (m e : Bool) (z h : BitVec 2) (q y p v : Word) (pl : Place) (u : State),
    isService s.cur.1 = false → Reads s a q → Reads s b y → Reads s d v → ptrSpace q = 2 → advance q y.toInt = some p →
    s.mySync = none → s.placeShard p (2 ^ z.toNat) Need.store = .ok (pl, u) →
    (pl.remote = none →
      StoreGives (.sts d a l b m e z h) s u p pl (2 ^ z.toNat) (.store (2 ^ z.toNat)) v 0 4 (used l a ++ used m b ++ used e d) h)
    ∧ (pl.remote ≠ none → u.mySync = none →
      HomeGives (.sts d a l b m e z h) s u p pl (2 ^ z.toNat) 1 0 (.store (2 ^ z.toNat)) v (used l a ++ used m b ++ used e d)))
  ∧ (∀ (s : State) (b : BitVec 3) (m : Bool) (a : BitVec 3) (l : Bool) (i : BitVec 3) (q p v : Word) (pl : Place),
    Reads s (compactReg a) q → Reads s (compactReg b) v → advance q (8 * i.toNat : Nat) = some p →
    s.placeOf p 8 Need.store false = .ok pl →
    StoreGives (.cSt b m a l i) s s p pl 8 (.store 8) v 0 2 (used l (compactReg a) ++ used m (compactReg b)))

/-- Where plain accesses trap (04_scalar.md R107; 05_memory_instr.md R115, R119): an effective address outside its field with PTROVF, the
pointer as it stood before the addition in FADDR; a place that traps with what the place gives. -/
def Obligations.PlainAccessTraps : Prop :=
  ∀ (s : State) (d a : Reg) (l sg e : Bool) (z h : BitVec 2) (i : BitVec 7) (b v : Word), Reads s a b → Reads s d v →
    (advance b (i.toInt * 2 ^ z.toNat) = none →
      Completes (.ld d a l sg z h i) s (s.takeTrap { cause := .ptrovf, faddr := b })
      ∧ Completes (.st d a l e z h i) s (s.takeTrap { cause := .ptrovf, faddr := b }))
    ∧ (∀ p, advance b (i.toInt * 2 ^ z.toNat) = some p → ptrSpace p = 0 → fmtReserved (ptrFmt p) = false → s.myPart ≠ none →
      ptrAddr p % 2 ^ z.toNat ≠ 0 →
        Completes (.ld d a l sg z h i) s (s.takeTrap { cause := .address, faddr := p })
        ∧ Completes (.st d a l e z h i) s (s.takeTrap { cause := .address, faddr := p }))
    ∧ (∀ p n r, advance b (i.toInt * 2 ^ z.toNat) = some p → ptrSpace p = 0 → fmtReserved (ptrFmt p) = false → s.myPart = some n →
      ptrAddr p % 2 ^ z.toNat = 0 →
        (s.translate n s.me.level Need.load (ptrAddr p) = .error r →
          Completes (.ld d a l sg z h i) s (s.takeTrap { cause := .page, faddr := p, reason := r }))
        ∧ (s.translate n s.me.level Need.store (ptrAddr p) = .error r →
          Completes (.st d a l e z h i) s (s.takeTrap { cause := .page, faddr := p, reason := r })))

/-- Synchronising accesses and tag operations (05_memory_instr.md R124 to R131): the waiting loads and ST.give block until their home
answers; ST.fill, STT.vnx, STT.vset, VRECL and TAGW release; TAGR is a load. -/
def Obligations.SynchronisingAccesses : Prop :=
  (∀ (s : State) (d a : Reg) (l : Bool) (h : BitVec 2) (i : BitVec 7) (q p : Word) (pl : Place), Reads s a q →
    advance q (i.toInt * 8) = some p →
    (s.placeOf p 8 Need.read_ true = .ok pl → BlockingGives (.ldFut d a l h i) s p pl 0 false d .loadFut 0 (used l a))
    ∧ (s.placeOf p 8 Need.both true = .ok pl → BlockingGives (.ldTake d a l h i) s p pl 0 false d .loadTake 0 (used l a)))
  ∧ (∀ (s : State) (d a : Reg) (l : Bool) (b : Reg) (m : Bool) (h : BitVec 2) (q y : Word) (pl : Place), Reads s a q → Reads s b y →
    advance q 0 = some q → s.placeOf q 8 Need.read_ true = .ok pl →
    BlockingGives (.ldtVeq d a l b m h) s q pl 0 false d (.loadVeq (y.setWidth 7)) ((y.setWidth 7).setWidth 64) (used l a ++ used m b)
    ∧ BlockingGives (.ldtVge d a l b m h) s q pl 0 false d (.loadVge (y.setWidth 7)) ((y.setWidth 7).setWidth 64)
        (used l a ++ used m b))
  ∧ (∀ (s : State) (d a : Reg) (l e : Bool) (h : BitVec 2) (i : BitVec 7) (q p v : Word) (pl : Place), Reads s a q → Reads s d v →
    advance q (i.toInt * 8) = some p → s.placeOf p 8 Need.store true = .ok pl →
    ReleaseGives (.stFill d a l e h i) s p pl 8 .storeFill v (used l a ++ used e d)
    ∧ BlockingGives (.stGive d a l e h i) s p pl 1 true 0 .storeGive v (used l a ++ used e d))
  ∧ (∀ (s : State) (d a : Reg) (l e : Bool) (h : BitVec 2) (p v : Word) (pl : Place), Reads s a p → Reads s d v →
    s.placeOf p 8 Need.store true = .ok pl → ReleaseGives (.sttVnx d a l e h) s p pl 8 .storeVnx v (used l a ++ used e d))
  ∧ (∀ (s : State) (d a : Reg) (l : Bool) (b : Reg) (m e : Bool) (h : BitVec 2) (p y v : Word) (pl : Place), Reads s a p → Reads s b y →
    Reads s d v → s.placeOf p 8 Need.store true = .ok pl →
    ReleaseGives (.sttVset d a l b m e h) s p pl 8 (.storeVset (y.setWidth 7)) v (used l a ++ used m b ++ used e d))
  ∧ (∀ (s : State) (a : Reg) (l : Bool) (b : Reg) (m : Bool) (p y : Word) (pl : Place), Reads s a p → Reads s b y →
    fmtReserved (ptrFmt p) = false → ptrSpace p = 0 ∨ ptrSpace p = 3 → ptrAddr p % 8 = 0 → bitsOf y 39 0 % 8 = 0 →
    (bitsOf y 39 0 = 0 → s.mayRetire (used l a ++ used m b) [] = true →
      Completes (.vrecl a l b m) s (s.advanced 4 (used l a ++ used m b) []))
    ∧ (bitsOf y 39 0 ≠ 0 → s.placeOf p 8 Need.store true false = .ok pl → ∀ page : Nat,
      page = (match pl.seen with
        | some t => t.size
        | none => 4096) →
      (ptrAddr p / page = (ptrAddr p + bitsOf y 39 0 - 1) / page →
        ReleaseGives (.vrecl a l b m) s p pl (bitsOf y 39 0) (.retire (BitVec.ofNat 7 (bitsOf y 63 57)) (bitsOf y 39 0 / 8)) 0
          (used l a ++ used m b))
      ∧ (ptrAddr p / page ≠ (ptrAddr p + bitsOf y 39 0 - 1) / page →
        Completes (.vrecl a l b m) s (s.takeTrap { cause := .address, faddr := p }))))
  ∧ (∀ (s : State) (d a : Reg) (l : Bool) (p : Word) (pl : Place), Reads s a p → s.placeOf p 8 Need.read_ false = .ok pl →
    LoadGives (.tagr d a l) s s p pl 8 .tagRead 0 0 d 4 (used l a))
  ∧ (∀ (s : State) (a : Reg) (l : Bool) (b : Reg) (m : Bool) (p y : Word) (pl : Place), Reads s a p → Reads s b y →
    s.placeOf p 8 Need.store true false = .ok pl →
    ReleaseGives (.tagw a l b m) s p pl 8 (.tagWrite (y.setWidth 8)) 0 (used l a ++ used m b))

/-- Atomics (05_memory_instr.md R137): 4 or 8 bytes at rs1; with a result they are loads, without one stores (R120). -/
def Obligations.AtomicsSent : Prop :=
  (∀ (mk : Reg → Reg → Bool → Reg → Bool → BitVec 1 → BitVec 2 → Instr) (op : AmoOp),
    (mk, op) ∈ [(Instr.amoSwap, AmoOp.swap), (.amoAdd, .add), (.amoAnd, .and), (.amoOr, .or), (.amoXor, .xor), (.amoMin, .min),
      (.amoMax, .max), (.amoMinu, .minu), (.amoMaxu, .maxu)] →
    ∀ (s : State) (d a : Reg) (l : Bool) (b : Reg) (m : Bool) (z : BitVec 1) (h : BitVec 2) (p y : Word) (pl : Place),
      Reads s a p → Reads s b y → s.placeOf p (if z = 0 then 4 else 8) Need.both true = .ok pl →
      (d ≠ 0 → LoadGives (mk d a l b m z h) s s p pl (if z = 0 then 4 else 8) (.amo op (if z = 0 then 4 else 8)) y 0 d 4
        (used l a ++ used m b))
      ∧ (d = 0 → StoreGives (mk d a l b m z h) s s p pl (if z = 0 then 4 else 8) (.amo op (if z = 0 then 4 else 8)) y 0 4
        (used l a ++ used m b)))
  ∧ (∀ (s : State) (d a : Reg) (l : Bool) (b : Reg) (m : Bool) (z : BitVec 1) (h : BitVec 2) (x p y : Word) (pl : Place),
      Reads s d x → Reads s a p → Reads s b y → s.placeOf p (if z = 0 then 4 else 8) Need.both true = .ok pl →
      (d ≠ 0 → LoadGives (.cas d a l b m z h) s s p pl (if z = 0 then 4 else 8) (.cas (if z = 0 then 4 else 8)) y x d 4
        (used l a ++ used m b))
      ∧ (d = 0 → StoreGives (.cas d a l b m z h) s s p pl (if z = 0 then 4 else 8) (.cas (if z = 0 then 4 else 8)) y x 4
        (used l a ++ used m b)))

/-- Home reductions and joins (05_memory_instr.md R140, R143; 18_sparse.md R392): their checks and what they send. -/
def Obligations.ReductionsAndJoins : Prop :=
  (∀ (s : State) (d a : Reg) (l : Bool) (b : Reg) (m : Bool) (f : BitVec 6) (p y : Word) (pl : Place), Reads s a p → Reads s b y →
    0x10 ≤ f.toNat → f.toNat ≤ 0x15 → fmtReserved (ptrFmt p) = false → ptrSpace p = 0 ∨ ptrSpace p = 3 →
    s.placeOf p 64 Need.store true = .ok pl →
    (f ≠ 0x10 → LoadGives (.redo d a l b m f) s s p pl 0 (.reduceOpen (-160)) 0 0 d 4 (used l a ++ used m b))
    ∧ (∀ e : Int, f = 0x10 → e = (y.setWidth 12).toInt → -1074 ≤ e → e ≤ 1023 →
      LoadGives (.redo d a l b m f) s s p pl 0 (.reduceOpen e) 0 0 d 4 (used l a ++ used m b)))
  ∧ (∀ (s : State) (d a : Reg) (l : Bool) (b : Reg) (m : Bool) (f : BitVec 6) (p y : Word) (pl : Place), Reads s a p → Reads s b y →
    isNumberCode f.toNat = true → fmtReserved (ptrFmt p) = false → ptrSpace p = 0 ∨ ptrSpace p = 3 → s.mySync = none →
    (s.placeOf p 64 Need.store true = .ok pl →
      HomeGives (.reda a l b m f) s s p pl 0 1 0 (.reduceAdd f.toNat) y (used l a ++ used m b))
    ∧ (s.placeOf p 64 Need.read_ true = .ok pl →
      HomeGives (.redr d a l f) s s p pl 0 0 d (.reduceRead f.toNat) 0 (used l a)
      ∧ HomeGives (.redc d a l f) s s p pl 0 0 d (.reduceClose f.toNat) 0 (used l a))
    ∧ (∀ r : Request, r.op = .reduceAdd f.toNat ∨ r.op = .reduceRead f.toNat ∨ r.op = .reduceClose f.toNat →
      (s.atSlice r).accumulator r.part r.key = none → s.apply r = .trap { cause := .address, faddr := r.pointer }))
  ∧ (∀ (s : State) (d a : Reg) (l : Bool) (b : Reg) (m : Bool) (p y : Word) (pl : Place), Reads s a p → Reads s b y →
    fmtReserved (ptrFmt p) = false → ptrSpace p = 0 ∨ ptrSpace p = 3 → s.placeOf p 32 Need.both true = .ok pl →
    (d ≠ 0 → LoadGives (.jinit d a l b m) s s p pl 32 .jinit y 0 d 4 (used l a ++ used m b))
    ∧ (d = 0 → StoreGives (.jinit d a l b m) s s p pl 32 .jinit y 0 4 (used l a ++ used m b))
    ∧ (d = 0 → ReleaseGives (.join d a l b m) s p pl 32 .join y (used l a ++ used m b))
    ∧ (d ≠ 0 → ∀ mask, s.extent s.me.dext p = .ok mask →
      (s.drainedNow mask = true → LoadGives (.join d a l b m) s s p pl 32 .join y 0 d 4 (used l a ++ used m b))
      ∧ (s.drainedNow mask = false → s.readyToSend pl 32 0 = .ok () → (s.note pl).mayRetire (used l a ++ used m b) [(d, 0)] = true →
        let r := { s.requestOf p pl .join y 0 none (s.targetOf d) with length := 4 }
        Completes (.join d a l b m) s (s.afterStep
          ((((s.note pl).pending 4 (used l a ++ used m b) d).beginRequest r).hold r.id mask (.request r))))))

/-- What a home does with each operation, on a doubleword that is not poisoned and where no request waits (05_memory_instr.md R122 to
R131, R137): the bytes it leaves, the tag byte it leaves, and its answer, from the state in which the virtual-hash slice has written back
and dropped the V-copies of a forwarded request's lines (15_memory_map.md R338). What performing a request leaves beside its effect
touches neither memory, tags, poison, the V-copies nor the requests. Plain accesses of VIRT lines: see CachedLines. JOIN at a record
(05_memory_instr.md R143): on an armed record with more than one completion to come, COUNT falls by 1 and stays armed, LAST becomes the
joining core, and the counter of word 2 rises by 1; on a record that is not armed nothing changes and the answer is all ones. -/
def Obligations.HomesPerform : Prop :=
  ((∀ (s : State) (r : Request), (s.atSlice r).requests = [] → (s.atSlice r).poisoned r.key 8 = false →
    let u := s.atSlice r
    let old := u.dword r.key
    let t := u.tag r.key
    let stored := u.storeBytes r.key 8 r.data.toNat
    let did (x : State) (v : Word) : Answer := .done (u.performed x r) v
    (r.op = .loadFut → s.apply r = if tagFE t = true then did u old else .unmet)
    ∧ (r.op = .loadTake → s.apply r = if tagFE t = true then did (u.setTag r.key (mkTag false (tagVer t))) old else .unmet)
    ∧ (r.op = .storeFill → s.apply r = did (stored.setTag r.key (mkTag true (tagVer t))) 0)
    ∧ (r.op = .storeGive → s.apply r = if tagFE t = true then .unmet else did (stored.setTag r.key (mkTag true (tagVer t))) 0)
    ∧ (∀ v, r.op = .loadVeq v → s.apply r = if tagVer t = v then did u old
        else if (tagVer t - v).toNat = 64 then .trap { cause := .verovr, faddr := r.pointer } else .unmet)
    ∧ (∀ v, r.op = .loadVge v → s.apply r = if (tagVer t - v).toNat < 64 then did u old else .unmet)
    ∧ (r.op = .storeVnx → s.apply r = did (stored.setTag r.key (mkTag (tagFE t) (tagVer t + 1))) 0)
    ∧ (∀ v, r.op = .storeVset v → s.apply r = did (stored.setTag r.key (mkTag (tagFE t) v)) 0)
    ∧ (r.op = .tagRead → s.apply r = did u (t.setWidth 64))
    ∧ (∀ b, r.op = .tagWrite b → s.apply r = did (u.setTag r.key b) 0)
    ∧ (r.op = .amo .swap 8 → s.apply r = did stored old)
    ∧ (r.op = .amo .add 8 → r.data ≠ 0 → s.apply r = did (u.storeBytes r.key 8 (old + r.data).toNat) old)
    ∧ (r.op = .amo .max 8 → old.toInt < r.data.toInt → s.apply r = did stored old)
    ∧ (r.op = .amo .max 8 → r.data.toInt ≤ old.toInt → s.apply r = did u old)
    ∧ (r.op = .amo .minu 8 → r.data.toNat < old.toNat → s.apply r = did stored old)
    ∧ (r.op = .cas 8 → old = r.expected → r.data ≠ old → s.apply r = did stored old)
    ∧ (r.op = .cas 8 → old ≠ r.expected → s.apply r = did u old)
    ∧ (∀ sgn, r.op = .load 8 sgn → r.sealSlot = none → r.line = none → u.aliasValues none r.key 8 = [] → s.apply r = did u old)
    ∧ (r.op = .store 8 → r.line = none → s.apply r = did stored 0))
  ∧ (∀ (u x : State) (r : Request), (u.performed x r).mem = x.mem ∧ (u.performed x r).tags = x.tags ∧ (u.performed x r).poison = x.poison
    ∧ (u.performed x r).vcopies = x.vcopies ∧ (u.performed x r).requests = x.requests ∧ (u.performed x r).tiles = x.tiles))
  ∧ (∀ (s : State) (part home key last ecore : Nat), last < 4096 →
    (bitAt (s.dword key) 32 = false → s.joinStep part home key last ecore 0 = (s, BitVec.allOnes 64))
    ∧ (bitAt (s.dword key) 32 = true → 2 ≤ bitsOf (s.dword key) 31 0 →
        (s.joinStep part home key last ecore 0).2 = wordOf (bitsOf (s.dword key) 31 0 - 1)
        ∧ (s.joinStep part home key last ecore 0).1
            = (s.storeBytes key 8 (setBits (setBits (setBits (s.dword key) 31 0 (bitsOf (s.dword key) 31 0 - 1)) 59 48 last) 32 32 1).toNat).storeBytes
                (key + 16) 8 (setBits (s.dword (key + 16)) 31 0 (bitsOf (s.dword (key + 16)) 31 0 + 1)).toNat))

/-- FENCE, FLUSH, CINV, PREF, WAIT and C.WAIT (05_memory_instr.md R134 to R136; 03_encoding.md R95): FENCE waits for the counters its
extent touches, reports and clears their lost marks, and acquires; FLUSH is counted as a store and comes after the context's own stores to
its lines; CINV drops the lines of its range from the issuing core's cache; PREF asks for the lines of its range; WAIT waits until no
class is above its limit. -/
def Obligations.FencesAndWaits : Prop :=
  (∀ (s : State) (d a : Reg) (l : Bool) (e : Word) (mask : BitVec 4), Reads s a e → s.extent e e = .ok mask →
    (s.drainedNow mask = true →
      let u := (s.setMe { s.me with lost := s.me.lost &&& ~~~mask }).acquire s.cur.1
      let v := wordOf ((if s.me.lost &&& mask = 0 then 0 else 1) + (s.me.lost &&& mask).toNat * 2)
      u.mayRetire (used l a) [(d, v)] = true → Completes (.fence d a l) s (s.after u 4 (used l a) [(d, v)]))
    ∧ (s.drainedNow mask = false → Completes (.fence d a l) s (s.block .retry)))
  ∧ (∀ (s : State) (a : Reg) (l : Bool) (b : Reg) (m : Bool) (p n : Word), Reads s a p → Reads s b n →
    let dies := used l a ++ used m b
    (s.rangeOf p n [0, 3] = .ok () →
      (n = 0 ∨ ptrSpace p = 3 → s.mayRetire dies [] = true → Completes (.flush a l b m) s (s.advanced 4 dies []))
      ∧ (n ≠ 0 → ptrSpace p ≠ 3 →
        (s.linesPending p n.toNat = true → Completes (.flush a l b m) s (s.block .retry))
        ∧ (s.linesPending p n.toNat = false →
          let pl : Place := { key := 0, home := s.sliceOf (s.myPart.getD 0) (ptrAddr p / 4096), counter := 0, part := s.myPart.getD 0 }
          StoreGives (.flush a l b m) s s p pl 0 (.flush n.toNat) 0 0 4 dies)))
    ∧ (s.rangeOf p n [0, 1, 2, 3] = .ok () →
      (let u := s.dropNear s.cur.1 (s.linesOf p n)
       u.mayRetire dies [] = true → Completes (.cinv a l b m) s (s.after u 4 dies []))
      ∧ (∀ h, let u := s.prefetchRange p n.toNat h
        u.mayRetire dies [] = true → Completes (.pref h a l b m) s (s.after u 4 dies []))))
  ∧ (∀ (s : State) (x y z w : BitVec 4),
    let met := (x = 15 ∨ s.me.outstanding.c0 ≤ x.toNat) ∧ (y = 15 ∨ s.me.outstanding.c1 ≤ y.toNat)
      ∧ (z = 15 ∨ s.me.outstanding.c2 ≤ z.toNat) ∧ (w = 15 ∨ s.me.outstanding.c3 ≤ w.toNat)
    (met → s.mayRetire [] [] = true → Completes (.wait x y z w) s (s.advanced 4 [] []))
    ∧ (¬ met → Completes (.wait x y z w) s (s.block .retry)))
  ∧ (∀ (s : State) (m : BitVec 4),
    let met := (m.getLsbD 0 = true → s.me.outstanding.c0 = 0) ∧ (m.getLsbD 1 = true → s.me.outstanding.c1 = 0)
      ∧ (m.getLsbD 2 = true → s.me.outstanding.c2 = 0) ∧ (m.getLsbD 3 = true → s.me.outstanding.c3 = 0)
    (met → s.mayRetire [] [] = true → Completes (.cWait m) s (s.advanced 2 [] []))
    ∧ (¬ met → Completes (.cWait m) s (s.block .retry)))

/-- One byte written is read back, and every other byte of a canonical memory reads as before (00_scope.md R5). A store of n bytes leaves
every byte outside [key, key + n) as it was, and within it the bytes of the value, the lowest at the lowest address (00_scope.md R5;
05_memory_instr.md R122). -/
def Obligations.StoresAreReadBack : Prop :=
  (∀ (m : List Host.Cell) (a : Nat) (b : Byte), Memory.wf m = true →
    readByte (writeByte m a b) a = b ∧ ∀ c, c ≠ a → readByte (writeByte m a b) c = readByte m c)
  ∧ (∀ (s : State) (key n v : Nat), Memory.wf s.mem = true →
    (∀ a, a < key ∨ key + n ≤ a → readByte (s.storeBytes key n v).mem a = readByte s.mem a)
    ∧ (∀ i < n, readByte (s.storeBytes key n v).mem (key + i) = BitVec.ofNat 8 (v / 256 ^ i)))

/-- Lines that L2 and the cores hold (15_memory_map.md R338, R348; 05_memory_instr.md R128): a plain load through a virtual line returns
the bytes of its V-copy, whatever memory holds; a plain store changes its V-copy alone, which is then modified, and leaves memory as it
was; but for the residency hint that a copy records, every other copy stays as it was. What a slice writes back is the modified bytes of
the copy and no other byte; an acquire leaves the core no line of its own, and every other core's as they were. -/
def Obligations.CachedLines : Prop :=
  (∀ (s : State) (r : Request) (c : VCopy) (size : Nat) (sgn : Bool), s.requests = [] → r.op = .load size sgn → r.sealSlot = none →
    s.copyOf r.line r.key = some c → s.poisoned r.key size = false → s.aliasValues r.line r.key size = [] →
    ∃ t, s.apply r = .done t (extended size sgn (lineBytes c.data (r.key % 128) size)) ∧ t.mem = s.mem
      ∧ t.vcopies.map (fun v => { v with hint := 0 }) = s.vcopies.map (fun v => { v with hint := 0 }))
  ∧ (∀ (s : State) (r : Request) (c : VCopy) (size : Nat), s.requests = [] → r.op = .store size → r.sealSlot = none →
    s.copyOf r.line r.key = some c →
    ∃ t, s.apply r = .done t 0 ∧ t.mem = s.mem
      ∧ (∀ v ∈ s.vcopies, ¬ (v.part = c.part ∧ v.line = c.line) → ∃ h, { v with hint := h } ∈ t.vcopies)
      ∧ ∃ h, { c with data := setLineBytes c.data (r.key % 128) size (bitsOf r.data (8 * size - 1) 0)
                      dirty := c.dirty ||| BitVec.ofNat 128 ((2 ^ size - 1) * 2 ^ (r.key % 128)), hint := h } ∈ t.vcopies)
  ∧ (∀ (s : State) (v : VCopy) (rest : List VCopy), Memory.wf s.mem = true → s.vcopies = v :: rest →
    (∀ x ∈ rest, ¬ (x.part = v.part ∧ x.line = v.line)) → s.dieLost (linearDie (v.frame * 128)) = false →
    (s.dropLine v.part v.line).vcopies = rest
    ∧ ∀ a, readByte (s.dropLine v.part v.line).mem a
        = if a / 128 = v.frame ∧ v.dirty.getLsbD (a % 128) = true then BitVec.ofNat 8 (lineBytes v.data (a % 128) 1) else readByte s.mem a)
  ∧ (∀ (s : State) (n m line : Nat), ((s.acquire n).core n).ownLine line = none
    ∧ (m ≠ n → (s.acquire n).core m = s.core m) ∧ (s.acquire n).mem = s.mem ∧ (s.acquire n).vcopies = s.vcopies)

/-! ### Tasks, messages, contexts (06_task_instr.md) -/

/-- SPAWN sends the task of its image into the relief at the tile of its core, at once when every counter has drained and otherwise held
(06_task_instr.md R153); LAUNCH hands its packet to the distributor with the operation number in rd (R155); YIELD and PRIO (R157, R158).
-/
def Obligations.TaskInstructions : Prop :=
  (∀ (s : State) (a : Reg) (l : Bool) (b : Reg) (m : Bool) (p y entry : Word) (img : List Word), Reads s a p → Reads s b y →
    s.taskImage p = .ok (img, entry) → s.classFull 1 = false → s.mayRetire (used l a ++ used m b) [] = true →
    let u := s.retiredTo (s.me.pc + 4) (used l a ++ used m b) []
    let w := { u with nextId := s.nextId + 1 }.beginOp s.cur.1 s.cur.2 1 none
    let t := s.newTask img entry (if b = 0 then none else some y)
    (s.drainedNow 15 = true → Completes (.spawn a l b m) s (s.afterStep (w.enterRelief (coreTile s.cur.1) t)))
    ∧ (s.drainedNow 15 = false →
        Completes (.spawn a l b m) s (s.afterStep (w.hold s.nextId 15 (.task (coreTile s.cur.1) t)))))
  ∧ (∀ (s : State) (d a : Reg) (l : Bool) (p entry : Word) (img : List Word), Reads s a p → spaces p [0, 1] = .ok () → ptrAddr p % 8 = 0 →
    s.fetchImage p 0 16 = .ok img → bitsOf (img.getD 0 0) 44 42 = 0 → bitsOf (img.getD 4 0) 63 8 = 0 →
    (∀ i < 11, img.getD (5 + i) 0 = 0) → s.myPart = some (bitsOf (img.getD 0 0) 51 48) →
    s.routineEntry (bitsOf (img.getD 0 0) 63 52) p = .ok entry → s.classFull 1 = false →
    let v : Word := s.me.opNumber.setWidth 64
    let u := s.setMe { s.me with opNumber := s.me.opNumber + 1 }
    u.mayRetire (used l a) [(d, v)] = true →
    let w := u.retiredTo (u.me.pc + 4) (used l a) [(d, v)]
    let w := { w with nextId := s.nextId + 1 }.beginOp s.cur.1 s.cur.2 1 none
    let req : LaunchRequest := { packet := Vector.ofFn (fun i : Fin 16 => img.getD i.val 0), part := bitsOf (img.getD 0 0) 51 48
                                 entry := entry, issuer := some (s.cur.1, s.cur.2, s.me.opNumber) }
    (s.drainedNow 15 = true → Completes (.launch d a l) s (s.afterStep { w with launchQueue := w.launchQueue ++ [req] }))
    ∧ (s.drainedNow 15 = false → Completes (.launch d a l) s (s.afterStep (w.hold s.nextId 15 (.launch req)))))
  ∧ (∀ (s : State), s.mayRetire [] [] = true →
    (let u := s.retiredTo (s.me.pc + 4) [] []
     Completes .yield s (s.afterStep (u.setMe { u.me with wait := .yielded })))
    ∧ (let u := s.retiredTo (s.me.pc + 2) [] []
       Completes .cYield s (s.afterStep (u.setMe { u.me with wait := .yielded }))))
  ∧ (∀ (s : State) (d a : Reg) (l : Bool) (x : Word), Reads s a x → s.mayRetire (used l a) [(d, s.me.prio.setWidth 64)] = true →
    let u := s.retiredTo (s.me.pc + 4) (used l a) [(d, s.me.prio.setWidth 64)]
    Completes (.prio d a l) s (s.afterStep (u.setMe { u.me with prio := x.setWidth 3 })))

/-- SENDM and REPLY put the message of their image on its way with the fields that the sending hardware writes (06_task_instr.md R149,
R162, R165): at once when the counters of DEXT have drained, and otherwise it is held. A CORE pointer to a core of this package that the
sender may name is that core's inbox (01_assembly.md R40). MCAST, once the counters of DEXT have drained, reads its list and its data,
sends the stores of every destination in list order, the last of each a `.fill` where its list asks, and writes the operation number to
rd; its completion message follows its last store (05_memory_instr.md R145, R146). -/
def Obligations.MulticastsAndMessagesSent : Prop :=
  ((∀ (s : State) (a : Reg) (l : Bool) (b : Reg) (m : Bool) (p y : Word) (img : List Word) (dest : Dest) (counter : Nat) (mask : BitVec 4),
    Reads s a p → Reads s b y → s.messageImage p = .ok img → s.destinationOf y = .ok (dest, counter) →
    (8 ≤ bitsOf (img.getD 0 0) 4 0 ∨ (1 ≤ s.me.level ∧ (bitsOf (img.getD 0 0) 4 0 = 2 ∨ bitsOf (img.getD 0 0) 4 0 = 3
      ∨ bitsOf (img.getD 0 0) 4 0 = 5))) →
    s.classFull 1 = false → s.retryFull = false → (counter = 3 → s.replayFull = false) → s.extent s.me.dext y = .ok mask →
    s.mayRetire (used l a ++ used m b) [] = true →
    let f : Flight :=
      { id := s.nextId, dest := dest, source := s.cur.1, part := s.myPart.getD 0, gtc := s.gtc
        issuer := some (s.cur.1, s.cur.2, counter)
        msg := { header := headerOf s.pkg.toNat s.cur.1 s.cur.2 (bitsOf (img.getD 0 0) 39 36) (bitsOf (img.getD 0 0) 31 16) 0
                   (bitsOf (img.getD 0 0) 4 0)
                 arg0 := img.getD 1 0, arg1 := img.getD 2 0, arg2 := img.getD 3 0, arg3 := img.getD 4 0, arg4 := img.getD 5 0
                 arg5 := img.getD 6 0, arg6 := img.getD 7 0 } }
    let u := s.retiredTo (s.me.pc + 4) (used l a ++ used m b) []
    let w := { u with nextId := u.nextId + 1 }.beginOp s.cur.1 s.cur.2 1 (some counter)
    (s.drainedNow mask = true → Completes (.sendm a l b m) s (s.afterStep (w.sendMessage f)))
    ∧ (s.drainedNow mask = false → Completes (.sendm a l b m) s (s.afterStep (w.hold f.id mask (.message f)))))
  ∧ (∀ (s : State) (y : Word) (core : Nat), fmtReserved (ptrFmt y) = false → ptrSpace y = 1 → ptrPkg y ≠ 0xFE →
    s.coreNamed y = some (.inl core) → s.mayName core = true → s.dieLost (coreDie core) = false →
    s.destinationOf y = .ok (.core core, s.coreCounter core))
  ∧ (∀ (s : State) (a : Reg) (l : Bool) (p : Word) (img : List Word) (pkg core ctx counter : Nat) (dest : Dest) (mask : BitVec 4),
    Reads s a p → s.me.replyTo = some (pkg, core, ctx) → s.messageImage p = .ok img →
    s.destinationOf (replyTarget pkg core) = .ok (dest, counter) →
    8 ≤ bitsOf (img.getD 0 0) 4 0 → s.classFull 1 = false → s.retryFull = false → (counter = 3 → s.replayFull = false) →
    s.extent s.me.dext p = .ok mask → s.mayRetire (used l a) [] = true →
    let f : Flight :=
      { id := s.nextId, dest := dest, source := s.cur.1, part := s.myPart.getD 0, gtc := s.gtc
        issuer := some (s.cur.1, s.cur.2, counter), msg := s.messageOf img (if pkg = 0xFE then 0 else ctx) }
    let u := s.retiredTo (s.me.pc + 4) (used l a) []
    let w := { u with nextId := u.nextId + 1 }.beginOp s.cur.1 s.cur.2 1 (some counter)
    (s.drainedNow mask = true → Completes (.reply a l) s (s.afterStep (w.sendMessage f)))
    ∧ (s.drainedNow mask = false → Completes (.reply a l) s (s.afterStep (w.hold f.id mask (.message f))))))
  ∧ (∀ (s : State) (d a : Reg) (l : Bool) (b : Reg) (m : Bool) (src lst h : Word) (dests data : List Word) (t : State) (lost : Bool) (w : Nat)
    (mask : BitVec 4),
    Reads s a src → Reads s b lst → spaces src [0, 1] = .ok () → spaces lst [0] = .ok () → ptrAddr src % 8 = 0 → ptrAddr lst % 8 = 0 →
    s.classFull 1 = false → s.extent s.me.dext lst = .ok mask → s.drainedNow mask = true → s.fetchData lst 8 = .ok w → h = wordOf w →
    bitsOf h 63 21 = 0 → bitAt h 7 = false → bitsOf h 19 8 % 8 = 0 → 8 ≤ bitsOf h 19 8 → bitsOf h 19 8 ≤ 2048 →
    1 ≤ bitsOf h 6 0 → bitsOf h 6 0 ≤ 64 → s.fetchImage lst 1 (bitsOf h 6 0) = .ok dests →
    (∀ p ∈ dests, fmtReserved (ptrFmt p) = false ∧ (ptrSpace p = 0 ∨ ptrSpace p = 1) ∧ ptrAddr p % 8 = 0) →
    s.fetchImage src 0 (bitsOf h 19 8 / 8) = .ok data → s.mcastBlocked dests (bitsOf h 19 8 / 8) = false →
    ((s.takeNumber.2).beginOp s.cur.1 s.cur.2 1 none).mcastAll (bitAt h 20) s.nextId s.takeNumber.1 (data.map (·.toNat)) false dests
      = .ok (t, lost) →
    (t.requests.any (fun r => r.grp == s.nextId) = false →
      let u := t.complete s.cur.1 s.cur.2 (s.myPart.getD 0) s.me.opNumber (some 1) (if lost then 1 else 0) []
      u.mayRetire (used l a ++ used m b) [(d, s.me.opNumber.setWidth 64)] = true →
      Completes (.mcast d a l b m) s (s.after u 4 (used l a ++ used m b) [(d, s.me.opNumber.setWidth 64)]))
    ∧ (t.requests.any (fun r => r.grp == s.nextId) = true →
      let u := { t with requests := t.requests.map (fun r => if r.grp = s.nextId then { r with groupLost := r.groupLost || lost } else r) }
      u.mayRetire (used l a ++ used m b) [(d, s.me.opNumber.setWidth 64)] = true →
      Completes (.mcast d a l b m) s (s.after u 4 (used l a ++ used m b) [(d, s.me.opNumber.setWidth 64)])))

/-- RECV takes the oldest message for its context, writes the header to rd, remembers the source for REPLY, acquires and, unless rs1 is
g0, stores the payload (06_task_instr.md R163); C.RECV; with no message they wait; PEEK writes the header without taking the message
(R164). -/
def Obligations.MessagesTaken : Prop :=
  (∀ (s : State) (d : Reg) (g : Message), s.nextMessage s.cur.1 s.cur.2 = some g → s.mayRetire [] [(d, g.header)] = true →
    (let u := s.retiredTo (s.me.pc + 4) [] [(d, g.header)]
     let w := u.setMine { u.mine with inbox := dropFirst (s.forRecv s.cur.1 s.cur.2) u.mine.inbox }
     Completes (.recv d 0 false) s (s.afterStep ((w.setMe { w.me with replyTo := some g.source }).acquire s.cur.1)))
    ∧ (let u := s.retiredTo (s.me.pc + 2) [] [(d, g.header)]
       let w := u.setMine { u.mine with inbox := dropFirst (s.forRecv s.cur.1 s.cur.2) u.mine.inbox }
       Completes (.cRecv d) s (s.afterStep ((w.setMe { w.me with replyTo := some g.source }).acquire s.cur.1))))
  ∧ (∀ (s : State) (d a : Reg) (l : Bool) (p : Word) (g : Message) (places : List (Word × Place)), Reads s a p → a ≠ 0 →
    s.nextMessage s.cur.1 s.cur.2 = some g → s.storePlaces p 0 7 = .ok places →
    places.any (fun e => s.conflicts e.2.key 8) = false → s.me.outstanding.c1 < 57 → s.mayRetire (used l a) [(d, g.header)] = true →
    let u := s.retiredTo (s.me.pc + 4) (used l a) [(d, g.header)]
    let w := u.setMine { u.mine with inbox := dropFirst (s.forRecv s.cur.1 s.cur.2) u.mine.inbox }
    let w := (w.setMe { w.me with replyTo := some g.source }).acquire s.cur.1
    Completes (.recv d a l) s
      (s.afterStep ((places.zip g.payload).foldl (fun (t : State) e => t.storeNow e.1.1 e.1.2 e.2) w)))
  ∧ (∀ (s : State) (d a : Reg) (l : Bool) (p : Word), Reads s a p → s.nextMessage s.cur.1 s.cur.2 = none →
    Completes (.recv d a l) s (s.block .retry) ∧ Completes (.cRecv d) s (s.block .retry))
  ∧ (∀ (s : State) (d : Reg) (v : Word), v = (match s.nextMessage s.cur.1 s.cur.2 with
      | some g => g.header
      | none => 0) → s.mayRetire [] [(d, v)] = true → Completes (.peek d) s (s.advanced 4 [] [(d, v)]))

/-- HSTART starts the lowest free helper that is not reserved and gives its number (06_task_instr.md R166); HHALT and HHALT.retain end the
helper once its operations and counters have drained (R167); HWAIT gives the lowest named helper that is not live (R168). QHND sets the
light handler address, QRET returns to the kept instruction and leaves the light handler, and a QRET outside one is ILLEGAL
(06_task_instr.md R177). -/
def Obligations.HelpersAndHandlers : Prop :=
  ((∀ (s : State) (d a : Reg) (l : Bool) (b : Reg) (m : Bool) (x y : Word) (h : Nat), 1 ≤ s.me.level → s.cur.2 = 0 →
    isService s.cur.1 = false → Reads s a x → Reads s b y → bitAt x 0 = false → s.mine.freeHelpers.head? = some h →
    s.mayRetire (used l a ++ used m b) [(d, wordOf h)] = true →
    let t := (s.retiredTo (s.me.pc + 4) (used l a ++ used m b) [(d, wordOf h)]).setCtx s.cur.1 h (Ctx.start x 0 .hstart (startArgs [y]))
    (t.gangStopping s.cur.1 = false → Completes (.hstart d a l b m) s (s.afterStep t))
    ∧ (t.gangStopping s.cur.1 = true →
      Completes (.hstart d a l b m) s (s.afterStep (t.layAndSave s.cur.1 h .gangStopped false false))))
  ∧ (∀ (s : State) (d a : Reg) (l : Bool) (b : Reg) (m : Bool) (x y : Word), 1 ≤ s.me.level → s.cur.2 = 0 →
    isService s.cur.1 = false → Reads s a x → Reads s b y → s.mine.freeHelpers = [] →
    s.mayRetire (used l a ++ used m b) [(d, 0)] = true →
    Completes (.hstart d a l b m) s (s.advanced 4 (used l a ++ used m b) [(d, 0)]))
  ∧ (∀ (s : State) (a : Reg) (l : Bool) (x : Word), Reads s a x → s.cur.2 ≠ 0 →
    let u := s.unbindStreams s.cur.1 s.cur.2
    (u.quiet = true →
      Completes (.hhalt a l) s
        (s.afterStep ((u.powerDown u.cur.1 u.cur.2).freeHelper u.cur.1 u.cur.2 (haltCode u.me (bitsOf x 15 0)))))
    ∧ (u.quiet = false → Completes (.hhalt a l) s (u.block .retry)))
  ∧ (∀ (s : State), s.cur.2 ≠ 0 →
    let u := s.unbindStreams s.cur.1 s.cur.2
    u.quiet = true →
      Completes .cHhalt s (s.afterStep ((u.powerDown u.cur.1 u.cur.2).freeHelper u.cur.1 u.cur.2 (haltCode u.me 0))))
  ∧ (∀ (s : State) (a : Reg) (l : Bool) (b : Reg) (m : Bool) (p y entry : Word) (img : List Word), Reads s a p → Reads s b y →
    s.cur.2 ≠ 0 → s.taskImage p = .ok (img, entry) →
    let u := s.unbindStreams s.cur.1 s.cur.2
    u.quiet = true →
    let banks := u.mine.allotment u.cur.2
    let t := { s.newTask img entry none with issuer := none, pinned := some (u.cur.1, banks) }
    let w := (u.setMine { u.mine with banks := banks.foldl (fun b n => Table.put b n 16) u.mine.banks }).freeHelper u.cur.1 u.cur.2
      (haltCode u.me (bitsOf y 15 0))
    let tile := w.tile (coreTile w.cur.1)
    let e : QEntry := { kind := .task t, level := t.prio.toNat, resident := true, joined := w.gtc }
    Completes (.hhaltRetain a l b m) s
      (s.afterStep (w.setTile (coreTile w.cur.1) { tile with queue := queueHead tile.queue e })))
  ∧ (∀ (s : State) (d a : Reg) (l : Bool) (x : Word), 1 ≤ s.me.level → s.cur.2 = 0 → Reads s a x →
    (∀ h, 1 ≤ h → h ≤ 10 → bitAt x h = true → (s.mine.ctx h).isLive = false →
      (∀ k, 1 ≤ k → k < h → bitAt x k = true → (s.mine.ctx k).isLive = true) →
      s.mayRetire (used l a) [(d, wordOf h)] = true → Completes (.hwait d a l) s (s.advanced 4 (used l a) [(d, wordOf h)]))
    ∧ ((∀ k, 1 ≤ k → k ≤ 10 → bitAt x k = true → (s.mine.ctx k).isLive = true) →
      ((s.nextMessage s.cur.1 0).isSome = true → s.mayRetire (used l a) [(d, 0)] = true →
        Completes (.hwait d a l) s (s.advanced 4 (used l a) [(d, 0)]))
      ∧ (s.nextMessage s.cur.1 0 = none → Completes (.hwait d a l) s (s.block .retry)))))
  ∧ ((∀ (s : State) (a : Reg) (l : Bool) (x : Word), Reads s a x →
    (bitAt x 0 = true → Completes (.qhnd a l) s (s.takeTrap { cause := .address, faddr := x }))
    ∧ (bitAt x 0 = false → s.mayRetire (used l a) [] = true →
      let u := s.retiredTo (s.me.pc + 4) (used l a) []
      Completes (.qhnd a l) s (s.afterStep (u.setMe { u.me with lightAddr := x }))))
  ∧ (∀ (s : State), s.me.inLight = true → s.mayRetire [] [] = true →
    let u := s.retiredTo s.me.lightKept [] []
    Completes .qret s (s.afterStep (u.setMe { u.me with inLight := false, lightNested := false })))
  ∧ (∀ (s : State), s.me.inLight = false →
    Completes .qret s (s.takeTrap { cause := .illegal, faddr := Instr.qret.encoding })))

/-! ### Crews, barriers and channels (06_task_instr.md) -/

/-- CREW sends its request to the arbiter of its super-group (06_task_instr.md R169), and is held while the arbiter or the spill area has
no room or its counters have not drained; CREWX gives the crew-relative extent of the crew, and traps outside one (R170). BAR
(06_task_instr.md R171): an arrival that completes its epoch goes on with the lost marks in rd; one that does not waits at the barrier; an
extent that names other cores than those of the crew traps with ADDRESS. -/
def Obligations.CrewsAndBarriers : Prop :=
  ((∀ (s : State) (a : Reg) (l : Bool) (b : Reg) (m : Bool) (p y entry : Word) (img : List Word), Reads s a p → Reads s b y →
    s.taskImage p = .ok (img, entry) → s.classFull 1 = false → s.mayRetire (used l a ++ used m b) [] = true →
    let t := s.newTask img entry none
    let req : CrewRequest :=
      { task := t, w := bitsOf y 2 0 + 1, h := bitsOf y 7 4 + 1, level := t.prio.toNat, joined := s.gtc }
    let sg := if bitAt (img.getD 0 0) 36 then tileSuperGroup (bitsOf (img.getD 0 0) 35 27) else superGroupOf s.cur.1
    let u := s.retiredTo (s.me.pc + 4) (used l a ++ used m b) []
    let w := { u with nextId := s.nextId + 1 }.beginOp s.cur.1 s.cur.2 1 none
    (∀ v, s.drainedNow 15 = true → w.crewArrive sg req = some v → Completes (.crew a l b m) s (s.afterStep v))
    ∧ ((s.drainedNow 15 = false ∨ w.crewArrive sg req = none) →
        Completes (.crew a l b m) s (s.afterStep (w.hold s.nextId 15 (.crew sg req)))))
  ∧ (∀ (s : State) (d : Reg) (c : Crew), s.crewOf s.cur.1 s.cur.2 = some c →
    let v := wordOf (0xFD * 2 ^ 56 + 0xFD * 2 ^ 48 + (c.rect.w - 1) * 2 ^ 29 + (c.rect.h - 1) * 2 ^ 24)
    s.mayRetire [] [(d, v)] = true → Completes (.crewx d) s (s.advanced 4 [] [(d, v)]))
  ∧ (∀ (s : State) (d : Reg), s.crewOf s.cur.1 s.cur.2 = none →
    Completes (.crewx d) s (s.takeTrap { cause := .address, faddr := 0 })))
  ∧ (∀ (s : State) (d a : Reg) (l : Bool) (n : BitVec 5) (e : Word), Reads s a e →
    s.barriers.find? (fun b => b.arrivals.any s.isMine) = none →
    (s.barrierCores e = none → Completes (.bar d a l n) s (s.takeTrap { cause := .address, faddr := e }))
    ∧ (∀ cores mask, s.barrierCores e = some cores → s.extent e e = .ok mask → s.drainedNow mask = true →
      s.barriers.find? (fun b => b.extent == e && b.cores == cores && b.part == s.myPart.getD 0) = none →
      (s.barriers.filter (fun b => b.cores.any (fun c => superGroupOf c == superGroupOf s.cur.1))).length < 8 →
      s.mayRetire (used l a) [(d, 0)] = true →
      let x : Arrival :=
        { core := s.cur.1, ctx := s.cur.2, epoch := 0, rd := d, status := lostStatus s.me.lost mask, dies := used l a }
      let b : Barrier :=
        { extent := e, cores := cores, part := s.myPart.getD 0, counts := [(s.cur.1, 0, 1, n.toNat)], arrivals := [x] }
      let v := s.setAside (used l a) d
      let u := v.setMe { v.me with lost := s.me.lost &&& ~~~mask }
      let others := s.barriers.filter (fun y => !(y.extent == e && y.cores == cores && y.part == s.myPart.getD 0))
      let w := { u with barriers := others ++ [b] }
      (b.full 0 = false → Completes (.bar d a l n) s (w.block .barrier))
      ∧ (∀ t, b.full 0 = true → w.leaveBarrier b x (used l a) = .ok t → Completes (.bar d a l n) s (s.afterStep t))))

/-- The channel registers (06_task_instr.md R172 to R176): QBIND binds a free register to a copy stream, a neighbour or a memory stream;
QFREE unbinds; QCTL pop, push, pushc and flush move one entry; QSTAT describes the binding. -/
def Obligations.ChannelInstructions : Prop :=
  (∀ (s : State) (a : Reg) (l : Bool) (b : Reg) (m : Bool) (q : BitVec 3) (x y : Word) (h : Channel), Reads s a x → Reads s b y →
    s.bound q = none → s.binding x y = .ok h → s.mayRetire (used l a ++ used m b) [] = true →
    Completes (.qbind a l b m q) s
      (s.afterStep ((s.retiredTo (s.me.pc + 4) (used l a ++ used m b) []).setChannel s.cur.1 s.cur.2 q.toNat h)))
  ∧ (∀ (s : State) (a : Reg) (l : Bool) (b : Reg) (m : Bool) (q : BitVec 3) (x y : Word) (h : Channel), Reads s a x → Reads s b y →
    s.bound q = some h → Completes (.qbind a l b m q) s (s.takeTrap { cause := .address, faddr := x }))
  ∧ (∀ (s : State) (x y : Word), bitsOf x 2 0 = 0 →
    s.binding x y = .ok { kind := 0, dir := BitVec.ofNat 2 (bitsOf x 5 4), operand := y })
  ∧ (∀ (s : State) (x y : Word), bitsOf x 2 0 = 2 ∨ bitsOf x 2 0 = 3 → s.myPart ≠ none →
    s.partOf (neighbour s.cur.1 (bitsOf x 5 4)) = s.myPart →
    s.mine.neighbourBound (x.setWidth 3) (BitVec.ofNat 2 (bitsOf x 5 4)) = false →
    s.binding x y = .ok { kind := x.setWidth 3, dir := BitVec.ofNat 2 (bitsOf x 5 4), operand := y })
  ∧ (∀ (s : State) (x y y8 : Word) (p n : Nat), bitsOf x 2 0 = 4 → s.fetchData y 8 = .ok p → advanceOr y 8 = .ok y8 →
    s.fetchData y8 8 = .ok n → p % 8 = 0 →
    s.binding x y = .ok { kind := 4, dir := BitVec.ofNat 2 (bitsOf x 5 4), operand := y, pointer := wordOf p, count := n % 2 ^ 40 })
  ∧ (∀ (s : State) (x y : Word), 4 < bitsOf x 2 0 → s.binding x y = trapWith .address x)
  ∧ (∀ (s : State) (q : BitVec 3), s.mayRetire [] [] = true →
    let u := s.retiredTo (s.me.pc + 4) [] []
    (s.bound q = none → Completes (.qfree q) s (s.advanced 4 [] []))
    ∧ (∀ h, s.bound q = some h → (h.kind = 0 → s.filling q.toNat = false) →
      let w := if h.readable then u.setEntries s.cur.1 s.cur.2 q.toNat h [] else u
      Completes (.qfree q) s (s.afterStep (w.dropChannel s.cur.1 s.cur.2 q.toNat)))
    ∧ (∀ h, s.bound q = some h →
      Completes (.qctlFlush q) s (s.afterStep (if h.readable then u.setEntries s.cur.1 s.cur.2 q.toNat h [] else u))))
  ∧ (∀ (s : State) (d : Reg) (q : BitVec 3) (h : Channel) (e : Entry), s.bound q = some h → h.readable = true →
    headEntry (s.entriesOf s.cur.1 h) = some e →
    (e.control = false → s.mayRetire [] [(d, e.data)] = true →
      Completes (.qctlPop d q) s (s.afterStep
        ((s.retiredTo (s.me.pc + 4) [] [(d, e.data)]).setEntries s.cur.1 s.cur.2 q.toNat h (s.entriesOf s.cur.1 h).tail)))
    ∧ (e.control = true →
      let u := s.setEntries s.cur.1 s.cur.2 q.toNat h (s.entriesOf s.cur.1 h).tail
      u.me.lightAddr ≠ 0 → u.me.inLight = false →
      Completes (.qctlPop d q) s
        ((u.setMe { u.me with ctlw := e.data, lightKept := u.me.pc, inLight := true, lightNested := u.me.inTrap,
                              pc := u.me.lightAddr }).block .none)))
  ∧ (∀ (s : State) (a : Reg) (l : Bool) (q : BitVec 3) (h : Channel) (x : Word), Reads s a x → s.bound q = some h → h.readable = false →
    ((s.entriesOf s.cur.1 h).length < 16 → s.mayRetire (used l a) [] = true →
      let u := s.retiredTo (s.me.pc + 4) (used l a) []
      let put (c : Bool) : State :=
        u.setEntries s.cur.1 s.cur.2 q.toNat h (s.entriesOf s.cur.1 h ++ [{ control := c, data := x }])
      Completes (.qctlPush a l q) s (s.afterStep (put false)) ∧ Completes (.qctlPushc a l q) s (s.afterStep (put true)))
    ∧ (16 ≤ (s.entriesOf s.cur.1 h).length →
      Completes (.qctlPush a l q) s (s.block .retry) ∧ Completes (.qctlPushc a l q) s (s.block .retry)))
  ∧ (∀ (s : State) (d : Reg) (q : BitVec 3),
    (s.bound q = none → s.mayRetire [] [(d, 0)] = true → Completes (.qstat d q) s (s.advanced 4 [] [(d, 0)]))
    ∧ (∀ h, s.bound q = some h → s.mayRetire [] [(d, s.channelStatus s.cur.1 h)] = true →
      Completes (.qstat d q) s (s.advanced 4 [] [(d, s.channelStatus s.cur.1 h)])))

/-! ### Vectors (07_vector_instr.md) -/

/-- VCLAIM, VRENEG and VREL (07_vector_instr.md R182 to R187): a granted claim has as many lanes as the request and the lane-groups with a
free unit allow, one unit in each group it takes, its registers 0; a request of 0 changes nothing; one that cannot be granted keeps the
old grant, or waits in the queue of the tile; VREL ends the claim and the loads into it. Which of the open groups are taken is a free
choice (log 18). -/
def Obligations.LaneClaims : Prop :=
  (∀ (s : State) (d a : Reg) (l : Bool) (x : Word), isService s.cur.1 = false → Reads s a x → s.me.claim = none →
    let tile := coreTile s.cur.1
    let lanes := 16 * s.freeGroups tile
    let out (v : Nat) (c : Option Claim) : State :=
      let u := (s.retiredTo (s.me.pc + 4) (used l a) [(d, wordOf v)]).leaveClaims tile
      u.setMe { u.me with claim := c }
    let fresh := Claim.fresh (s.pickGroups (min (claimReq x) lanes / 16) (s.openGroups tile)) (claimReq x) (claimMin x)
    (claimReq x = 0 → s.mayRetire (used l a) [(d, wordOf 0)] = true → Completes (.vclaim d a l) s (s.afterStep (out 0 none)))
    ∧ (claimReq x ≠ 0 → s.mayGrant tile = true → claimMin x ≤ lanes →
        fresh.g = min (claimReq x) lanes
        ∧ (s.mayRetire (used l a) [(d, wordOf fresh.g)] = true →
          let u := out fresh.g (some fresh)
          Completes (.vclaim d a l) s (s.afterStep (u.setMe { u.me with stopOrder := 0, stopMerge := 0 }))))
    ∧ (claimReq x ≠ 0 → (s.mayGrant tile = false ∨ lanes < claimMin x) → claimWaits x = false →
        s.mayRetire (used l a) [(d, wordOf 0)] = true → Completes (.vclaim d a l) s (s.afterStep (out 0 none)))
    ∧ (claimReq x ≠ 0 → (s.mayGrant tile = false ∨ lanes < claimMin x) → claimWaits x = true → s.claimPlace tile = none →
        let t := s.tile tile
        Completes (.vclaim d a l) s ((s.setTile tile { t with claimQueue := t.claimQueue ++
          [{ core := s.cur.1, ctx := s.cur.2, req := claimReq x, minreq := claimMin x }] }).block .claim)))
  ∧ (∀ (s : State) (d a : Reg) (l : Bool) (x : Word) (held : Claim), isService s.cur.1 = false → Reads s a x → s.me.claim = some held →
    let tile := coreTile s.cur.1
    let c := held.settled
    let grow := c.g + 16 * (s.otherGroups tile c).length
    let both (v : Nat) (c' : Claim) (isNew : Bool) : Prop :=
      s.mayRetire (used l a) [(d, wordOf v)] = true →
      let u := (s.retiredTo (s.me.pc + 4) (used l a) [(d, wordOf v)]).leaveClaims tile
      let w := u.setMe { u.me with claim := some c' }
      let t := if isNew then w.setMe { w.me with stopOrder := 0, stopMerge := 0 } else w
      Completes (.vclaim d a l) s (s.afterStep t) ∧ Completes (.vreneg d a l) s (s.afterStep t)
    let newer (g : Nat) : Claim :=
      { c.regrant g (s.pickGroups ((g - c.g) / 16) (s.otherGroups tile c)) with req := claimReq x, floor := min g (claimMin x) }
    (claimReq x = 0 → both held.g held false)
    ∧ (claimReq x ≠ 0 → claimReq x ≤ c.g → both (claimReq x) (newer (claimReq x)) true)
    ∧ (c.g < claimReq x → s.mayGrant tile = true → claimMin x ≤ grow →
        both (min (claimReq x) grow) (newer (min (claimReq x) grow)) true)
    ∧ (c.g < claimReq x → (s.mayGrant tile = false ∨ grow < claimMin x) → claimWaits x = false → both c.g c true))
  ∧ (∀ (s : State) (c : Claim), s.me.claim = some c → s.mayRetire [] [] = true →
    let u := s.retiredTo (s.me.pc + 4) [] []
    let w := u.dropElements u.cur.1 u.cur.2
    Completes .vrel s (s.afterStep (w.setMe { u.me with claim := none, lostLoads := u.me.lostLoads.filter (fun e => e.1 < 64) })))
  ∧ (∀ (s : State), s.me.claim = none →
    Completes .vrel s (s.takeTrap { cause := .illegal, faddr := Instr.vrel.encoding }))
  ∧ (∀ (s : State) (n : Nat) (open_ : List Nat), n ≤ open_.length →
    (s.pickGroups n open_).length = n ∧ ∀ j ∈ s.pickGroups n open_, j ∈ open_)

/-- Vector arithmetic (07_vector_instr.md R193 to R195): VADD to VMULH and VFMA and VFMS over their types; integers modulo the element
width, floating types rounded once. One operand operations and conversion (07_vector_instr.md R195 to R197). Logic, shifts, comparison and
selection (07_vector_instr.md R198 to R200). -/
def Obligations.VectorElementOperations : Prop :=
  (Vector2 .vadd 0 11 (arith2 (fun _ x y => x + y) addNum) ∧ Vector2 .vsub 0 11 (arith2 (fun _ x y => x - y) subNum)
  ∧ Vector2 .vmul 0 11 (arith2 (fun _ x y => x * y) (fun _ => mulNum))
  ∧ Vector2 .vdiv 0 11 (arith2 (fun _ x y => if y = 0 then -1 else x.tdiv y) (fun _ => divNum))
  ∧ Vector2 .vmin 0 11 (arith2 (fun _ x y => if x ≤ y then x else y) (fun _ => pickNum numMin))
  ∧ Vector2 .vmax 0 11 (arith2 (fun _ x y => if x ≤ y then y else x) (fun _ => pickNum numMax))
  ∧ Vector2 .vabsd 0 11 (arith2 (fun _ x y => |x - y|) absdNum)
  ∧ Vector2 .vmulh 0 7 (arith2 (fun f x y => x * y / 2 ^ f.width) (fun _ => mulNum))
  ∧ (∀ (s : State) (d a b : BitVec 4) (k : BitVec 2) (t : BitVec 4) (x : BitVec 3) (c : Claim) (f : Fmt) (va vb vd : List Lane),
    s.VectorOf c t 0 11 f → s.readV c a = .ok va → s.readV c b = .ok vb → s.readV c d = .ok vd → s.mayRetire [] [] = true →
    (let rs := (List.range (active c k f.width)).map (fun i =>
      fused false f (s.me.mode x) (element va f.width i) (element vb f.width i) (element vd f.width i))
     Completes (.vfma d a b k t x) s
      (s.wroteV [] [] (c.setReg d (putElements vd f 0 (rs.map (·.1)))) (orFlags (rs.map (·.2)))))
    ∧ (let rs := (List.range (active c k f.width)).map (fun i =>
      fused true f (s.me.mode x) (element va f.width i) (element vb f.width i) (element vd f.width i))
     Completes (.vfms d a b k t x) s
      (s.wroteV [] [] (c.setReg d (putElements vd f 0 (rs.map (·.1)))) (orFlags (rs.map (·.2)))))))
  ∧ (Vector1 .vabs 0 11 (fun _ => signOf (fun z => |z|) (fun _ => false)) ∧ Vector1 .vneg 0 11 (fun _ => signOf (fun z => -z) (!·))
  ∧ Vector1 .vsqrt 8 11 (fun _ => rootOf) ∧ Vector1 .vrcp 9 11 (functionOf .rcp) ∧ Vector1 .vrsq 9 11 (functionOf .rsq)
  ∧ Vector1 .vexp 9 11 (functionOf .exp) ∧ Vector1 .vlog 9 11 (functionOf .log) ∧ Vector1 .vsin 9 11 (functionOf .sin)
  ∧ Vector1 .vcos 9 11 (functionOf .cos) ∧ Vector1 .vtanh 9 11 (functionOf .tanh)
  ∧ (∀ (s : State) (d a sg : BitVec 4) (k : BitVec 2) (t : BitVec 4) (x : BitVec 3) (c : Claim) (f g : Fmt) (va : List Lane),
    s.VectorOf c t 0 13 f → s.VectorOf c sg 0 13 g → s.readV c a = .ok va → s.FreeV d →
    let rs := (List.range (active c k (max f.width g.width))).map (fun i =>
      convert g f (s.me.mode x) s.me.sat8 (element va g.width i))
    Completes (.vcvt d a sg k t x) s
      (s.wroteV [] [] (c.setReg d (putElements (c.reg d) f 0 (rs.map (·.1)))) (orFlags (rs.map (·.2))))))
  ∧ (Lanewise .vand (· &&& ·) ∧ Lanewise .vor (· ||| ·) ∧ Lanewise .vxor (· ^^^ ·) ∧ Lanewise .vandn (fun x y => x &&& ~~~y)
  ∧ Vector2 .vshl 0 7 (fun f _ x y => (x * 2 ^ (y % f.width) % 2 ^ f.width, 0))
  ∧ Vector2 .vshr 0 7 (fun f _ x y => (x / 2 ^ (y % f.width), 0))
  ∧ Vector2 .vsar 0 7 (fun f _ x y => (intBits f.width (intValue true f.width x / 2 ^ (y % f.width)), 0))
  ∧ (∀ (s : State) (d a b : BitVec 4) (k : BitVec 2) (t : BitVec 4) (cc : BitVec 3) (c : Claim) (f : Fmt) (va vb : List Lane),
    s.VectorOf c t 0 11 f → (f.isInt = true → cc.toNat < 6) → s.readV c a = .ok va → s.readV c b = .ok vb → s.FreeV d →
    let rs := (List.range (active c k f.width)).map (fun i => condition cc f (element va f.width i) (element vb f.width i))
    let mask (i : Nat) : Lane := if (rs.map (·.1)).getD i false then BitVec.allOnes 32 else 0
    Completes (.vcmp d a b k t cc) s
      (s.wroteV [] [] (c.setReg d (putAll (c.reg d) f.width rs.length (fun i => (lanesAt va f.width i).map (fun _ => mask i))))
        (orFlags (rs.map (·.2)))))
  ∧ (∀ (s : State) (d a b : BitVec 4) (k : BitVec 2) (t : BitVec 4) (x : BitVec 3) (c : Claim) (f : Fmt) (va vb vd : List Lane),
    s.VectorOf c t 0 11 f → s.readV c a = .ok va → s.readV c b = .ok vb → s.readV c d = .ok vd → s.mayRetire [] [] = true →
    Completes (.vsel d a b k t x) s (s.wroteV [] [] (c.setReg d (putAll vd f.width (active c k f.width) (fun i =>
      if (lanesAt vd f.width i).all (· == 0) then lanesAt vb f.width i else lanesAt va f.width i))) 0)))

/-- Reductions, the scan, and moves between lanes and scalars (07_vector_instr.md R201 to R203). The prefix predicates (07_vector_instr.md
R180, R189): PCNT reads the count of k, PWHILE sets ka to the lanes left, at most g, and rd to whether more remain, PMIN sets ka to the
smaller of kb and rs1; k0 reads g, and writing it is ignored. -/
def Obligations.VectorReductionsMovesPredicates : Prop :=
  (Reduction .vsum sumOf ∧ Reduction .vrmax (fun f _ _ xs => extremeOf true f xs)
  ∧ Reduction .vrmin (fun f _ _ xs => extremeOf false f xs)
  ∧ (∀ (s : State) (d a : BitVec 4) (k : BitVec 2) (t : BitVec 4) (x : BitVec 3) (c : Claim) (f : Fmt) (va : List Lane),
    s.VectorOf c t 0 11 f → s.readV c a = .ok va → s.FreeV d →
    (active c k f.width = 0 → Completes (.vscan d a k t x) s (s.wroteV [] [] (c.setReg d (c.reg d)) 0))
    ∧ (0 < active c k f.width →
      let rs := scanFrom f (s.me.mode x) (element va f.width 0)
        ((List.range (active c k f.width - 1)).map (fun i => element va f.width (i + 1)))
      Completes (.vscan d a k t x) s
        (s.wroteV [] [] (c.setReg d (putElements (putElement (c.reg d) f 0 (element va f.width 0)) f 1 (rs.map (·.1))))
          (orFlags (rs.map (·.2))))))
  ∧ (∀ (s : State) (d a b : BitVec 4) (k : BitVec 2) (t : BitVec 4) (x : BitVec 3) (c : Claim) (f : Fmt) (va vb : List Lane),
    s.VectorOf c t 0 13 f → s.readV c a = .ok va → s.readV c b = .ok vb → s.FreeV d →
    Completes (.vperm d a b k t x) s (s.wroteV [] [] (c.setReg d (putAll (c.reg d) f.width (active c k f.width) (fun i =>
      if ((lanesAt vb f.width i).headD 0).toNat < positions f.width c.g then
        lanesAt va f.width ((lanesAt vb f.width i).headD 0).toNat
      else (lanesAt va f.width 0).map (fun _ => 0)))) 0)
    ∧ Completes (.vmov d a k t x) s
      (s.wroteV [] [] (c.setReg d (putAll (c.reg d) f.width (active c k f.width) (lanesAt va f.width))) 0))
  ∧ (∀ (s : State) (d : BitVec 4) (g : Reg) (l : Bool) (k : BitVec 2) (t : BitVec 4) (x : BitVec 3) (c : Claim) (f : Fmt) (y : Word),
    s.VectorOf c t 0 13 f → Reads s g y → s.FreeV d → s.mayRetire (used l g) [] = true →
    Completes (.vbc d g l k t x) s (s.wroteV (used l g) [] (c.setReg d
      (putElements (c.reg d) f 0 (List.replicate (active c k f.width) (y.toNat % 2 ^ f.width)))) 0)
    ∧ Completes (.vins d g l k t x) s (s.wroteV (used l g) [] (c.setReg d
      (if active c k f.width < positions f.width c.g then putElement (c.reg d) f (active c k f.width) (y.toNat % 2 ^ f.width)
       else c.reg d)) 0))
  ∧ (∀ (s : State) (a : BitVec 4) (g : Reg) (k : BitVec 2) (t : BitVec 4) (x : BitVec 3) (c : Claim) (f : Fmt) (va : List Lane) (v : Word),
    s.VectorOf c t 0 13 f → s.readV c a = .ok va →
    (v = if active c k f.width = 0 then 0 else extendElement f (element va f.width (active c k f.width - 1))) →
    s.mayRetire [] [(g, v)] = true → Completes (.vext a g k t x) s (s.wroteV [] [(g, v)] c 0))
  ∧ (∀ (s : State) (d : BitVec 4) (k : BitVec 2) (t : BitVec 4) (x : BitVec 3) (c : Claim) (f : Fmt),
    s.VectorOf c t 0 7 f → s.FreeV d →
    Completes (.viota d k t x) s (s.wroteV [] [] (c.setReg d
      (putElements (c.reg d) f 0 ((List.range (active c k f.width)).map (fun i => i % 2 ^ f.width)))) 0)))
  ∧ ((∀ (s : State) (d : Reg) (k : BitVec 2) (c : Claim), s.me.claim = some c → s.mayRetire [] [(d, wordOf (c.pred k))] = true →
    Completes (.pcnt d k) s (s.advanced 4 [] [(d, wordOf (c.pred k))]))
  ∧ (∀ (s : State) (d a : Reg) (l : Bool) (b : Reg) (m : Bool) (k : BitVec 2) (c : Claim) (x y v : Word), s.me.claim = some c →
    Reads s a x → Reads s b y → (v = if (c.g : Int) < y.toInt - x.toInt then 1 else 0) →
    s.mayRetire (used l a ++ used m b) [(d, v)] = true →
    Completes (.pwhile d a l b m k) s (s.afterStep ((s.retiredTo (s.me.pc + 4) (used l a ++ used m b) [(d, v)]).setClaim
      (c.setPred k (min (y.toInt - x.toInt).toNat c.g)))))
  ∧ (∀ (s : State) (a : Reg) (l : Bool) (k kb : BitVec 2) (c : Claim) (x : Word), s.me.claim = some c → Reads s a x →
    s.mayRetire (used l a) [] = true →
    Completes (.pmin a l k kb) s (s.afterStep ((s.retiredTo (s.me.pc + 4) (used l a) []).setClaim
      (c.setPred k (min (c.pred kb) x.toNat)))))
  ∧ (∀ (c : Claim) (n : Nat), c.pred 0 = c.g ∧ c.setPred 0 n = c ∧ (c.setPred 1 n).pred 1 = n ∧ (c.setPred 2 n).pred 2 = n
    ∧ (c.setPred 3 n).pred 3 = n ∧ (c.setPred 1 n).pred 2 = c.pred 2 ∧ (c.setPred 2 n).pred 3 = c.pred 3
    ∧ (c.setPred 3 n).pred 1 = c.pred 1))

/-- Vector loads and stores (07_vector_instr.md R208 to R211): consecutive, strided and indexed elements of the format of the base
pointer; VLDF loads what precedes the first element that fails and sets k to it. VQMOV moves elements between a channel and a vector
register, as many as are there or fit, and sets k to them; with a = 0 it moves nothing and does not wait; a control value at the head
enters the light handler (07_vector_instr.md R204). -/
def Obligations.VectorMemoryAndChannels : Prop :=
  (∀ (s : State) (d w : BitVec 4) (a : Reg) (l : Bool) (b : Reg) (m : Bool) (k h : BitVec 2) (p y : Word) (c : Claim) (f : Fmt)
    (size : Nat) (x : List Lane), Reads s a p → Reads s b y → s.me.claim = some c → vectorFormat p = .ok (f, size) →
    s.readV c w = .ok x →
    (∀ places, s.elementPlaces p size Need.load ((List.range (active c k f.width)).map (fun (i : Nat) => (i : Int) * size)) = .ok places →
      VectorLoads (.vld d a l k h) s c f size d (ptrFmt p) places (used l a) h)
    ∧ (∀ places, s.elementPlaces p size Need.store ((List.range (active c k f.width)).map (fun (i : Nat) => (i : Int) * size)) = .ok places →
      VectorStores (.vst d a l k h) s c f size d places (used l a) h)
    ∧ (∀ places, s.elementPlaces p size Need.load ((List.range (active c k f.width)).map (fun (i : Nat) => (i : Int) * y.toInt)) = .ok places →
      VectorLoads (.vlds d a l b m k h) s c f size d (ptrFmt p) places (used l a ++ used m b) h)
    ∧ (∀ places, s.elementPlaces p size Need.store ((List.range (active c k f.width)).map (fun (i : Nat) => (i : Int) * y.toInt)) = .ok places →
      VectorStores (.vsts d a l b m k h) s c f size d places (used l a ++ used m b) h)
    ∧ (∀ places, s.elementPlaces p size Need.load (gathered x size (active c k f.width)) = .ok places →
      VectorLoads (.vgth d a l w k h) s c f size d (ptrFmt p) places (used l a) h)
    ∧ (∀ places, s.elementPlaces p size Need.store (gathered x size (active c k f.width)) = .ok places →
      VectorStores (.vsct d a l w k h) s c f size d places (used l a) h)
    ∧ (∀ places, k ≠ 0 →
      s.elementsUntil p size Need.load ((List.range (active c k f.width)).map (fun (i : Nat) => (i : Int) * size)) = (places, none) →
      VectorLoads (.vldf d a l k h) s c f size d (ptrFmt p) places (used l a) h)
    ∧ (∀ places e, k ≠ 0 → places ≠ [] →
      s.elementsUntil p size Need.load ((List.range (active c k f.width)).map (fun (i : Nat) => (i : Int) * size)) = (places, some e) →
      VectorLoads (.vldf d a l k h) s (c.setPred k (lanesOf f.width places.length)) f size d (ptrFmt p) places (used l a) h))
  ∧ ((∀ (s : State) (d : BitVec 4) (q : BitVec 3) (k : BitVec 2) (t : BitVec 4) (x : BitVec 3) (c : Claim) (f : Fmt) (h : Channel),
    s.VectorOf c t 0 13 f → k ≠ 0 → s.bound q = some h → h.readable = true → s.mayRetire [] [] = true →
    (active c k f.width = 0 → Completes (.vqmovPop d q k t x) s (s.wroteV [] [] (c.setPred k 0) 0))
    ∧ (∀ e, 0 < active c k f.width → s.vAwaited d = false → headEntry (s.entriesOf s.cur.1 h) = some e → e.control = true →
      let u := s.setEntries s.cur.1 s.cur.2 q.toNat h (s.entriesOf s.cur.1 h).tail
      u.me.lightAddr ≠ 0 → u.me.inLight = false →
      Completes (.vqmovPop d q k t x) s
        ((u.setMe { u.me with ctlw := e.data, lightKept := u.me.pc, inLight := true, lightNested := u.me.inTrap,
                              pc := u.me.lightAddr }).block .none))
    ∧ (∀ e, 0 < active c k f.width → s.FreeV d → headEntry (s.entriesOf s.cur.1 h) = some e → e.control = false →
      let taken := (dataEntries (s.entriesOf s.cur.1 h)).take (active c k f.width)
      let v := putElements (c.reg d) f 0 (taken.map (fun e => e.data.toNat % 2 ^ f.width))
      let u := ((s.retiredTo (s.me.pc + 4) [] []).setClaim ((c.setReg d v).setPred k (lanesOf f.width taken.length))).raise 0
      Completes (.vqmovPop d q k t x) s
        (s.afterStep (u.setEntries s.cur.1 s.cur.2 q.toNat h ((s.entriesOf s.cur.1 h).drop taken.length)))))
  ∧ (∀ (s : State) (q : BitVec 3) (a : BitVec 4) (k : BitVec 2) (t : BitVec 4) (x : BitVec 3) (c : Claim) (f : Fmt) (h : Channel)
      (va : List Lane),
    s.VectorOf c t 0 13 f → k ≠ 0 → s.bound q = some h → h.readable = false → s.mayRetire [] [] = true →
    (active c k f.width = 0 → Completes (.vqmovPush q a k t x) s (s.wroteV [] [] (c.setPred k 0) 0))
    ∧ (0 < active c k f.width → s.readV c a = .ok va → (s.entriesOf s.cur.1 h).length < 16 →
      let j := min (active c k f.width) (16 - (s.entriesOf s.cur.1 h).length)
      let pushed := (List.range j).map (fun i => ({ data := extendElement f (element va f.width i) } : Entry))
      let u := ((s.retiredTo (s.me.pc + 4) [] []).setClaim (c.setPred k (lanesOf f.width j))).raise 0
      Completes (.vqmovPush q a k t x) s
        (s.afterStep (u.setEntries s.cur.1 s.cur.2 q.toNat h (s.entriesOf s.cur.1 h ++ pushed))))
    ∧ (0 < active c k f.width → 16 ≤ (s.entriesOf s.cur.1 h).length →
      Completes (.vqmovPush q a k t x) s (s.block .retry))))

/-- VMRG (07_vector_instr.md R205 to R207): with no merge in progress it merges the entries at hand by the order of R206. Where it reaches
the active count or two control values it retires with the merged elements in vd, k their lanes and MRGST their number; where an input
runs out, or it pauses between two iterations (a free choice where `eager` is off), the elements stay in vd and MRGST, and it executes
again. -/
def Obligations.MergeCompletes : Prop :=
  ∀ (s : State) (d : BitVec 4) (a b : BitVec 3) (k : BitVec 2) (t : BitVec 4) (x : BitVec 3) (c : Claim) (f : Fmt) (ha hb : Channel)
    (xs ys : List Entry) (out : List Nat) (ended : Bool),
    s.VectorOf c t 0 11 f → k ≠ 0 → a ≠ b → s.bound a = some ha → ha.readable = true → s.bound b = some hb → hb.readable = true →
    s.FreeV d → bitAt s.me.mrgst 63 = false →
    let n := active c k f.width
    let turns := if s.eager then n else min n (1 + s.free 320 n)
    let ea := s.entriesOf s.cur.1 ha
    let eb := s.entriesOf s.cur.1 hb
    mergeLoop f (turns == n) turns (readyEntries ea) (readyEntries eb) [] = (xs, ys, out, ended) → out ≠ [] →
    let merged (u : State) : State :=
      let u := u.setEntries u.cur.1 u.cur.2 a.toNat ha (ea.drop ((readyEntries ea).length - xs.length))
      u.setEntries u.cur.1 u.cur.2 b.toNat hb (eb.drop ((readyEntries eb).length - ys.length))
    let c' := c.setReg d (putElements (c.reg d) f 0 out)
    (ended = true →
      let u := merged (((s.retiredTo (s.me.pc + 4) [] []).setClaim (c'.setPred k (min c.g (lanesOf f.width out.length)))).raise 0)
      Completes (.vmrg d a b k t x) s (s.afterStep (u.setMe { u.me with mrgst := wordOf out.length })))
    ∧ (ended = false →
      let u := merged ((s.setMe { s.me with mergeAt := some (s.me.pc, if f.width = 64 then 2 else 1) }).setClaim c')
      Completes (.vmrg d a b k t x) s ((u.setMe { u.me with mrgst := wordOf (2 ^ 63 + out.length) }).block
        (if xs = [] ∨ ys = [] then .retry else .none)))

/-- The elements that putElements writes are read back, and the others are as they were, for a type of 8 to 32 bits and a register long
enough (07_vector_instr.md R179). -/
def Obligations.VectorElementsWritten : Prop :=
  ∀ (v : List Lane) (f : Fmt) (first : Nat) (xs : List Nat) (j : Nat), (∃ sgn w, f = .int sgn w ∧ (w = 8 ∨ w = 16 ∨ w = 32)) →
    first + xs.length ≤ v.length →
    element (putElements v f first xs) f.width j
      = if first ≤ j ∧ j < first + xs.length then xs.getD (j - first) 0 % 2 ^ f.width else element v f.width j

/-! ### Engines and sparse tables (08_matrix_instr.md) -/

/-- MMA, MMAZ, MBS, MBSZ and MSP read the block at their pointer, check it and put the command into the queue of the core's own engine
(08_matrix_instr.md R217, R222, R231); MLD, MST and its tag forms and MZERO do the same with a pointer and a patch (R215). -/
def Obligations.MatrixCommandsQueued : Prop :=
  (∀ (s : State) (d a : Reg) (l : Bool) (p : BitVec 4) (q : Word) (b : Vector Word 8), isService s.cur.1 = false → Reads s a q →
    spaces q [0, 1] = .ok () → (ptrSpace q = 1 → s.coreNamed q = some (.inl s.cur.1)) → s.blockAt q = .ok b → s.EngineOpen q →
    let cmd (k : CmdKind) (z : Bool) : Command := (s.newCommand k p.toNat).withBlock b z p.toNat
    (s.checkBlock s.cur.1 (cmd .mma false) q = .ok () → QueuesCommand (.mma d a l p) s (cmd .mma false) d (used l a))
    ∧ (s.checkBlock s.cur.1 (cmd .mma true) q = .ok () → QueuesCommand (.mmaz d a l p) s (cmd .mma true) d (used l a))
    ∧ (s.checkBlock s.cur.1 (cmd .mbs false) q = .ok () → QueuesCommand (.mbs d a l p) s (cmd .mbs false) d (used l a))
    ∧ (s.checkBlock s.cur.1 (cmd .mbs true) q = .ok () → QueuesCommand (.mbsz d a l p) s (cmd .mbs true) d (used l a))
    ∧ (∀ z, z = bitAt (b.toList.getD 0 0) 59 → s.checkBlock s.cur.1 (cmd .msp z) q = .ok () →
        QueuesCommand (.msp d a l p) s (cmd .msp z) d (used l a)))
  ∧ (∀ (s : State) (d a : Reg) (l : Bool) (b : Reg) (m : Bool) (p : BitVec 4) (q y : Word), isService s.cur.1 = false → Reads s a q →
    Reads s b y → s.engineSpace q [0, 1, 3] = .ok () → s.patchOk s.cur.1 p.toNat = true →
    s.overlaps s.cur.1 p.toNat q (ptrFmt q) 32 (bitsOf y 39 0) 32 = false → s.EngineOpen q →
    let cmd (k : CmdKind) (e : Nat) : Command :=
      { s.newCommand k p.toNat with pointer := q, stride := bitsOf y 39 0, tagEffect := e, version := BitVec.ofNat 7 (bitsOf y 63 57) }
    let dies := used l a ++ used m b
    (mldFormat (ptrFmt q) = true → QueuesCommand (.mld d a l b m p) s (cmd .mld 0) d dies)
    ∧ (mstFormat (ptrFmt q) = true → QueuesCommand (.mst d a l b m p) s (cmd .mst 0) d dies)
    ∧ (mstFormat (ptrFmt q) = true → tagAligned q (bitsOf y 39 0) = true →
        QueuesCommand (.mstFill d a l b m p) s (cmd .mst 1) d dies ∧ QueuesCommand (.mstVnx d a l b m p) s (cmd .mst 2) d dies
        ∧ QueuesCommand (.mstVset d a l b m p) s (cmd .mst 3) d dies))
  ∧ (∀ (s : State) (p : BitVec 4), isService s.cur.1 = false → s.patchOk s.cur.1 p.toNat = true → s.mine.engine.accepted.length < 8 →
    s.classFull 3 = false → s.mayRetire [] [] = true →
    let u := s.retiredTo (s.me.pc + 4) [] []
    Completes (.mzero p) s (s.afterStep
      (({ u with nextId := u.nextId + 1 }.beginOp s.cur.1 s.cur.2 3 none).acceptCommand s.cur.1 (s.newCommand .mzero p.toNat))))

/-- MRD reads one 32-bit element of a patch that no command and no earlier access of its context holds (08_matrix_instr.md R215); MQRY
reads the state of the engine (R228); MCMD sends a block to another core's engine (R226); MPRE asks for a plate, MPINV drops the plates of
an address (R235). The hash tables and carry tables (08_matrix_instr.md R236 to R240): HACC adds the elements of an array from the one
HPROG names, and may pause between two of them where `eager` is off; HDRN writes the occupied entries out in ascending order of key and
empties the table; SBND writes BOUND; CARRY appends at its home. -/
def Obligations.EngineQueriesAndSparseTables : Prop :=
  ((∀ (s : State) (d a : Reg) (l : Bool) (p : BitVec 4) (x : Word), isService s.cur.1 = false → Reads s a x →
    s.patchOk s.cur.1 p.toNat = true →
    let key := sramKey s.cur.1 (0x1000 * p.toNat + 128 * bitsOf x 9 5 + 4 * bitsOf x 4 0)
    (s.patchBusy key = true ∨ s.conflicts key 4 = true → Completes (.mrd d a l p) s (s.block .retry))
    ∧ (s.patchBusy key = false → s.conflicts key 4 = false → s.poisoned key 4 = false → s.mayRetire (used l a) [(d, wordOf (readBytes s.mem key 4))] = true →
        Completes (.mrd d a l p) s (s.advanced 4 (used l a) [(d, wordOf (readBytes s.mem key 4))])))
  ∧ (∀ (s : State) (d a : Reg) (l : Bool) (x v : Word), isService s.cur.1 = false → Reads s a x →
    (v = if bitsOf x 7 0 = 0 then engineStatus s.mine.engine else 0) → s.mayRetire (used l a) [(d, v)] = true →
    Completes (.mqry d a l) s (s.advanced 4 (used l a) [(d, v)]))
  ∧ (∀ (s : State) (d a : Reg) (l : Bool) (b : Reg) (m : Bool) (q y : Word) (blk : Vector Word 8) (target : Nat) (mask : BitVec 4),
    isService s.cur.1 = false → Reads s a q → Reads s b y → spaces q [0, 1, 3] = .ok () → s.blockAt q = .ok blk → spaces y [1] = .ok () →
    s.coreNamed y = some (.inl target) → s.mayName target = true → s.dieLost (coreDie target) = false → s.classFull 3 = false →
    s.extent s.me.dext q = .ok mask → s.mayRetire (used l a ++ used m b) [(d, s.me.opNumber.setWidth 64)] = true →
    let w0 := blk.toList.getD 0 0
    let c := (s.newCommand ((kindOf (bitsOf w0 63 60)).getD .mma) 0).withBlock blk (bitAt w0 59) (bitsOf w0 57 54)
    let c := { c with target := target, viaMcmd := true, counter := some (s.coreCounter target) }
    let u := s.retiredTo (s.me.pc + 4) (used l a ++ used m b) [(d, s.me.opNumber.setWidth 64)]
    let u := { u with nextId := u.nextId + 1 }
    let u := (u.setMe { u.me with opNumber := u.me.opNumber + 1 }).beginOp s.cur.1 s.cur.2 3 (some (s.coreCounter target))
    (s.drainedNow mask = true → Completes (.mcmd d a l b m) s (s.afterStep { u with commands := u.commands ++ [c] }))
    ∧ (s.drainedNow mask = false → Completes (.mcmd d a l b m) s (s.afterStep (u.hold s.nextId mask (.command c)))))
  ∧ (∀ (s : State) (d a : Reg) (l : Bool) (p : Word), isService s.cur.1 = false → Reads s a p → fmtReserved (ptrFmt p) = false →
    ptrSpace p = 0 → ptrAddr p % 8 = 0 →
    (s.classFull 3 = false → s.mayRetire (used l a) [(d, s.me.opNumber.setWidth 64)] = true →
      let u := s.retiredTo (s.me.pc + 4) (used l a) [(d, s.me.opNumber.setWidth 64)]
      let u := { u with nextId := u.nextId + 1 }
      let u := (u.setMe { u.me with opNumber := u.me.opNumber + 1 }).beginOp s.cur.1 s.cur.2 3 none
      let r := u.identify (superGroupOf s.cur.1) { s.newCommand .mpre 0 with pointer := p }
      Completes (.mpre d a l) s (s.afterStep (r.1.plateReady r.2)))
    ∧ (s.mayRetire (used l a) [] = true →
      let sg := superGroupOf s.cur.1
      let n := s.myPart.getD 0
      let u := (s.retiredTo (s.me.pc + 4) (used l a) []).dropPlates sg (fun e => e.part == n && e.address == ptrAddr p)
      Completes (.mpinv a l) s (s.afterStep (u.setSuperGroup sg { u.superGroup sg with
        engraver := (u.superGroup sg).engraver.map (fun e => if e.part = n ∧ e.address = ptrAddr p then { e with drop := true } else e) })))))
  ∧ ((∀ (s : State) (d a : Reg) (l : Bool) (b : Reg) (m : Bool) (p y keys vals : Word) (t : HashTable) (n : Nat),
    Reads s a p → Reads s b y → s.hashTable p = .ok t → s.arrayDescriptor y = .ok (keys, vals, n) →
    (ptrFmt keys = 0x03 ∨ ptrFmt keys = 0x04 ∨ ptrFmt keys = 0x07 ∨ ptrFmt keys = 0x08) → haccValue (ptrFmt vals) = true →
    let e := bitsOf s.me.hprog 39 0
    let turns := if s.eager then n - e else min (n - e) (1 + s.free 321 (n - e))
    (∀ u, s.haccFrom t keys vals (decide (turns < n - e)) turns e = .ok u →
      (u.setHprog 0).mayRetire (used l a ++ used m b) [(d, wordOf n)] = true →
      Completes (.hacc d a l b m) s (s.after (u.setHprog 0) 4 (used l a ++ used m b) [(d, wordOf n)]))
    ∧ (∀ u w, s.haccFrom t keys vals (decide (turns < n - e)) turns e = .error (.waitIn u w) →
      Completes (.hacc d a l b m) s (u.block w))
    ∧ (∀ u x, s.haccFrom t keys vals (decide (turns < n - e)) turns e = .error (.trapIn u x) → x.cause ≠ .illegal → x.cause ≠ .priv →
      Completes (.hacc d a l b m) s (u.takeTrap x)))
  ∧ (∀ (s : State) (d a : Reg) (l : Bool) (b : Reg) (m : Bool) (p y keys vals : Word) (t : HashTable) (cap : Nat)
      (kps vps : List (Word × Place)),
    Reads s a p → Reads s b y → s.hashTable p = .ok t → s.arrayDescriptor y = .ok (keys, vals, cap) →
    (ptrFmt keys = 0x04 ∨ ptrFmt keys = 0x08) → ptrFmt vals = t.vfmt → (s.occupied t).length ≤ cap → s.tableUses t = .ok () →
    s.drainPlaces keys 8 0 (s.occupied t).length = .ok kps → s.drainPlaces vals (fmtBytes t.vfmt) 0 (s.occupied t).length = .ok vps →
    s.me.outstanding.c1 < 62 → s.mayRetire (used l a ++ used m b) [(d, wordOf (s.occupied t).length)] = true →
    let u := s.retiredTo (s.me.pc + 4) (used l a ++ used m b) [(d, wordOf (s.occupied t).length)]
    let u := (u.storeArray kps 8 ((s.occupied t).map (fun (x : Word × Word) => x.1))).storeArray vps (fmtBytes t.vfmt)
      ((s.occupied t).map (fun (x : Word × Word) => x.2))
    let u := (List.range t.size).foldl (fun (r : State) e =>
      if tagFE (r.tag (t.slot e)) then r.tableTag (t.slot e) false else r) u
    Completes (.hdrn d a l b m) s (s.afterStep (u.setTableCount t 0)))
  ∧ (∀ (s : State) (a : Reg) (l : Bool) (b : Reg) (m : Bool) (p y : Word) (t : HashTable), Reads s a p → Reads s b y →
    s.tableHeader p = .ok t → s.mayRetire (used l a ++ used m b) [] = true →
    Completes (.sbnd a l b m) s (s.afterStep (((s.retiredTo (s.me.pc + 4) (used l a ++ used m b) []).takeBank s.cur.1 s.cur.2 t.key).storeBytes
      (t.key + 4) 4 (bitsOf y 31 0))))
  ∧ (∀ (s : State) (d a : Reg) (l : Bool) (b : Reg) (m : Bool) (p y : Word) (pl : Place), Reads s a p → Reads s b y →
    spaces p [0, 3] = .ok () → s.placeOf p 16 Need.both true = .ok pl → s.mySync = none →
    HomeGives (.carry d a l b m) s s p pl 16 (if d = 0 then 1 else 0) d .carry y (used l a ++ used m b)))

/-! ### Surveyor, tensor maps and copies (08_matrix_instr.md R241, 09_copy_instr.md) -/

/-- SURV (08_matrix_instr.md R241, R242; 18_sparse.md R388): bind gives the lowest free stream, or 0 when four are bound; unbind, start
and stop act on a stream that the context bound; SV.FETCH and SV.EMIT, which only a surveyor runs, are ILLEGAL on a core (03_encoding.md
R93). -/
def Obligations.SurveyorInstructions : Prop :=
  (∀ (s : State) (d a : Reg) (l : Bool) (b : Reg) (m : Bool) (p y : Word) (desc : List Word) (ks : List (BitVec 16)),
    isService s.cur.1 = false → Reads s a p → Reads s b y → spaces p [0, 1] = .ok () → ptrAddr p % 8 = 0 →
    s.fetchImage p 0 4 = .ok desc → spaces (desc.getD 0 0) [0] = .ok () → ptrAddr (desc.getD 0 0) % 64 = 0 →
    bitsOf (desc.getD 1 0) 63 40 = 0 → desc.getD 3 0 = 0 → bitAt y 0 = false → s.kernelFrom y 64 = .ok (some ks) → kernelError ks = none →
    (∀ n, 1 ≤ n → n ≤ 4 → (∀ k, 1 ≤ k → k < n → (Table.look s.mine.streams k).isSome = true) → Table.look s.mine.streams n = none →
      s.mayRetire (used l a ++ used m b) [(d, wordOf n)] = true →
      let u := s.retiredTo (s.me.pc + 4) (used l a ++ used m b) [(d, wordOf n)]
      let t : Stream := { ctx := s.cur.2, kernel := ks, pointer := desc.getD 0 0, lines := bitsOf (desc.getD 1 0) 39 0
                          base := desc.getD 2 0, level := s.me.level }
      Completes (.survBind d a l b m) s (s.afterStep (u.setMine { u.mine with streams := Table.put u.mine.streams n t })))
    ∧ ((∀ k, 1 ≤ k → k ≤ 4 → (Table.look s.mine.streams k).isSome = true) → s.mayRetire (used l a ++ used m b) [(d, 0)] = true →
      Completes (.survBind d a l b m) s (s.advanced 4 (used l a ++ used m b) [(d, 0)])))
  ∧ (∀ (s : State) (a : Reg) (l : Bool) (x : Word) (t : Stream), isService s.cur.1 = false → Reads s a x →
    Table.look s.mine.streams (bitsOf x 2 0) = some t → t.ctx = s.cur.2 → s.mayRetire (used l a) [] = true →
    let u := s.retiredTo (s.me.pc + 4) (used l a) []
    let n := bitsOf x 2 0
    Completes (.survUnbind a l) s (s.afterStep (u.unbindStream s.cur.1 n))
    ∧ Completes (.survStart a l) s (s.afterStep (u.setStream s.cur.1 n
        { t with started := true, ended := false, nextLine := 0, at_ := none, ahead := [], regs := Vector.replicate 8 0 }))
    ∧ Completes (.survStop a l) s (s.afterStep ((u.dropStreamRequests s.cur.1 n).setStream s.cur.1 n (t.stop 1))))
  ∧ (∀ (s : State) (a b : BitVec 3) (i : BitVec 4),
    Completes (.svFetch a b i) s (s.takeTrap { cause := .illegal, faddr := (Instr.svFetch a b i).encoding })
    ∧ Completes (.svEmit a b i) s (s.takeTrap { cause := .illegal, faddr := (Instr.svEmit a b i).encoding }))

/-- TMLD loads a map register with a checked image, TMSET replaces one doubleword, TMGET reads one (09_copy_instr.md R247, R248). The copy
instructions (09_copy_instr.md R251 to R253): a copy that passes its checks enters the queue of its tile once the counters of DEXT have
drained, its operation number in rd; one whose map has no elements completes at once. -/
def Obligations.TensorMapsAndCopies : Prop :=
  ((∀ (s : State) (a : Reg) (l : Bool) (p : BitVec 3) (q : Word) (img : List Word), isService s.cur.1 = false → Reads s a q →
    spaces q [0, 1] = .ok () → ptrAddr q % 8 = 0 → s.fetchImage q 0 8 = .ok img →
    mapError (Vector.ofFn (fun i : Fin 8 => img.getD i.val 0)) = none → s.mayRetire (used l a) [] = true →
    let u := s.retiredTo (s.me.pc + 4) (used l a) []
    Completes (.tmld a l p) s (s.afterStep (u.setMe { u.me with
      maps := u.me.maps.setIfInBounds p.toNat (Vector.ofFn (fun i : Fin 8 => img.getD i.val 0)) })))
  ∧ (∀ (s : State) (a : Reg) (l : Bool) (n p : BitVec 3) (x : Word), isService s.cur.1 = false → Reads s a x →
    mapError ((s.mapReg p).setIfInBounds n.toNat x) = none → s.mayRetire (used l a) [] = true →
    let u := s.retiredTo (s.me.pc + 4) (used l a) []
    Completes (.tmset a l n p) s (s.afterStep (u.setMe { u.me with
      maps := u.me.maps.setIfInBounds p.toNat ((s.mapReg p).setIfInBounds n.toNat x) })))
  ∧ (∀ (s : State) (d : Reg) (n p : BitVec 3), isService s.cur.1 = false →
    s.mayRetire [] [(d, (s.mapReg p).toList.getD n.toNat 0)] = true →
    Completes (.tmget d n p) s (s.advanced 4 [] [(d, (s.mapReg p).toList.getD n.toNat 0)])))
  ∧ (∀ (s : State) (d a : Reg) (l : Bool) (b : Reg) (m : Bool) (q sg p : BitVec 3) (x y : Word), isService s.cur.1 = false →
    Reads s a x → Reads s b y → s.classFull 2 = false →
    let issues (i : Instr) (c : Copy) (dies : List Reg) : Prop :=
      s.mayRetire dies [(d, s.me.opNumber.setWidth 64)] = true →
      let u := s.retiredTo (s.me.pc + 4) dies [(d, s.me.opNumber.setWidth 64)]
      let u := { u with nextId := u.nextId + 1 }
      let u := (u.setMe { u.me with opNumber := u.me.opNumber + 1 }).beginOp s.cur.1 s.cur.2 2 none
      let tile := coreTile s.cur.1
      (∀ mask, c.null = false → s.checkCopy c = .ok () → s.extent s.me.dext (mapBase c.dst) = .ok mask → s.drainedNow mask = true →
        (s.tile tile).copies.length < 16 →
        Completes i s (s.afterStep (u.setTile tile { u.tile tile with copies := (u.tile tile).copies ++ [c] })))
      ∧ (∀ mask, c.null = false → s.checkCopy c = .ok () → s.extent s.me.dext (mapBase c.dst) = .ok mask → s.drainedNow mask = false →
        Completes i s (s.afterStep (u.hold c.id mask (.copy tile c))))
      ∧ (c.null = true → Completes i s (s.afterStep (u.endCopy c 0 0 0 0 0)))
    issues (.cpy d sg p) (s.newCopy .cpy (s.mapReg p) (s.mapReg sg)) []
    ∧ issues (.cpyg d a l sg p) { s.newCopy .cpyg (s.mapReg p) (s.mapReg sg) with list := x } (used l a)
    ∧ issues (.cpys d a l sg p) { s.newCopy .cpys (s.mapReg p) (s.mapReg sg) with list := x } (used l a)
    ∧ issues (.cpyq d q p) { s.newCopy .cpyq (s.mapReg p) (s.mapReg p) with channel := q.toNat } []
    ∧ issues (.cpyf d a l b m p) { s.newCopy .cpyf (s.mapReg p) (s.mapReg p) with value := x, tagControl := y } (used l a ++ used m b))

/-! ### System instructions (10_system_instr.md, 03_encoding.md R75 to R77) -/

/-- SRD and SWR (10_system_instr.md R266, R267): a register that the core has is read at a level that may read it, and written at one that
may write it, as one retirement; a number without a register is ILLEGAL, a level too low or a register that nobody writes is PRIV, both
with the encoding in FADDR (R275). -/
def Obligations.StateRegisters : Prop :=
  (∀ (s : State) (g : BitVec 5) (n : BitVec 12) (rl : Nat) (wl : Option Nat), regLevels s.cur.1 n.toNat = some (rl, wl) →
    (rl ≤ s.me.level → s.mayRetire [] [(g, s.readState n.toNat)] = true →
      Completes (.srd g n) s (s.advanced 4 [] [(g, s.readState n.toNat)]))
    ∧ (s.me.level < rl → Completes (.srd g n) s (s.takeTrap { cause := .priv, faddr := (Instr.srd g n).encoding })))
  ∧ (∀ (s : State) (g : BitVec 5) (l : Bool) (n : BitVec 12) (rl : Nat), regLevels s.cur.1 n.toNat = some (rl, none) →
    Completes (.swr g l n) s (s.takeTrap { cause := .priv, faddr := (Instr.swr g l n).encoding }))
  ∧ (∀ (s : State) (g : BitVec 5) (l : Bool) (n : BitVec 12) (rl wl : Nat), regLevels s.cur.1 n.toNat = some (rl, some wl) →
    (wl ≤ s.me.level → ∀ v, Reads s g v → (n = 0x101 → s.anyPatchBusy s.cur.1 = false) → s.mayRetire (used l g) [] = true →
      Completes (.swr g l n) s (s.afterStep ((s.retiredTo (s.me.pc + 4) (used l g) []).writeState n.toNat v)))
    ∧ (s.me.level < wl → Completes (.swr g l n) s (s.takeTrap { cause := .priv, faddr := (Instr.swr g l n).encoding })))
  ∧ (∀ (s : State) (g : BitVec 5) (l : Bool) (n : BitVec 12), regLevels s.cur.1 n.toNat = none →
    Completes (.srd g n) s (s.takeTrap { cause := .illegal, faddr := (Instr.srd g n).encoding })
    ∧ Completes (.swr g l n) s (s.takeTrap { cause := .illegal, faddr := (Instr.swr g l n).encoding }))

/-- What SWR leaves in the context registers and the partition registers (10_system_instr.md R267, R270, R274): HPROG holds 40 bits, MRGST
its level and its continuation bit, STATUS keeps an XPL above the writer's level and a rounding mode that does not exist, and level 0
reaches neither XPL nor STEP; AGEUS refuses 0. -/
def Obligations.StateRegisterFields : Prop :=
  (∀ (c : Ctx) (v : Word),
    (c.writeState 4 v).fpflags = v &&& 0x3F
    ∧ (c.writeState 5 v).dext = v ∧ (c.writeState 6 v).taskix = v ∧ (c.writeState 7 v).launchix = v ∧ (c.writeState 10 v).ctlw = v
    ∧ (c.writeState 3 v).xpc = v ∧ (c.writeState 2 v).faddr = v
    ∧ (c.writeState 8 v).readState 8 = v &&& 0xFFFFFFFFFF
    ∧ (c.writeState 9 v).readState 9 = v &&& 0x80000000000001FF
    ∧ (c.writeState 1 v).readState 1 = v &&& 0xFFFFF
    ∧ bitsOf (c.writeState 0 v).status 13 12 = bitsOf c.status 13 12
    ∧ bitAt (c.writeState 0 v).status 11 = bitAt c.status 11
    ∧ bitsOf (c.writeState 0 v).status 8 7 = bitsOf v 8 7
    ∧ bitsOf (c.writeState 0 v).status 2 0 = (if bitsOf v 2 0 < 5 then bitsOf v 2 0 else bitsOf c.status 2 0)
    ∧ bitAt (c.writeState 0 v).status 9 = (if c.level = 0 then bitAt c.status 9 else bitAt v 9)
    ∧ bitsOf (c.writeState 0 v).status 15 14
        = (if c.level = 0 ∨ c.level < bitsOf v 15 14 then bitsOf c.status 15 14 else bitsOf v 15 14))
  ∧ (∀ (r : PartRegs) (n : Nat) (v : Word), 0x200 ≤ n → n ≤ 0x20B →
    (∀ m, 0x200 ≤ m → m ≤ 0x20B → m ≠ n → (r.write n v).read m = r.read m)
    ∧ (n = 0x206 → (r.write n v).read n = if v &&& 0xFFFF = 0 then r.read n else v &&& 0xFFFF)
    ∧ (n ≠ 0x206 → (r.write n v).read n = v &&&
        (if n = 0x202 then 0xF else if n = 0x204 ∨ n = 0x205 then 0xFF else if n = 0x208 then 0xFFFFFFFF
         else if n < 0x209 then 0xFFFF else -1)))

/-- Taking a trap (10_system_instr.md R276) outside a handler, with a vector: CAUSE, FADDR and XPC are written, XPL takes the level, the
level becomes 2 for a TRAP of 2,048 or more or from level 2 and otherwise 1, XH becomes 1 and PC the vector with its bit 0 clear; every
register of the trapped code, and everything outside the context but the order of stops, is as it was. The double trap (10_system_instr.md
R276) of a core of no partition: within a handler, or without a vector, CAUSE, FADDR and XPC stay, the context is FAULTED where it stands,
and the report of KIND 1 goes to the host. A PAGE below level 2 is taken by no handler and is not meant. -/
def Obligations.TrapEntryAndDoubleTrap : Prop :=
  (∀ (s : State) (t : TrapInfo), (t.cause = .page → s.me.level = 2) → s.me.inTrap = false →
    let level := if s.me.level = 2 ∨ (t.cause = .trap ∧ 2048 ≤ t.code) then 2 else 1
    let vec := (if level = 2 then s.fwvec else (s.partRegs s.myPart).xvec) &&& ~~~1#64
    vec ≠ 0 →
    let c := (s.takeTrap t).me
    c.pc = vec ∧ c.level = level ∧ c.xpl = s.me.level ∧ c.inTrap = true
    ∧ c.xpc = t.xpc.getD s.me.pc ∧ c.faddr = t.faddr ∧ c.cause = wordOf (t.code % 4096 * 256 + t.cause.number)
    ∧ c.regs = s.me.regs ∧ c.live = s.me.live ∧ c.trapShadow = s.me.trapShadow ∧ c.lightShadow = s.me.lightShadow ∧ c.fpflags = s.me.fpflags ∧ c.claim = s.me.claim
    ∧ bitsOf c.status 10 0 = bitsOf s.me.status 10 0
    ∧ (s.takeTrap t).mem = s.mem ∧ (s.takeTrap t).cur = s.cur ∧ (s.takeTrap t).tiles = s.tiles)
  ∧ (∀ (s : State) (t : TrapInfo), (t.cause = .page → s.me.level = 2) →
    (s.me.inTrap = true ∨ s.vector (s.me.trapLevel t) = 0) → s.myPart = none →
    let c := (s.takeTrap t).me
    (s.takeTrap t).reports = (1, s.cur.1) :: s.reports ∧ (s.takeTrap t).mem = s.mem
    ∧ c.run = .faulted ∧ c.cause = s.me.cause ∧ c.faddr = s.me.faddr ∧ c.xpc = s.me.xpc ∧ c.pc = s.me.pc)

/-- TRAP and BRK trap with their code and the address that follows (10_system_instr.md R278); TRAP of 2,048 and more from level 0 is PRIV
(R265). XRET resumes at XPC at the level of XPL, the lane claim with it, or traps (R277). NOP and SYNCI (R280), an encoding of none
(03_encoding.md R75, R77) and a fetch that fails (R76). -/
def Obligations.SystemInstructions : Prop :=
  (∀ (s : State) (n : BitVec 12),
    ((n.toNat < 2048 ∨ 1 ≤ s.me.level) →
      Completes (.trap n) s (s.takeTrap { cause := .trap, code := n.toNat, xpc := some (s.me.pc + 4) }))
    ∧ (2048 ≤ n.toNat → s.me.level = 0 → Completes (.trap n) s (s.takeTrap { cause := .priv, faddr := (Instr.trap n).encoding }))
    ∧ Completes (.brk n) s (s.takeTrap { cause := .brk, code := n.toNat, xpc := some (s.me.pc + 4) }))
  ∧ (∀ s : State,
    (s.me.level = 0 → Completes .xret s (s.takeTrap { cause := .priv, faddr := Instr.xret.encoding }))
    ∧ (1 ≤ s.me.level → s.me.inTrap = false → Completes .xret s (s.takeTrap { cause := .illegal, faddr := Instr.xret.encoding }))
    ∧ (1 ≤ s.me.level → s.me.inTrap = true →
      let past := if s.me.level = 2 ∧ s.me.xpl < 2 then s.me.liveValues ++ s.me.past else s.me.past
      let c := { s.me.resumed with status := setBits (setBits s.me.status 13 12 s.me.xpl) 11 11 0, past := past, wait := .none }
      (s.me.xpc.getLsbD 0 = false → Completes .xret s ((s.setMe { c with pc := s.me.xpc }).applyPending s.cur.1 s.cur.2))
      ∧ (s.me.xpc.getLsbD 0 = true → Completes .xret s ((s.setMe { c with pc := s.me.pc }).takeTrap { cause := .address, faddr := s.me.xpc }))))
  ∧ (∀ s : State, s.mayRetire [] [] = true →
    Completes .nop s (s.advanced 4 [] []) ∧ Completes .cNop s (s.advanced 2 [] [])
    ∧ (s.drainedNow allCounters = true →
      let u := s.retiredTo (s.me.pc + 4) [] []
      Completes .synci s (s.afterStep (u.setMine { u.mine with icache := [] }))))
  ∧ (∀ s : State, s.drainedNow allCounters = false → Completes .synci s (s.block .retry))
  ∧ (∀ (s : State) (e : BitVec 32), Completes (.illegalEncoding e true) s (s.takeTrap { cause := .illegal, faddr := e.setWidth 64 })
    ∧ Completes (.illegalEncoding e false) s (s.takeTrap { cause := .illegal, faddr := (e.setWidth 16).setWidth 64 }))
  ∧ (∀ (s : State) (a : Word) (r : Nat), r < 16 →
    Completes (.fetchFault a r) s (s.takeTrap { cause := .page, faddr := a, reason := r })
    ∧ Completes (.fetchFault a 16) s (s.takeTrap { cause := .address, faddr := a }))

/-- The capability traps (25_package.md R470), one step of the model each (log 22): below level 1 they are PRIV; CAP_MINT gives a0 the
capability for a core of the partition and a1 = 0, or a1 = 1 or 2 for a core or rights that it refuses; CAP_NEW_GENERATION replaces the
key of the partition and keeps the old one. The administrative instructions at level 0 trap with PRIV (10_system_instr.md R281 to R286).
-/
def Obligations.CapabilityAndPrivilegeTraps : Prop :=
  ((∀ (s : State), s.me.level = 0 →
    Completes .capMint s (s.takeTrap { cause := .priv, faddr := Instr.capMint.encoding })
    ∧ Completes .capNewGeneration s (s.takeTrap { cause := .priv, faddr := Instr.capNewGeneration.encoding }))
  ∧ (∀ (s : State) (n : Nat) (p : Partition), 1 ≤ s.me.level → s.me.inTrap = false → s.fwvec &&& ~~~1#64 ≠ 0 → s.myPart = some n →
    s.part n = some p →
    let c := { s.me.enter { cause := .trap, code := 0x800, xpc := some (s.me.pc + 4) } (s.fwvec &&& ~~~1#64) with pc := 0 }.leave
    let fits (x : Ctx) : Prop := (s.setMe x).poolFits x = true
    let d := { s.me.enter { cause := .trap, code := 0x801, xpc := some (s.me.pc + 4) } (s.fwvec &&& ~~~1#64) with pc := 0 }.leave
    (c.live.getLsbD 4 = true → ∀ target rights, bitsOf (c.at_ 4) 11 0 = target → bitsOf (c.at_ 4) 19 12 = rights →
      (s.partOf target ≠ some n → fits (c.setReg 5 1) → Completes .capMint s ((s.setMe (c.setReg 5 1)).block .none))
      ∧ (s.partOf target = some n → 32 ≤ rights → fits (c.setReg 5 2) → Completes .capMint s ((s.setMe (c.setReg 5 2)).block .none))
      ∧ (s.partOf target = some n → rights < 32 → fits ((c.setReg 4 (p.capability n rights target)).setReg 5 0) →
        Completes .capMint s ((s.setMe ((c.setReg 4 (p.capability n rights target)).setReg 5 0)).block .none)))
    ∧ (fits d → Completes .capNewGeneration s (((s.setMe d).setPart n
        { p with generation := p.generation + 1, oldKey := p.key, key := s.randomBytes 0 32 }).block .none))))
  ∧ (∀ (s : State) (d a b : Reg) (l m : Bool), s.me.level = 0 →
    Completes (.ptinv a l b m) s (s.takeTrap { cause := .priv, faddr := (Instr.ptinv a l b m).encoding })
    ∧ Completes (.atset a l b m) s (s.takeTrap { cause := .priv, faddr := (Instr.atset a l b m).encoding })
    ∧ Completes (.atsync d) s (s.takeTrap { cause := .priv, faddr := (Instr.atsync d).encoding })
    ∧ Completes (.migr d a l b m) s (s.takeTrap { cause := .priv, faddr := (Instr.migr d a l b m).encoding })
    ∧ Completes (.gstop d a l) s (s.takeTrap { cause := .priv, faddr := (Instr.gstop d a l).encoding }))

/-! ### Administrative instructions (10_system_instr.md R281 to R286) -/

/-- PTINV drops the translations of its range once the counters have drained (R282); ATSET writes a checked image with a new generation
into its atlas entry (R283); ATSYNC invalidates the atlas caches of the partition at its first execution and ends when nothing that looked
an entry up before is outstanding, its status in rd (R284). Each waits while the counters of the context have not drained (R281). -/
def Obligations.TranslationInstructions : Prop :=
  (∀ (s : State) (a : Reg) (l : Bool) (b : Reg) (m : Bool) (p n : Word) (part : Nat), 1 ≤ s.me.level → Reads s a p → Reads s b n →
    spaces p [0] = .ok () → s.myPart = some part →
    (s.drainedNow allCounters = true → s.mayRetire (used l a ++ used m b) [] = true →
      Completes (.ptinv a l b m) s
        (s.afterStep ((s.retiredTo (s.me.pc + 4) (used l a ++ used m b) []).dropTranslations part (ptrAddr p) n.toNat)))
    ∧ (s.drainedNow allCounters = false → Completes (.ptinv a l b m) s (s.block .retry)))
  ∧ (∀ (s : State) (a : Reg) (l : Bool) (b : Reg) (m : Bool) (x p : Word) (img : List Word) (t : Translation) (lin old : Nat) (pl : Place),
    1 ≤ s.me.level → Reads s a x → Reads s b p → s.drainedNow allCounters = true → spaces p [0] = .ok () → s.fetchImage p 0 8 = .ok img →
    imageAccepted (Vector.ofFn (fun i : Fin 8 => img.getD i.val 0)) = true → (s.partRegs s.myPart).atlas ≠ 0 →
    let va := ptrAddr (s.partRegs s.myPart).atlas + 64 * bitsOf x 11 0
    s.translate (s.myPart.getD 0) s.me.level Need.both va = .ok (t, lin) → s.placeOf (wordOf va) 8 Need.both false = .ok pl →
    pl.lost = false → s.plainRead pl 8 = some old →
    (bitsOf (wordOf old) 55 48 ≠ bitsOf (img.getD 0 0) 55 48 →
      let u := (s.note pl).fill pl.line pl.key pl.sealSlot 0 false
      u.mayRetire (used l a ++ used m b) [] = true →
      Completes (.atset a l b m) s
        (s.afterStep (((u.retiredTo (u.me.pc + 4) (used l a ++ used m b) []).writeEntry pl.line lin img).noteEntry lin img)))
    ∧ (bitsOf (wordOf old) 55 48 = bitsOf (img.getD 0 0) 55 48 →
      Completes (.atset a l b m) s (s.takeTrap { cause := .address, faddr := p })))
  ∧ (∀ (s : State) (a : Reg) (l : Bool) (b : Reg) (m : Bool) (x p : Word), 1 ≤ s.me.level → Reads s a x → Reads s b p →
    s.drainedNow allCounters = false → Completes (.atset a l b m) s (s.block .retry))
  ∧ (∀ (s : State) (d : Reg), 1 ≤ s.me.level →
    (s.mySync284 = none → s.drainedNow allCounters = false → Completes (.atsync d) s (s.block .retry))
    ∧ (s.mySync284 = none → s.drainedNow allCounters = true →
      let h : Held := { id := s.nextId, core := s.cur.1, ctx := s.cur.2, mask := 0, what := .admin s.nextOrder }
      let t := { s with nextOrder := s.nextOrder + 1, nextId := s.nextId + 1, held := s.held ++ [h] }
      (∀ part, s.myPart = some part → Completes (.atsync d) s ((t.invalidateAtlas part s.nextOrder).block .retry))
      ∧ (s.myPart = none → Completes (.atsync d) s (t.block .retry)))
    ∧ (∀ h epoch, s.mySync284 = some (h, epoch) →
      (s.myPart = none ∨ s.oldLookups (s.myPart.getD 0) epoch = false → s.mayRetire [] [(d, lostStatus h.mask 0xF)] = true →
        let t := s.retiredTo (s.me.pc + 4) [] [(d, lostStatus h.mask 0xF)]
        Completes (.atsync d) s (s.afterStep { t with held := t.held.filter (fun x => x.id ≠ h.id) }))
      ∧ (∀ part, s.myPart = some part → s.oldLookups part epoch = true → Completes (.atsync d) s (s.block .retry))))

/-- MIGR (10_system_instr.md R285, 22_faults.md R427): a helper that it refuses gives the code of the first check that fails; one that is
ready or already stopped, quiet, settled and saved is reloaded and moved to the destination core, with rd 0. On a helper it is ILLEGAL,
and a number above 10 is an ADDRESS. GSTOP (10_system_instr.md R286, 22_faults.md R430): a stop, of a running or an already stopped
partition, stops every other context and gives the time of its entry once no stop is still to come; a release lets them go on and gives
the time; while a stop is in progress any other GSTOP waits. -/
def Obligations.MigrationAndGangStops : Prop :=
  (∀ (s : State) (d a : Reg) (l : Bool) (b : Reg) (m : Bool) (x y : Word), 1 ≤ s.me.level → Reads s a x → Reads s b y →
    (s.cur.2 ≠ 0 → Completes (.migr d a l b m) s (s.takeTrap { cause := .illegal, faddr := (Instr.migr d a l b m).encoding }))
    ∧ (s.cur.2 = 0 → 10 < bitsOf x 3 0 → Completes (.migr d a l b m) s (s.takeTrap { cause := .address, faddr := x }))
    ∧ (∀ dest, s.cur.2 = 0 → bitsOf x 3 0 ≤ 10 → spaces y [1] = .ok () → s.coreNamed y = some (.inl dest) →
      s.drainedNow allCounters = true →
      let h := bitsOf x 3 0
      (s.migrRefusal h dest ≠ 0 →
        let t := s.unmigrate h
        t.mayRetire (used l a ++ used m b) [(d, wordOf (s.migrRefusal h dest))] = true →
        Completes (.migr d a l b m) s (s.after t 4 (used l a ++ used m b) [(d, wordOf (s.migrRefusal h dest))]))
      ∧ (∀ s0 u v newh rest, s.migrRefusal h dest = 0 →
        ((s.ctx s.cur.1 h).run = .migrating ∧ s0 = s)
          ∨ ((s.ctx s.cur.1 h).run = .ready ∧ (s.ctx s.cur.1 h).engineQuiet = true ∧ (s.ctx s.cur.1 h).level ≠ 2
            ∧ s0 = s.lay s.cur.1 h .migrating true) →
        let t := ((s0.settleSync s.cur.1 h false).forgetAsked s.cur.1 h).withdrawClaim s.cur.1 h
        t.settled s.cur.1 h = true → (t.ctx s.cur.1 h).engineQuiet = true →
        let c := t.ctx t.cur.1 h
        let t' := t.setCtx t.cur.1 h { c with claim := c.claim.map (fun q => { q.settled with floor := c.claimFloor q }) }
        t'.mine.forwards.length < 16 → (t'.core dest).inbox.length + ((t'.core t.cur.1).messagesFor h).length ≤ 64 →
        t'.save t.cur.1 h true = .ok u → u.reload t.cur.1 h = .ok v → (v.core dest).freeHelpers = newh :: rest →
        let w := (v.moveHelper h dest newh).acquire dest
        w.mayRetire (used l a ++ used m b) [(d, 0)] = true →
        Completes (.migr d a l b m) s (s.after w 4 (used l a ++ used m b) [(d, 0)]))))
  ∧ (∀ (s : State) (d a : Reg) (l : Bool) (x : Word) (n : Nat) (p : Partition), 1 ≤ s.me.level → Reads s a x →
    s.drainedNow allCounters = true → s.myPart = some n → s.part n = some p →
    (p.gang = none ∨ (∃ g, p.gang = some g ∧ g.stopping = false) → x.getLsbD 0 = false →
      let t := s.gangStop n s.cur.1 s.cur.2
      (t.gangPending n = [] →
        let u := t.setGang n (some { entered := s.gtc, core := s.cur.1, ctx := s.cur.2, stopping := false })
        u.mayRetire (used l a) [(d, s.gtc)] = true → Completes (.gstop d a l) s (s.after u 4 (used l a) [(d, s.gtc)]))
      ∧ (t.gangPending n ≠ [] →
        Completes (.gstop d a l) s ((t.setGang n (some { entered := s.gtc, core := s.cur.1, ctx := s.cur.2 })).block .retry)))
    ∧ (∀ g, p.gang = some g → g.stopping = true → g.core = s.cur.1 → g.ctx = s.cur.2 →
      let t := (s.gangPending n).foldl (fun (t : State) e => if (t.ctx e.1 e.2).run = .faulted then t.retrySave e.1 e.2 else t) s
      (t.gangPending n = [] →
        let u := t.setGang n (some { g with stopping := false })
        u.mayRetire (used l a) [(d, g.entered)] = true → Completes (.gstop d a l) s (s.after u 4 (used l a) [(d, g.entered)]))
      ∧ (t.gangPending n ≠ [] → Completes (.gstop d a l) s (t.block .retry)))
    ∧ (∀ g, p.gang = some g → g.stopping = false → x.getLsbD 0 = true →
      let u := (s.gangRelease n).setGang n none
      u.mayRetire (used l a) [(d, s.gtc)] = true → Completes (.gstop d a l) s (s.after u 4 (used l a) [(d, s.gtc)]))
    ∧ (∀ g, p.gang = some g → g.stopping = true → ¬ (g.core = s.cur.1 ∧ g.ctx = s.cur.2) →
      Completes (.gstop d a l) s (s.block .retry))
    ∧ (p.gang = none → x.getLsbD 0 = true → s.mayRetire (used l a) [(d, s.gtc)] = true →
      Completes (.gstop d a l) s (s.advanced 4 (used l a) [(d, s.gtc)])))

/-! ### Compact scalar forms (03_encoding.md R92) -/

/-- The compact arithmetic and control forms act as the 32-bit forms that they stand for, and are two bytes long (03_encoding.md R92): rd
is also the first source, and the 3-bit fields name g4 to g11. -/
def Obligations.CompactForms : Prop :=
  (∀ (s : State) (d a : BitVec 5) (l : Bool) (x y : Word), Reads s d x → Reads s a y → s.mayRetire (used l a) [(d, x + y)] = true →
    Completes (.cAdd d a l) s (s.advanced 2 (used l a) [(d, x + y)]))
  ∧ (∀ (s : State) (d : BitVec 5) (i : BitVec 6) (x : Word), Reads s d x → s.mayRetire [] [(d, x + i.signExtend 64)] = true →
    Completes (.cAddi d i) s (s.advanced 2 [] [(d, x + i.signExtend 64)]))
  ∧ (∀ (s : State) (d a : BitVec 5) (l : Bool) (x : Word), Reads s a x → s.mayRetire (used l a) [(d, x)] = true →
    Completes (.cMov d a l) s (s.advanced 2 (used l a) [(d, x)]))
  ∧ (∀ (s : State) (d : BitVec 5) (i : BitVec 6), s.mayRetire [] [(d, i.signExtend 64)] = true →
    Completes (.cLi d i) s (s.advanced 2 [] [(d, i.signExtend 64)]))
  ∧ (∀ (s : State) (d' a' : BitVec 3) (l : Bool) (x y : Word), Reads s (compactReg d') x → Reads s (compactReg a') y →
    let d := compactReg d'
    let dies := used l (compactReg a')
    let gives (i : Instr) (v : Word) : Prop := s.mayRetire dies [(d, v)] = true → Completes i s (s.advanced 2 dies [(d, v)])
    gives (.cSub d' a' l) (x - y) ∧ gives (.cAnd d' a' l) (x &&& y) ∧ gives (.cOr d' a' l) (x ||| y) ∧ gives (.cXor d' a' l) (x ^^^ y)
    ∧ gives (.cShl d' a' l) (x <<< (y.toNat % 64)) ∧ gives (.cShr d' a' l) (x >>> (y.toNat % 64)))
  ∧ (∀ (s : State) (a' : BitVec 3) (l : Bool) (o : BitVec 6) (x : Word), Reads s (compactReg a') x →
    let dies := used l (compactReg a')
    let target := s.me.pc + o.signExtend 64 * 2
    (s.mayRetire dies [] = true →
      (x ≠ 0 → Completes (.cBz a' l o) s (s.advanced 2 dies []))
      ∧ (x = 0 → Completes (.cBnz a' l o) s (s.advanced 2 dies []))
      ∧ (target.getLsbD 0 = false → (x = 0 → Completes (.cBz a' l o) s (s.landedAt target dies []))
        ∧ (x ≠ 0 → Completes (.cBnz a' l o) s (s.landedAt target dies []))))
    ∧ (target.getLsbD 0 = true → (x = 0 → Completes (.cBz a' l o) s (s.takeTrap { cause := .address, faddr := target }))
        ∧ (x ≠ 0 → Completes (.cBnz a' l o) s (s.takeTrap { cause := .address, faddr := target }))))
  ∧ (∀ (s : State) (o : BitVec 11), (s.me.pc + o.signExtend 64 * 2).getLsbD 0 = false → s.mayRetire [] [] = true →
    Completes (.cJ o) s (s.landedAt (s.me.pc + o.signExtend 64 * 2) [] []))
  ∧ (∀ (s : State) (a : BitVec 5) (l : Bool) (x : Word), Reads s a x →
    (x.getLsbD 0 = false → s.mayRetire (used l a) [] = true → Completes (.cJr a l) s (s.landedAt x (used l a) []))
    ∧ (x.getLsbD 0 = true → Completes (.cJr a l) s (s.takeTrap { cause := .address, faddr := x })))
  ∧ (∀ (s : State) (d b : BitVec 5) (l : Bool) (p y : Word), Reads s d p → Reads s b y →
    let top := if ptrSpace p = 1 then 31 else if ptrSpace p = 2 then 39 else 51
    let sum : Int := bitsOf p top 0 + y.toInt
    let q := setBits p top 0 sum.toNat
    ((0 ≤ sum ∧ sum < 2 ^ (top + 1) ∧ s.mayRetire (used l b) [(d, q)] = true) →
      Completes (.cPadd d b l) s (s.advanced 2 (used l b) [(d, q)]))
    ∧ ((sum < 0 ∨ 2 ^ (top + 1) ≤ sum) → Completes (.cPadd d b l) s (s.takeTrap { cause := .ptrovf, faddr := p })))

/-! ### Steps of the memory system (05_memory_instr.md R118 to R128, 22_faults.md R428, 15_memory_map.md R347) -/

/-- A home accepts a request in its turn and answers it (05_memory_instr.md R118, R120, R126): it is performed and its answer is on its
way, it joins the retry list, it fails (R119), or, with its home lost, it is lost (22_faults.md R433); one behind an earlier request of
its source (16_ordering.md R370) or to a busy patch (08_matrix_instr.md R214) waits. A request turned away is sent again (R127), data
reaches its register (R119), an acknowledgement ends a store (R120), a held release goes out once its counters have drained (R128), and a
doubleword with two errors is poisoned (22_faults.md R428). -/
def Obligations.HomeEvents : Prop :=
  (∀ (s : State) (rid : Nat) (r : Request), s.requests.find? (fun q => q.id == rid) = some r → r.stage = .sent → r.remote = none →
    ((s.overtakes r = true ∨ s.patchBusy r.key = true) → Completes (.homeAccept rid) s s)
    ∧ (s.overtakes r = false → s.patchBusy r.key = false → s.forwardOf r = none → r.origin = none →
      (s.homeLost r = true → Completes (.homeAccept rid) s ((s.atSlice r).loseRequest r 0))
      ∧ (s.homeLost r = false →
        (∀ t v, s.apply r = .done t v →
          let u := t.putRequest { r with
            stage := if r.blocking = true ∨ isLoad r.op = true ∨ r.target ≠ .none then .returned v else .acked }
          Completes (.homeAccept rid) s (if r.blocking = true then u.wake r.core r.ctx else u))
        ∧ (s.apply r = .unmet → Completes (.homeAccept rid) s (s.enqueue r))
        ∧ (∀ x, s.apply r = .trap x →
          (r.blocking = true → Completes (.homeAccept rid) s
            ((s.putRequest { r with stage := .failed x.cause x.reason x.faddr x.detail5 }).wake r.core r.ctx))
          ∧ (r.blocking = false → isLoad r.op = true ∨ r.target ≠ .none → Completes (.homeAccept rid) s
            ((s.finishCounts r).alterCtx r.core r.ctx (fun c => c.loseLoad r.target { address := x.faddr, page := x.reason })))
          ∧ (r.blocking = false → isLoad r.op = false → r.target = .none → Completes (.homeAccept rid) s (s.loseRequest r 0))))))
  ∧ (∀ (s : State) (rid : Nat) (r : Request), s.requests.find? (fun q => q.id == rid) = some r → r.stage = .nacked →
    (r.remote = none → Completes (.retryReplay rid) s (s.putRequest { r with stage := .sent }))
    ∧ (∀ pkg port, r.remote = some pkg →
      (s.putRequest { r with stage := .sent }).portFor r.part pkg r.core (homekeyOf r.home r.key) = some port →
      Completes (.retryReplay rid) s ((s.putRequest { r with stage := .sent }).queueFlits port (requestFlits r.op)))
    ∧ (∀ pkg, r.remote = some pkg →
      (s.putRequest { r with stage := .sent }).portFor r.part pkg r.core (homekeyOf r.home r.key) = none →
      Completes (.retryReplay rid) s ((s.putRequest { r with stage := .sent }).loseRequest r 2)))
  ∧ (∀ (s : State) (rid : Nat) (data : Word) (r : Request) (p : Nat), s.requests.find? (fun q => q.id == rid) = some r →
    r.blocking = false → r.origin = none → r.ctx < 16 → r.target = .reg p → (s.ctx r.core r.ctx).run = .ready →
    let returned (v : Word) : State := (s.setCtx r.core r.ctx ((s.ctx r.core r.ctx).write p v)).finishCounts r
    (∀ v, r.stage = .returned v → Completes (.loadDataReturn rid data) s (returned v))
    ∧ (∀ pkg, r.remote = some pkg → r.stage = .sent → Completes (.loadDataReturn rid data) s
      (if r.verdict.1 = 0 then returned (answerWord r.op data) else s.ownerFault r r.verdict.1 r.verdict.2)))
  ∧ (∀ (s : State) (rid : Nat) (r : Request), s.requests.find? (fun q => q.id == rid) = some r →
    (r.origin = none → r.stage = .acked → Completes (.storeAck rid) s (s.finishCounts r))
    ∧ (r.origin ≠ none → r.stage = .acked → Completes (.storeAck rid) s (s.dropRequest rid))
    ∧ (r.origin = none → r.abroad = true → isLoad r.op = false → r.target = .none →
      (r.blocking = true → r.cls ≠ none → Completes (.storeAck rid) s (if r.verdict.1 = 0
        then (s.putRequest { r with stage := .returned 0 }).wake r.core r.ctx else s.ownerFault r r.verdict.1 r.verdict.2))
      ∧ (r.blocking = false → Completes (.storeAck rid) s
        (if r.verdict.1 = 0 then s.finishCounts r else s.ownerFault r r.verdict.1 r.verdict.2))))
  ∧ (∀ (s : State) (hid : Nat) (h : Held), s.held.find? (fun x => x.id == hid) = some h →
    let t := { s with held := s.held.filter (fun x => x.id ≠ hid) }
    (∀ r, h.what = .request r → s.drained h.core h.ctx h.id h.mask = true →
      Completes (.releaseSend hid) s (t.sendCounted r (t.homeLost r)))
    ∧ (∀ f, h.what = .message f → s.drained h.core h.ctx h.id h.mask = true → Completes (.releaseSend hid) s (t.sendMessage { f with gtc := s.gtc }))
    ∧ (∀ tile x, h.what = .task tile x → s.drained h.core h.ctx h.id h.mask = true → Completes (.releaseSend hid) s (t.enterRelief tile { x with gtc := s.gtc }))
    ∧ (∀ x, h.what = .launch x → s.drained h.core h.ctx h.id h.mask = true →
      Completes (.releaseSend hid) s { t with launchQueue := s.launchQueue ++ [x] })
    ∧ (∀ sg x u, h.what = .crew sg x → s.drained h.core h.ctx h.id h.mask = true → t.crewArrive sg x = some u → Completes (.releaseSend hid) s u)
    ∧ (∀ x, h.what = .command x → s.drained h.core h.ctx h.id h.mask = true →
      Completes (.releaseSend hid) s { t with commands := s.commands ++ [x] })
    ∧ (∀ tile x, h.what = .copy tile x → s.drained h.core h.ctx h.id h.mask = true → (s.tile tile).copies.length < 16 →
      Completes (.releaseSend hid) s (t.setTile tile { t.tile tile with copies := (t.tile tile).copies ++ [x] }))
    ∧ (∀ r, h.what = .request r → s.drained h.core h.ctx h.id h.mask = false → Completes (.releaseSend hid) s s))
  ∧ (∀ (s : State) (a : Nat), a < 0x14000000000 →
    (s.poison.contains (a / 8) = false → Completes (.memoryDoubleUpset a) s { s with poison := a / 8 :: s.poison })
    ∧ (s.poison.contains (a / 8) = true → Completes (.memoryDoubleUpset a) s s))
  ∧ (∀ (s : State) (n : Nat) (p : Partition), s.part n = some p →
    (s.heatfade = 0 → Completes (.heatSweep n) s s)
    ∧ (∀ root, s.heatfade ≠ 0 → p.root = .ok root → Completes (.heatSweep n) s (s.coolTable p 5 root)))

/-- The steps of messages and contexts. A message that no earlier one of its source holds back enters the inbox, is refused by a full one,
or, of class 0 for a context that is not live, is discarded (06_task_instr.md R159 to R161, 12_execution.md R308); a handler starts with
the message in a0 to a7 on the highest free reserved helper (R160); class 3 resumes a FAULTED context and class 5 ends a helper (R159,
22_faults.md R424); a moved bank or helper has its requests and messages passed on until none is left (22_faults.md R427); a helper short
of registers is pre-empted and granted them in turn (01_assembly.md R30, R31); the head of a tile's claim queue gets its units
(07_vector_instr.md R187). -/
def Obligations.MessageEvents : Prop :=
  (∀ (s : State) (mid n : Nat) (f : Flight), s.flights.find? (fun x => x.id == mid) = some f → f.dest = .core n → f.nacked = false →
    s.behind f = false →
    (n < 4096 → s.dieLost (coreDie n) = true → f.issuer ≠ none → Completes (.messageArrival mid) s (s.loseFlight f 0))
    ∧ (¬ (n < 4096 ∧ s.dieLost (coreDie n) = true) →
      (f.msg.cls = 1 ∨ f.msg.cls = 4 → Completes (.messageArrival mid) s (s.landed f))
      ∧ ([1, 3, 4, 5].contains f.msg.cls = false → (s.core n).forwardOf f.msg = none →
        (f.msg.cls = 0 → (s.ctx n f.msg.dctx).isLive = false → Completes (.messageArrival mid) s (s.landed f))
        ∧ ((f.msg.cls = 0 → (s.ctx n f.msg.dctx).isLive = true) →
          (inboxFull (s.core n).inbox f.msg = false → Completes (.messageArrival mid) s ((s.setCore n { s.core n with
            inbox := enterInbox (s.core n).inbox { f.msg with came := s.gtc, sender := f.source }
            received := (s.core n).received + 1 }).landed f))
          ∧ (inboxFull (s.core n).inbox f.msg = true → Completes (.messageArrival mid) s
            { s with flights := s.flights.map (fun g => if g.id = f.id then { g with nacked := true } else g) })))))
  ∧ (∀ (s : State) (mid : Nat) (f : Flight), s.flights.find? (fun x => x.id == mid) = some f → f.nacked = true →
    let g := { f with nacked := false }
    Completes (.messageReplay mid) s
      ({ s with flights := s.flights.map (fun (x : Flight) => if x.id = mid then g else x) }.atPort g))
  ∧ (∀ (s : State) (core h : Nat) (m : Message) (pc : Word), isService core = false → s.gangStopping core = false →
    (s.core core).inbox.find? (s.startsHandler core) = some m → (s.core core).freeReserved = some h → s.handlerOf core m.cls = some pc →
    let c := { Ctx.start pc 0 .handler (startArgs (m.header :: m.payload)) with replyTo := some m.source }
    Completes (.handlerStart core) s ((s.setCore core
      { (s.core core).setCtx h c with inbox := dropFirst (s.startsHandler core) (s.core core).inbox }).acquire core))
  ∧ (∀ (s : State) (mid n : Nat) (f : Flight), s.flights.find? (fun x => x.id == mid) = some f → f.dest = .core n →
    s.behind f = false → (s.core n).forwardOf f.msg = none →
    let t := s.landed f
    let m := f.msg
    (m.cls = 3 → m.arg0 &&& ~~~1 = 0 → ([m.arg1, m.arg2, m.arg3, m.arg4, m.arg5, m.arg6].any (· != 0)) = false →
      ((t.ctx n m.dctx).run = .faulted → Completes (.resumeMessage mid) s (t.resume n m.dctx (bitAt m.arg0 0)))
      ∧ ((t.ctx n m.dctx).run ≠ .faulted → Completes (.resumeMessage mid) s t))
    ∧ (m.cls = 3 → (m.arg0 &&& ~~~1 ≠ 0 ∨ ([m.arg1, m.arg2, m.arg3, m.arg4, m.arg5, m.arg6].any (· != 0)) = true) →
      Completes (.resumeMessage mid) s t)
    ∧ (m.cls = 5 → m.dctx ≠ 0 → (t.ctx n m.dctx).isLive = true → Completes (.stopMessage mid) s (t.stopHelper n m.dctx)))
  ∧ (∀ (s : State) (rid : Nat) (r : Request) (f : Forward), s.requests.find? (fun q => q.id == rid) = some r → r.stage = .sent →
    s.forwardOf r = some f → r.remote = none → s.overtakes r = false →
    Completes (.forwardRequest rid) s ((s.restartForward ((r.key - 2 ^ 45) / 2 ^ 18) f).putRequest
      { r with key := sramKey f.toCore (r.key % 2 ^ 18), home := f.toCore }))
  ∧ (∀ (s : State) (core i : Nat) (e : Forward), (s.core core).forwards[i]? = some e →
    (s.requests.any (fun r => r.stage == .sent && r.remote.isNone && r.home == core && s.forwardOf r == some e)) = false →
    (s.flights.any (fun f => f.dest == .core core && (s.core core).forwardOf f.msg == some e)) = false →
    e.since + 2 ^ 20 ≤ s.cycle → Completes (.forwardExpire core i) s (s.setCore core { s.core core with forwards := (s.core core).forwards.eraseIdx i }))
  ∧ (∀ (s : State) (core h : Nat), h ≠ 0 → ((s.core core).ctx h).run = .ready → ((s.core core).ctx h).wait = .register →
    ((s.core core).ctx h).level ≠ 2 → ((s.core core).waiters.any (fun w => w.ctx == h && decide (w.since + 4096 < s.cycle))) = true →
    (∀ t, (s.lay core h .preempted true).save core h false = .ok t →
      Completes (.registerPreempt core h) s (t.setCore core { t.core core with waiters := (t.core core).waiters.map (fun w =>
        if w.ctx = h then { w with preempted := true, need := ((s.core core).ctx h).holds - 16 } else w) }))
    ∧ (∀ va, (s.lay core h .preempted true).save core h false = .error va →
      let t := s.saveFailed core h 1 va
      Completes (.registerPreempt core h) s (t.setCore core { t.core core with
        waiters := (s.core core).waiters.filter (fun w => w.ctx ≠ h) })))
  ∧ (∀ (s : State) (core : Nat) (w : Waiter) (rest : List Waiter), (s.core core).waiters = w :: rest →
    (w.preempted = false → ((s.core core).ctx w.ctx).run = .ready → (s.core core).sharedUsed < 64 →
      ((s.core core).ctx w.ctx).wait = .register →
      Completes (.registerGrant core) s
        (s.setCore core ((s.core core).setCtx w.ctx { (s.core core).ctx w.ctx with wait := .retry })))
    ∧ (∀ t, w.preempted = true → (s.core core).sharedUsed + w.need ≤ 64 → ((s.core core).ctx w.ctx).run = .preempted →
      ((s.core core).ctx w.ctx).isPreempted = true → s.reload core w.ctx = .ok t →
      (s.core core).sharedUsed + ((t.ctx core w.ctx).holds - 16) ≤ 64 →
      let u := (t.lift core w.ctx).alterCtx core w.ctx (fun c =>
        { c with wait := if c.wait = .barrier ∨ c.wait = .claim then c.wait else .retry })
      Completes (.registerGrant core) s (u.setCore core { u.core core with waiters := rest })))
  ∧ (∀ (s : State) (tile : Nat) (r : ClaimRequest) (rest : List ClaimRequest), (s.tile tile).claimQueue = r :: rest →
    (s.ctx r.core r.ctx).wait = .claim →
    (r.resuming = true →
      let t := s.reclaim tile (fun t => decide (r.minreq ≤ 16 * t.freeGroups tile)) 64
      let lanes := min r.req (16 * t.freeGroups tile)
      r.minreq ≤ 16 * t.freeGroups tile →
      Completes (.claimGrant tile) s ((t.setTile tile { t.tile tile with claimQueue := rest }).alterCtx r.core r.ctx (fun c =>
        { c with wait := .none, claim := c.claim.map (fun q => q.regrant lanes (t.pickGroups (lanes / 16) (t.openGroups tile))) })))
    ∧ (r.resuming = false → (s.ctx r.core r.ctx).claim = none →
      let t := s.reclaim tile (fun t => decide (r.minreq ≤ 16 * t.freeGroups tile)) 64
      r.minreq ≤ 16 * t.freeGroups tile →
      Completes (.claimGrant tile) s (t.alterCtx r.core r.ctx (fun c => { c with wait := .retry })))
    ∧ (∀ q, r.resuming = false → (s.ctx r.core r.ctx).claim = some q →
      let t := s.reclaim tile (fun t => decide (r.minreq ≤ q.settled.g + 16 * (t.otherGroups tile q.settled).length)) 64
      r.minreq ≤ q.settled.g + 16 * (t.otherGroups tile q.settled).length →
      Completes (.claimGrant tile) s (t.alterCtx r.core r.ctx (fun c => { c with wait := .retry }))))
  ∧ (∀ (s : State) (core : Nat) (cw : BitVec 3), s.anyPatchBusy core = false → Completes (.lsplitWrite core cw) s (s.splitSram core cw))
  ∧ (∀ (s : State) (core : Nat) (cw : BitVec 3), s.anyPatchBusy core = true → Completes (.lsplitWrite core cw) s s)
  ∧ (∀ (s : State) (tile : Nat) (en : Bool),
    let t := if en then s else s.dropPool tile (fun _ => true)
    Completes (.vgroupWrite tile en) s (t.setTile tile { t.tile tile with vgroup := en }))

/-! ### Launches, dispatch, the relief and crews (06_task_instr.md R156, 12_execution.md R297 to R311, 13_relief.md R315 to R325) -/

/-- The launch distributor takes the oldest launch, answers a COUNT above 2^32 with code 3 (06_task_instr.md R156), and the launch unit of
a die places its entries (12_execution.md R299); a tile hands the oldest resident entry of its highest level that has an eligible core to
the core with the fewest live helpers (R303); spilled entries come back with 1,920 resident ones or fewer and refused offers are made
again (R301); entries age (R302). The pressure sample is (queued cost + 16 × live helpers) shifted by PSHIFT, and PRESS is the mean of the
last four (13_relief.md R315); a contour unit reports 0 below PLOW and otherwise one more than the lowest pair it holds, once no neighbour
is a step behind it (R318); a task that the unit decides stays or moves one hop (R321), held while its die is paused and decided afresh
afterwards (11_program_spawn.md R290). -/
def Obligations.LaunchEvents : Prop :=
  (∀ (s : State) (r : LaunchRequest) (rest : List LaunchRequest), s.launchQueue = r :: rest →
    let t := { s with launchQueue := rest }
    (2 ^ 32 < bitsOf (r.packet.toList.getD 0 0) 39 0 → Completes .launchDistribute s (t.launchReply r 3 []))
    ∧ (bitsOf (r.packet.toList.getD 0 0) 39 0 ≤ 2 ^ 32 → r.packet.toList.getD 2 0 = 0 →
      let tiles := s.tilesOf r.part
      let l : Launch :=
        { id := s.nextId, part := r.part, entry := r.entry, packet := r.packet, tiles := tiles.length, toPlace := []
          stride := (s.partRegs (some r.part)).lstride.toNat }
      let counts : List (Nat × Nat) := (List.range 8).filterMap (fun die => match l.onDie tiles die with
        | [] => none
        | ts => some (die, (ts.map (fun e => l.leftFrom e.2)).sum))
      let l := { l with toPlace := (counts.map (·.1)).filter (fun e => !s.dieLost e), dies := counts.map (fun e => (e.1, e.2, 0, 0)) }
      counts ≠ [] →
      Completes .launchDistribute s ({ t with nextId := s.nextId + 1, launches := s.launches ++ [l] }.launchReply r 0 [])))
  ∧ (∀ (s : State) (die : Nat) (l : Launch) (t : State), s.launches.find? (fun l => l.toPlace.contains die) = some l →
    (l.onDie (s.tilesOf l.part) die).foldl (fun (acc : Option State) e => acc.bind (fun t => t.placeEntry l e)) (some s) = some t →
    Completes (.launchEntryPlace die) s { t with
      launches := t.launches.map (fun x => if x.id = l.id then { x with toPlace := x.toPlace.filter (· != die) } else x) })
  ∧ (∀ (s : State) (tile : Nat) (e : QEntry) (core h : Nat) (rest : List Nat), s.dieLost (tileDie tile) = false →
    s.dispatchable tile = some e → s.fewest (s.eligible tile e) = some core → (s.core core).freeHelpers = h :: rest →
    (∀ t, e.kind = .task t → Completes (.dispatch tile) s
      ((s.setTile tile { s.tile tile with queue := (s.tile tile).queue.erase e }).startTask core h t .task 0))
    ∧ (∀ id i l, e.kind = .roots id i → s.launches.find? (fun l => l.id == id) = some l →
      let q := if l.leftFrom i ≤ 1 then (s.tile tile).queue.erase e
        else (s.tile tile).queue.map (fun x => if x = e then { e with kind := .roots id (i + l.period) } else x)
      Completes (.dispatch tile) s ((s.setTile tile { s.tile tile with queue := q }).startRoot core h l i)))
  ∧ (∀ (s : State) (tile v : Nat), residents (s.tile tile).queue ≤ 1920 → v < 8 → hasSpilled (s.tile tile).queue v = true →
    (∀ w, v < w → w < 8 → hasSpilled (s.tile tile).queue w = false) →
    Completes (.spillRefill tile) s (s.setTile tile { s.tile tile with queue := refillLevel (s.tile tile).queue v }))
  ∧ (∀ (s : State) (tile : Nat), Completes (.spillOfferRetry tile) s
    ((s.tile tile).offered.foldl (fun (s : State) t => s.offer tile t) (s.setTile tile { s.tile tile with offered := [] })))
  ∧ (∀ (s : State) (tile part : Nat), s.partOfGroup (tileSuperGroup tile) = some part →
    let due := ([6, 5, 4, 3, 2, 1, 0] : List Nat).flatMap (fun v => (s.tile tile).queue.filter (fun e =>
      e.level == v && aged s.microsecond (s.partRegs (some part)).ageus.toNat e.joined.toNat))
    Completes (.queueAgeing tile) s (due.foldl (fun (s' : State) e => s'.ageEntry part tile s.microsecond e) s))
  ∧ (∀ (s : State) (tile part : Nat), s.partOfGroup (tileSuperGroup tile) = some part → s.dieLost (tileDie tile) = false →
    let u := s.tile tile
    let raw := min 0xFFFF ((s.queuedCost tile + 16 * s.busyHelpers tile) / 2 ^ (s.partRegs (some part)).pshift.toNat)
    Completes (.pressureSample tile) s (s.setTile tile { u with
      s0 := BitVec.ofNat 16 raw, s1 := u.s0, s2 := u.s1, s3 := u.s2, raw := BitVec.ofNat 16 raw
      p := BitVec.ofNat 16 ((raw + u.s0.toNat + u.s1.toNat + u.s2.toNat) / 4) }))
  ∧ (∀ (s : State) (tile part : Nat), s.partOfGroup (tileSuperGroup tile) = some part → s.dieLost (tileDie tile) = false →
    ([0, 1, 2, 3] : List Nat).any (s.aheadOf tile) = false →
    let pair : Nat × Nat := if (s.tile tile).p.toNat < (s.partRegs (some part)).plow.toNat then (0, (s.tile tile).p.toNat)
      else (min 255 (1 + (s.lowest tile).2.1), (s.lowest tile).2.2)
    let u := s.tile tile
    let t := s.setTile tile { u with own := pair, steps := u.steps + 1, pairs := u.arrived }
    Completes (.contourStep tile) s (([0, 1, 2, 3] : List Nat).foldl (fun (t : State) d =>
      if t.shutOut tile d then t else t.sendPair tile d pair (u.steps + 1)) t))
  ∧ (∀ (s : State) (tile : Nat) (x : Task), earliestTask (s.tile tile).deciding = some x →
    let t := s.setTile tile { s.tile tile with deciding := (s.tile tile).deciding.erase x }
    (t.placement tile (t.partRegs (some x.part)) x = none → Completes (.placementDecision tile) s (t.offer tile x))
    ∧ (∀ n, t.placement tile (t.partRegs (some x.part)) x = some n →
      (s.paused.getLsbD (tileDie tile) = true → Completes (.placementDecision tile) s
        (t.setTile tile { t.tile tile with held := (t.tile tile).held ++ [x] }))
      ∧ (s.paused.getLsbD (tileDie tile) = false → Completes (.placementDecision tile) s
        (t.enterRelief n { x with hops := x.hops + 1, gtc := s.gtc + 1 }))))
  ∧ (∀ (s : State) (tile : Nat),
    (s.paused.getLsbD (tileDie tile) = true → Completes (.heldTaskResume tile) s s)
    ∧ (s.paused.getLsbD (tileDie tile) = false → Completes (.heldTaskResume tile) s (s.setTile tile { s.tile tile with
        held := [], deciding := (s.tile tile).deciding ++ (s.tile tile).held.map (fun t => { t with gtc := s.gtc }) })))

/-- The arbiter of a super-group grants the first request in queue order that fits a rectangle (12_execution.md R310, R311) or restores
the swapped crew that the request stands for (22_faults.md R429); it names a target for a request that has waited AGEUS µs, ages the queue
and refills it (R309, R310); and it swaps a crew out: the members stop, and once they are quiet the crew leaves for its slot (22_faults.md
R429). A context whose barrier is full goes on (06_task_instr.md R171). -/
def Obligations.CrewEvents : Prop :=
  (∀ (s : State) (sg : Nat) (r : CrewRequest) (rect : Rect), s.crewChoice sg = some (r, rect) →
    (r.restore = none → Completes (.crewGrant sg) s ((s.granted311 sg r).startCrew sg r rect))
    ∧ (∀ c n p, s.crews.find? (fun c => some c.id == r.restore && !c.saved.isEmpty) = some c → s.partOfGroup sg = some n →
      s.part n = some p →
      Completes (.crewRestore sg) s ((s.granted311 sg r).restoreCrew c rect n (p.slotBase (c.swapped.getD 0)))))
  ∧ (∀ (s : State) (sg part : Nat), s.partOfGroup sg = some part →
    let g := s.superGroup sg
    let limit := (s.partRegs (some part)).ageus.toNat
    let aged (g : SuperGroup) : State :=
      let u := (g.dueRequests s.microsecond limit).foldl (fun (u : State) r => u.ageRequest part sg s.microsecond r) (s.setSuperGroup sg g)
      u.setSuperGroup sg (refillRequests (u.superGroup sg))
    ((∃ t, g.target = some t) ∨ g.ordered = [] → Completes (.crewTarget sg) s (aged g))
    ∧ (∀ r rest, g.ordered = r :: rest → s.gtc.toNat - r.joined.toNat < limit * 1000 → Completes (.crewTarget sg) s (aged g))
    ∧ (∀ r rest t, g.target = none → g.ordered = r :: rest → limit * 1000 ≤ s.gtc.toNat - r.joined.toNat →
      s.bestTarget sg r.w r.h = some t →
      Completes (.crewTarget sg) s (aged { g with
        target := some t, requests := g.requests.map (fun x => if x = r then { r with targeted := some s.gtc } else x) })))
  ∧ (∀ (s : State) (sg n : Nat) (p : Partition), s.partOfGroup sg = some n → s.part n = some p →
    (∀ c, s.crews.find? (fun c => c.sg == sg && c.swapped.isSome && c.saved.isEmpty) = some c →
      (s.crewQuiet c = false → Completes (.crewSwap sg) s (s.stopAgain c))
      ∧ (s.crewQuiet c = true →
        let t := (c.living.foldl (fun (s : State) e => s.captureBarrier e.2) s).raiseFloors c
        ∀ u, t.swapSave n (p.slotBase (c.swapped.getD 0)) c.living = .ok u →
          Completes (.crewSwap sg) s (u.swapAway c (c.swapped.getD 0))))
    ∧ (∀ t r c k, s.crews.find? (fun c => c.sg == sg && c.swapped.isSome && c.saved.isEmpty) = none →
      (s.superGroup sg).target = some t → (s.superGroup sg).requests.find? (fun r => r.targeted.isSome) = some r →
      p.regs.ageus.toNat * 1000 ≤ s.gtc.toNat - (r.targeted.getD 0).toNat → p.gang = none → s.victim r t = some c →
      s.freeSlot n p = some k → Completes (.crewSwap sg) s (s.swapBegin c n k (p.slotBase k))))
  ∧ (∀ (s : State) (core ctx : Nat), ctx < 16 → (s.ctx core ctx).wait = .barrier →
    (s.barriers.any (fun b => b.arrivals.any (fun a => (a.core == core && a.ctx == ctx) && b.full a.epoch))) = true →
    Completes (.barComplete core ctx) s (s.setCtx core ctx { s.ctx core ctx with wait := .retry }))

/-! ### Engines, copies and streams (08_matrix_instr.md R218 to R243, 09_copy_instr.md R251 to R261, 06_task_instr.md R173) -/

/-- A command from another core is accepted in its order where the engine holds fewer than eight: one whose capability passes and whose
block checks enters the queue (08_matrix_instr.md R226), one whose capability fails completes with code 2 (R227). A free engine starts its
oldest eligible command (R218), and the running one goes on, asks another package for an element it lacks, or takes its effect as it
completes (R219). A command that starts from zero and writes back moves once to an idle engine of its tile (R229). The engraver reads the
header of its oldest request, then the bitmap in a free order, and makes the entry of a well-formed tile of the same version, in a free
place or in that of the least recently used entry (R233, R234, 18_sparse.md R382, R383). -/
def Obligations.EngineEvents : Prop :=
  (∀ (s : State) (cid : Nat) (c : Command) (a : Nat), s.commands.find? (fun c => c.id == cid && c.viaMcmd) = some c → c.counter = some a →
    s.dieLost (coreDie c.target) = false → s.commandBehind c = false → (s.core c.target).engine.accepted.length < 8 →
    let t := { s with commands := s.commands.filter (fun x => x.id ≠ cid) }
    let t := t.alterCtx c.issuer c.issuerCtx (fun x => { x with acks := x.acks.set a (x.acks.get a - 1) })
    (s.capPasses c = false → Completes (.engineCommandAccept cid) s (t.endCommand c.target c 2 0 0 0 0))
    ∧ (∀ x, s.capPasses c = true → (s.asIssuer c.issuer c.issuerCtx c.level).checkBlock c.target c 0 = .ok x →
      Completes (.engineCommandAccept cid) s (t.acceptCommand c.target { c with viaMcmd := false })))
  ∧ (∀ (s : State) (core : Nat) (c : Command), (s.core core).engine.running = none →
    oldestEligible [] (s.core core).engine.queue = some c →
    Completes (.engineCommandStart core) s ((s.setCore core { s.core core with engine := { (s.core core).engine with
      running := some c, queue := (s.core core).engine.queue.filter (fun x => x.id ≠ c.id) } }).touchPlate core c))
  ∧ (∀ (s : State) (core : Nat) (c : Command) (t : State), (s.core core).engine.running = some c →
    (s.runCommand core c = .ended t → Completes (.engineCommandComplete core) s (t.dropUnit c.id))
    ∧ (s.runCommand core c = .goes t → Completes (.engineCommandComplete core) s t)
    ∧ (∀ p pl size, s.runCommand core c = .asks t p pl size →
      (t.fetched c.id p = none → Completes (.engineCommandComplete core) s (t.unitRequest c.issuer c.part c.id p pl (.load size false) 0))
      ∧ (∀ x, t.fetched c.id p = some x → Completes (.engineCommandComplete core) s t)))
  ∧ (∀ (s : State) (core cid n : Nat) (c : Command), (s.core core).engine.queue.find? (fun c => c.id == cid) = some c →
    (tileCores (coreTile core)).find? (fun n => n != core && (s.core n).engine.queue.isEmpty && (s.core n).engine.running.isNone) = some n →
    (s.partRegs (s.partOf core)).mmigt ≠ 0 → c.moved = false → c.isBlock = true → c.zero = true → c.writesBack = true → c.asrc = 0 →
    c.bsrc = 0 → c.afwd = false → c.bfwd = false →
    let k := s.core core
    let t := s.setCore core { k with engine := { k.engine with queue := k.engine.queue.filter (fun x => x.id ≠ cid) } }
    Completes (.engineCommandMigrate core cid) s ((t.acceptCommand n { c with moved := true, target := n }).identities core))
  ∧ (∀ (s : State) (sg : Nat) (r : Engrave) (rest : List Engrave) (w : Word) (v : BitVec 7),
    (s.superGroup sg).engraver = r :: rest → s.tileHeader r.part r.level r.address = .ok (w, v) →
    (r.started = false →
      (v = r.version → Completes (.engraveStart sg) s (s.setSuperGroup sg
        { s.superGroup sg with engraver := { r with started := true, header := w } :: rest }))
      ∧ (v ≠ r.version → Completes (.engraveStart sg) s (s.engraveStale sg r)))
    ∧ (r.started = true → s.eager = false → r.rows = [] →
      ∀ got, s.readRows r ((List.range 64).filter (fun i => s.free (2000 + i) 2 == 1)) = .ok got →
        Completes (.engraveComplete sg) s (s.setSuperGroup sg { s.superGroup sg with engraver := { r with rows := got } :: rest }))
    ∧ (r.started = true → (s.eager = true ∨ r.rows ≠ []) → ∀ got, s.readRows r (List.range 64) = .ok got →
      let rows := (List.range 64).map (fun i => Table.get got i 0)
      (v ≠ r.version → Completes (.engraveComplete sg) s (s.engraveStale sg r))
      ∧ (v = r.version → tileMalformed r.header rows = true →
        Completes (.engraveComplete sg) s (s.engraveFailed sg r (7, Cause.format.number, 0)))
      ∧ (v = r.version → tileMalformed r.header rows = false →
        Completes (.engraveComplete sg) s (s.engraveBuilt sg r (plateOf r r.header rows s.nextOrder)))))

/-- The copy engine of a tile starts its oldest copy and runs it (09_copy_instr.md R253); a CPYQ that was set aside goes on once its
channel has room (R257). A surveyor reads its next index line, executes one instruction of its kernel, starts the run of its next line,
or, once every gather has returned, ends with a control value and a completion (08_matrix_instr.md R243, 18_sparse.md R386, R387); a
gather fills the entry reserved for it. A memory stream delivers its next doubleword, or closes with a control value (06_task_instr.md
R173). -/
def Obligations.CopyEvents : Prop :=
  (∀ (s : State) (tile : Nat) (c : Copy), (s.tile tile).runningCopy = none → (s.tile tile).copies.find? (fun c => !c.started) = some c →
    (¬ (c.hasSource = true ∧ ptrSpace (mapBase c.src) = 2) →
      Completes (.copyStart tile) s (s.putCopy tile { c with started := true, epoch := (s.tile tile).epoch }))
    ∧ (∀ e t, c.hasSource = true → ptrSpace (mapBase c.src) = 2 →
      s.lookupEntry c.part tile (bitsOf (mapBase c.src) 51 40) = .ok (e, t) →
      Completes (.copyStart tile) s (t.putCopy tile { c with started := true, entry := some e, epoch := (s.tile tile).epoch }))
    ∧ (∀ x, c.hasSource = true → ptrSpace (mapBase c.src) = 2 →
      s.lookupEntry c.part tile (bitsOf (mapBase c.src) 51 40) = .error x →
      let cause : Cause := match x with
        | .address => .address
        | .page _ => .page
      let d : Copy := { c with started := true, epoch := (s.tile tile).epoch }
      (c.kind = .cpyq → Completes (.copyStart tile) s (s.putCopy tile { d with failed := some cause }))
      ∧ (c.kind ≠ .cpyq →
        Completes (.copyStart tile) s (s.stopCopy tile d { at_ := 0, cause := some cause, address := mapBase c.src } 0))))
  ∧ (∀ (s : State) (tile : Nat) (c : Copy), (s.tile tile).runningCopy = some c →
    (c.kind ≠ .cpyq → Completes (.copyComplete tile) s (s.runCopy tile c))
    ∧ (c.kind = .cpyq → Completes (.copyComplete tile) s (s.runChannel tile c)))
  ∧ (∀ (s : State) (tile : Nat) (c : Copy), (s.tile tile).copies.find? (fun c => c.aside && s.copyRoom c) = some c →
    Completes (.copyqResume tile) s (s.runChannel tile { c with aside := false }))
  ∧ (∀ (s : State) (core n : Nat) (t : Stream), Table.look (s.core core).streams n = some t →
    (t.wantsLine = true → t.ahead = [] → t.at_ = none → Completes (.surveyorRun core n) s (s.readIndexLine core n t))
    ∧ (t.wantsLine = false ∨ s.eager = true →
      (∀ i count u j, t.at_ = some (i, count) → count < 256 → t.execute i = .goes u j →
        Completes (.surveyorRun core n) s (s.setStream core n { u with at_ := some (j, count + 1) }))
      ∧ (∀ i count, t.at_ = some (i, count) → count < 256 → t.execute i = .ends →
        Completes (.surveyorRun core n) s (s.setStream core n { t with at_ := none, nextLine := t.nextLine + 1 }))
      ∧ (∀ i count e, t.at_ = some (i, count) → count < 256 → t.execute i = .faults e →
        Completes (.surveyorRun core n) s (s.faultStream core n t e.streamEnd))
      ∧ (∀ i count, t.at_ = some (i, count) → count < 256 → t.execute i = .stalls → Completes (.surveyorRun core n) s s)
      ∧ (∀ i count, t.at_ = some (i, count) → 256 ≤ count →
        Completes (.surveyorRun core n) s (s.faultStream core n t (7, [wordOf Cause.illegal.number, wordOf t.nextLine]))))
    ∧ (∀ b rest, t.at_ = none → t.ahead = .bytes b :: rest → t.wantsLine = false ∨ s.eager = true →
      t.nextLine < t.lines → (s.core core).nextRun = some n →
      let u := { t with at_ := some (0, 0), line := b, ahead := rest, regs := (t.regs.set 0 (wordOf t.nextLine)).set 1 t.base }
      Completes (.surveyorRun core n) s ((s.setCore core { s.core core with servedStream := n }).setStream core n u))
    ∧ (t.at_ = none → t.wantsLine = false → t.started = true → t.ended = false → t.lines ≤ t.nextLine → t.queue.length < 16 →
      t.queue.any (·.reserved.isSome) = false →
      let u := { t with started := false, ended := true, queue := t.queue ++ [{ control := true, data := 0 }] }
      Completes (.surveyorRun core n) s ((s.setStream core n u).streamCompletion core n t 0 []))
    ∧ (∀ i q x, (gathersOf t.queue)[if s.eager then 0 else s.free 341 (gathersOf t.queue).length]? = some (i, q) →
      (s.streamView core t).gatherDword (streamGroup core n) q = .ok x →
      let u := { s with requests := s.requests.filter (fun r => !(r.grp == streamGroup core n && r.pointer == q)) }
      Completes (.surveyorGatherReturn core n) s
        (((s.streamView core t).fillFor q 0 true u).setStream core n { t with queue := fillEntry (wordOf x) i t.queue })))
  ∧ (∀ (s : State) (core ctx : Nat) (q : BitVec 3) (h : Channel), s.channel core ctx q.toNat = some h → h.kind = 4 → h.closed = false →
    h.entries.length < 16 →
    (h.count ≤ h.delivered → Completes (.memoryStreamRead core ctx q) s (s.setChannel core ctx q.toNat
      { h with closed := true, entries := h.entries ++ [{ control := true, data := 0 }] }))
    ∧ (∀ p x, h.delivered < h.count → elementPtr h.pointer (8 * h.delivered : Nat) = .ok p →
      (s.asIssuer core ctx (s.ctx core ctx).level).elementBytes (channelGroup core ctx q.toNat) p 8 none = .ok x →
      Completes (.memoryStreamRead core ctx q) s ((s.dropUnit (channelGroup core ctx q.toNat)).setChannel core ctx q.toNat
        { h with delivered := h.delivered + 1, entries := h.entries ++ [{ data := wordOf x }] })))

/-! ### Optical ports and links (23_program_optics.md R435 to R441, 24_fabric.md R448 to R454) -/

/-- A write of a service core's optical register acts on the port and the ring that OSEL selects: ORTE on the entry that ORIDX names
(24_fabric.md R448), OHEAT on the heater code (23_program_optics.md R435), OPARK parks and wakes wavelengths (R438), and OASGN gives a
free send ring a wavelength that no ring of its fibre carries (R440). A ring goes from settling over lock and deskew into the stripe, or
back to parked with WFAIL where it does not lock (R438); MON reads 2,048 less its distance from the resonance (R437); the far end's flits
park and wake receive rings and report its lock (24_fabric.md R454). -/
def Obligations.OpticalEvents : Prop :=
  (∀ (s : State) (svc : Nat) (v : Word),
    let port := (s.core svc).selectedPort svc
    let r := (s.core svc).selectedRing svc
    Completes (.orteWrite svc v) s (s.writeRoute port (bitsOf (s.core svc).oridx 7 0) (v.getLsbD 15) (bitsOf v 11 8))
    ∧ Completes (.oheatWrite svc v) s (s.setRing r { s.ring r with heat := v.setWidth 12 })
    ∧ Completes (.oparkWrite svc v) s (s.writeOpark port v)
    ∧ ((ringSends r = false ∨ (s.ring r).state ≠ 0 ∨ 16 ≤ (v.setWidth 5).toNat) → Completes (.oasgnWrite svc v) s s)
    ∧ (ringSends r = true → (s.ring r).state = 0 → (v.setWidth 5).toNat < 16 →
      ((List.range 20).map (fun n => r / 20 * 20 + n)).find? (fun q => q != r && (s.ring q).lambda == v.setWidth 5) = none →
      ((s.port (ringPort r)).opark.getLsbD (v.setWidth 5).toNat = true →
        Completes (.oasgnWrite svc v) s (s.setRing r { s.ring r with state := 1, lambda := v.setWidth 5 }))
      ∧ ((s.port (ringPort r)).opark.getLsbD (v.setWidth 5).toNat = false →
        let t := s.setRing r { s.ring r with lambda := v.setWidth 5, moving := true, state := 2, deskewed := false }
        Completes (.oasgnWrite svc v) s (t.setPort (ringPort r) { t.port (ringPort r) with wk := true, awaitLock := true }))))
  ∧ (∀ (s : State) (ring : Nat),
    let x := s.ring ring
    (x.state = 2 → Completes (.ringSettleDone ring) s (s.setRing ring { x with state := 3 }))
    ∧ (x.state = 3 → 2032 ≤ x.mon.toNat → x.mon.toNat ≤ 2064 →
      Completes (.ringLocked ring) s (s.setRing ring { x with state := 4, deskewed := false }))
    ∧ (x.state = 3 → ¬ (2032 ≤ x.mon.toNat ∧ x.mon.toNat ≤ 2064) → Completes (.ringLocked ring) s s)
    ∧ (x.state = 4 → Completes (.ringDeskewDone ring) s (s.setRing ring { x with deskewed := true }))
    ∧ (x.state = 3 → ringSends ring = false →
      Completes (.ringLockTimeout ring) s (s.setRing ring { x with state := 1, wfail := true, mon := 0, moving := false }))
    ∧ (x.state = 3 → ringSends ring = true → x.lambda.toNat < 16 →
      let t := s.setRing ring { x with state := 1, wfail := true, mon := 0, moving := false }
      let p := t.port (ringPort ring)
      Completes (.ringLockTimeout ring) s (t.setPort (ringPort ring)
        { p with opark := p.opark ||| ((1 : BitVec 16) <<< x.lambda.toNat) }))
    ∧ ((x.state = 0 ∨ x.state = 1 ∨ x.state = 2) → Completes (.monitorSample ring) s (s.setRing ring { x with mon := 0 }))
    ∧ ((x.state = 3 ∨ x.state = 4 ∨ x.state = 5) →
      let e : Int := (x.heat.toNat : Int) - Config.resonance ring x.lambda.toNat s.choice
      (e.natAbs ≤ 1024 → Completes (.monitorSample ring) s (s.setRing ring { x with mon := BitVec.ofInt 12 (2048 - e) }))
      ∧ (1024 < e.natAbs → Completes (.monitorSample ring) s (s.setRing ring { x with mon := BitVec.ofNat 12 (s.free 0 4096) }))))
  ∧ (∀ (s : State) (port : Nat),
    let p := s.port port
    ((p.oqthr = 0 ∨ p.opark = 0 ∨ p.wk = true ∨ p.queued.length < p.oqthr.toNat) → Completes (.opticalWakeTrigger port) s s)
    ∧ (p.oqthr ≠ 0 → p.opark ≠ 0 → p.wk = false → p.oqthr.toNat ≤ p.queued.length →
      Completes (.opticalWakeTrigger port) s ((s.setPort port { p with opark := 0 }).wakeRings port p.opark))
    ∧ ((portRings port).any (fun r => (s.ring r).busy) = false → p.awaitLock = false →
      let t := s.eachRing port (fun _ x =>
        if x.state = 4 ∧ x.deskewed = true then { x with state := 5, deskewed := false, moving := false } else x)
      Completes (.stripeWiden port) s (t.setPort port { t.port port with wk := false, waking := 0 }))
    ∧ (((portRings port).any (fun r => (s.ring r).busy) = true ∨ p.awaitLock = true) → Completes (.stripeWiden port) s s)
    ∧ Completes (.lockReport port) s (s.setPort port { p with awaitLock := false }))
  ∧ (∀ (s : State) (port : Nat) (mask : BitVec 16),
    Completes (.parkFlit port mask) s (s.eachRing port (fun r x =>
      if !ringSends r && mask.getLsbD x.lambda.toNat && decide (x.lambda.toNat < 16) && x.state == 5 then { x with state := 1, mon := 0 } else x))
    ∧ Completes (.wakeFlit port mask) s (s.eachRing port (fun r x =>
      if !ringSends r && mask.getLsbD x.lambda.toNat && decide (x.lambda.toNat < 16) && x.state == 1 then { x with state := 2, deskewed := false }
      else x)))

/-- The link layer (24_fabric.md R450 to R453): a flit that fails its check is NAKed, whichever check the link uses; a data flit ahead of
the order waits and its gap is NAKed; an acknowledgement frees its window entry; a NAK has its window entry sent again; an upset entry
becomes a void flit and is counted in UNITS; a replay sends the packet of an unanswered request again over a port chosen afresh (R444,
R453), and a port that goes down loses its queue and window and has what it carried replayed (R448). -/
def Obligations.LinkEvents : Prop :=
  (∀ (s : State) (port : Nat) (flit : BitVec 306),
    let p := s.port port
    let read (f : BitVec 306) (p : Port) : Port :=
      if (f.extractLsb' 30 4).toNat ≤ 1 then p.arrive (f.extractLsb' 34 16) (f.extractLsb' 30 4) (f.extractLsb' 50 256)
      else if (f.extractLsb' 30 4).toNat = 2 then p.resend (f.extractLsb' 34 16)
      else if (f.extractLsb' 30 4).toNat = 3 then { p with window := p.window.filter (fun e => e.1 != f.extractLsb' 34 16) }
      else p
    (s.free 0 3 = 2 → Completes (.flitArrival port flit) s (s.setPort port { p with naks := p.naks + 1 }))
    ∧ (s.free 0 3 = 0 → Completes (.flitArrival port flit) s (s.setPort port (read flit p)))
    ∧ (s.free 0 3 = 1 → Completes (.flitArrival port flit) s (s.setPort port
        (read (flit ^^^ ((1 : BitVec 306) <<< s.free 1 306)) { p with corrected := p.corrected + 1 }))))
  ∧ (∀ (s : State) (port : Nat) (q : BitVec 16),
    let p := s.port port
    ((p.window.any (fun e => e.1 == q)) = true →
      Completes (.linkNakResend port q) s (s.setPort port { p with oflits := p.oflits + 1 })
      ∧ Completes (.sendWindowDoubleUpset port q) s (s.setPort port { p with
          units := p.units + 1
          window := p.window.map (fun e => if e.1 = q then (e.1, 1, BitVec.ofNat 256 (Config.choice s.choice 0)) else e) }))
    ∧ ((p.window.any (fun e => e.1 == q)) = false →
      Completes (.linkNakResend port q) s (s.setPort port p) ∧ Completes (.sendWindowDoubleUpset port q) s s))
  ∧ (∀ (s : State) (rid pkg : Nat) (r : Request), s.requests.find? (fun q => q.id == rid) = some r → r.remote = some pkg →
    (r.stage = .sent ∨ r.stage = .nacked) →
    let t := s.putRequest { r with stage := .sent }
    (∀ port, t.portFor r.part pkg r.core (homekeyOf r.home r.key) = some port →
      Completes (.fabricTimedReplay rid) s (t.queueFlits port (requestFlits r.op))
      ∧ Completes (.replayNotice rid) s (t.queueFlits port (requestFlits r.op)))
    ∧ (t.portFor r.part pkg r.core (homekeyOf r.home r.key) = none →
      Completes (.fabricTimedReplay rid) s (t.loseRequest r 2) ∧ Completes (.replayNotice rid) s (t.loseRequest r 2)))
  ∧ (∀ (s : State) (port : Nat),
    let lost : List Nat := s.requests.filterMap (fun r => match r.remote with
      | some pkg => if (s.portFor r.part pkg r.core (homekeyOf r.home r.key) == some port) = true then some r.id else none
      | none => none)
    let strays : List Nat := s.flights.filterMap (fun f => match f.dest with
      | .remote pkg core => if (s.portFor f.part pkg f.source core == some port) = true then some f.id else none
      | _ => none)
    Completes (.portDown port) s ((lost ++ strays).foldl State.replay
      (s.setPort port { s.port port with up := false, queued := [], window := [] })))

/-! ### Torus, losses and the package (24_fabric.md R447 to R461, 22_faults.md R433, 25_package.md R477, R478) -/

/-- A router cycle ranks the flits that stand in the router, ejects one for its own node and sends the others on, productive ports first,
with AGE + 1 where none is free (24_fabric.md R457). A silent link is marked dead at both ends and their dies are paused, and DRAIN lets
injection resume (R460). The loss of a die is entered once (22_faults.md R433); the loss of the package stops it and is reported, and so
is a thermal trip (25_package.md R478). A packet of others leaves with its route or is discarded with a LOSS packet (24_fabric.md R447), a
LOSS packet ends what it lists (R448), and GTC follows a reference of a lower number and never goes back (R455). -/
def Obligations.FabricEvents : Prop :=
  (∀ (s : State) (n : Nat), n < 4096 → s.dieLost (coreDie n) = false → s.paused.getLsbD (coreDie n) = false → (s.router n).injecting = [] →
    let x := s.router n
    let step (r : Routing) (f : Flit) : Routing :=
      if nodeOf f.dst = n ∧ r.eject = true then { r with eject := false, out := some f }
      else match firstPort (s.productive n f &&& r.ports) with
        | some d => { r with ports := r.ports &&& ~~~((1 : BitVec 4) <<< d), sent := Table.put r.sent d f }
        | none => match firstPort r.ports with
          | some d => { r with ports := r.ports &&& ~~~((1 : BitVec 4) <<< d), sent := Table.put r.sent d f.older }
          | none => { r with left := r.left ++ [f] }
    let r := (ranked x.arriving).foldl step { ports := ~~~x.dead }
    let t := s.setRouter n { x with arriving := r.left, injecting := [], kept := r.sent }
    let t := r.sent.foldl (fun (t : State) e =>
      t.setRouter (neighbour n e.1) { t.router (neighbour n e.1) with arriving := (t.router (neighbour n e.1)).arriving ++ [e.2] }) t
    Completes (.routerCycle n 0) s (match r.out with
      | some f => t.ejectFlit n f
      | none => t))
  ∧ (∀ (s : State) (n : Nat) (dir : BitVec 2), n < 4096 → s.keptFlit n dir.toNat = none →
    let x := s.router n
    let t := s.setRouter n { x with dead := x.dead ||| ((1 : BitVec 4) <<< dir.toNat) }
    let t := { t with paused := t.paused ||| ((1 : BitVec 8) <<< coreDie n) }
    Completes (.linkDead n dir) s (t.markDead (neighbour n dir.toNat) (opposite dir.toNat)))
  ∧ (∀ (s : State) (mask : BitVec 8),
    let left := s.paused &&& ~~~mask
    Completes (.drainWrite mask) s
      { s with paused := left, drainWritten := s.drainWritten && left != 0, lostPackets := if left = 0 then [] else s.lostPackets })
  ∧ (∀ (s : State) (die : Nat), ((8 ≤ die ∨ s.dieLost die = true) → Completes (.dieLost die) s s)
    ∧ (die < 8 → s.dieLost die = false →
      let u := (({ s with lostDies := s.lostDies ||| ((1 : BitVec 8) <<< die) }.cutOff die).dropWork die).endCommandsOn die
      let lost := u.requests.filter (fun r => r.pending && u.homeLost r)
      let stray := u.flights.filter (fun f => match f.dest with
        | .core n => onDie die n
        | _ => false)
      let t := lost.foldl (fun (t : State) r => t.loseAt r.id) (u.clearDie die)
      let t := stray.foldl (fun (t : State) f => t.loseFlight f 0) t
      let t := (u.commands.filter (fun c => onDie die c.target)).foldl State.loseCommand t
      Completes (.dieLost die) s (t.parts.foldl (fun (t : State) e =>
        if e.2.touchesDie die then t.report e.1 4108 noContext 0 2 0 0 0 0 (wordOf t.lostDies.toNat) 0 else t) t)))
  ∧ (∀ (s : State) (reason : Nat),
    Completes (.packageLoss reason) s
      { s.logEvent 4108 3 0xFF 0 (wordOf reason) with reports := (3, reason) :: s.reports, halted := true }
    ∧ Completes .thermalTrip s { s.logEvent 4108 3 0xFF 0 0 with reports := (3, 0) :: s.reports, halted := true }
    ∧ Completes .thermalThrottle s { s with throttled := s.throttled + 1 }
    ∧ (s.parts = [] → Completes .d3hotRequest s { s with d3hot := true })
    ∧ (s.parts ≠ [] → Completes .d3hotRequest s s))
  ∧ (∀ (s : State) (i : Nat) (t : Transit), s.transits[i]? = some t →
    let u := { s with transits := s.transits.eraseIdx i }
    (t.hopLimit = 0 → Completes (.fabricTransit i) s (u.sendLoss t))
    ∧ (∀ port, t.hopLimit ≠ 0 → u.transitPort t.dest (t.source % 8192) t.homekey = some port →
      Completes (.fabricTransit i) s (u.queueFlits port (1 + t.flits)))
    ∧ (t.hopLimit ≠ 0 → u.transitPort t.dest (t.source % 8192) t.homekey = none → Completes (.fabricTransit i) s (u.sendLoss t)))
  ∧ (∀ (s : State) (source : Nat) (seqs : List Nat),
    let rs := s.requests.filter (fun r => r.core == source && r.origin.isNone && r.remote.isSome && (seqs.take 8).contains r.seq
      && (match r.stage with
        | .sent | .nacked => true
        | _ => false))
    let fs := s.flights.filter (fun f => f.source == source && (seqs.take 8).contains f.seq && (match f.dest with
      | .remote _ _ => true
      | _ => false))
    Completes (.lossPacket source seqs) s
      (fs.foldl (fun (s : State) f => s.loseFlight f 0) (rs.foldl (fun (s : State) r => s.loseRequest r 0) s)))
  ∧ (∀ (s : State) (port : Nat) (peer : BitVec 8) (time : Word),
    ((s.port port).up = true → peer.toNat < s.pkg.toNat → s.gtc.toNat < time.toNat →
      Completes (.timeExchange port peer time) s { s with gtc := s.gtc + wordOf (s.free 0 2) })
    ∧ (time.toNat ≤ s.gtc.toNat → Completes (.timeExchange port peer time) s s))

/-! ### The host (25_package.md R473 to R476) -/

/-- A host launch of 128 aligned bytes for a partition that takes work enters the launch queue, or is answered with the cause of its fault
(25_package.md R474); any other write is discarded and counted (R472). A host command becomes a class 6 message to the control context of
its core (R476). The queue registers take aligned 8-byte writes (R475), and a queue gets its entry, then its TAIL, and its interrupt; one
that is off discards the message and a full one answers with NACK; a message is delivered once no other can bear its stamp any more. -/
def Obligations.HostEvents : Prop :=
  (∀ (s : State) (n o : Nat) (bytes : List Byte), n < 16 → o < 0x1000 →
    ((bytes.length ≠ 128 ∨ o % 128 ≠ 0 ∨ s.takesWork n = false) →
      Completes (.hostLaunchWrite (0x10000 + 0x1000 * n + o) bytes) s (s.logEvent 8191 0 n 0
          (wordOf (bytes.length * 2 ^ 32 + (0x10000 + 0x1000 * n + o))))
      ∧ Completes (.hostCommandWrite (0x30000 + 0x1000 * n + o) bytes) s (s.logEvent 8191 0 n 0
          (wordOf (bytes.length * 2 ^ 32 + (0x30000 + 0x1000 * n + o)))))
    ∧ (bytes.length = 128 → o % 128 = 0 → s.takesWork n = true →
      let w := dwordsOf bytes
      let r : LaunchRequest := { packet := Vector.ofFn (fun i : Fin 16 => w.getD i.val 0), part := n, entry := 0 }
      (∀ e, s.hostLaunchEntry n w = .ok e → Completes (.hostLaunchWrite (0x10000 + 0x1000 * n + o) bytes) s
        { s with launchQueue := s.launchQueue ++ [{ r with entry := e }] })
      ∧ (∀ c, s.hostLaunchEntry n w = .error c →
        Completes (.hostLaunchWrite (0x10000 + 0x1000 * n + o) bytes) s (s.launchReply r 7 [wordOf c.number]))
      ∧ (s.partOf (bitsOf (w.getD 0 0) 11 0) = some n → Completes (.hostCommandWrite (0x30000 + 0x1000 * n + o) bytes) s
        (s.post (.core (bitsOf (w.getD 0 0) 11 0))
          { header := headerOf 0xFE 0 0 0 (bitsOf (w.getD 1 0) 31 16) 0 6, arg0 := w.getD 2 0, arg1 := w.getD 3 0, arg2 := w.getD 4 0
            arg3 := w.getD 5 0, arg4 := w.getD 6 0, arg5 := w.getD 7 0, arg6 := w.getD 8 0 } 8191 n none))))
  ∧ (∀ (s : State) (n q : Nat) (bytes : List Byte), n < 16 → q < 16 →
    let at_ : Nat := 0x20000 + 0x1000 * n + 0x40 * q
    let v := wordOf (ofBytes bytes)
    let h := s.hostQueue n q
    (bytes.length = 8 →
      (h.logSize = 0 → Completes (.hqbaseWrite at_ bytes) s (s.setHostQueue n q { h with base := v &&& ~~~0xFFF#64 }))
      ∧ (h.logSize ≠ 0 → Completes (.hqbaseWrite at_ bytes) s (s.discardWrite n at_ 8))
      ∧ ((bitsOf v 4 0 = 0 ∨ (4 ≤ bitsOf v 4 0 ∧ bitsOf v 4 0 ≤ 16)) → Completes (.hqsizeWrite (at_ + 8) bytes) s
        (s.setHostQueue n q { h with logSize := bitsOf v 4 0, vec := bitsOf v 26 16, tail := 0, head := 0 }))
      ∧ Completes (.hqheadWrite (at_ + 24) bytes) s (s.setHostQueue n q { h with head := bitsOf v 15 0 }))
    ∧ (bytes.length ≠ 8 → Completes (.hqbaseWrite at_ bytes) s (s.discardWrite n at_ bytes.length)
      ∧ Completes (.hqsizeWrite (at_ + 8) bytes) s (s.discardWrite n (at_ + 8) bytes.length)
      ∧ Completes (.hqheadWrite (at_ + 24) bytes) s (s.discardWrite n (at_ + 24) bytes.length)))
  ∧ (∀ (s : State) (mid n q : Nat) (f : Flight), s.flights.find? (fun f => f.id == mid) = some f → f.dest = .hostQueue n q →
    s.flights.any (fun g => g.dest == f.dest && g.before f) = false →
    let h := s.hostQueue n q
    let size := 2 ^ h.logSize
    f.gtc.toNat < s.gtc.toNat →
    (h.logSize = 0 → Completes (.hostQueueDeliver mid) s ((s.landed f).logEvent f.source 4 n 0 (wordOf q)))
    ∧ (h.logSize ≠ 0 → (h.tail + 1) % size = h.head % size → Completes (.hostQueueDeliver mid) s
      { s with flights := s.flights.map (fun (g : Flight) => if g.id = mid then { g with nacked := true } else g) })
    ∧ (h.logSize ≠ 0 → (h.tail + 1) % size ≠ h.head % size →
      let u := { s with mem := writeList s.mem (hostKey ((h.base.toNat + 64 * h.tail) % 2 ^ 64))
                          (f.msg.dwords.flatMap (fun (w : Word) => bytesOf w.toNat 8)) }
      Completes (.hostQueueDeliver mid) s
        ((u.setHostQueue n q { h with tail := (h.tail + 1) % size, interrupts := h.interrupts + 1 }).landed f)))

/-! ### Firmware and the root of trust (25_package.md R463 to R472, R477) -/

/-- POWER_GOOD: a firmware image whose signature fails holds the package in reset and is reported; otherwise it comes up as reset leaves
it, with its trained ports up and READY set (25_package.md R477). The requests of the management session are answered, outside a session
with an SPDM error and in one with STATUS 0 and their effect or with the STATUS that refuses them (R472): CREATE (R465), DESTROY (R465),
SET_KEY (R469), SET_PKG, LOG and ROUTE (R484). The SPDM requests are taken in their order, and every signature takes the next index of the
identity key (R471); the codes of the messages are the model's choice (log 33). -/
def Obligations.FirmwareEvents : Prop :=
  (∀ (s : State) (trained : BitVec 16) (peers : List (BitVec 8 × BitVec 4)),
    (∃ t, Completes (.powerGood false trained peers) s t ∧ t.heldInReset = true ∧ t.ready = false ∧ t.reports = (0, 0) :: s.reports
      ∧ t.parts = [] ∧ t.gtc = 0)
    ∧ (∃ t, Completes (.powerGood true trained peers) s t ∧ t.heldInReset = false ∧ t.ready = true ∧ t.gtc = 0 ∧ t.parts = [] ∧ t.halted = false
      ∧ t.cores = State.reset.cores ∧ t.lostDies = 0 ∧ t.spdm.xmssIndex = s.spdm.xmssIndex
      ∧ t.mem = s.mem.filter (fun c => decide (2 ^ 64 ≤ c.1))))
  ∧ (∀ (s : State) (body : List Byte), s.spdm.session = false →
    let refuses (i : Instr) : Prop := Completes i s (s.sendResponse (spdmError 0x0B))
    refuses (.create body) ∧ refuses (.setKey body) ∧ refuses (.setPkg body) ∧ refuses (.log body) ∧ refuses (.route body))
  ∧ (∀ (s : State) (body : List Byte), s.spdm.session = true →
    let answers (i : Instr) (op : Nat) (f : State → Handled) : Prop :=
      Completes i s ((f s).1.sendResponse (vendorResponse op (f s).2.1 (f s).2.2))
    answers (.create body) 1 (handleCreate body) ∧ answers (.setKey body) 3 (handleSetKey body)
    ∧ answers (.setPkg body) 4 (handleSetPkg body) ∧ answers (.log body) 5 (handleLog body) ∧ answers (.route body) 6 (handleRoute body)
    ∧ (body.length ≠ 8 → Completes (.destroy body) s (s.sendResponse (vendorResponse 2 2 []))))
  ∧ (∀ (s : State) (n : Nat) (body : List Byte) (p : Partition), s.spdm.session = true → body.length = 8 → byteAt body 0 = n → n < 16 →
    numberAt body 1 7 = 0 → s.part n = some p → p.destroying = true →
    (s.allStopped n = true → s.unitsIdle n p = true → Completes (.destroy body) s ((s.endPart n p).sendResponse (vendorResponse 2 0 [])))
    ∧ (s.allStopped n = false ∨ s.unitsIdle n p = false → Completes (.destroy body) s s))
  ∧ (∀ (s : State) (m : List Byte),
    (s.spdm.session = true → (byteAt m 0 = 0 ∨ 6 < byteAt m 0 ∨ m.length < 4 ∨ byteAt m 1 ≠ 0 ∨ numberAt m 2 2 ≠ (m.drop 4).length) →
      Completes (.vendorDefinedRequest m) s (s.sendResponse (vendorResponse (byteAt m 0) 2 [])))
    ∧ (byteAt m 1 = 0 → 4 ≤ m.length → numberAt m 2 2 = (m.drop 4).length →
      let same (op : Nat) (i : Instr) : Prop := byteAt m 0 = op → exec (.vendorDefinedRequest m) s = exec i s
      same 1 (.create (m.drop 4)) ∧ same 2 (.destroy (m.drop 4)) ∧ same 3 (.setKey (m.drop 4)) ∧ same 4 (.setPkg (m.drop 4))
      ∧ same 5 (.log (m.drop 4)) ∧ same 6 (.route (m.drop 4))))
  ∧ (∀ (s : State) (r : List Byte),
    (∃ t, Completes (.getVersion r) s t ∧ t.spdm.versioned = true ∧ t.spdm.session = false ∧ t.spdm.xmssIndex = s.spdm.xmssIndex)
    ∧ (s.spdm.versioned = true → ∃ t, Completes (.getCapabilities r) s t ∧ t.spdm.capable = true)
    ∧ (s.spdm.capable = true → ∃ t, Completes (.negotiateAlgorithms r) s t ∧ t.spdm.negotiated = true)
    ∧ (s.spdm.negotiated = true →
      (∃ t, Completes (.getDigests r) s t ∧ t.spdm.responses.length = s.spdm.responses.length + 1)
      ∧ (∃ t, Completes (.getCertificate r) s t ∧ t.spdm.responses.length = s.spdm.responses.length + 1)
      ∧ (s.spdm.xmssIndex < 2 ^ 20 →
        (∃ t, Completes (.challenge r) s t ∧ t.spdm.xmssIndex = s.spdm.xmssIndex + 1)
        ∧ (∃ t, Completes (.getMeasurements r) s t ∧ t.spdm.xmssIndex = s.spdm.xmssIndex + 1)
        ∧ (∃ t, Completes (.keyExchange r) s t ∧ t.spdm.xmssIndex = s.spdm.xmssIndex + 1 ∧ t.spdm.handshake = true))
      ∧ (2 ^ 20 ≤ s.spdm.xmssIndex → ∃ t, Completes (.challenge r) s t ∧ t.spdm.xmssIndex = s.spdm.xmssIndex))
    ∧ (s.spdm.handshake = true → (Config.finishMac s.spdm.secret s.spdm.transcript).isSuffixOf r = true →
      ∃ t, Completes (.finish r) s t ∧ t.spdm.session = true ∧ t.spdm.handshake = false)
    ∧ (s.spdm.handshake = false → ∃ t, Completes (.finish r) s t ∧ t.spdm.session = s.spdm.session))

/-! ### The whole machine -/

/-- What reset leaves: no partition, no message or request on its way, memory with nothing listed and in canonical form, GTC 0, and each
of the 20 service cores with its control context alone, ready at level 2 with XPL 0 and XH 0, STATUS.LUT and SAT8 at 1, DEXT the whole
package and FPFLAGS 0 (10_system_instr.md R267, R270; 25_package.md R477, R481); no core of a die has a live context. The addresses and
values that the model chose (logs 2 to 4) are no part of it. -/
def Obligations.ResetState : Prop :=
  State.reset.parts = [] ∧ State.reset.requests = [] ∧ State.reset.flights = [] ∧ State.reset.mem = [] ∧ Memory.wf State.reset.mem = true
  ∧ State.reset.gtc = 0 ∧ State.reset.lostDies = 0 ∧ State.reset.paused = 0 ∧ State.reset.ready = false
  ∧ (∀ n, 4108 ≤ n → n < 4128 → (State.reset.core n).ctxs.map (·.1) = [0]
    ∧ let c := State.reset.ctx n 0
      c.run = .ready ∧ c.level = 2 ∧ c.xpl = 0 ∧ c.inTrap = false ∧ c.trapsDead = true ∧ bitAt c.status 7 = true ∧ c.fpflags = 0
      ∧ c.dext = 0xFFFF000FFF000000)
  ∧ (∀ n, n < 4096 → (State.reset.core n).ctxs = [])

/-- The worked encodings of the manual decode to the instructions that they stand for, and its two edge cases and the reserved patterns do
not decode (03_encoding.md R74 to R95; 05_memory_instr.md, 06_task_instr.md, 07_vector_instr.md and 08_matrix_instr.md, worked encodings).
-/
def Obligations.DecodeWords : Prop :=
  decodeTableWord 32 0x80534E00 = some (.add 5 6 true 7 false)
  ∧ decodeTableWord 16 0x094D = some (.cAdd 5 6 true)
  ∧ decodeTableWord 16 0x2912 = some (.cLd 1 0 true 2)
  ∧ decodeTableWord 32 0x98731882 = some (.stFill 7 6 false false 0 2)
  ∧ decodeTableWord 32 0x88530444 = some (.bfxs 5 6 false 8 68)
  ∧ decodeTableWord 32 0xF2C00000 = some .nop ∧ decodeTableWord 16 0x7000 = some .cNop
  ∧ decodeTableWord 32 0x947007FD = some (.loop 7 0x3FD)
  ∧ decodeTableWord 32 0xA0530E0C = some (.amoAdd 5 6 false 7 false 1 0)
  ∧ decodeTableWord 32 0xAA030E00 = some (.spawn 6 false 7 false)
  ∧ decodeTableWord 32 0xBC46284F = some (.vfma 2 3 1 1 9 7)
  ∧ decodeTableWord 32 0xC8530030 = some (.mma 5 6 false 3)
  ∧ decodeTableWord 16 0x0000 = none ∧ decodeTableWord 32 0x81604000 = none ∧ decodeTableWord 32 0xFFFFFFFF = none

/-- Decoding and encoding agree: a well-formed instruction that has an encoding is what its own halfwords decode to, with nothing left
over, so no bit of any operand is dropped (03_encoding.md R74 to R95). -/
def Obligations.DecodeEncode : Prop :=
  ∀ i : Instr, i.check = none → i.length ≠ 0 → decode (encode i) = .ok (i, [])

/-- A step runs the decoded instruction: when it is the turn of a core, or of the context that the core issues from, the halfwords at that
context's pc are fetched (one whose bit 15 is 0, two otherwise), and the step is that instruction executed in the state that the fetch
leaves; halfwords that do not decode are ILLEGAL_ENCODING, and a fetch that fails is FETCH_FAULT (03_encoding.md R74 to R77). A core
issues from the first ready context after the last in the cyclic order, and from one that yielded only where no other is ready
(12_execution.md R297); without one its turn changes nothing. A step of the package's own units executes that step, and the turn of the
time moves it on (00_scope.md R12); a package held in reset or stopped takes POWER_GOOD alone (25_package.md R477, R478). -/
def Obligations.StepRunsDecoded : Prop :=
  (∀ (s : State) (turn : Turn) (core ctx : Nat), s.background.turn = some turn → turn = .slot core ∨ turn = .issue core ctx →
    s.background.stopped = false →
    let b := { s.background with agenda := s.background.agenda.drop 1 }
    (b.nextIssue core = some ctx →
      let u := b.issueFrom core ctx
      (∀ h v, u.fetchHalf u.me.pc = .ok (h, v) → h.getLsbD 15 = false →
        (∀ i rest, decode [h] = .ok (i, rest) → step s = exec i v)
        ∧ (∀ e, decode [h] = .error e → step s = exec (.illegalEncoding (h.setWidth 32) false) v))
      ∧ (∀ h v h' v', u.fetchHalf u.me.pc = .ok (h, v) → h.getLsbD 15 = true → v.fetchHalf (u.me.pc + 2) = .ok (h', v') →
        (∀ i rest, decode [h, h'] = .ok (i, rest) → step s = exec i v')
        ∧ (∀ e, decode [h, h'] = .error e → step s = exec (.illegalEncoding (h ++ h') true) v'))
      ∧ (∀ h v a r, u.fetchHalf u.me.pc = .ok (h, v) → h.getLsbD 15 = true → v.fetchHalf (u.me.pc + 2) = .error (a, r) →
        step s = exec (.fetchFault a r) v)
      ∧ (∀ a r, u.fetchHalf u.me.pc = .error (a, r) → step s = exec (.fetchFault a r) u))
    ∧ (b.nextIssue core = none → step s = .next b))
  ∧ (∀ (s : State) (core ctx : Nat), s.nextIssue core = some ctx → ∃ before after, (s.core core).order = before ++ ctx :: after
    ∧ ((s.isReady core ctx false = true ∧ ∀ n ∈ before, s.isReady core n false = false)
      ∨ (s.isReady core ctx true = true ∧ (∀ n ∈ (s.core core).order, s.isReady core n false = false)
        ∧ ∀ n ∈ before, s.isReady core n true = false)))
  ∧ (∀ (s : State) (i : Instr), s.background.turn = some (.event i) →
    (s.background.stopped = false ∨ ∃ good trained peers, i = .powerGood good trained peers) →
    step s = exec i { s.background with agenda := s.background.agenda.drop 1 })
  ∧ (∀ s : State, s.background.turn = some .tick → s.background.stopped = false →
    step s = .next { s.background with agenda := s.background.agenda.drop 1 }.passTime)
  ∧ (∀ s : State, s.background.stopped = true →
    (∀ good trained peers, s.background.turn ≠ some (.event (.powerGood good trained peers))) → step s = .fault .stopped)

/-- The frame of an instruction that only writes registers: the state after it retires (`State.advanced`, which the statements of register
results give as their next state) differs from the state before in nothing but the written registers, the registers that a last-use mark
kills, pc, and what the model keeps of them; a single written register holds its value (01_assembly.md R25, R28). It is stated of a
context that does not step (10_system_instr.md R279) and of which no load has been lost (16_ordering.md R373). -/
def Obligations.RegisterFrame : Prop :=
  ∀ (s : State) (len : Nat) (dies : List Reg) (writes : List (Reg × Word)), s.me.stepping = false → s.me.lostLoads = [] →
    let t := s.advanced len dies writes
    let c := s.me
    (∀ a, readByte t.mem a = readByte s.mem a) ∧ t.vcopies = s.vcopies ∧ t.tags = s.tags ∧ t.stamps = s.stamps ∧ t.poison = s.poison
    ∧ t.accumulators = s.accumulators ∧ t.requests = s.requests ∧ t.held = s.held ∧ t.flights = s.flights ∧ t.tiles = s.tiles
    ∧ t.superGroups = s.superGroups ∧ t.parts = s.parts ∧ t.gtc = s.gtc ∧ t.heatfade = s.heatfade ∧ t.fwvec = s.fwvec
    ∧ t.commands = s.commands ∧ t.ports = s.ports ∧ t.rings = s.rings ∧ t.routers = s.routers ∧ t.cur = s.cur
    ∧ (∀ n, n ≠ s.cur.1 → t.core n = s.core n)
    ∧ (∀ x, x ≠ s.cur.2 → t.ctx s.cur.1 x = s.ctx s.cur.1 x)
    ∧ t.mine.lsplit = s.mine.lsplit ∧ t.mine.hres = s.mine.hres ∧ t.mine.saveb = s.mine.saveb ∧ t.mine.banks = s.mine.banks
    ∧ t.mine.inbox = s.mine.inbox ∧ t.mine.lines = s.mine.lines ∧ t.mine.engine = s.mine.engine ∧ t.mine.streams = s.mine.streams
    ∧ t.me.pc = c.pc + wordOf len
    ∧ t.me.status = c.status ∧ t.me.cause = c.cause ∧ t.me.faddr = c.faddr ∧ t.me.xpc = c.xpc ∧ t.me.fpflags = c.fpflags
    ∧ t.me.dext = c.dext ∧ t.me.taskix = c.taskix ∧ t.me.launchix = c.launchix ∧ t.me.hprog = c.hprog ∧ t.me.mrgst = c.mrgst
    ∧ t.me.ctlw = c.ctlw ∧ t.me.prio = c.prio ∧ t.me.claim = c.claim ∧ t.me.channels = c.channels ∧ t.me.maps = c.maps
    ∧ t.me.outstanding = c.outstanding ∧ t.me.acks = c.acks ∧ t.me.lost = c.lost
    ∧ (∀ p, (∀ w ∈ writes, w.1 = 0 ∨ p ≠ c.place w.1) → t.me.at_ p = c.at_ p)
    ∧ (∀ p, p < 32 → (∀ w ∈ writes, w.1 = 0 ∨ p ≠ c.place w.1) → (∀ r ∈ dies, p ≠ c.place r) → t.me.live.getLsbD p = c.live.getLsbD p)
    ∧ (∀ (d : Reg) (v : Word), writes = [(d, v)] → d ≠ 0 → t.me.at_ (c.place d) = v ∧ (c.place d < 32 → t.me.live.getLsbD (c.place d) = true))

/-- Every step keeps the memory in its canonical form, whatever the state: addresses rise and no entry holds what an unlisted address
reads as, so equal memories are equal data (00_scope.md R5, with the model's choice of log 4 for what an unlisted address reads as). -/
def Obligations.StepKeepsMemoryCanonical : Prop :=
  ∀ s t : State, Memory.wf s.mem = true → step s = .next t → Memory.wf t.mem = true
end

