-- ==== Sys2Proof/Laws/State.lean ====
section
/-! SUPPORT. One lemma per field per update of a unit of the package: what writing a core, a context, a tile, a super-group or a
partition leaves alone and what it writes. -/

namespace Sys2Proof.Machine

section
variable (s : State) (n : Nat) (c : Core)
@[simp] theorem setCore_cur : (s.setCore n c).cur = s.cur := rfl
@[simp] theorem setCore_agenda : (s.setCore n c).agenda = s.agenda := rfl
@[simp] theorem setCore_delays : (s.setCore n c).delays = s.delays := rfl
@[simp] theorem setCore_eager : (s.setCore n c).eager = s.eager := rfl
@[simp] theorem setCore_cycle : (s.setCore n c).cycle = s.cycle := rfl
@[simp] theorem setCore_choice : (s.setCore n c).choice = s.choice := rfl
@[simp] theorem setCore_nextId : (s.setCore n c).nextId = s.nextId := rfl
@[simp] theorem setCore_nextOrder : (s.setCore n c).nextOrder = s.nextOrder := rfl
@[simp] theorem setCore_mem : (s.setCore n c).mem = s.mem := rfl
@[simp] theorem setCore_tags : (s.setCore n c).tags = s.tags := rfl
@[simp] theorem setCore_stamps : (s.setCore n c).stamps = s.stamps := rfl
@[simp] theorem setCore_poison : (s.setCore n c).poison = s.poison := rfl
@[simp] theorem setCore_vcopies : (s.setCore n c).vcopies = s.vcopies := rfl
@[simp] theorem setCore_translations : (s.setCore n c).translations = s.translations := rfl
@[simp] theorem setCore_accumulators : (s.setCore n c).accumulators = s.accumulators := rfl
@[simp] theorem setCore_requests : (s.setCore n c).requests = s.requests := rfl
@[simp] theorem setCore_held : (s.setCore n c).held = s.held := rfl
@[simp] theorem setCore_flights : (s.setCore n c).flights = s.flights := rfl
@[simp] theorem setCore_cores : (s.setCore n c).cores = Table.put s.cores n c := rfl
@[simp] theorem setCore_tiles : (s.setCore n c).tiles = s.tiles := rfl
@[simp] theorem setCore_superGroups : (s.setCore n c).superGroups = s.superGroups := rfl
@[simp] theorem setCore_barriers : (s.setCore n c).barriers = s.barriers := rfl
@[simp] theorem setCore_crews : (s.setCore n c).crews = s.crews := rfl
@[simp] theorem setCore_launchQueue : (s.setCore n c).launchQueue = s.launchQueue := rfl
@[simp] theorem setCore_launches : (s.setCore n c).launches = s.launches := rfl
@[simp] theorem setCore_parts : (s.setCore n c).parts = s.parts := rfl
@[simp] theorem setCore_keySlots : (s.setCore n c).keySlots = s.keySlots := rfl
@[simp] theorem setCore_gtc : (s.setCore n c).gtc = s.gtc := rfl
@[simp] theorem setCore_heatfade : (s.setCore n c).heatfade = s.heatfade := rfl
@[simp] theorem setCore_fwvec : (s.setCore n c).fwvec = s.fwvec := rfl
@[simp] theorem setCore_pkg : (s.setCore n c).pkg = s.pkg := rfl
@[simp] theorem setCore_lostDies : (s.setCore n c).lostDies = s.lostDies := rfl
@[simp] theorem setCore_commands : (s.setCore n c).commands = s.commands := rfl
@[simp] theorem setCore_seqs : (s.setCore n c).seqs = s.seqs := rfl
@[simp] theorem setCore_ports : (s.setCore n c).ports = s.ports := rfl
@[simp] theorem setCore_rings : (s.setCore n c).rings = s.rings := rfl
@[simp] theorem setCore_routers : (s.setCore n c).routers = s.routers := rfl
@[simp] theorem setCore_paused : (s.setCore n c).paused = s.paused := rfl
@[simp] theorem setCore_drainWritten : (s.setCore n c).drainWritten = s.drainWritten := rfl
@[simp] theorem setCore_lostPackets : (s.setCore n c).lostPackets = s.lostPackets := rfl
@[simp] theorem setCore_transits : (s.setCore n c).transits = s.transits := rfl
@[simp] theorem setCore_hostQueues : (s.setCore n c).hostQueues = s.hostQueues := rfl
@[simp] theorem setCore_log : (s.setCore n c).log = s.log := rfl
@[simp] theorem setCore_logNext : (s.setCore n c).logNext = s.logNext := rfl
@[simp] theorem setCore_spdm : (s.setCore n c).spdm = s.spdm := rfl
@[simp] theorem setCore_firmware : (s.setCore n c).firmware = s.firmware := rfl
@[simp] theorem setCore_ready : (s.setCore n c).ready = s.ready := rfl
@[simp] theorem setCore_heldInReset : (s.setCore n c).heldInReset = s.heldInReset := rfl
@[simp] theorem setCore_halted : (s.setCore n c).halted = s.halted := rfl
@[simp] theorem setCore_throttled : (s.setCore n c).throttled = s.throttled := rfl
@[simp] theorem setCore_d3hot : (s.setCore n c).d3hot = s.d3hot := rfl
@[simp] theorem setCore_reports : (s.setCore n c).reports = s.reports := rfl
end

section
variable (s : State) (n k : Nat) (c : Ctx)
@[simp] theorem setCtx_cur : (s.setCtx n k c).cur = s.cur := rfl
@[simp] theorem setCtx_agenda : (s.setCtx n k c).agenda = s.agenda := rfl
@[simp] theorem setCtx_delays : (s.setCtx n k c).delays = s.delays := rfl
@[simp] theorem setCtx_eager : (s.setCtx n k c).eager = s.eager := rfl
@[simp] theorem setCtx_cycle : (s.setCtx n k c).cycle = s.cycle := rfl
@[simp] theorem setCtx_choice : (s.setCtx n k c).choice = s.choice := rfl
@[simp] theorem setCtx_nextId : (s.setCtx n k c).nextId = s.nextId := rfl
@[simp] theorem setCtx_nextOrder : (s.setCtx n k c).nextOrder = s.nextOrder := rfl
@[simp] theorem setCtx_mem : (s.setCtx n k c).mem = s.mem := rfl
@[simp] theorem setCtx_tags : (s.setCtx n k c).tags = s.tags := rfl
@[simp] theorem setCtx_stamps : (s.setCtx n k c).stamps = s.stamps := rfl
@[simp] theorem setCtx_poison : (s.setCtx n k c).poison = s.poison := rfl
@[simp] theorem setCtx_vcopies : (s.setCtx n k c).vcopies = s.vcopies := rfl
@[simp] theorem setCtx_translations : (s.setCtx n k c).translations = s.translations := rfl
@[simp] theorem setCtx_accumulators : (s.setCtx n k c).accumulators = s.accumulators := rfl
@[simp] theorem setCtx_requests : (s.setCtx n k c).requests = s.requests := rfl
@[simp] theorem setCtx_held : (s.setCtx n k c).held = s.held := rfl
@[simp] theorem setCtx_flights : (s.setCtx n k c).flights = s.flights := rfl
@[simp] theorem setCtx_cores : (s.setCtx n k c).cores = Table.put s.cores n ((s.core n).setCtx k c) := rfl
@[simp] theorem setCtx_tiles : (s.setCtx n k c).tiles = s.tiles := rfl
@[simp] theorem setCtx_superGroups : (s.setCtx n k c).superGroups = s.superGroups := rfl
@[simp] theorem setCtx_barriers : (s.setCtx n k c).barriers = s.barriers := rfl
@[simp] theorem setCtx_crews : (s.setCtx n k c).crews = s.crews := rfl
@[simp] theorem setCtx_launchQueue : (s.setCtx n k c).launchQueue = s.launchQueue := rfl
@[simp] theorem setCtx_launches : (s.setCtx n k c).launches = s.launches := rfl
@[simp] theorem setCtx_parts : (s.setCtx n k c).parts = s.parts := rfl
@[simp] theorem setCtx_keySlots : (s.setCtx n k c).keySlots = s.keySlots := rfl
@[simp] theorem setCtx_gtc : (s.setCtx n k c).gtc = s.gtc := rfl
@[simp] theorem setCtx_heatfade : (s.setCtx n k c).heatfade = s.heatfade := rfl
@[simp] theorem setCtx_fwvec : (s.setCtx n k c).fwvec = s.fwvec := rfl
@[simp] theorem setCtx_pkg : (s.setCtx n k c).pkg = s.pkg := rfl
@[simp] theorem setCtx_lostDies : (s.setCtx n k c).lostDies = s.lostDies := rfl
@[simp] theorem setCtx_commands : (s.setCtx n k c).commands = s.commands := rfl
@[simp] theorem setCtx_seqs : (s.setCtx n k c).seqs = s.seqs := rfl
@[simp] theorem setCtx_ports : (s.setCtx n k c).ports = s.ports := rfl
@[simp] theorem setCtx_rings : (s.setCtx n k c).rings = s.rings := rfl
@[simp] theorem setCtx_routers : (s.setCtx n k c).routers = s.routers := rfl
@[simp] theorem setCtx_paused : (s.setCtx n k c).paused = s.paused := rfl
@[simp] theorem setCtx_drainWritten : (s.setCtx n k c).drainWritten = s.drainWritten := rfl
@[simp] theorem setCtx_lostPackets : (s.setCtx n k c).lostPackets = s.lostPackets := rfl
@[simp] theorem setCtx_transits : (s.setCtx n k c).transits = s.transits := rfl
@[simp] theorem setCtx_hostQueues : (s.setCtx n k c).hostQueues = s.hostQueues := rfl
@[simp] theorem setCtx_log : (s.setCtx n k c).log = s.log := rfl
@[simp] theorem setCtx_logNext : (s.setCtx n k c).logNext = s.logNext := rfl
@[simp] theorem setCtx_spdm : (s.setCtx n k c).spdm = s.spdm := rfl
@[simp] theorem setCtx_firmware : (s.setCtx n k c).firmware = s.firmware := rfl
@[simp] theorem setCtx_ready : (s.setCtx n k c).ready = s.ready := rfl
@[simp] theorem setCtx_heldInReset : (s.setCtx n k c).heldInReset = s.heldInReset := rfl
@[simp] theorem setCtx_halted : (s.setCtx n k c).halted = s.halted := rfl
@[simp] theorem setCtx_throttled : (s.setCtx n k c).throttled = s.throttled := rfl
@[simp] theorem setCtx_d3hot : (s.setCtx n k c).d3hot = s.d3hot := rfl
@[simp] theorem setCtx_reports : (s.setCtx n k c).reports = s.reports := rfl
end

section
variable (s : State) (c : Ctx)
@[simp] theorem setMe_cur : (s.setMe c).cur = s.cur := rfl
@[simp] theorem setMe_agenda : (s.setMe c).agenda = s.agenda := rfl
@[simp] theorem setMe_delays : (s.setMe c).delays = s.delays := rfl
@[simp] theorem setMe_eager : (s.setMe c).eager = s.eager := rfl
@[simp] theorem setMe_cycle : (s.setMe c).cycle = s.cycle := rfl
@[simp] theorem setMe_choice : (s.setMe c).choice = s.choice := rfl
@[simp] theorem setMe_nextId : (s.setMe c).nextId = s.nextId := rfl
@[simp] theorem setMe_nextOrder : (s.setMe c).nextOrder = s.nextOrder := rfl
@[simp] theorem setMe_mem : (s.setMe c).mem = s.mem := rfl
@[simp] theorem setMe_tags : (s.setMe c).tags = s.tags := rfl
@[simp] theorem setMe_stamps : (s.setMe c).stamps = s.stamps := rfl
@[simp] theorem setMe_poison : (s.setMe c).poison = s.poison := rfl
@[simp] theorem setMe_vcopies : (s.setMe c).vcopies = s.vcopies := rfl
@[simp] theorem setMe_translations : (s.setMe c).translations = s.translations := rfl
@[simp] theorem setMe_accumulators : (s.setMe c).accumulators = s.accumulators := rfl
@[simp] theorem setMe_requests : (s.setMe c).requests = s.requests := rfl
@[simp] theorem setMe_held : (s.setMe c).held = s.held := rfl
@[simp] theorem setMe_flights : (s.setMe c).flights = s.flights := rfl
@[simp] theorem setMe_cores : (s.setMe c).cores = Table.put s.cores s.cur.1 ((s.core s.cur.1).setCtx s.cur.2 c) := rfl
@[simp] theorem setMe_tiles : (s.setMe c).tiles = s.tiles := rfl
@[simp] theorem setMe_superGroups : (s.setMe c).superGroups = s.superGroups := rfl
@[simp] theorem setMe_barriers : (s.setMe c).barriers = s.barriers := rfl
@[simp] theorem setMe_crews : (s.setMe c).crews = s.crews := rfl
@[simp] theorem setMe_launchQueue : (s.setMe c).launchQueue = s.launchQueue := rfl
@[simp] theorem setMe_launches : (s.setMe c).launches = s.launches := rfl
@[simp] theorem setMe_parts : (s.setMe c).parts = s.parts := rfl
@[simp] theorem setMe_keySlots : (s.setMe c).keySlots = s.keySlots := rfl
@[simp] theorem setMe_gtc : (s.setMe c).gtc = s.gtc := rfl
@[simp] theorem setMe_heatfade : (s.setMe c).heatfade = s.heatfade := rfl
@[simp] theorem setMe_fwvec : (s.setMe c).fwvec = s.fwvec := rfl
@[simp] theorem setMe_pkg : (s.setMe c).pkg = s.pkg := rfl
@[simp] theorem setMe_lostDies : (s.setMe c).lostDies = s.lostDies := rfl
@[simp] theorem setMe_commands : (s.setMe c).commands = s.commands := rfl
@[simp] theorem setMe_seqs : (s.setMe c).seqs = s.seqs := rfl
@[simp] theorem setMe_ports : (s.setMe c).ports = s.ports := rfl
@[simp] theorem setMe_rings : (s.setMe c).rings = s.rings := rfl
@[simp] theorem setMe_routers : (s.setMe c).routers = s.routers := rfl
@[simp] theorem setMe_paused : (s.setMe c).paused = s.paused := rfl
@[simp] theorem setMe_drainWritten : (s.setMe c).drainWritten = s.drainWritten := rfl
@[simp] theorem setMe_lostPackets : (s.setMe c).lostPackets = s.lostPackets := rfl
@[simp] theorem setMe_transits : (s.setMe c).transits = s.transits := rfl
@[simp] theorem setMe_hostQueues : (s.setMe c).hostQueues = s.hostQueues := rfl
@[simp] theorem setMe_log : (s.setMe c).log = s.log := rfl
@[simp] theorem setMe_logNext : (s.setMe c).logNext = s.logNext := rfl
@[simp] theorem setMe_spdm : (s.setMe c).spdm = s.spdm := rfl
@[simp] theorem setMe_firmware : (s.setMe c).firmware = s.firmware := rfl
@[simp] theorem setMe_ready : (s.setMe c).ready = s.ready := rfl
@[simp] theorem setMe_heldInReset : (s.setMe c).heldInReset = s.heldInReset := rfl
@[simp] theorem setMe_halted : (s.setMe c).halted = s.halted := rfl
@[simp] theorem setMe_throttled : (s.setMe c).throttled = s.throttled := rfl
@[simp] theorem setMe_d3hot : (s.setMe c).d3hot = s.d3hot := rfl
@[simp] theorem setMe_reports : (s.setMe c).reports = s.reports := rfl
end

section
variable (s : State) (c : Core)
@[simp] theorem setMine_cur : (s.setMine c).cur = s.cur := rfl
@[simp] theorem setMine_agenda : (s.setMine c).agenda = s.agenda := rfl
@[simp] theorem setMine_delays : (s.setMine c).delays = s.delays := rfl
@[simp] theorem setMine_eager : (s.setMine c).eager = s.eager := rfl
@[simp] theorem setMine_cycle : (s.setMine c).cycle = s.cycle := rfl
@[simp] theorem setMine_choice : (s.setMine c).choice = s.choice := rfl
@[simp] theorem setMine_nextId : (s.setMine c).nextId = s.nextId := rfl
@[simp] theorem setMine_nextOrder : (s.setMine c).nextOrder = s.nextOrder := rfl
@[simp] theorem setMine_mem : (s.setMine c).mem = s.mem := rfl
@[simp] theorem setMine_tags : (s.setMine c).tags = s.tags := rfl
@[simp] theorem setMine_stamps : (s.setMine c).stamps = s.stamps := rfl
@[simp] theorem setMine_poison : (s.setMine c).poison = s.poison := rfl
@[simp] theorem setMine_vcopies : (s.setMine c).vcopies = s.vcopies := rfl
@[simp] theorem setMine_translations : (s.setMine c).translations = s.translations := rfl
@[simp] theorem setMine_accumulators : (s.setMine c).accumulators = s.accumulators := rfl
@[simp] theorem setMine_requests : (s.setMine c).requests = s.requests := rfl
@[simp] theorem setMine_held : (s.setMine c).held = s.held := rfl
@[simp] theorem setMine_flights : (s.setMine c).flights = s.flights := rfl
@[simp] theorem setMine_cores : (s.setMine c).cores = Table.put s.cores s.cur.1 c := rfl
@[simp] theorem setMine_tiles : (s.setMine c).tiles = s.tiles := rfl
@[simp] theorem setMine_superGroups : (s.setMine c).superGroups = s.superGroups := rfl
@[simp] theorem setMine_barriers : (s.setMine c).barriers = s.barriers := rfl
@[simp] theorem setMine_crews : (s.setMine c).crews = s.crews := rfl
@[simp] theorem setMine_launchQueue : (s.setMine c).launchQueue = s.launchQueue := rfl
@[simp] theorem setMine_launches : (s.setMine c).launches = s.launches := rfl
@[simp] theorem setMine_parts : (s.setMine c).parts = s.parts := rfl
@[simp] theorem setMine_keySlots : (s.setMine c).keySlots = s.keySlots := rfl
@[simp] theorem setMine_gtc : (s.setMine c).gtc = s.gtc := rfl
@[simp] theorem setMine_heatfade : (s.setMine c).heatfade = s.heatfade := rfl
@[simp] theorem setMine_fwvec : (s.setMine c).fwvec = s.fwvec := rfl
@[simp] theorem setMine_pkg : (s.setMine c).pkg = s.pkg := rfl
@[simp] theorem setMine_lostDies : (s.setMine c).lostDies = s.lostDies := rfl
@[simp] theorem setMine_commands : (s.setMine c).commands = s.commands := rfl
@[simp] theorem setMine_seqs : (s.setMine c).seqs = s.seqs := rfl
@[simp] theorem setMine_ports : (s.setMine c).ports = s.ports := rfl
@[simp] theorem setMine_rings : (s.setMine c).rings = s.rings := rfl
@[simp] theorem setMine_routers : (s.setMine c).routers = s.routers := rfl
@[simp] theorem setMine_paused : (s.setMine c).paused = s.paused := rfl
@[simp] theorem setMine_drainWritten : (s.setMine c).drainWritten = s.drainWritten := rfl
@[simp] theorem setMine_lostPackets : (s.setMine c).lostPackets = s.lostPackets := rfl
@[simp] theorem setMine_transits : (s.setMine c).transits = s.transits := rfl
@[simp] theorem setMine_hostQueues : (s.setMine c).hostQueues = s.hostQueues := rfl
@[simp] theorem setMine_log : (s.setMine c).log = s.log := rfl
@[simp] theorem setMine_logNext : (s.setMine c).logNext = s.logNext := rfl
@[simp] theorem setMine_spdm : (s.setMine c).spdm = s.spdm := rfl
@[simp] theorem setMine_firmware : (s.setMine c).firmware = s.firmware := rfl
@[simp] theorem setMine_ready : (s.setMine c).ready = s.ready := rfl
@[simp] theorem setMine_heldInReset : (s.setMine c).heldInReset = s.heldInReset := rfl
@[simp] theorem setMine_halted : (s.setMine c).halted = s.halted := rfl
@[simp] theorem setMine_throttled : (s.setMine c).throttled = s.throttled := rfl
@[simp] theorem setMine_d3hot : (s.setMine c).d3hot = s.d3hot := rfl
@[simp] theorem setMine_reports : (s.setMine c).reports = s.reports := rfl
end

section
variable (s : State) (n : Nat) (t : Tile)
@[simp] theorem setTile_cur : (s.setTile n t).cur = s.cur := rfl
@[simp] theorem setTile_agenda : (s.setTile n t).agenda = s.agenda := rfl
@[simp] theorem setTile_delays : (s.setTile n t).delays = s.delays := rfl
@[simp] theorem setTile_eager : (s.setTile n t).eager = s.eager := rfl
@[simp] theorem setTile_cycle : (s.setTile n t).cycle = s.cycle := rfl
@[simp] theorem setTile_choice : (s.setTile n t).choice = s.choice := rfl
@[simp] theorem setTile_nextId : (s.setTile n t).nextId = s.nextId := rfl
@[simp] theorem setTile_nextOrder : (s.setTile n t).nextOrder = s.nextOrder := rfl
@[simp] theorem setTile_mem : (s.setTile n t).mem = s.mem := rfl
@[simp] theorem setTile_tags : (s.setTile n t).tags = s.tags := rfl
@[simp] theorem setTile_stamps : (s.setTile n t).stamps = s.stamps := rfl
@[simp] theorem setTile_poison : (s.setTile n t).poison = s.poison := rfl
@[simp] theorem setTile_vcopies : (s.setTile n t).vcopies = s.vcopies := rfl
@[simp] theorem setTile_translations : (s.setTile n t).translations = s.translations := rfl
@[simp] theorem setTile_accumulators : (s.setTile n t).accumulators = s.accumulators := rfl
@[simp] theorem setTile_requests : (s.setTile n t).requests = s.requests := rfl
@[simp] theorem setTile_held : (s.setTile n t).held = s.held := rfl
@[simp] theorem setTile_flights : (s.setTile n t).flights = s.flights := rfl
@[simp] theorem setTile_cores : (s.setTile n t).cores = s.cores := rfl
@[simp] theorem setTile_tiles : (s.setTile n t).tiles = Table.put s.tiles n t := rfl
@[simp] theorem setTile_superGroups : (s.setTile n t).superGroups = s.superGroups := rfl
@[simp] theorem setTile_barriers : (s.setTile n t).barriers = s.barriers := rfl
@[simp] theorem setTile_crews : (s.setTile n t).crews = s.crews := rfl
@[simp] theorem setTile_launchQueue : (s.setTile n t).launchQueue = s.launchQueue := rfl
@[simp] theorem setTile_launches : (s.setTile n t).launches = s.launches := rfl
@[simp] theorem setTile_parts : (s.setTile n t).parts = s.parts := rfl
@[simp] theorem setTile_keySlots : (s.setTile n t).keySlots = s.keySlots := rfl
@[simp] theorem setTile_gtc : (s.setTile n t).gtc = s.gtc := rfl
@[simp] theorem setTile_heatfade : (s.setTile n t).heatfade = s.heatfade := rfl
@[simp] theorem setTile_fwvec : (s.setTile n t).fwvec = s.fwvec := rfl
@[simp] theorem setTile_pkg : (s.setTile n t).pkg = s.pkg := rfl
@[simp] theorem setTile_lostDies : (s.setTile n t).lostDies = s.lostDies := rfl
@[simp] theorem setTile_commands : (s.setTile n t).commands = s.commands := rfl
@[simp] theorem setTile_seqs : (s.setTile n t).seqs = s.seqs := rfl
@[simp] theorem setTile_ports : (s.setTile n t).ports = s.ports := rfl
@[simp] theorem setTile_rings : (s.setTile n t).rings = s.rings := rfl
@[simp] theorem setTile_routers : (s.setTile n t).routers = s.routers := rfl
@[simp] theorem setTile_paused : (s.setTile n t).paused = s.paused := rfl
@[simp] theorem setTile_drainWritten : (s.setTile n t).drainWritten = s.drainWritten := rfl
@[simp] theorem setTile_lostPackets : (s.setTile n t).lostPackets = s.lostPackets := rfl
@[simp] theorem setTile_transits : (s.setTile n t).transits = s.transits := rfl
@[simp] theorem setTile_hostQueues : (s.setTile n t).hostQueues = s.hostQueues := rfl
@[simp] theorem setTile_log : (s.setTile n t).log = s.log := rfl
@[simp] theorem setTile_logNext : (s.setTile n t).logNext = s.logNext := rfl
@[simp] theorem setTile_spdm : (s.setTile n t).spdm = s.spdm := rfl
@[simp] theorem setTile_firmware : (s.setTile n t).firmware = s.firmware := rfl
@[simp] theorem setTile_ready : (s.setTile n t).ready = s.ready := rfl
@[simp] theorem setTile_heldInReset : (s.setTile n t).heldInReset = s.heldInReset := rfl
@[simp] theorem setTile_halted : (s.setTile n t).halted = s.halted := rfl
@[simp] theorem setTile_throttled : (s.setTile n t).throttled = s.throttled := rfl
@[simp] theorem setTile_d3hot : (s.setTile n t).d3hot = s.d3hot := rfl
@[simp] theorem setTile_reports : (s.setTile n t).reports = s.reports := rfl
end

section
variable (s : State) (n : Nat) (g : SuperGroup)
@[simp] theorem setSuperGroup_cur : (s.setSuperGroup n g).cur = s.cur := rfl
@[simp] theorem setSuperGroup_agenda : (s.setSuperGroup n g).agenda = s.agenda := rfl
@[simp] theorem setSuperGroup_delays : (s.setSuperGroup n g).delays = s.delays := rfl
@[simp] theorem setSuperGroup_eager : (s.setSuperGroup n g).eager = s.eager := rfl
@[simp] theorem setSuperGroup_cycle : (s.setSuperGroup n g).cycle = s.cycle := rfl
@[simp] theorem setSuperGroup_choice : (s.setSuperGroup n g).choice = s.choice := rfl
@[simp] theorem setSuperGroup_nextId : (s.setSuperGroup n g).nextId = s.nextId := rfl
@[simp] theorem setSuperGroup_nextOrder : (s.setSuperGroup n g).nextOrder = s.nextOrder := rfl
@[simp] theorem setSuperGroup_mem : (s.setSuperGroup n g).mem = s.mem := rfl
@[simp] theorem setSuperGroup_tags : (s.setSuperGroup n g).tags = s.tags := rfl
@[simp] theorem setSuperGroup_stamps : (s.setSuperGroup n g).stamps = s.stamps := rfl
@[simp] theorem setSuperGroup_poison : (s.setSuperGroup n g).poison = s.poison := rfl
@[simp] theorem setSuperGroup_vcopies : (s.setSuperGroup n g).vcopies = s.vcopies := rfl
@[simp] theorem setSuperGroup_translations : (s.setSuperGroup n g).translations = s.translations := rfl
@[simp] theorem setSuperGroup_accumulators : (s.setSuperGroup n g).accumulators = s.accumulators := rfl
@[simp] theorem setSuperGroup_requests : (s.setSuperGroup n g).requests = s.requests := rfl
@[simp] theorem setSuperGroup_held : (s.setSuperGroup n g).held = s.held := rfl
@[simp] theorem setSuperGroup_flights : (s.setSuperGroup n g).flights = s.flights := rfl
@[simp] theorem setSuperGroup_cores : (s.setSuperGroup n g).cores = s.cores := rfl
@[simp] theorem setSuperGroup_tiles : (s.setSuperGroup n g).tiles = s.tiles := rfl
@[simp] theorem setSuperGroup_superGroups : (s.setSuperGroup n g).superGroups = Table.put s.superGroups n g := rfl
@[simp] theorem setSuperGroup_barriers : (s.setSuperGroup n g).barriers = s.barriers := rfl
@[simp] theorem setSuperGroup_crews : (s.setSuperGroup n g).crews = s.crews := rfl
@[simp] theorem setSuperGroup_launchQueue : (s.setSuperGroup n g).launchQueue = s.launchQueue := rfl
@[simp] theorem setSuperGroup_launches : (s.setSuperGroup n g).launches = s.launches := rfl
@[simp] theorem setSuperGroup_parts : (s.setSuperGroup n g).parts = s.parts := rfl
@[simp] theorem setSuperGroup_keySlots : (s.setSuperGroup n g).keySlots = s.keySlots := rfl
@[simp] theorem setSuperGroup_gtc : (s.setSuperGroup n g).gtc = s.gtc := rfl
@[simp] theorem setSuperGroup_heatfade : (s.setSuperGroup n g).heatfade = s.heatfade := rfl
@[simp] theorem setSuperGroup_fwvec : (s.setSuperGroup n g).fwvec = s.fwvec := rfl
@[simp] theorem setSuperGroup_pkg : (s.setSuperGroup n g).pkg = s.pkg := rfl
@[simp] theorem setSuperGroup_lostDies : (s.setSuperGroup n g).lostDies = s.lostDies := rfl
@[simp] theorem setSuperGroup_commands : (s.setSuperGroup n g).commands = s.commands := rfl
@[simp] theorem setSuperGroup_seqs : (s.setSuperGroup n g).seqs = s.seqs := rfl
@[simp] theorem setSuperGroup_ports : (s.setSuperGroup n g).ports = s.ports := rfl
@[simp] theorem setSuperGroup_rings : (s.setSuperGroup n g).rings = s.rings := rfl
@[simp] theorem setSuperGroup_routers : (s.setSuperGroup n g).routers = s.routers := rfl
@[simp] theorem setSuperGroup_paused : (s.setSuperGroup n g).paused = s.paused := rfl
@[simp] theorem setSuperGroup_drainWritten : (s.setSuperGroup n g).drainWritten = s.drainWritten := rfl
@[simp] theorem setSuperGroup_lostPackets : (s.setSuperGroup n g).lostPackets = s.lostPackets := rfl
@[simp] theorem setSuperGroup_transits : (s.setSuperGroup n g).transits = s.transits := rfl
@[simp] theorem setSuperGroup_hostQueues : (s.setSuperGroup n g).hostQueues = s.hostQueues := rfl
@[simp] theorem setSuperGroup_log : (s.setSuperGroup n g).log = s.log := rfl
@[simp] theorem setSuperGroup_logNext : (s.setSuperGroup n g).logNext = s.logNext := rfl
@[simp] theorem setSuperGroup_spdm : (s.setSuperGroup n g).spdm = s.spdm := rfl
@[simp] theorem setSuperGroup_firmware : (s.setSuperGroup n g).firmware = s.firmware := rfl
@[simp] theorem setSuperGroup_ready : (s.setSuperGroup n g).ready = s.ready := rfl
@[simp] theorem setSuperGroup_heldInReset : (s.setSuperGroup n g).heldInReset = s.heldInReset := rfl
@[simp] theorem setSuperGroup_halted : (s.setSuperGroup n g).halted = s.halted := rfl
@[simp] theorem setSuperGroup_throttled : (s.setSuperGroup n g).throttled = s.throttled := rfl
@[simp] theorem setSuperGroup_d3hot : (s.setSuperGroup n g).d3hot = s.d3hot := rfl
@[simp] theorem setSuperGroup_reports : (s.setSuperGroup n g).reports = s.reports := rfl
end

section
variable (s : State) (n : Nat) (p : Partition)
@[simp] theorem setPart_cur : (s.setPart n p).cur = s.cur := rfl
@[simp] theorem setPart_agenda : (s.setPart n p).agenda = s.agenda := rfl
@[simp] theorem setPart_delays : (s.setPart n p).delays = s.delays := rfl
@[simp] theorem setPart_eager : (s.setPart n p).eager = s.eager := rfl
@[simp] theorem setPart_cycle : (s.setPart n p).cycle = s.cycle := rfl
@[simp] theorem setPart_choice : (s.setPart n p).choice = s.choice := rfl
@[simp] theorem setPart_nextId : (s.setPart n p).nextId = s.nextId := rfl
@[simp] theorem setPart_nextOrder : (s.setPart n p).nextOrder = s.nextOrder := rfl
@[simp] theorem setPart_mem : (s.setPart n p).mem = s.mem := rfl
@[simp] theorem setPart_tags : (s.setPart n p).tags = s.tags := rfl
@[simp] theorem setPart_stamps : (s.setPart n p).stamps = s.stamps := rfl
@[simp] theorem setPart_poison : (s.setPart n p).poison = s.poison := rfl
@[simp] theorem setPart_vcopies : (s.setPart n p).vcopies = s.vcopies := rfl
@[simp] theorem setPart_translations : (s.setPart n p).translations = s.translations := rfl
@[simp] theorem setPart_accumulators : (s.setPart n p).accumulators = s.accumulators := rfl
@[simp] theorem setPart_requests : (s.setPart n p).requests = s.requests := rfl
@[simp] theorem setPart_held : (s.setPart n p).held = s.held := rfl
@[simp] theorem setPart_flights : (s.setPart n p).flights = s.flights := rfl
@[simp] theorem setPart_cores : (s.setPart n p).cores = s.cores := rfl
@[simp] theorem setPart_tiles : (s.setPart n p).tiles = s.tiles := rfl
@[simp] theorem setPart_superGroups : (s.setPart n p).superGroups = s.superGroups := rfl
@[simp] theorem setPart_barriers : (s.setPart n p).barriers = s.barriers := rfl
@[simp] theorem setPart_crews : (s.setPart n p).crews = s.crews := rfl
@[simp] theorem setPart_launchQueue : (s.setPart n p).launchQueue = s.launchQueue := rfl
@[simp] theorem setPart_launches : (s.setPart n p).launches = s.launches := rfl
@[simp] theorem setPart_parts : (s.setPart n p).parts = Table.put s.parts n p := rfl
@[simp] theorem setPart_keySlots : (s.setPart n p).keySlots = s.keySlots := rfl
@[simp] theorem setPart_gtc : (s.setPart n p).gtc = s.gtc := rfl
@[simp] theorem setPart_heatfade : (s.setPart n p).heatfade = s.heatfade := rfl
@[simp] theorem setPart_fwvec : (s.setPart n p).fwvec = s.fwvec := rfl
@[simp] theorem setPart_pkg : (s.setPart n p).pkg = s.pkg := rfl
@[simp] theorem setPart_lostDies : (s.setPart n p).lostDies = s.lostDies := rfl
@[simp] theorem setPart_commands : (s.setPart n p).commands = s.commands := rfl
@[simp] theorem setPart_seqs : (s.setPart n p).seqs = s.seqs := rfl
@[simp] theorem setPart_ports : (s.setPart n p).ports = s.ports := rfl
@[simp] theorem setPart_rings : (s.setPart n p).rings = s.rings := rfl
@[simp] theorem setPart_routers : (s.setPart n p).routers = s.routers := rfl
@[simp] theorem setPart_paused : (s.setPart n p).paused = s.paused := rfl
@[simp] theorem setPart_drainWritten : (s.setPart n p).drainWritten = s.drainWritten := rfl
@[simp] theorem setPart_lostPackets : (s.setPart n p).lostPackets = s.lostPackets := rfl
@[simp] theorem setPart_transits : (s.setPart n p).transits = s.transits := rfl
@[simp] theorem setPart_hostQueues : (s.setPart n p).hostQueues = s.hostQueues := rfl
@[simp] theorem setPart_log : (s.setPart n p).log = s.log := rfl
@[simp] theorem setPart_logNext : (s.setPart n p).logNext = s.logNext := rfl
@[simp] theorem setPart_spdm : (s.setPart n p).spdm = s.spdm := rfl
@[simp] theorem setPart_firmware : (s.setPart n p).firmware = s.firmware := rfl
@[simp] theorem setPart_ready : (s.setPart n p).ready = s.ready := rfl
@[simp] theorem setPart_heldInReset : (s.setPart n p).heldInReset = s.heldInReset := rfl
@[simp] theorem setPart_halted : (s.setPart n p).halted = s.halted := rfl
@[simp] theorem setPart_throttled : (s.setPart n p).throttled = s.throttled := rfl
@[simp] theorem setPart_d3hot : (s.setPart n p).d3hot = s.d3hot := rfl
@[simp] theorem setPart_reports : (s.setPart n p).reports = s.reports := rfl
end

section
variable (c : Core) (k : Nat) (x : Ctx)
@[simp] theorem core_setCtx_ctxs : (c.setCtx k x).ctxs = Table.put c.ctxs k x := rfl
@[simp] theorem core_setCtx_last : (c.setCtx k x).last = c.last := rfl
@[simp] theorem core_setCtx_lsplit : (c.setCtx k x).lsplit = c.lsplit := rfl
@[simp] theorem core_setCtx_hres : (c.setCtx k x).hres = c.hres := rfl
@[simp] theorem core_setCtx_saveb : (c.setCtx k x).saveb = c.saveb := rfl
@[simp] theorem core_setCtx_inbox : (c.setCtx k x).inbox = c.inbox := rfl
@[simp] theorem core_setCtx_waiters : (c.setCtx k x).waiters = c.waiters := rfl
@[simp] theorem core_setCtx_engine : (c.setCtx k x).engine = c.engine := rfl
@[simp] theorem core_setCtx_streams : (c.setCtx k x).streams = c.streams := rfl
@[simp] theorem core_setCtx_servedStream : (c.setCtx k x).servedStream = c.servedStream := rfl
@[simp] theorem core_setCtx_icache : (c.setCtx k x).icache = c.icache := rfl
@[simp] theorem core_setCtx_lines : (c.setCtx k x).lines = c.lines := rfl
@[simp] theorem core_setCtx_acquired : (c.setCtx k x).acquired = c.acquired := rfl
@[simp] theorem core_setCtx_banks : (c.setCtx k x).banks = c.banks := rfl
@[simp] theorem core_setCtx_neighbours : (c.setCtx k x).neighbours = c.neighbours := rfl
@[simp] theorem core_setCtx_sent : (c.setCtx k x).sent = c.sent := rfl
@[simp] theorem core_setCtx_received : (c.setCtx k x).received = c.received := rfl
@[simp] theorem core_setCtx_stopGtc : (c.setCtx k x).stopGtc = c.stopGtc := rfl
@[simp] theorem core_setCtx_releaseGtc : (c.setCtx k x).releaseGtc = c.releaseGtc := rfl
@[simp] theorem core_setCtx_gangStops : (c.setCtx k x).gangStops = c.gangStops := rfl
@[simp] theorem core_setCtx_forwards : (c.setCtx k x).forwards = c.forwards := rfl
@[simp] theorem core_setCtx_osel : (c.setCtx k x).osel = c.osel := rfl
@[simp] theorem core_setCtx_oridx : (c.setCtx k x).oridx = c.oridx := rfl
@[simp] theorem core_setCtx_pdsel : (c.setCtx k x).pdsel = c.pdsel := rfl
end

end Sys2Proof.Machine
end

