-- ==== Sys2Proof/Laws/Calm.lean ====
section
/-! SUPPORT. What messages, saves, seats and moves of contexts leave alone: who issues, the requests on their way, and the releases held at
the cores. -/

namespace Sys2Proof.Machine

/-- Who issues and what is outstanding are the same. -/
def Calm (s t : State) : Prop := t.cur = s.cur ∧ t.requests = s.requests ∧ t.held = s.held

theorem Calm.refl (s : State) : Calm s s := ⟨rfl, rfl, rfl⟩

theorem Calm.trans {a b c : State} (h : Calm a b) (g : Calm b c) : Calm a c :=
  ⟨g.1.trans h.1, g.2.1.trans h.2.1, g.2.2.trans h.2.2⟩

theorem foldl_calm {α : Type} (f : State → α → State) (hf : ∀ s a, Calm s (f s a)) (l : List α) (s : State) : Calm s (l.foldl f s) := by
  induction l generalizing s with
  | nil => exact .refl s
  | cons a l ih => exact (hf s a).trans (ih _)

theorem setCtx_calm (s : State) (n x c) : Calm s (s.setCtx n x c) := ⟨rfl, rfl, rfl⟩
theorem setCore_calm (s : State) (n c) : Calm s (s.setCore n c) := ⟨rfl, rfl, rfl⟩

theorem alterCtx_calm (s : State) (n x f) : Calm s (s.alterCtx n x f) := by
  simp only [State.alterCtx]
  split <;> exact ⟨rfl, rfl, rfl⟩

/-! ### Messages -/

theorem landed_calm (s : State) (f : Flight) : Calm s (s.landed f) := by
  simp only [State.landed, State.endOp]
  split <;> split
  · exact ⟨rfl, rfl, rfl⟩
  · exact .trans ⟨rfl, rfl, rfl⟩ (alterCtx_calm _ _ _ _)
  · exact .trans ⟨rfl, rfl, rfl⟩ (alterCtx_calm _ _ _ _)
  · refine .trans ?_ (alterCtx_calm _ _ _ _)
    refine .trans ?_ (alterCtx_calm _ _ _ _)
    exact ⟨rfl, rfl, rfl⟩

theorem arrive_calm (s : State) (f : Flight) : Calm s (s.arrive f) := by
  simp only [State.arrive]
  repeat' split
  all_goals first
    | exact .refl s
    | exact landed_calm s f
    | exact .trans (setCore_calm _ _ _) (landed_calm _ _)

theorem sendFlight_calm (s : State) (f : Flight) : Calm s (s.sendFlight f) := by
  simp only [State.sendFlight]
  split <;> split <;> (try split)
  all_goals first
    | exact ⟨rfl, rfl, rfl⟩
    | exact .trans ⟨rfl, rfl, rfl⟩ (arrive_calm _ _)

theorem report_calm (s : State) (n src core ctx kind reason cause : Nat) (addr iaddr d4 d5 : Word) :
    Calm s (s.report n src core ctx kind reason cause addr iaddr d4 d5) := by
  simp only [State.report, State.post]
  exact .trans ⟨rfl, rfl, rfl⟩ (sendFlight_calm _ _)

/-! ### Save areas -/

theorem putBytes_calm (s : State) (line key n v) : Calm s (s.putBytes line key n v) := by
  simp only [State.putBytes]
  split <;> exact ⟨rfl, rfl, rfl⟩

theorem superWrite_calm (n : Nat) (l : List (Nat × Nat × Word)) {s t : State} {base : Nat} (h : s.superWrite n base l = .ok t) :
    Calm s t := by
  induction l generalizing s with
  | nil => cases h; exact .refl _
  | cons e l ih =>
    simp only [State.superWrite] at h
    split at h
    · cases h
    · exact (putBytes_calm _ _ _ _ _).trans (ih h)

/-- A context that is saved is written to memory and no more. -/
theorem save_calm {s t : State} {c x : Nat} {b : Bool} (h : s.save c x b = .ok t) : Calm s t := by
  simp only [State.save, State.saveAt] at h
  split at h
  · split at h
    · cases h
    · cases h
      rename_i hw
      exact (superWrite_calm _ _ hw).trans (setCtx_calm _ _ _ _)
  · cases h
  · cases h

theorem saveFailed_calm (s : State) (c x r va : Nat) : Calm s (s.saveFailed c x r va) := by
  simp only [State.saveFailed]
  split
  · exact setCtx_calm _ _ _ _
  · exact .trans (setCtx_calm _ _ _ _) (.trans (report_calm _ _ _ _ _ _ _ _ _ _ _ _) ⟨rfl, rfl, rfl⟩)

theorem acquire_calm (s : State) (n : Nat) : Calm s (s.acquire n) := by
  simp only [State.acquire]
  split
  · exact ⟨rfl, rfl, rfl⟩
  · split <;> exact ⟨rfl, rfl, rfl⟩

theorem reload_calm {s t : State} {c x : Nat} (h : s.reload c x = .ok t) : Calm s t := by
  simp only [State.reload] at h
  split at h
  · split at h
    · cases h
    · cases h
      exact (setCtx_calm _ _ _ _).trans (acquire_calm _ _)
  · cases h

/-! ### A context that comes to another core -/

theorem seat_calm (s : State) (c x : Nat) : Calm s (s.seat c x) := by
  simp only [State.seat]
  split
  · exact .refl s
  · split
    · exact saveFailed_calm _ _ _ _ _
    · rename_i h
      exact .trans (.trans (b := s.lay c x .preempted true) ⟨rfl, rfl, rfl⟩ (save_calm h)) (setCore_calm _ _ _)

theorem powerDown_calm (s : State) (c x : Nat) : Calm s (s.powerDown c x) :=
  .trans (foldl_calm (fun (s : State) b => s.scrub (sramKey c (b * 8192)) 8192) (fun _ _ => ⟨rfl, rfl, rfl⟩) _ s) (setCore_calm _ _ _)

theorem tagged_calm {α β : Type} (f : State → α → State) (g : State → β → State) (hf : ∀ s x, Calm s (f s x))
    (hg : ∀ s x, Calm s (g s x)) (s : State) (m : List Host.Cell) (p : State → List Nat) (l : List α) (k : List β) :
    Calm s { k.foldl g (l.foldl f { s with mem := m }) with poison := p (k.foldl g (l.foldl f { s with mem := m })) } := by
  have h := (foldl_calm f hf l { s with mem := m }).trans (foldl_calm g hg k _)
  exact ⟨h.1, h.2.1, h.2.2⟩

theorem streamBank_calm (s : State) (a b : Nat) : Calm s (s.streamBank a b) :=
  tagged_calm (fun (t : State) i => t.setTag (b + 8 * i) (s.tag (a + 8 * i))) (fun (t : State) i => t.setStamp (b + 4096 * i) (s.stamp (a + 4096 * i)))
    (fun _ _ => ⟨rfl, rfl, rfl⟩) (fun _ _ => ⟨rfl, rfl, rfl⟩) s _ (fun t => t.poison.filter _ ++ _) (List.range 1024) (List.range 2)

theorem claimAgain_calm (s : State) (c x : Nat) : Calm s (s.claimAgain c x) := by
  simp only [State.claimAgain]
  split
  · exact .refl s
  · exact .trans ⟨rfl, rfl, rfl⟩ (alterCtx_calm _ _ _ _)

theorem placed_calm (s : State) (n m x h : Nat) (c d : Core) (b : List Barrier) :
    Calm s (({ (s.setCore n c).setCore m d with barriers := b } : State).leaveTile x h) := ⟨rfl, rfl, rfl⟩

/-- A helper that moves to another core leaves alone who issues and what is outstanding. -/
theorem moveHelper_calm (s : State) (h d n : Nat) : Calm s (s.moveHelper h d n) := by
  have ha := (foldl_calm (fun (t : State) b => t.streamBank (sramKey s.cur.1 (b * 8192)) (sramKey d (b * 8192)))
    (fun _ _ => streamBank_calm _ _ _) (s.mine.allotment h) s).trans (powerDown_calm _ s.cur.1 h)
  exact .trans (.trans (.trans ha (placed_calm _ _ _ _ _ _ _ _)) (claimAgain_calm _ _ _)) (seat_calm _ _ _)

end Sys2Proof.Machine
end

