-- ==== Sys2Proof/Laws/Tables.lean ====
section
/-! SUPPORT. Tables, the canonical memory, and reading a unit back after writing one. -/

namespace Sys2Proof.Machine

/-! ### Tables -/

@[simp] theorem look_put_self {α : Type} (t : Table α) (n : Nat) (x : α) : Table.look (Table.put t n x) n = some x := by
  induction t with
  | nil => simp [Table.put, Table.look]
  | cons e t ih =>
    obtain ⟨k, v⟩ := e
    simp only [Table.put]
    split
    · simp [Table.look]
    · split
      · simp [Table.look]
      · rename_i h
        simp only [Table.look, if_neg (fun h' : k = n => h h'.symm), ih]

theorem look_put_other {α : Type} (t : Table α) {n m : Nat} (x : α) (h : m ≠ n) :
    Table.look (Table.put t n x) m = Table.look t m := by
  induction t with
  | nil => simp [Table.put, Table.look, h.symm]
  | cons e t ih =>
    obtain ⟨k, v⟩ := e
    simp only [Table.put]
    split
    · simp [Table.look, h.symm]
    · split
      · rename_i h'
        subst h'
        simp [Table.look, h.symm]
      · simp only [Table.look, ih]

@[simp] theorem get_put_self {α : Type} (t : Table α) (n : Nat) (x d : α) : Table.get (Table.put t n x) n d = x := by
  simp [Table.get]

theorem get_put_other {α : Type} (t : Table α) {n m : Nat} (x d : α) (h : m ≠ n) :
    Table.get (Table.put t n x) m d = Table.get t m d := by simp [Table.get, look_put_other t x h]

/-! ### Units -/

@[simp] theorem core_setCore_self (s : State) (n : Nat) (c : Core) : (s.setCore n c).core n = c := by simp [State.core]

theorem core_setCore_other (s : State) {n m : Nat} (c : Core) (h : m ≠ n) : (s.setCore n c).core m = s.core m := by
  simp [State.core, get_put_other _ _ _ h]

@[simp] theorem mine_setMine (s : State) (c : Core) : (s.setMine c).mine = c := by simp [State.mine, State.setMine]

@[simp] theorem me_setMe (s : State) (c : Ctx) : (s.setMe c).me = c := by
  simp [State.me, State.setMe, State.ctx, State.setCtx, Core.ctx, Core.setCtx]

@[simp] theorem tile_setTile_self (s : State) (n : Nat) (t : Tile) : (s.setTile n t).tile n = t := by simp [State.tile]

theorem tile_setTile_other (s : State) {n m : Nat} (t : Tile) (h : m ≠ n) : (s.setTile n t).tile m = s.tile m := by
  simp [State.tile, get_put_other _ _ _ h]

/-! ### Memory: every operation keeps the canonical form -/

/-- Every key of a canonical list but the first lies above the first. -/
theorem wf_cons {k : Nat} {v : Byte} {m : List Host.Cell} :
    Memory.wf ((k, v) :: m) = true ↔ v ≠ blankByte ∧ (∀ c ∈ m, k < c.1) ∧ Memory.wf m = true := by
  induction m generalizing k v with
  | nil => simp [Memory.wf]
  | cons c m ih =>
    obtain ⟨k', v'⟩ := c
    simp only [Memory.wf, Bool.and_eq_true, bne_iff_ne, decide_eq_true_eq, List.mem_cons, forall_eq_or_imp]
    constructor
    · rintro ⟨⟨h1, h2⟩, h3⟩
      exact ⟨h1, ⟨h2, fun c hc => Nat.lt_trans h2 ((ih.1 h3).2.1 c hc)⟩, h3⟩
    · rintro ⟨h1, ⟨h2, -⟩, h3⟩
      exact ⟨⟨h1, h2⟩, h3⟩

theorem mem_writeByte {m : List Host.Cell} {a : Nat} {b : Byte} {c : Host.Cell} (h : c ∈ writeByte m a b) : c ∈ m ∨ c = (a, b) := by
  induction m with
  | nil =>
    simp only [writeByte] at h
    split at h <;> simp_all
  | cons e m ih =>
    obtain ⟨k, v⟩ := e
    simp only [writeByte] at h
    split at h
    · split at h <;> simp only [List.mem_cons] at h ⊢ <;> tauto
    · split at h
      · split at h <;> simp only [List.mem_cons] at h ⊢ <;> tauto
      · simp only [List.mem_cons] at h ⊢
        rcases h with h | h
        · exact .inl (.inl h)
        · rcases ih h with h | h
          · exact .inl (.inr h)
          · exact .inr h

theorem writeByte_wf {m : List Host.Cell} (a : Nat) (b : Byte) (h : Memory.wf m = true) : Memory.wf (writeByte m a b) = true := by
  induction m with
  | nil =>
    simp only [writeByte]
    split <;> simp_all [Memory.wf]
  | cons e m ih =>
    obtain ⟨k, v⟩ := e
    obtain ⟨h1, h2, h3⟩ := wf_cons.1 h
    simp only [writeByte]
    split
    · rename_i hk
      split
      · exact h
      · rename_i hb
        exact wf_cons.2 ⟨hb, fun c hc => (List.mem_cons.1 hc).elim (fun e => e ▸ hk) (fun hc => Nat.lt_trans hk (h2 c hc)), h⟩
    · split
      · rename_i hk
        subst hk
        split
        · exact h3
        · rename_i hb
          exact wf_cons.2 ⟨hb, h2, h3⟩
      · rename_i hk hk'
        refine wf_cons.2 ⟨h1, fun c hc => ?_, ih h3⟩
        rcases mem_writeByte hc with hc | hc
        · exact h2 c hc
        · subst hc
          show k < a
          omega

theorem writeBytes_wf {m : List Host.Cell} (a n v : Nat) (h : Memory.wf m = true) : Memory.wf (writeBytes m a n v) = true := by
  induction n generalizing m a v with
  | zero => exact h
  | succ n ih => exact ih _ _ (writeByte_wf _ _ h)

theorem writeList_wf {m : List Host.Cell} (a : Nat) (l : List Byte) (h : Memory.wf m = true) : Memory.wf (writeList m a l) = true := by
  induction l generalizing m a with
  | nil => exact h
  | cons b l ih => exact ih _ (writeByte_wf _ _ h)

theorem filter_wf {m : List Host.Cell} (f : Host.Cell → Bool) (h : Memory.wf m = true) : Memory.wf (m.filter f) = true := by
  induction m with
  | nil => rfl
  | cons e m ih =>
    obtain ⟨k, v⟩ := e
    obtain ⟨h1, h2, h3⟩ := wf_cons.1 h
    simp only [List.filter_cons]
    split
    · exact wf_cons.2 ⟨h1, fun c hc => h2 c (List.mem_of_mem_filter hc), ih h3⟩
    · exact ih h3

/-- A store keeps the canonical form. -/
theorem storeBytes_wf (s : State) (key n v : Nat) (h : Memory.wf s.mem = true) : Memory.wf (s.storeBytes key n v).mem = true :=
  writeBytes_wf _ _ _ h

/-- What a V-copy writes back keeps the canonical form. -/
theorem writtenTo_wf (v : VCopy) {m : List Host.Cell} (h : Memory.wf m = true) : Memory.wf (v.writtenTo m) = true := by
  unfold VCopy.writtenTo
  generalize List.range 128 = l
  induction l generalizing m with
  | nil => exact h
  | cons i l ih =>
    simp only [List.foldl_cons]
    split
    · exact ih (writeByte_wf _ _ h)
    · exact ih h

/-- Counting for a page leaves memory as it is. -/
theorem countHeat_mem (s : State) (tag va : Nat) (w : Bool) : (s.countHeat tag va w).mem = s.mem := by
  unfold State.countHeat
  dsimp only
  split <;> rfl

theorem writeBack_wf (s : State) (v : VCopy) (h : Memory.wf s.mem = true) : Memory.wf (s.writeBack v).mem = true := by
  unfold State.writeBack
  split
  · exact h
  · simp only [countHeat_mem, writtenTo_wf v h]

/-- Scrubbing keeps the canonical form. -/
theorem scrub_wf (s : State) (key n : Nat) (h : Memory.wf s.mem = true) : Memory.wf (s.scrub key n).mem = true := filter_wf _ h

/-- The memory of the reset state is in canonical form. -/
theorem reset_wf : Memory.wf State.reset.mem = true := rfl

end Sys2Proof.Machine
end

