-- ==== Sys2Proof/Laws/Ops.lean ====
section
/-! SUPPORT. What the shared operations do, said once: how an instruction retires, what the register shapes write, and how a request
that its home answers at once ends. -/

namespace Sys2Proof.Machine

/-! ### Retirement -/

/-- Everything retireTo can answer. -/
theorem retireTo_cases (s : State) (pc : Word) (dies : List Reg) (writes : List (Reg × Word)) :
    s.retireTo pc dies writes = .ok (s.retiredTo pc dies writes) ∨ s.retireTo pc dies writes = stall .retry
      ∨ s.retireTo pc dies writes = stall .register := by
  unfold State.retireTo
  split
  · exact .inl rfl
  · split
    · exact .inr (.inl rfl)
    · exact .inr (.inr rfl)

theorem retireTo_ok {s : State} {pc : Word} {dies : List Reg} {writes : List (Reg × Word)} (h : s.mayRetire dies writes = true) :
    s.retireTo pc dies writes = .ok (s.retiredTo pc dies writes) := by simp [State.retireTo, h]

theorem retire_ok {s : State} {n : Nat} {dies : List Reg} {writes : List (Reg × Word)} (h : s.mayRetire dies writes = true) :
    s.retire n dies writes = .ok (s.retiredTo (s.me.pc + wordOf n) dies writes) := by simp [State.retire, retireTo_ok h]

/-- A context never waits on g0. -/
theorem readReg_zero (s : State) : Reads s 0 0 := by simp [Reads, State.readReg]

/-! ### Register shapes -/

theorem binary_next {s : State} {n : Nat} {d a b : Reg} {l m : Bool} {f : Word → Word → Word} {x y : Word} (hx : Reads s a x)
    (hy : Reads s b y) (h : s.mayRetire (used l a ++ used m b) [(d, f x y)] = true) :
    binary s n d a l b m f = .next (s.advanced n (used l a ++ used m b) [(d, f x y)]) := by
  simp only [Reads] at hx hy
  simp [binary, hx, hy, bind, Except.bind, retire_ok h, conclude, State.advanced]

theorem ternary_next {s : State} {n : Nat} {d a b : Reg} {l m : Bool} {f : Word → Word → Word → Word} {x y z : Word}
    (hx : Reads s a x) (hy : Reads s b y) (hz : Reads s d z)
    (h : s.mayRetire (used l a ++ used m b) [(d, f z x y)] = true) :
    ternary s n d a l b m f = .next (s.advanced n (used l a ++ used m b) [(d, f z x y)]) := by
  simp only [Reads] at hx hy hz
  simp [ternary, hx, hy, hz, bind, Except.bind, retire_ok h, conclude, State.advanced]

theorem unary_next {s : State} {n : Nat} {d a : Reg} {l : Bool} {f : Word → Word} {x : Word} (hx : Reads s a x)
    (h : s.mayRetire (used l a) [(d, f x)] = true) :
    unary s n d a l f = .next (s.advanced n (used l a) [(d, f x)]) := by
  simp only [Reads] at hx
  simp [unary, hx, bind, Except.bind, retire_ok h, conclude, State.advanced]

theorem constant_next {s : State} {n : Nat} {d : Reg} {v : Word} (h : s.mayRetire [] [(d, v)] = true) :
    constant s n d v = .next (s.advanced n [] [(d, v)]) := by
  simp [constant, retire_ok h, conclude, State.advanced]

theorem idle_next {s : State} {n : Nat} (h : s.mayRetire [] [] = true) : idle s n = .next (s.advanced n [] []) := by
  simp [idle, retire_ok h, conclude, State.advanced]

/-- A meaning that is `binary` of a function gives the shape `Binary`. -/
theorem Binary_of {n : Nat} {mk : Reg → Reg → Bool → Reg → Bool → Instr} {f : Word → Word → Word} (g : Word → Word → Word)
    (e : ∀ (s : State) d a l b m, exec (mk d a l b m) s = binary s n d a l b m g) (hf : ∀ x y, g x y = f x y) : Binary n mk f := by
  intro s d a l b m x y hx hy h
  rw [Completes, e, show g = f from funext fun x => funext fun y => hf x y]
  exact binary_next hx hy h

theorem Ternary_of {mk : Reg → Reg → Bool → Reg → Bool → Instr} {f : Word → Word → Word → Word} (g : Word → Word → Word → Word)
    (e : ∀ (s : State) d a l b m, exec (mk d a l b m) s = ternary s 4 d a l b m g) (hf : ∀ z x y, g z x y = f z x y) :
    Ternary mk f := by
  intro s d a l b m z x y hz hx hy h
  rw [Completes, e, show g = f from funext fun z => funext fun x => funext fun y => hf z x y]
  exact ternary_next hx hy hz h

theorem Unary_of {n : Nat} {mk : Reg → Reg → Bool → Instr} {f : Word → Word} (g : Word → Word)
    (e : ∀ (s : State) d a l, exec (mk d a l) s = unary s n d a l g) (hf : ∀ x, g x = f x) : Unary n mk f := by
  intro s d a l x hx h
  rw [Completes, e, show g = f from funext hf]
  exact unary_next hx h

theorem UnaryImm_of {n : Nat} {mk : Reg → Reg → Bool → BitVec n → Instr} {f : Word → BitVec n → Word} (g : Word → BitVec n → Word)
    (e : ∀ (s : State) d a l i, exec (mk d a l i) s = unary s 4 d a l (fun x => g x i)) (hf : ∀ x i, g x i = f x i) :
    UnaryImm n mk f := by
  intro s d a l i x hx h
  rw [Completes, e, show g = f from funext fun x => funext fun i => hf x i]
  exact unary_next hx h

/-! ### Requests that their home answers at once -/

theorem core_setCore (s : State) (n m : Nat) (c : Core) : (s.setCore n c).core m = if m = n then c else s.core m := by
  split
  · rename_i h
    subst h
    exact core_setCore_self _ _ _
  · rename_i h
    exact core_setCore_other _ _ h

/-- An instruction whose destination waits for its data retires with it. -/
theorem retirePending_ok {s : State} {n : Nat} {dies : List Reg} {d : Reg} (h : s.mayRetire dies [(d, 0)] = true) :
    s.retirePending n dies d = .ok (s.pending n dies d) := by
  unfold State.retirePending
  rw [retire_ok h]
  rfl

theorem sendLoad_hit {u : State} {p : Word} {pl : Place} {n : Nat} {op : MemOp} {data e : Word} {d : Reg} {len : Nat} {dies : List Reg}
    {hint : BitVec 2} (h : u.readyToSend pl n 0 = .ok ()) {line : Nat} {held : BitVec 1024} {v : Word}
    (ha : u.nearLoad p pl op hint = some (line, held, v)) (hr : (u.moveNear u.cur.1 line held hint).mayRetire dies [(d, v)] = true) :
    u.sendLoad p pl n op data e d len dies hint
      = .ok ((u.moveNear u.cur.1 line held hint).retiredTo ((u.moveNear u.cur.1 line held hint).me.pc + wordOf len) dies [(d, v)]) := by
  simp [State.sendLoad, h, bind, Except.bind, ha, retire_ok hr]

theorem sendLoad_now {u : State} {p : Word} {pl : Place} {n : Nat} {op : MemOp} {data e : Word} {d : Reg} {len : Nat} {dies : List Reg}
    {hint : BitVec 2} (h : u.readyToSend pl n 0 = .ok ()) (hn : u.nearLoad p pl op hint = none) (hh : pl.Here)
    (hw : u.nowAt pl.key = true) {t : State} {v : Word}
    (ha : (u.depart pl).apply { u.requestOf p pl op data 0 none (u.targetOf d) with expected := e, length := len, hint := hint } = .done t v)
    (hr : t.mayRetire dies [(d, v)] = true) :
    u.sendLoad p pl n op data e d len dies hint = .ok (t.retiredTo (t.me.pc + wordOf len) dies [(d, v)]) := by
  obtain ⟨h1, h2⟩ := hh
  simp [State.sendLoad, h, h1, h2, hw, hn, bind, Except.bind, ha, retire_ok hr]

theorem sendLoad_later {u : State} {p : Word} {pl : Place} {n : Nat} {op : MemOp} {data e : Word} {d : Reg} {len : Nat} {dies : List Reg}
    {hint : BitVec 2} (h : u.readyToSend pl n 0 = .ok ()) (hn : u.nearLoad p pl op hint = none) (hh : pl.Here)
    (hw : u.nowAt pl.key = false) (hr : (u.depart pl).mayRetire dies [(d, 0)] = true) :
    u.sendLoad p pl n op data e d len dies hint = .ok (((u.depart pl).pending len dies d).launchRequest
      { u.requestOf p pl op data 0 none (u.targetOf d) with expected := e, length := len, hint := hint }) := by
  obtain ⟨h1, h2⟩ := hh
  simp [State.sendLoad, h, h1, h2, hw, hn, bind, Except.bind, retirePending_ok hr, pure, Except.pure]

theorem sendLoad_lost {u : State} {p : Word} {pl : Place} {n : Nat} {op : MemOp} {data e : Word} {d : Reg} {len : Nat} {dies : List Reg}
    {hint : BitVec 2} (h : u.readyToSend pl n 0 = .ok ()) (hn : u.nearLoad p pl op hint = none) (h1 : pl.remote = none)
    (h2 : pl.lost = true) (hr : (u.depart pl).mayRetire dies [(d, 0)] = true) :
    u.sendLoad p pl n op data e d len dies hint = .ok ((((u.depart pl).pending len dies d).beginRequest
      { u.requestOf p pl op data 0 none (u.targetOf d) with expected := e, length := len, hint := hint }).loseHere
      { u.requestOf p pl op data 0 none (u.targetOf d) with expected := e, length := len, hint := hint }) := by
  simp [State.sendLoad, h, h1, h2, hn, bind, Except.bind, retirePending_ok hr, pure, Except.pure]

theorem sendLoad_remote {u : State} {p : Word} {pl : Place} {n : Nat} {op : MemOp} {data e : Word} {d : Reg} {len : Nat} {dies : List Reg}
    {hint : BitVec 2} (h : u.readyToSend pl n 0 = .ok ()) (hn : u.nearLoad p pl op hint = none) (h1 : pl.remote ≠ none)
    (hr : u.mayRetire dies [(d, 0)] = true) :
    u.sendLoad p pl n op data e d len dies hint = .ok ((u.pending len dies d).launchRequest
      { u.requestOf p pl op data 0 none (u.targetOf d) with expected := e, length := len, hint := hint }) := by
  have h1 : pl.remote.isSome = true := Option.isSome_iff_ne_none.2 h1
  simp [State.sendLoad, h, h1, hn, bind, Except.bind, retirePending_ok hr, pure, Except.pure]

/-- A request without a result that is answered as it is sent. -/
theorem sendStore_now {u : State} {p : Word} {pl : Place} {n : Nat} {op : MemOp} {data e : Word} {len : Nat} {dies : List Reg}
    {hint : BitVec 2} (h : u.readyToSend pl n 1 = .ok ()) (hh : pl.Here) (hw : u.nowAt pl.key = true) {t : State} {v : Word}
    (ha : (u.depart pl).apply { u.requestOf p pl op data 1 (some pl.counter) .none with expected := e, length := len, hint := hint }
      = .done t v)
    (hr : t.mayRetire dies [] = true) :
    u.sendStore p pl n op data e len dies hint = .ok (t.retiredTo (t.me.pc + wordOf len) dies []) := by
  obtain ⟨h1, h2⟩ := hh
  simp [State.sendStore, h, h1, h2, hw, bind, Except.bind, ha, retire_ok hr]

/-- What a request without a result comes to when it is not answered as it is sent: on its way, lost, or on its way to another package. -/
theorem sendStore_gone {u : State} {p : Word} {pl : Place} {n : Nat} {op : MemOp} {data e : Word} {len : Nat} {dies : List Reg}
    {hint : BitVec 2} (h : u.readyToSend pl n 1 = .ok ()) :
    let r := { u.requestOf p pl op data 1 (some pl.counter) .none with expected := e, length := len, hint := hint }
    let gone (t : State) : State := t.retiredTo (t.me.pc + wordOf len) dies []
    (pl.Here → u.nowAt pl.key = false → (u.depart pl).mayRetire dies [] = true →
      u.sendStore p pl n op data e len dies hint = .ok ((gone (u.depart pl)).launchRequest r))
    ∧ (pl.remote = none → pl.lost = true → (u.depart pl).mayRetire dies [] = true →
      u.sendStore p pl n op data e len dies hint = .ok (((gone (u.depart pl)).beginRequest r).loseHere r))
    ∧ (pl.remote ≠ none → u.mayRetire dies [] = true →
      u.sendStore p pl n op data e len dies hint = .ok ((gone u).launchRequest r)) := by
  refine ⟨fun ⟨h1, h2⟩ hw hr => ?_, fun h1 h2 hr => ?_, fun h1 hr => ?_⟩
  · simp [State.sendStore, h, h1, h2, hw, bind, Except.bind, retire_ok hr, pure, Except.pure]
  · simp [State.sendStore, h, h1, h2, bind, Except.bind, retire_ok hr, pure, Except.pure]
  · have h1 : pl.remote.isSome = true := Option.isSome_iff_ne_none.2 h1
    simp [State.sendStore, h, h1, bind, Except.bind, retire_ok hr, pure, Except.pure]

/-! ### What the instructions that send a request come to -/

theorem encoded_other {t : TrapInfo} {e : Word} (h1 : t.cause ≠ .illegal) (h2 : t.cause ≠ .priv) : t.encoded e = t := by
  simp [TrapInfo.encoded, h1, h2]

/-- An instruction that ends as `sendLoad` does everything that `LoadGives` says. -/
theorem LoadGives_of {i : Instr} {e : Word} {s u : State} {p : Word} {pl : Place} {n : Nat} {op : MemOp} {data ex : Word} {d : Reg}
    {len : Nat} {dies : List Reg} {hint : BitVec 2}
    (h : exec i s = concludeAs e s (u.sendLoad p pl n op data ex d len dies hint)) : LoadGives i s u p pl n op data ex d len dies hint := by
  intro ho
  refine ⟨fun line held v ha hr => ?_, fun hn => ⟨fun hh hw t v ha hr => ?_, fun hh hw hr => ?_, fun h1 h2 hr => ?_, fun h1 hr => ?_⟩⟩
  · rw [Completes, h, sendLoad_hit ho ha hr]; rfl
  · rw [Completes, h, sendLoad_now ho hn hh hw ha hr]; rfl
  · rw [Completes, h, sendLoad_later ho hn hh hw hr]; rfl
  · rw [Completes, h, sendLoad_lost ho hn h1 h2 hr]; rfl
  · rw [Completes, h, sendLoad_remote ho hn h1 hr]; rfl

/-- An instruction that ends as `sendStore` does everything that `StoreGives` says. -/
theorem StoreGives_of {i : Instr} {e : Word} {s u : State} {p : Word} {pl : Place} {n : Nat} {op : MemOp} {data ex : Word} {len : Nat}
    {dies : List Reg} {hint : BitVec 2}
    (h : exec i s = concludeAs e s (u.sendStore p pl n op data ex len dies hint)) : StoreGives i s u p pl n op data ex len dies hint := by
  intro ho
  obtain ⟨g1, g2, g3⟩ := sendStore_gone (p := p) (op := op) (data := data) (e := ex) (len := len) (dies := dies) (hint := hint) ho
  refine ⟨fun hh hw t v ha hr => ?_, fun hh hw hr => ?_, fun h1 h2 hr => ?_, fun h1 hr => ?_⟩
  · rw [Completes, h, sendStore_now ho hh hw ha hr]; rfl
  · rw [Completes, h, g1 hh hw hr]; rfl
  · rw [Completes, h, g2 h1 h2 hr]; rfl
  · rw [Completes, h, g3 h1 hr]; rfl

/-- An instruction that ends as a `sendRelease` without a result does everything that `ReleaseGives` says. -/
theorem ReleaseGives_of {i : Instr} {e : Word} {s : State} {p : Word} {pl : Place} {n : Nat} {op : MemOp} {data : Word} {dies : List Reg}
    {hint : BitVec 2} (h : exec i s = concludeAs e s (s.sendRelease p pl n op data 0 4 dies hint)) :
    ReleaseGives i s p pl n op data dies hint := by
  intro mask hm
  refine ⟨fun hd ho => StoreGives_of (e := e) ?_ ho, fun hd hq hr => ?_⟩
  · rw [h, State.sendRelease]
    simp only [ho, hm, hd, bind, Except.bind, if_true]
  · rw [Completes, h, State.sendRelease]
    simp only [hq, hm, hd, bind, Except.bind, retirePending_ok hr, pure, Except.pure, State.targetOf, if_true, if_false, Bool.false_eq_true]
    rfl

/-- An instruction that ends as `atHome` does, with nothing else to wait for, does everything that `HomeGives` says. -/
theorem HomeGives_of {i : Instr} {e : Word} {s u : State} {p : Word} {pl : Place} {n cls : Nat} {d : Reg} {op : MemOp} {data : Word}
    {dies : List Reg} {ready : Word → Except Stop Unit} (hs : u.mySync = none) (hready : ready p = .ok ())
    (h : exec i s = concludeAs e s (u.atHome n cls d dies op (.ok (p, pl, data)) ready)) : HomeGives i s u p pl n cls d op data dies := by
  intro hq hm
  have hb : u.mayBegin dies d = .ok () := if_pos hm
  refine ⟨fun ⟨h1, h2⟩ hw => ⟨fun t v ha hr => ?_, fun t ha c1 c2 => ?_, fun ha => ?_⟩, fun ⟨h1, h2⟩ hw => ?_, fun h1 h2 => ?_, fun h1 => ?_⟩
  · rw [Completes, h, State.atHome, hs]
    simp only [hq, hready, hb, bind, Except.bind, h1, h2, hw, Option.isSome_none, Bool.false_eq_true, if_false, if_true, ha, retire_ok hr]
    rfl
  · rw [Completes, h, State.atHome, hs]
    simp only [hq, hready, hb, bind, Except.bind, h1, h2, hw, Option.isSome_none, Bool.false_eq_true, if_false, if_true, ha,
      concludeAs, conclude, encoded_other c1 c2]
  · rw [Completes, h, State.atHome, hs]
    simp only [hq, hready, hb, bind, Except.bind, h1, h2, hw, Option.isSome_none, Bool.false_eq_true, if_false, if_true, ha]
    rfl
  · rw [Completes, h, State.atHome, hs]
    simp only [hq, hready, hb, bind, Except.bind, h1, h2, hw, Option.isSome_none, Bool.false_eq_true, if_false]
    rfl
  · rw [Completes, h, State.atHome, hs]
    simp only [hq, hready, hb, bind, Except.bind, h1, h2, Option.isSome_none, Bool.false_eq_true, if_false, if_true]
    rfl
  · have h1 : pl.remote.isSome = true := Option.isSome_iff_ne_none.2 h1
    rw [Completes, h, State.atHome, hs]
    simp only [hq, hready, hb, bind, Except.bind, h1, if_true]
    rfl

/-- An instruction that ends as `blocking` does everything that `BlockingGives` says. -/
theorem BlockingGives_of {i : Instr} {e : Word} {s : State} {p : Word} {pl : Place} {cls : Nat} {rel : Bool} {d : Reg} {op : MemOp}
    {data : Word} {dies : List Reg} (h : exec i s = concludeAs e s (s.blocking cls rel d dies op (.ok (p, pl, data)))) :
    BlockingGives i s p pl cls rel d op data dies := by
  intro h1 h2 mask hm hd
  refine HomeGives_of h1 ?_ h
  have hg : (s.holding = true ∨ rel = true ∧ ¬ s.drainedNow mask = true) ↔ False := by
    simp only [h2, Bool.false_eq_true, false_or, iff_false]
    rintro ⟨a, b⟩
    exact b (hd a)
  simp only [hm, bind, Except.bind, hg, if_false]
  rfl

end Sys2Proof.Machine
end

