-- ==== Sys2Proof/Laws/Near.lean ====
section
/-! SUPPORT. What the caches change: a core's own lines and the victim pool are in the cores alone, a hit changes the hints of the
V-copies alone, and what performing a request leaves beside its effect is in the cores and the translations alone. -/

namespace Sys2Proof.Machine

/-- Nothing differs but what the cores hold. -/
def CoresOnly (t s : State) : Prop := ∃ c, t = { s with cores := c }

theorem CoresOnly.refl (s : State) : CoresOnly s s := ⟨s.cores, rfl⟩

theorem CoresOnly.trans {a b c : State} (h : CoresOnly a b) (g : CoresOnly b c) : CoresOnly a c := by
  obtain ⟨x, rfl⟩ := h; obtain ⟨y, rfl⟩ := g; exact ⟨x, rfl⟩

theorem setCore_co (s : State) (n c) : CoresOnly (s.setCore n c) s := ⟨_, rfl⟩

theorem foldl_co {α : Type} (f : State → α → State) (hf : ∀ s a, CoresOnly (f s a) s) (l : List α) (s : State) :
    CoresOnly (l.foldl f s) s := by
  induction l generalizing s with
  | nil => exact .refl s
  | cons a l ih => exact (ih _).trans (hf s a)

theorem passedAtL2_co (s : State) (c l) : CoresOnly (s.passedAtL2 c l) s := by
  refine foldl_co _ (fun s n => ?_) _ _
  dsimp only
  split
  · exact setCore_co _ _ _
  · exact .refl _

theorem putNear_co (s : State) (c x) : CoresOnly (s.putNear c x).1 s := setCore_co _ _ _

theorem enterNear_co (s : State) (c x n) : CoresOnly (s.enterNear c x n) s := by
  induction n generalizing s c x with
  | zero => exact .refl s
  | succ n ih =>
    unfold State.enterNear
    split
    · rename_i h; have := putNear_co s c x; rw [h] at this; exact this
    · rename_i h; have := putNear_co s c x; rw [h] at this
      dsimp only
      split
      · exact (ih _ _ _).trans this
      · exact this

theorem keepLine_co (s : State) (c l d h) : CoresOnly (s.keepLine c l d h) s := (enterNear_co _ _ _ _).trans (setCore_co _ _ _)

theorem fillNear_co (s : State) (c l h v) : CoresOnly (s.fillNear c l h v) s := by
  unfold State.fillNear
  have := passedAtL2_co s c l
  dsimp only
  split
  · exact this
  · split
    · exact this
    · exact (keepLine_co _ _ _ _ _).trans this

theorem storeNear_co (s : State) (c l o n v) : CoresOnly (s.storeNear c l o n v) s := by
  unfold State.storeNear
  have := passedAtL2_co s c l
  dsimp only
  split
  · exact (setCore_co _ _ _).trans this
  · exact this

theorem seenNear_co (s : State) (r) : CoresOnly (s.seenNear r) s := by
  unfold State.seenNear
  split
  · exact .refl _
  · split
    · exact storeNear_co _ _ _ _ _ _
    · exact .refl _

theorem takeBank_co (s : State) (c x k) : CoresOnly (s.takeBank c x k) s := by
  unfold State.takeBank
  dsimp only
  split
  · split
    · split
      · exact setCore_co _ _ _
      · exact .refl _
    · exact .refl _
  · exact .refl _

theorem countHeat_only (s : State) (g v w) : ∃ t, s.countHeat g v w = { s with translations := t } := by
  unfold State.countHeat
  dsimp only
  split
  · exact ⟨_, rfl⟩
  · exact ⟨s.translations, rfl⟩

/-- What performing a request leaves beside its effect. -/
theorem performed_only (u x : State) (r) : ∃ c t, u.performed x r = { x with cores := c, translations := t } := by
  unfold State.performed
  dsimp only
  have h1 : ∀ y : State, (∃ c t, y = { x with cores := c, translations := t }) →
      ∃ c t, y.seenNear r = { x with cores := c, translations := t } := by
    rintro y ⟨c, t, rfl⟩
    obtain ⟨d, h⟩ := seenNear_co { x with cores := c, translations := t } r
    exact ⟨d, t, h⟩
  apply h1
  have h2 : ∃ c, (if ownsBank r.op = true ∧ r.origin = none ∧ r.ctx < 16 then x.takeBank r.core r.ctx r.key else x)
      = { x with cores := c } := by
    split
    · exact takeBank_co _ _ _ _
    · exact CoresOnly.refl _
  obtain ⟨c, hc⟩ := h2
  rw [hc]
  split
  · split
    · rename_i l _ _
      obtain ⟨t, ht⟩ := countHeat_only { x with cores := c } l.1 (ptrAddr r.pointer) true
      exact ⟨c, t, ht⟩
    · exact ⟨c, x.translations, rfl⟩
  · exact ⟨c, x.translations, rfl⟩

/-- A V-copy without its recorded hint. -/
def bare (v : VCopy) : VCopy := { v with hint := 0 }

/-- Nothing differs but the hints that the V-copies record. -/
def HintOnly (t s : State) : Prop := ∃ c : List VCopy, t = { s with vcopies := c } ∧ c.map bare = s.vcopies.map bare

theorem HintOnly.refl (s : State) : HintOnly s s := ⟨s.vcopies, rfl, rfl⟩

theorem HintOnly.trans {a b c : State} (h : HintOnly a b) (g : HintOnly b c) : HintOnly a c := by
  obtain ⟨x, rfl, h⟩ := h; obtain ⟨y, rfl, g⟩ := g; exact ⟨x, rfl, h.trans g⟩

theorem limitStuck_ho (s : State) (p l) : HintOnly (s.limitStuck p l) s := by
  unfold State.limitStuck
  split
  · exact .refl s
  · split
    · refine ⟨_, rfl, ?_⟩
      rw [List.map_map]
      apply List.map_congr_left
      intro x _
      simp only [Function.comp]
      split
      · rename_i h
        rw [h]
        rfl
      · rfl
    · exact .refl s

theorem hitCopy_ho (s : State) (p l h) : HintOnly (s.hitCopy p l h) s := by
  unfold State.hitCopy
  split
  · exact .refl s
  · refine (limitStuck_ho _ _ _).trans ⟨_, rfl, ?_⟩
    rw [List.map_map]
    apply List.map_congr_left
    intro x _
    simp only [Function.comp]
    split <;> rfl

theorem fill_ho {s : State} {line key slot h r c} (hc : s.copyOf line key = some c) : HintOnly (s.fill line key slot h r) s := by
  unfold State.fill
  split
  · exact .refl s
  · simp only [hc, Option.isSome_some, if_true]
    exact hitCopy_ho _ _ _ _

theorem copyOf_bare {s t : State} {line key c} (h : s.vcopies.map bare = t.vcopies.map bare)
    (hc : s.copyOf line key = some c) : ∃ d, t.copyOf line key = some d ∧ bare d = bare c := by
  unfold State.copyOf at *
  split at hc
  · cases hc
  · rename_i l
    generalize s.vcopies = a at *
    generalize t.vcopies = b at *
    induction a generalizing b with
    | nil => cases hc
    | cons x a ih =>
      cases b with
      | nil => simp at h
      | cons y b =>
        simp only [List.map_cons, List.cons.injEq] at h
        obtain ⟨hxy, h⟩ := h
        have e1 : x.part = y.part := by have := congrArg VCopy.part hxy; exact this
        have e2 : x.line = y.line := by have := congrArg VCopy.line hxy; exact this
        have e3 : x.frame = y.frame := by have := congrArg VCopy.frame hxy; exact this
        simp only [List.find?_cons, e1, e2, e3] at hc ⊢
        split at hc
        · cases hc; exact ⟨y, rfl, hxy.symm⟩
        · exact ih hc b h

end Sys2Proof.Machine
end

