-- ==== Sys2Proof/Laws/PerInstr.lean ====
section
/-! SUPPORT. A fact about the encoding of every instruction, a lemma for each constructor. -/

namespace Sys2Proof.Laws.Encoding

/-- The halfwords of an instruction are as many as its length says, every operand fits its field, and bit 15 of the first halfword is 1
exactly for a 32-bit instruction (03_encoding.md R74). A step that no program encodes has no halfword. -/
def Statement (i : Instr) : Prop :=
  2 * (encode i).length = i.length ∧ i.encodeNat < 256 ^ i.length ∧ (i.length = 4 → 2 ^ 31 ≤ i.encodeNat)
  ∧ (i.length = 2 → i.encodeNat < 2 ^ 15)

theorem of_long {i : Instr} (n : Nat) (h : i.length = 4) (e : i.encodeNat = n) (b : 2 ^ 31 ≤ n ∧ n < 2 ^ 32) : Statement i := by
  subst e
  refine ⟨?_, ?_, fun _ => b.1, fun h' => ?_⟩
  · simp [encode, h]
  · rw [h]
    exact b.2
  · rw [h] at h'
    exact absurd h' (by decide)

theorem of_compact {i : Instr} (n : Nat) (h : i.length = 2) (e : i.encodeNat = n) (b : n < 2 ^ 15) : Statement i := by
  subst e
  refine ⟨?_, ?_, fun h' => ?_, fun _ => b⟩
  · simp [encode, h]
  · rw [h]
    exact Nat.lt_trans b (by decide)
  · rw [h] at h'
    exact absurd h' (by decide)

theorem of_event {i : Instr} (h : i.length = 0) (e : i.encodeNat = 0) : Statement i := by
  refine ⟨?_, ?_, fun h' => ?_, fun h' => ?_⟩
  · simp [encode, h]
  · rw [h, e]
    decide
  all_goals
    rw [h] at h'
    exact absurd h' (by decide)

theorem padd (d : BitVec 5) (a : BitVec 5) (l : Bool) (b : BitVec 5) (m : Bool) : Statement (.padd d a l b m) :=
  of_long (0x8C000000 + d.toNat * 1048576 + a.toNat * 32768 + l.toNat * 16384 + b.toNat * 512 + m.toNat * 256) rfl rfl (by have := d.isLt; have := a.isLt; have := l.toNat_le; have := b.isLt; have := m.toNat_le; omega)
theorem pidx (d : BitVec 5) (a : BitVec 5) (l : Bool) (b : BitVec 5) (m : Bool) : Statement (.pidx d a l b m) :=
  of_long (0x8C000010 + d.toNat * 1048576 + a.toNat * 32768 + l.toNat * 16384 + b.toNat * 512 + m.toNat * 256) rfl rfl (by have := d.isLt; have := a.isLt; have := l.toNat_le; have := b.isLt; have := m.toNat_le; omega)
theorem pset (d : BitVec 5) (a : BitVec 5) (l : Bool) (b : BitVec 5) (m : Bool) (f : BitVec 2) : Statement (.pset d a l b m f) :=
  of_long (0x8C000020 + d.toNat * 1048576 + a.toNat * 32768 + l.toNat * 16384 + b.toNat * 512 + m.toNat * 256 + f.toNat) rfl rfl (by have := d.isLt; have := a.isLt; have := l.toNat_le; have := b.isLt; have := m.toNat_le; have := f.isLt; omega)
theorem pget (d : BitVec 5) (a : BitVec 5) (l : Bool) (f : BitVec 2) : Statement (.pget d a l f) :=
  of_long (0x8C000030 + d.toNat * 1048576 + a.toNat * 32768 + l.toNat * 16384 + f.toNat) rfl rfl (by have := d.isLt; have := a.isLt; have := l.toNat_le; have := f.isLt; omega)
theorem pcore (d : BitVec 5) (a : BitVec 5) (l : Bool) (b : BitVec 5) (m : Bool) : Statement (.pcore d a l b m) :=
  of_long (0x8C000040 + d.toNat * 1048576 + a.toNat * 32768 + l.toNat * 16384 + b.toNat * 512 + m.toNat * 256) rfl rfl (by have := d.isLt; have := a.isLt; have := l.toNat_le; have := b.isLt; have := m.toNat_le; omega)
theorem pshrd (d : BitVec 5) (a : BitVec 5) (l : Bool) (b : BitVec 5) (m : Bool) : Statement (.pshrd d a l b m) :=
  of_long (0x8C000050 + d.toNat * 1048576 + a.toNat * 32768 + l.toNat * 16384 + b.toNat * 512 + m.toNat * 256) rfl rfl (by have := d.isLt; have := a.isLt; have := l.toNat_le; have := b.isLt; have := m.toNat_le; omega)
theorem ext (d : BitVec 5) (a : BitVec 5) (l : Bool) (b : BitVec 5) (m : Bool) : Statement (.ext d a l b m) :=
  of_long (0x8C000060 + d.toNat * 1048576 + a.toNat * 32768 + l.toNat * 16384 + b.toNat * 512 + m.toNat * 256) rfl rfl (by have := d.isLt; have := a.isLt; have := l.toNat_le; have := b.isLt; have := m.toNat_le; omega)
theorem bc (a : BitVec 5) (l : Bool) (b : BitVec 5) (m : Bool) (c : BitVec 3) (o : BitVec 10) : Statement (.bc a l b m c o) :=
  of_long (0x8E000000 + a.toNat * 1048576 + l.toNat * 524288 + b.toNat * 16384 + m.toNat * 8192 + c.toNat * 1024 + o.toNat) rfl rfl (by have := a.isLt; have := l.toNat_le; have := b.isLt; have := m.toNat_le; have := c.isLt; have := o.isLt; omega)
theorem j (o : BitVec 25) : Statement (.j o) :=
  of_long (0x90000000 + o.toNat) rfl rfl (by have := o.isLt; omega)
theorem jal (o : BitVec 25) : Statement (.jal o) :=
  of_long (0x92000000 + o.toNat) rfl rfl (by have := o.isLt; omega)
theorem jr (d : BitVec 5) (a : BitVec 5) (l : Bool) (i : BitVec 10) : Statement (.jr d a l i) :=
  of_long (0x94000000 + d.toNat * 1048576 + a.toNat * 32768 + l.toNat * 16384 + i.toNat) rfl rfl (by have := d.isLt; have := a.isLt; have := l.toNat_le; have := i.isLt; omega)
theorem loop (d : BitVec 5) (i : BitVec 10) : Statement (.loop d i) :=
  of_long (0x94000400 + d.toNat * 1048576 + i.toNat) rfl rfl (by have := d.isLt; have := i.isLt; omega)
theorem ld (d : BitVec 5) (a : BitVec 5) (l : Bool) (s : Bool) (z : BitVec 2) (h : BitVec 2) (i : BitVec 7) : Statement (.ld d a l s z h i) :=
  of_long (0x96000000 + d.toNat * 1048576 + a.toNat * 32768 + l.toNat * 16384 + s.toNat * 8192 + z.toNat * 2048 + h.toNat * 512 + i.toNat) rfl rfl (by have := d.isLt; have := a.isLt; have := l.toNat_le; have := s.toNat_le; have := z.isLt; have := h.isLt; have := i.isLt; omega)
theorem ldFut (d : BitVec 5) (a : BitVec 5) (l : Bool) (h : BitVec 2) (i : BitVec 7) : Statement (.ldFut d a l h i) :=
  of_long (0x96001880 + d.toNat * 1048576 + a.toNat * 32768 + l.toNat * 16384 + h.toNat * 512 + i.toNat) rfl rfl (by have := d.isLt; have := a.isLt; have := l.toNat_le; have := h.isLt; have := i.isLt; omega)
theorem ldTake (d : BitVec 5) (a : BitVec 5) (l : Bool) (h : BitVec 2) (i : BitVec 7) : Statement (.ldTake d a l h i) :=
  of_long (0x96001900 + d.toNat * 1048576 + a.toNat * 32768 + l.toNat * 16384 + h.toNat * 512 + i.toNat) rfl rfl (by have := d.isLt; have := a.isLt; have := l.toNat_le; have := h.isLt; have := i.isLt; omega)
theorem st (d : BitVec 5) (a : BitVec 5) (l : Bool) (e : Bool) (z : BitVec 2) (h : BitVec 2) (i : BitVec 7) : Statement (.st d a l e z h i) :=
  of_long (0x98000000 + d.toNat * 1048576 + a.toNat * 32768 + l.toNat * 16384 + e.toNat * 8192 + z.toNat * 2048 + h.toNat * 512 + i.toNat) rfl rfl (by have := d.isLt; have := a.isLt; have := l.toNat_le; have := e.toNat_le; have := z.isLt; have := h.isLt; have := i.isLt; omega)
theorem stFill (d : BitVec 5) (a : BitVec 5) (l : Bool) (e : Bool) (h : BitVec 2) (i : BitVec 7) : Statement (.stFill d a l e h i) :=
  of_long (0x98001880 + d.toNat * 1048576 + a.toNat * 32768 + l.toNat * 16384 + e.toNat * 8192 + h.toNat * 512 + i.toNat) rfl rfl (by have := d.isLt; have := a.isLt; have := l.toNat_le; have := e.toNat_le; have := h.isLt; have := i.isLt; omega)
theorem stGive (d : BitVec 5) (a : BitVec 5) (l : Bool) (e : Bool) (h : BitVec 2) (i : BitVec 7) : Statement (.stGive d a l e h i) :=
  of_long (0x98001900 + d.toNat * 1048576 + a.toNat * 32768 + l.toNat * 16384 + e.toNat * 8192 + h.toNat * 512 + i.toNat) rfl rfl (by have := d.isLt; have := a.isLt; have := l.toNat_le; have := e.toNat_le; have := h.isLt; have := i.isLt; omega)
theorem ldx (d : BitVec 5) (a : BitVec 5) (l : Bool) (b : BitVec 5) (m : Bool) (s : Bool) (z : BitVec 2) (h : BitVec 2) (x : BitVec 2) : Statement (.ldx d a l b m s z h x) :=
  of_long (0x9A000000 + d.toNat * 1048576 + a.toNat * 32768 + l.toNat * 16384 + b.toNat * 512 + m.toNat * 256 + s.toNat * 128 + z.toNat * 32 + h.toNat * 8 + x.toNat) rfl rfl (by have := d.isLt; have := a.isLt; have := l.toNat_le; have := b.isLt; have := m.toNat_le; have := s.toNat_le; have := z.isLt; have := h.isLt; have := x.isLt; omega)
theorem stx (d : BitVec 5) (a : BitVec 5) (l : Bool) (b : BitVec 5) (m : Bool) (e : Bool) (z : BitVec 2) (h : BitVec 2) (x : BitVec 2) : Statement (.stx d a l b m e z h x) :=
  of_long (0x9A000004 + d.toNat * 1048576 + a.toNat * 32768 + l.toNat * 16384 + b.toNat * 512 + m.toNat * 256 + e.toNat * 128 + z.toNat * 32 + h.toNat * 8 + x.toNat) rfl rfl (by have := d.isLt; have := a.isLt; have := l.toNat_le; have := b.isLt; have := m.toNat_le; have := e.toNat_le; have := z.isLt; have := h.isLt; have := x.isLt; omega)
theorem ldtVeq (d : BitVec 5) (a : BitVec 5) (l : Bool) (b : BitVec 5) (m : Bool) (h : BitVec 2) : Statement (.ldtVeq d a l b m h) :=
  of_long (0x9C000060 + d.toNat * 1048576 + a.toNat * 32768 + l.toNat * 16384 + b.toNat * 512 + m.toNat * 256 + h.toNat * 8) rfl rfl (by have := d.isLt; have := a.isLt; have := l.toNat_le; have := b.isLt; have := m.toNat_le; have := h.isLt; omega)
theorem ldtVge (d : BitVec 5) (a : BitVec 5) (l : Bool) (b : BitVec 5) (m : Bool) (h : BitVec 2) : Statement (.ldtVge d a l b m h) :=
  of_long (0x9C000061 + d.toNat * 1048576 + a.toNat * 32768 + l.toNat * 16384 + b.toNat * 512 + m.toNat * 256 + h.toNat * 8) rfl rfl (by have := d.isLt; have := a.isLt; have := l.toNat_le; have := b.isLt; have := m.toNat_le; have := h.isLt; omega)
theorem sttVnx (d : BitVec 5) (a : BitVec 5) (l : Bool) (e : Bool) (h : BitVec 2) : Statement (.sttVnx d a l e h) :=
  of_long (0x9C000064 + d.toNat * 1048576 + a.toNat * 32768 + l.toNat * 16384 + e.toNat * 128 + h.toNat * 8) rfl rfl (by have := d.isLt; have := a.isLt; have := l.toNat_le; have := e.toNat_le; have := h.isLt; omega)
theorem sttVset (d : BitVec 5) (a : BitVec 5) (l : Bool) (b : BitVec 5) (m : Bool) (e : Bool) (h : BitVec 2) : Statement (.sttVset d a l b m e h) :=
  of_long (0x9C000065 + d.toNat * 1048576 + a.toNat * 32768 + l.toNat * 16384 + b.toNat * 512 + m.toNat * 256 + e.toNat * 128 + h.toNat * 8) rfl rfl (by have := d.isLt; have := a.isLt; have := l.toNat_le; have := b.isLt; have := m.toNat_le; have := e.toNat_le; have := h.isLt; omega)
theorem lds (d : BitVec 5) (a : BitVec 5) (l : Bool) (b : BitVec 5) (m : Bool) (s : Bool) (z : BitVec 2) (h : BitVec 2) : Statement (.lds d a l b m s z h) :=
  of_long (0x9E000000 + d.toNat * 1048576 + a.toNat * 32768 + l.toNat * 16384 + b.toNat * 512 + m.toNat * 256 + s.toNat * 128 + z.toNat * 32 + h.toNat * 8) rfl rfl (by have := d.isLt; have := a.isLt; have := l.toNat_le; have := b.isLt; have := m.toNat_le; have := s.toNat_le; have := z.isLt; have := h.isLt; omega)
theorem sts (d : BitVec 5) (a : BitVec 5) (l : Bool) (b : BitVec 5) (m : Bool) (e : Bool) (z : BitVec 2) (h : BitVec 2) : Statement (.sts d a l b m e z h) :=
  of_long (0x9E000004 + d.toNat * 1048576 + a.toNat * 32768 + l.toNat * 16384 + b.toNat * 512 + m.toNat * 256 + e.toNat * 128 + z.toNat * 32 + h.toNat * 8) rfl rfl (by have := d.isLt; have := a.isLt; have := l.toNat_le; have := b.isLt; have := m.toNat_le; have := e.toNat_le; have := z.isLt; have := h.isLt; omega)
theorem amoSwap (d : BitVec 5) (a : BitVec 5) (l : Bool) (b : BitVec 5) (m : Bool) (z : BitVec 1) (h : BitVec 2) : Statement (.amoSwap d a l b m z h) :=
  of_long (0xA0000000 + d.toNat * 1048576 + a.toNat * 32768 + l.toNat * 16384 + b.toNat * 512 + m.toNat * 256 + z.toNat * 4 + h.toNat) rfl rfl (by have := d.isLt; have := a.isLt; have := l.toNat_le; have := b.isLt; have := m.toNat_le; have := z.isLt; have := h.isLt; omega)
theorem amoAdd (d : BitVec 5) (a : BitVec 5) (l : Bool) (b : BitVec 5) (m : Bool) (z : BitVec 1) (h : BitVec 2) : Statement (.amoAdd d a l b m z h) :=
  of_long (0xA0000008 + d.toNat * 1048576 + a.toNat * 32768 + l.toNat * 16384 + b.toNat * 512 + m.toNat * 256 + z.toNat * 4 + h.toNat) rfl rfl (by have := d.isLt; have := a.isLt; have := l.toNat_le; have := b.isLt; have := m.toNat_le; have := z.isLt; have := h.isLt; omega)
theorem amoAnd (d : BitVec 5) (a : BitVec 5) (l : Bool) (b : BitVec 5) (m : Bool) (z : BitVec 1) (h : BitVec 2) : Statement (.amoAnd d a l b m z h) :=
  of_long (0xA0000010 + d.toNat * 1048576 + a.toNat * 32768 + l.toNat * 16384 + b.toNat * 512 + m.toNat * 256 + z.toNat * 4 + h.toNat) rfl rfl (by have := d.isLt; have := a.isLt; have := l.toNat_le; have := b.isLt; have := m.toNat_le; have := z.isLt; have := h.isLt; omega)
theorem amoOr (d : BitVec 5) (a : BitVec 5) (l : Bool) (b : BitVec 5) (m : Bool) (z : BitVec 1) (h : BitVec 2) : Statement (.amoOr d a l b m z h) :=
  of_long (0xA0000018 + d.toNat * 1048576 + a.toNat * 32768 + l.toNat * 16384 + b.toNat * 512 + m.toNat * 256 + z.toNat * 4 + h.toNat) rfl rfl (by have := d.isLt; have := a.isLt; have := l.toNat_le; have := b.isLt; have := m.toNat_le; have := z.isLt; have := h.isLt; omega)
theorem amoXor (d : BitVec 5) (a : BitVec 5) (l : Bool) (b : BitVec 5) (m : Bool) (z : BitVec 1) (h : BitVec 2) : Statement (.amoXor d a l b m z h) :=
  of_long (0xA0000020 + d.toNat * 1048576 + a.toNat * 32768 + l.toNat * 16384 + b.toNat * 512 + m.toNat * 256 + z.toNat * 4 + h.toNat) rfl rfl (by have := d.isLt; have := a.isLt; have := l.toNat_le; have := b.isLt; have := m.toNat_le; have := z.isLt; have := h.isLt; omega)
theorem amoMin (d : BitVec 5) (a : BitVec 5) (l : Bool) (b : BitVec 5) (m : Bool) (z : BitVec 1) (h : BitVec 2) : Statement (.amoMin d a l b m z h) :=
  of_long (0xA0000028 + d.toNat * 1048576 + a.toNat * 32768 + l.toNat * 16384 + b.toNat * 512 + m.toNat * 256 + z.toNat * 4 + h.toNat) rfl rfl (by have := d.isLt; have := a.isLt; have := l.toNat_le; have := b.isLt; have := m.toNat_le; have := z.isLt; have := h.isLt; omega)
theorem amoMax (d : BitVec 5) (a : BitVec 5) (l : Bool) (b : BitVec 5) (m : Bool) (z : BitVec 1) (h : BitVec 2) : Statement (.amoMax d a l b m z h) :=
  of_long (0xA0000030 + d.toNat * 1048576 + a.toNat * 32768 + l.toNat * 16384 + b.toNat * 512 + m.toNat * 256 + z.toNat * 4 + h.toNat) rfl rfl (by have := d.isLt; have := a.isLt; have := l.toNat_le; have := b.isLt; have := m.toNat_le; have := z.isLt; have := h.isLt; omega)
theorem amoMinu (d : BitVec 5) (a : BitVec 5) (l : Bool) (b : BitVec 5) (m : Bool) (z : BitVec 1) (h : BitVec 2) : Statement (.amoMinu d a l b m z h) :=
  of_long (0xA0000038 + d.toNat * 1048576 + a.toNat * 32768 + l.toNat * 16384 + b.toNat * 512 + m.toNat * 256 + z.toNat * 4 + h.toNat) rfl rfl (by have := d.isLt; have := a.isLt; have := l.toNat_le; have := b.isLt; have := m.toNat_le; have := z.isLt; have := h.isLt; omega)
theorem amoMaxu (d : BitVec 5) (a : BitVec 5) (l : Bool) (b : BitVec 5) (m : Bool) (z : BitVec 1) (h : BitVec 2) : Statement (.amoMaxu d a l b m z h) :=
  of_long (0xA0000040 + d.toNat * 1048576 + a.toNat * 32768 + l.toNat * 16384 + b.toNat * 512 + m.toNat * 256 + z.toNat * 4 + h.toNat) rfl rfl (by have := d.isLt; have := a.isLt; have := l.toNat_le; have := b.isLt; have := m.toNat_le; have := z.isLt; have := h.isLt; omega)
theorem cas (d : BitVec 5) (a : BitVec 5) (l : Bool) (b : BitVec 5) (m : Bool) (z : BitVec 1) (h : BitVec 2) : Statement (.cas d a l b m z h) :=
  of_long (0xA0000080 + d.toNat * 1048576 + a.toNat * 32768 + l.toNat * 16384 + b.toNat * 512 + m.toNat * 256 + z.toNat * 4 + h.toNat) rfl rfl (by have := d.isLt; have := a.isLt; have := l.toNat_le; have := b.isLt; have := m.toNat_le; have := z.isLt; have := h.isLt; omega)
theorem redo (d : BitVec 5) (a : BitVec 5) (l : Bool) (b : BitVec 5) (m : Bool) (f : BitVec 6) : Statement (.redo d a l b m f) :=
  of_long (0xA2000000 + d.toNat * 1048576 + a.toNat * 32768 + l.toNat * 16384 + b.toNat * 512 + m.toNat * 256 + f.toNat) rfl rfl (by have := d.isLt; have := a.isLt; have := l.toNat_le; have := b.isLt; have := m.toNat_le; have := f.isLt; omega)
theorem reda (a : BitVec 5) (l : Bool) (b : BitVec 5) (m : Bool) (f : BitVec 6) : Statement (.reda a l b m f) :=
  of_long (0xA2000040 + a.toNat * 32768 + l.toNat * 16384 + b.toNat * 512 + m.toNat * 256 + f.toNat) rfl rfl (by have := a.isLt; have := l.toNat_le; have := b.isLt; have := m.toNat_le; have := f.isLt; omega)
theorem redr (d : BitVec 5) (a : BitVec 5) (l : Bool) (f : BitVec 6) : Statement (.redr d a l f) :=
  of_long (0xA2000080 + d.toNat * 1048576 + a.toNat * 32768 + l.toNat * 16384 + f.toNat) rfl rfl (by have := d.isLt; have := a.isLt; have := l.toNat_le; have := f.isLt; omega)
theorem redc (d : BitVec 5) (a : BitVec 5) (l : Bool) (f : BitVec 6) : Statement (.redc d a l f) :=
  of_long (0xA20000C0 + d.toNat * 1048576 + a.toNat * 32768 + l.toNat * 16384 + f.toNat) rfl rfl (by have := d.isLt; have := a.isLt; have := l.toNat_le; have := f.isLt; omega)
theorem jinit (d : BitVec 5) (a : BitVec 5) (l : Bool) (b : BitVec 5) (m : Bool) : Statement (.jinit d a l b m) :=
  of_long (0xA4000000 + d.toNat * 1048576 + a.toNat * 32768 + l.toNat * 16384 + b.toNat * 512 + m.toNat * 256) rfl rfl (by have := d.isLt; have := a.isLt; have := l.toNat_le; have := b.isLt; have := m.toNat_le; omega)
theorem join (d : BitVec 5) (a : BitVec 5) (l : Bool) (b : BitVec 5) (m : Bool) : Statement (.join d a l b m) :=
  of_long (0xA4000001 + d.toNat * 1048576 + a.toNat * 32768 + l.toNat * 16384 + b.toNat * 512 + m.toNat * 256) rfl rfl (by have := d.isLt; have := a.isLt; have := l.toNat_le; have := b.isLt; have := m.toNat_le; omega)
theorem fence (d : BitVec 5) (a : BitVec 5) (l : Bool) : Statement (.fence d a l) :=
  of_long (0xA6000000 + d.toNat * 1048576 + a.toNat * 32768 + l.toNat * 16384) rfl rfl (by have := d.isLt; have := a.isLt; have := l.toNat_le; omega)
theorem flush (a : BitVec 5) (l : Bool) (b : BitVec 5) (m : Bool) : Statement (.flush a l b m) :=
  of_long (0xA6000001 + a.toNat * 32768 + l.toNat * 16384 + b.toNat * 512 + m.toNat * 256) rfl rfl (by have := a.isLt; have := l.toNat_le; have := b.isLt; have := m.toNat_le; omega)
theorem cinv (a : BitVec 5) (l : Bool) (b : BitVec 5) (m : Bool) : Statement (.cinv a l b m) :=
  of_long (0xA6000002 + a.toNat * 32768 + l.toNat * 16384 + b.toNat * 512 + m.toNat * 256) rfl rfl (by have := a.isLt; have := l.toNat_le; have := b.isLt; have := m.toNat_le; omega)
theorem wait (a : BitVec 4) (b : BitVec 4) (c : BitVec 4) (d : BitVec 4) : Statement (.wait a b c d) :=
  of_long (0xA6000003 + a.toNat * 2097152 + b.toNat * 131072 + c.toNat * 8192 + d.toNat * 512) rfl rfl (by have := a.isLt; have := b.isLt; have := c.isLt; have := d.isLt; omega)
theorem pref (h : BitVec 2) (a : BitVec 5) (l : Bool) (b : BitVec 5) (m : Bool) : Statement (.pref h a l b m) :=
  of_long (0xA6000004 + h.toNat * 1048576 + a.toNat * 32768 + l.toNat * 16384 + b.toNat * 512 + m.toNat * 256) rfl rfl (by have := h.isLt; have := a.isLt; have := l.toNat_le; have := b.isLt; have := m.toNat_le; omega)
theorem vrecl (a : BitVec 5) (l : Bool) (b : BitVec 5) (m : Bool) : Statement (.vrecl a l b m) :=
  of_long (0xA6000005 + a.toNat * 32768 + l.toNat * 16384 + b.toNat * 512 + m.toNat * 256) rfl rfl (by have := a.isLt; have := l.toNat_le; have := b.isLt; have := m.toNat_le; omega)
theorem tagr (d : BitVec 5) (a : BitVec 5) (l : Bool) : Statement (.tagr d a l) :=
  of_long (0xA6000006 + d.toNat * 1048576 + a.toNat * 32768 + l.toNat * 16384) rfl rfl (by have := d.isLt; have := a.isLt; have := l.toNat_le; omega)
theorem tagw (a : BitVec 5) (l : Bool) (b : BitVec 5) (m : Bool) : Statement (.tagw a l b m) :=
  of_long (0xA6000007 + a.toNat * 32768 + l.toNat * 16384 + b.toNat * 512 + m.toNat * 256) rfl rfl (by have := a.isLt; have := l.toNat_le; have := b.isLt; have := m.toNat_le; omega)
theorem mcast (d : BitVec 5) (a : BitVec 5) (l : Bool) (b : BitVec 5) (m : Bool) : Statement (.mcast d a l b m) :=
  of_long (0xA8000000 + d.toNat * 1048576 + a.toNat * 32768 + l.toNat * 16384 + b.toNat * 512 + m.toNat * 256) rfl rfl (by have := d.isLt; have := a.isLt; have := l.toNat_le; have := b.isLt; have := m.toNat_le; omega)
theorem spawn (a : BitVec 5) (l : Bool) (b : BitVec 5) (m : Bool) : Statement (.spawn a l b m) :=
  of_long (0xAA000000 + a.toNat * 32768 + l.toNat * 16384 + b.toNat * 512 + m.toNat * 256) rfl rfl (by have := a.isLt; have := l.toNat_le; have := b.isLt; have := m.toNat_le; omega)
theorem launch (d : BitVec 5) (a : BitVec 5) (l : Bool) : Statement (.launch d a l) :=
  of_long (0xAA000001 + d.toNat * 1048576 + a.toNat * 32768 + l.toNat * 16384) rfl rfl (by have := d.isLt; have := a.isLt; have := l.toNat_le; omega)
theorem yield : Statement (.yield) :=
  of_long (0xAA000002) rfl rfl (by decide)
theorem prio (d : BitVec 5) (a : BitVec 5) (l : Bool) : Statement (.prio d a l) :=
  of_long (0xAA000003 + d.toNat * 1048576 + a.toNat * 32768 + l.toNat * 16384) rfl rfl (by have := d.isLt; have := a.isLt; have := l.toNat_le; omega)
theorem sendm (a : BitVec 5) (l : Bool) (b : BitVec 5) (m : Bool) : Statement (.sendm a l b m) :=
  of_long (0xAC000000 + a.toNat * 32768 + l.toNat * 16384 + b.toNat * 512 + m.toNat * 256) rfl rfl (by have := a.isLt; have := l.toNat_le; have := b.isLt; have := m.toNat_le; omega)
theorem recv (d : BitVec 5) (a : BitVec 5) (l : Bool) : Statement (.recv d a l) :=
  of_long (0xAC000001 + d.toNat * 1048576 + a.toNat * 32768 + l.toNat * 16384) rfl rfl (by have := d.isLt; have := a.isLt; have := l.toNat_le; omega)
theorem peek (d : BitVec 5) : Statement (.peek d) :=
  of_long (0xAC000002 + d.toNat * 1048576) rfl rfl (by have := d.isLt; omega)
theorem reply (a : BitVec 5) (l : Bool) : Statement (.reply a l) :=
  of_long (0xAC000003 + a.toNat * 32768 + l.toNat * 16384) rfl rfl (by have := a.isLt; have := l.toNat_le; omega)
theorem hstart (d : BitVec 5) (a : BitVec 5) (l : Bool) (b : BitVec 5) (m : Bool) : Statement (.hstart d a l b m) :=
  of_long (0xAE000000 + d.toNat * 1048576 + a.toNat * 32768 + l.toNat * 16384 + b.toNat * 512 + m.toNat * 256) rfl rfl (by have := d.isLt; have := a.isLt; have := l.toNat_le; have := b.isLt; have := m.toNat_le; omega)
theorem hhalt (a : BitVec 5) (l : Bool) : Statement (.hhalt a l) :=
  of_long (0xAE000001 + a.toNat * 32768 + l.toNat * 16384) rfl rfl (by have := a.isLt; have := l.toNat_le; omega)
theorem hhaltRetain (a : BitVec 5) (l : Bool) (b : BitVec 5) (m : Bool) : Statement (.hhaltRetain a l b m) :=
  of_long (0xAE000081 + a.toNat * 32768 + l.toNat * 16384 + b.toNat * 512 + m.toNat * 256) rfl rfl (by have := a.isLt; have := l.toNat_le; have := b.isLt; have := m.toNat_le; omega)
theorem hwait (d : BitVec 5) (a : BitVec 5) (l : Bool) : Statement (.hwait d a l) :=
  of_long (0xAE000002 + d.toNat * 1048576 + a.toNat * 32768 + l.toNat * 16384) rfl rfl (by have := d.isLt; have := a.isLt; have := l.toNat_le; omega)
theorem crew (a : BitVec 5) (l : Bool) (b : BitVec 5) (m : Bool) : Statement (.crew a l b m) :=
  of_long (0xB0000000 + a.toNat * 32768 + l.toNat * 16384 + b.toNat * 512 + m.toNat * 256) rfl rfl (by have := a.isLt; have := l.toNat_le; have := b.isLt; have := m.toNat_le; omega)
theorem crewx (d : BitVec 5) : Statement (.crewx d) :=
  of_long (0xB0000001 + d.toNat * 1048576) rfl rfl (by have := d.isLt; omega)
theorem bar (d : BitVec 5) (a : BitVec 5) (l : Bool) (n : BitVec 5) : Statement (.bar d a l n) :=
  of_long (0xB0000002 + d.toNat * 1048576 + a.toNat * 32768 + l.toNat * 16384 + n.toNat * 512) rfl rfl (by have := d.isLt; have := a.isLt; have := l.toNat_le; have := n.isLt; omega)
theorem qbind (a : BitVec 5) (l : Bool) (b : BitVec 5) (m : Bool) (q : BitVec 3) : Statement (.qbind a l b m q) :=
  of_long (0xB2000000 + a.toNat * 32768 + l.toNat * 16384 + b.toNat * 512 + m.toNat * 256 + q.toNat) rfl rfl (by have := a.isLt; have := l.toNat_le; have := b.isLt; have := m.toNat_le; have := q.isLt; omega)
theorem qfree (q : BitVec 3) : Statement (.qfree q) :=
  of_long (0xB2000008 + q.toNat) rfl rfl (by have := q.isLt; omega)
theorem qctlPop (d : BitVec 5) (q : BitVec 3) : Statement (.qctlPop d q) :=
  of_long (0xB2000010 + d.toNat * 1048576 + q.toNat) rfl rfl (by have := d.isLt; have := q.isLt; omega)
theorem qctlPush (a : BitVec 5) (l : Bool) (q : BitVec 3) : Statement (.qctlPush a l q) :=
  of_long (0xB2000210 + a.toNat * 32768 + l.toNat * 16384 + q.toNat) rfl rfl (by have := a.isLt; have := l.toNat_le; have := q.isLt; omega)
theorem qctlPushc (a : BitVec 5) (l : Bool) (q : BitVec 3) : Statement (.qctlPushc a l q) :=
  of_long (0xB2000410 + a.toNat * 32768 + l.toNat * 16384 + q.toNat) rfl rfl (by have := a.isLt; have := l.toNat_le; have := q.isLt; omega)
theorem qctlFlush (q : BitVec 3) : Statement (.qctlFlush q) :=
  of_long (0xB2000610 + q.toNat) rfl rfl (by have := q.isLt; omega)
theorem qstat (d : BitVec 5) (q : BitVec 3) : Statement (.qstat d q) :=
  of_long (0xB2000018 + d.toNat * 1048576 + q.toNat) rfl rfl (by have := d.isLt; have := q.isLt; omega)
theorem qhnd (a : BitVec 5) (l : Bool) : Statement (.qhnd a l) :=
  of_long (0xB2000020 + a.toNat * 32768 + l.toNat * 16384) rfl rfl (by have := a.isLt; have := l.toNat_le; omega)
theorem qret : Statement (.qret) :=
  of_long (0xB2000028) rfl rfl (by decide)
theorem vclaim (d : BitVec 5) (a : BitVec 5) (l : Bool) : Statement (.vclaim d a l) :=
  of_long (0xB4000000 + d.toNat * 1048576 + a.toNat * 32768 + l.toNat * 16384) rfl rfl (by have := d.isLt; have := a.isLt; have := l.toNat_le; omega)
theorem vreneg (d : BitVec 5) (a : BitVec 5) (l : Bool) : Statement (.vreneg d a l) :=
  of_long (0xB4000010 + d.toNat * 1048576 + a.toNat * 32768 + l.toNat * 16384) rfl rfl (by have := d.isLt; have := a.isLt; have := l.toNat_le; omega)
theorem vrel : Statement (.vrel) :=
  of_long (0xB4000020) rfl rfl (by decide)
theorem pcnt (d : BitVec 5) (k : BitVec 2) : Statement (.pcnt d k) :=
  of_long (0xB4000030 + d.toNat * 1048576 + k.toNat * 4) rfl rfl (by have := d.isLt; have := k.isLt; omega)
theorem pwhile (d : BitVec 5) (a : BitVec 5) (l : Bool) (b : BitVec 5) (m : Bool) (k : BitVec 2) : Statement (.pwhile d a l b m k) :=
  of_long (0xB4000040 + d.toNat * 1048576 + a.toNat * 32768 + l.toNat * 16384 + b.toNat * 512 + m.toNat * 256 + k.toNat * 4) rfl rfl (by have := d.isLt; have := a.isLt; have := l.toNat_le; have := b.isLt; have := m.toNat_le; have := k.isLt; omega)
theorem pmin (a : BitVec 5) (l : Bool) (k : BitVec 2) (kb : BitVec 2) : Statement (.pmin a l k kb) :=
  of_long (0xB4000050 + a.toNat * 32768 + l.toNat * 16384 + k.toNat * 4 + kb.toNat) rfl rfl (by have := a.isLt; have := l.toNat_le; have := k.isLt; have := kb.isLt; omega)
theorem vld (d : BitVec 4) (a : BitVec 5) (l : Bool) (k : BitVec 2) (h : BitVec 2) : Statement (.vld d a l k h) :=
  of_long (0xB6000000 + d.toNat * 2097152 + a.toNat * 65536 + l.toNat * 32768 + k.toNat * 128 + h.toNat * 4) rfl rfl (by have := d.isLt; have := a.isLt; have := l.toNat_le; have := k.isLt; have := h.isLt; omega)
theorem vst (d : BitVec 4) (a : BitVec 5) (l : Bool) (k : BitVec 2) (h : BitVec 2) : Statement (.vst d a l k h) :=
  of_long (0xB6000010 + d.toNat * 2097152 + a.toNat * 65536 + l.toNat * 32768 + k.toNat * 128 + h.toNat * 4) rfl rfl (by have := d.isLt; have := a.isLt; have := l.toNat_le; have := k.isLt; have := h.isLt; omega)
theorem vldf (d : BitVec 4) (a : BitVec 5) (l : Bool) (k : BitVec 2) (h : BitVec 2) : Statement (.vldf d a l k h) :=
  of_long (0xB6000020 + d.toNat * 2097152 + a.toNat * 65536 + l.toNat * 32768 + k.toNat * 128 + h.toNat * 4) rfl rfl (by have := d.isLt; have := a.isLt; have := l.toNat_le; have := k.isLt; have := h.isLt; omega)
theorem vlds (d : BitVec 4) (a : BitVec 5) (l : Bool) (b : BitVec 5) (m : Bool) (k : BitVec 2) (h : BitVec 2) : Statement (.vlds d a l b m k h) :=
  of_long (0xB6000030 + d.toNat * 2097152 + a.toNat * 65536 + l.toNat * 32768 + b.toNat * 1024 + m.toNat * 512 + k.toNat * 128 + h.toNat * 4) rfl rfl (by have := d.isLt; have := a.isLt; have := l.toNat_le; have := b.isLt; have := m.toNat_le; have := k.isLt; have := h.isLt; omega)
theorem vsts (d : BitVec 4) (a : BitVec 5) (l : Bool) (b : BitVec 5) (m : Bool) (k : BitVec 2) (h : BitVec 2) : Statement (.vsts d a l b m k h) :=
  of_long (0xB6000040 + d.toNat * 2097152 + a.toNat * 65536 + l.toNat * 32768 + b.toNat * 1024 + m.toNat * 512 + k.toNat * 128 + h.toNat * 4) rfl rfl (by have := d.isLt; have := a.isLt; have := l.toNat_le; have := b.isLt; have := m.toNat_le; have := k.isLt; have := h.isLt; omega)
theorem vgth (d : BitVec 4) (a : BitVec 5) (l : Bool) (w : BitVec 4) (k : BitVec 2) (h : BitVec 2) : Statement (.vgth d a l w k h) :=
  of_long (0xB8000000 + d.toNat * 2097152 + a.toNat * 65536 + l.toNat * 32768 + w.toNat * 1024 + k.toNat * 128 + h.toNat * 4) rfl rfl (by have := d.isLt; have := a.isLt; have := l.toNat_le; have := w.isLt; have := k.isLt; have := h.isLt; omega)
theorem vsct (d : BitVec 4) (a : BitVec 5) (l : Bool) (w : BitVec 4) (k : BitVec 2) (h : BitVec 2) : Statement (.vsct d a l w k h) :=
  of_long (0xB8000010 + d.toNat * 2097152 + a.toNat * 65536 + l.toNat * 32768 + w.toNat * 1024 + k.toNat * 128 + h.toNat * 4) rfl rfl (by have := d.isLt; have := a.isLt; have := l.toNat_le; have := w.isLt; have := k.isLt; have := h.isLt; omega)
theorem vadd (d : BitVec 4) (a : BitVec 4) (b : BitVec 4) (k : BitVec 2) (t : BitVec 4) (x : BitVec 3) : Statement (.vadd d a b k t x) :=
  of_long (0xBA000000 + d.toNat * 2097152 + a.toNat * 131072 + b.toNat * 8192 + k.toNat * 2048 + t.toNat * 8 + x.toNat) rfl rfl (by have := d.isLt; have := a.isLt; have := b.isLt; have := k.isLt; have := t.isLt; have := x.isLt; omega)
theorem vsub (d : BitVec 4) (a : BitVec 4) (b : BitVec 4) (k : BitVec 2) (t : BitVec 4) (x : BitVec 3) : Statement (.vsub d a b k t x) :=
  of_long (0xBA000080 + d.toNat * 2097152 + a.toNat * 131072 + b.toNat * 8192 + k.toNat * 2048 + t.toNat * 8 + x.toNat) rfl rfl (by have := d.isLt; have := a.isLt; have := b.isLt; have := k.isLt; have := t.isLt; have := x.isLt; omega)
theorem vmul (d : BitVec 4) (a : BitVec 4) (b : BitVec 4) (k : BitVec 2) (t : BitVec 4) (x : BitVec 3) : Statement (.vmul d a b k t x) :=
  of_long (0xBA000100 + d.toNat * 2097152 + a.toNat * 131072 + b.toNat * 8192 + k.toNat * 2048 + t.toNat * 8 + x.toNat) rfl rfl (by have := d.isLt; have := a.isLt; have := b.isLt; have := k.isLt; have := t.isLt; have := x.isLt; omega)
theorem vdiv (d : BitVec 4) (a : BitVec 4) (b : BitVec 4) (k : BitVec 2) (t : BitVec 4) (x : BitVec 3) : Statement (.vdiv d a b k t x) :=
  of_long (0xBA000180 + d.toNat * 2097152 + a.toNat * 131072 + b.toNat * 8192 + k.toNat * 2048 + t.toNat * 8 + x.toNat) rfl rfl (by have := d.isLt; have := a.isLt; have := b.isLt; have := k.isLt; have := t.isLt; have := x.isLt; omega)
theorem vmin (d : BitVec 4) (a : BitVec 4) (b : BitVec 4) (k : BitVec 2) (t : BitVec 4) (x : BitVec 3) : Statement (.vmin d a b k t x) :=
  of_long (0xBA000200 + d.toNat * 2097152 + a.toNat * 131072 + b.toNat * 8192 + k.toNat * 2048 + t.toNat * 8 + x.toNat) rfl rfl (by have := d.isLt; have := a.isLt; have := b.isLt; have := k.isLt; have := t.isLt; have := x.isLt; omega)
theorem vmax (d : BitVec 4) (a : BitVec 4) (b : BitVec 4) (k : BitVec 2) (t : BitVec 4) (x : BitVec 3) : Statement (.vmax d a b k t x) :=
  of_long (0xBA000280 + d.toNat * 2097152 + a.toNat * 131072 + b.toNat * 8192 + k.toNat * 2048 + t.toNat * 8 + x.toNat) rfl rfl (by have := d.isLt; have := a.isLt; have := b.isLt; have := k.isLt; have := t.isLt; have := x.isLt; omega)
theorem vabsd (d : BitVec 4) (a : BitVec 4) (b : BitVec 4) (k : BitVec 2) (t : BitVec 4) (x : BitVec 3) : Statement (.vabsd d a b k t x) :=
  of_long (0xBA000300 + d.toNat * 2097152 + a.toNat * 131072 + b.toNat * 8192 + k.toNat * 2048 + t.toNat * 8 + x.toNat) rfl rfl (by have := d.isLt; have := a.isLt; have := b.isLt; have := k.isLt; have := t.isLt; have := x.isLt; omega)
theorem vmulh (d : BitVec 4) (a : BitVec 4) (b : BitVec 4) (k : BitVec 2) (t : BitVec 4) (x : BitVec 3) : Statement (.vmulh d a b k t x) :=
  of_long (0xBA000380 + d.toNat * 2097152 + a.toNat * 131072 + b.toNat * 8192 + k.toNat * 2048 + t.toNat * 8 + x.toNat) rfl rfl (by have := d.isLt; have := a.isLt; have := b.isLt; have := k.isLt; have := t.isLt; have := x.isLt; omega)
theorem vfma (d : BitVec 4) (a : BitVec 4) (b : BitVec 4) (k : BitVec 2) (t : BitVec 4) (x : BitVec 3) : Statement (.vfma d a b k t x) :=
  of_long (0xBC000000 + d.toNat * 2097152 + a.toNat * 131072 + b.toNat * 8192 + k.toNat * 2048 + t.toNat * 8 + x.toNat) rfl rfl (by have := d.isLt; have := a.isLt; have := b.isLt; have := k.isLt; have := t.isLt; have := x.isLt; omega)
theorem vfms (d : BitVec 4) (a : BitVec 4) (b : BitVec 4) (k : BitVec 2) (t : BitVec 4) (x : BitVec 3) : Statement (.vfms d a b k t x) :=
  of_long (0xBC000080 + d.toNat * 2097152 + a.toNat * 131072 + b.toNat * 8192 + k.toNat * 2048 + t.toNat * 8 + x.toNat) rfl rfl (by have := d.isLt; have := a.isLt; have := b.isLt; have := k.isLt; have := t.isLt; have := x.isLt; omega)
theorem vcvt (d : BitVec 4) (a : BitVec 4) (s : BitVec 4) (k : BitVec 2) (t : BitVec 4) (x : BitVec 3) : Statement (.vcvt d a s k t x) :=
  of_long (0xBE000000 + d.toNat * 2097152 + a.toNat * 131072 + s.toNat * 8192 + k.toNat * 2048 + t.toNat * 8 + x.toNat) rfl rfl (by have := d.isLt; have := a.isLt; have := s.isLt; have := k.isLt; have := t.isLt; have := x.isLt; omega)
theorem vabs (d : BitVec 4) (a : BitVec 4) (k : BitVec 2) (t : BitVec 4) (x : BitVec 3) : Statement (.vabs d a k t x) :=
  of_long (0xBE000080 + d.toNat * 2097152 + a.toNat * 131072 + k.toNat * 2048 + t.toNat * 8 + x.toNat) rfl rfl (by have := d.isLt; have := a.isLt; have := k.isLt; have := t.isLt; have := x.isLt; omega)
theorem vneg (d : BitVec 4) (a : BitVec 4) (k : BitVec 2) (t : BitVec 4) (x : BitVec 3) : Statement (.vneg d a k t x) :=
  of_long (0xBE000100 + d.toNat * 2097152 + a.toNat * 131072 + k.toNat * 2048 + t.toNat * 8 + x.toNat) rfl rfl (by have := d.isLt; have := a.isLt; have := k.isLt; have := t.isLt; have := x.isLt; omega)
theorem vsqrt (d : BitVec 4) (a : BitVec 4) (k : BitVec 2) (t : BitVec 4) (x : BitVec 3) : Statement (.vsqrt d a k t x) :=
  of_long (0xBE000180 + d.toNat * 2097152 + a.toNat * 131072 + k.toNat * 2048 + t.toNat * 8 + x.toNat) rfl rfl (by have := d.isLt; have := a.isLt; have := k.isLt; have := t.isLt; have := x.isLt; omega)
theorem vrcp (d : BitVec 4) (a : BitVec 4) (k : BitVec 2) (t : BitVec 4) (x : BitVec 3) : Statement (.vrcp d a k t x) :=
  of_long (0xBE000200 + d.toNat * 2097152 + a.toNat * 131072 + k.toNat * 2048 + t.toNat * 8 + x.toNat) rfl rfl (by have := d.isLt; have := a.isLt; have := k.isLt; have := t.isLt; have := x.isLt; omega)
theorem vrsq (d : BitVec 4) (a : BitVec 4) (k : BitVec 2) (t : BitVec 4) (x : BitVec 3) : Statement (.vrsq d a k t x) :=
  of_long (0xBE000280 + d.toNat * 2097152 + a.toNat * 131072 + k.toNat * 2048 + t.toNat * 8 + x.toNat) rfl rfl (by have := d.isLt; have := a.isLt; have := k.isLt; have := t.isLt; have := x.isLt; omega)
theorem vexp (d : BitVec 4) (a : BitVec 4) (k : BitVec 2) (t : BitVec 4) (x : BitVec 3) : Statement (.vexp d a k t x) :=
  of_long (0xBE000300 + d.toNat * 2097152 + a.toNat * 131072 + k.toNat * 2048 + t.toNat * 8 + x.toNat) rfl rfl (by have := d.isLt; have := a.isLt; have := k.isLt; have := t.isLt; have := x.isLt; omega)
theorem vlog (d : BitVec 4) (a : BitVec 4) (k : BitVec 2) (t : BitVec 4) (x : BitVec 3) : Statement (.vlog d a k t x) :=
  of_long (0xBE000380 + d.toNat * 2097152 + a.toNat * 131072 + k.toNat * 2048 + t.toNat * 8 + x.toNat) rfl rfl (by have := d.isLt; have := a.isLt; have := k.isLt; have := t.isLt; have := x.isLt; omega)
theorem vsin (d : BitVec 4) (a : BitVec 4) (k : BitVec 2) (t : BitVec 4) (x : BitVec 3) : Statement (.vsin d a k t x) :=
  of_long (0xBE000400 + d.toNat * 2097152 + a.toNat * 131072 + k.toNat * 2048 + t.toNat * 8 + x.toNat) rfl rfl (by have := d.isLt; have := a.isLt; have := k.isLt; have := t.isLt; have := x.isLt; omega)
theorem vcos (d : BitVec 4) (a : BitVec 4) (k : BitVec 2) (t : BitVec 4) (x : BitVec 3) : Statement (.vcos d a k t x) :=
  of_long (0xBE000480 + d.toNat * 2097152 + a.toNat * 131072 + k.toNat * 2048 + t.toNat * 8 + x.toNat) rfl rfl (by have := d.isLt; have := a.isLt; have := k.isLt; have := t.isLt; have := x.isLt; omega)
theorem vtanh (d : BitVec 4) (a : BitVec 4) (k : BitVec 2) (t : BitVec 4) (x : BitVec 3) : Statement (.vtanh d a k t x) :=
  of_long (0xBE000500 + d.toNat * 2097152 + a.toNat * 131072 + k.toNat * 2048 + t.toNat * 8 + x.toNat) rfl rfl (by have := d.isLt; have := a.isLt; have := k.isLt; have := t.isLt; have := x.isLt; omega)
theorem vand (d : BitVec 4) (a : BitVec 4) (b : BitVec 4) (k : BitVec 2) (t : BitVec 4) (x : BitVec 3) : Statement (.vand d a b k t x) :=
  of_long (0xC0000000 + d.toNat * 2097152 + a.toNat * 131072 + b.toNat * 8192 + k.toNat * 2048 + t.toNat * 8 + x.toNat) rfl rfl (by have := d.isLt; have := a.isLt; have := b.isLt; have := k.isLt; have := t.isLt; have := x.isLt; omega)
theorem vor (d : BitVec 4) (a : BitVec 4) (b : BitVec 4) (k : BitVec 2) (t : BitVec 4) (x : BitVec 3) : Statement (.vor d a b k t x) :=
  of_long (0xC0000080 + d.toNat * 2097152 + a.toNat * 131072 + b.toNat * 8192 + k.toNat * 2048 + t.toNat * 8 + x.toNat) rfl rfl (by have := d.isLt; have := a.isLt; have := b.isLt; have := k.isLt; have := t.isLt; have := x.isLt; omega)
theorem vxor (d : BitVec 4) (a : BitVec 4) (b : BitVec 4) (k : BitVec 2) (t : BitVec 4) (x : BitVec 3) : Statement (.vxor d a b k t x) :=
  of_long (0xC0000100 + d.toNat * 2097152 + a.toNat * 131072 + b.toNat * 8192 + k.toNat * 2048 + t.toNat * 8 + x.toNat) rfl rfl (by have := d.isLt; have := a.isLt; have := b.isLt; have := k.isLt; have := t.isLt; have := x.isLt; omega)
theorem vandn (d : BitVec 4) (a : BitVec 4) (b : BitVec 4) (k : BitVec 2) (t : BitVec 4) (x : BitVec 3) : Statement (.vandn d a b k t x) :=
  of_long (0xC0000180 + d.toNat * 2097152 + a.toNat * 131072 + b.toNat * 8192 + k.toNat * 2048 + t.toNat * 8 + x.toNat) rfl rfl (by have := d.isLt; have := a.isLt; have := b.isLt; have := k.isLt; have := t.isLt; have := x.isLt; omega)
theorem vshl (d : BitVec 4) (a : BitVec 4) (b : BitVec 4) (k : BitVec 2) (t : BitVec 4) (x : BitVec 3) : Statement (.vshl d a b k t x) :=
  of_long (0xC0000200 + d.toNat * 2097152 + a.toNat * 131072 + b.toNat * 8192 + k.toNat * 2048 + t.toNat * 8 + x.toNat) rfl rfl (by have := d.isLt; have := a.isLt; have := b.isLt; have := k.isLt; have := t.isLt; have := x.isLt; omega)
theorem vshr (d : BitVec 4) (a : BitVec 4) (b : BitVec 4) (k : BitVec 2) (t : BitVec 4) (x : BitVec 3) : Statement (.vshr d a b k t x) :=
  of_long (0xC0000280 + d.toNat * 2097152 + a.toNat * 131072 + b.toNat * 8192 + k.toNat * 2048 + t.toNat * 8 + x.toNat) rfl rfl (by have := d.isLt; have := a.isLt; have := b.isLt; have := k.isLt; have := t.isLt; have := x.isLt; omega)
theorem vsar (d : BitVec 4) (a : BitVec 4) (b : BitVec 4) (k : BitVec 2) (t : BitVec 4) (x : BitVec 3) : Statement (.vsar d a b k t x) :=
  of_long (0xC0000300 + d.toNat * 2097152 + a.toNat * 131072 + b.toNat * 8192 + k.toNat * 2048 + t.toNat * 8 + x.toNat) rfl rfl (by have := d.isLt; have := a.isLt; have := b.isLt; have := k.isLt; have := t.isLt; have := x.isLt; omega)
theorem vcmp (d : BitVec 4) (a : BitVec 4) (b : BitVec 4) (k : BitVec 2) (t : BitVec 4) (c : BitVec 3) : Statement (.vcmp d a b k t c) :=
  of_long (0xC0000380 + d.toNat * 2097152 + a.toNat * 131072 + b.toNat * 8192 + k.toNat * 2048 + t.toNat * 8 + c.toNat) rfl rfl (by have := d.isLt; have := a.isLt; have := b.isLt; have := k.isLt; have := t.isLt; have := c.isLt; omega)
theorem vsel (d : BitVec 4) (a : BitVec 4) (b : BitVec 4) (k : BitVec 2) (t : BitVec 4) (x : BitVec 3) : Statement (.vsel d a b k t x) :=
  of_long (0xC0000400 + d.toNat * 2097152 + a.toNat * 131072 + b.toNat * 8192 + k.toNat * 2048 + t.toNat * 8 + x.toNat) rfl rfl (by have := d.isLt; have := a.isLt; have := b.isLt; have := k.isLt; have := t.isLt; have := x.isLt; omega)
theorem vsum (a : BitVec 4) (g : BitVec 5) (k : BitVec 2) (t : BitVec 4) (x : BitVec 3) : Statement (.vsum a g k t x) :=
  of_long (0xC2000000 + a.toNat * 2097152 + g.toNat * 65536 + k.toNat * 2048 + t.toNat * 8 + x.toNat) rfl rfl (by have := a.isLt; have := g.isLt; have := k.isLt; have := t.isLt; have := x.isLt; omega)
theorem vrmax (a : BitVec 4) (g : BitVec 5) (k : BitVec 2) (t : BitVec 4) (x : BitVec 3) : Statement (.vrmax a g k t x) :=
  of_long (0xC2000080 + a.toNat * 2097152 + g.toNat * 65536 + k.toNat * 2048 + t.toNat * 8 + x.toNat) rfl rfl (by have := a.isLt; have := g.isLt; have := k.isLt; have := t.isLt; have := x.isLt; omega)
theorem vrmin (a : BitVec 4) (g : BitVec 5) (k : BitVec 2) (t : BitVec 4) (x : BitVec 3) : Statement (.vrmin a g k t x) :=
  of_long (0xC2000100 + a.toNat * 2097152 + g.toNat * 65536 + k.toNat * 2048 + t.toNat * 8 + x.toNat) rfl rfl (by have := a.isLt; have := g.isLt; have := k.isLt; have := t.isLt; have := x.isLt; omega)
theorem vscan (d : BitVec 4) (a : BitVec 4) (k : BitVec 2) (t : BitVec 4) (x : BitVec 3) : Statement (.vscan d a k t x) :=
  of_long (0xC2000180 + d.toNat * 2097152 + a.toNat * 131072 + k.toNat * 2048 + t.toNat * 8 + x.toNat) rfl rfl (by have := d.isLt; have := a.isLt; have := k.isLt; have := t.isLt; have := x.isLt; omega)
theorem vperm (d : BitVec 4) (a : BitVec 4) (b : BitVec 4) (k : BitVec 2) (t : BitVec 4) (x : BitVec 3) : Statement (.vperm d a b k t x) :=
  of_long (0xC4000000 + d.toNat * 2097152 + a.toNat * 131072 + b.toNat * 8192 + k.toNat * 2048 + t.toNat * 8 + x.toNat) rfl rfl (by have := d.isLt; have := a.isLt; have := b.isLt; have := k.isLt; have := t.isLt; have := x.isLt; omega)
theorem vbc (d : BitVec 4) (g : BitVec 5) (l : Bool) (k : BitVec 2) (t : BitVec 4) (x : BitVec 3) : Statement (.vbc d g l k t x) :=
  of_long (0xC4000080 + d.toNat * 2097152 + g.toNat * 65536 + l.toNat * 32768 + k.toNat * 2048 + t.toNat * 8 + x.toNat) rfl rfl (by have := d.isLt; have := g.isLt; have := l.toNat_le; have := k.isLt; have := t.isLt; have := x.isLt; omega)
theorem vext (a : BitVec 4) (g : BitVec 5) (k : BitVec 2) (t : BitVec 4) (x : BitVec 3) : Statement (.vext a g k t x) :=
  of_long (0xC4000100 + a.toNat * 2097152 + g.toNat * 65536 + k.toNat * 2048 + t.toNat * 8 + x.toNat) rfl rfl (by have := a.isLt; have := g.isLt; have := k.isLt; have := t.isLt; have := x.isLt; omega)
theorem vins (d : BitVec 4) (g : BitVec 5) (l : Bool) (k : BitVec 2) (t : BitVec 4) (x : BitVec 3) : Statement (.vins d g l k t x) :=
  of_long (0xC4000180 + d.toNat * 2097152 + g.toNat * 65536 + l.toNat * 32768 + k.toNat * 2048 + t.toNat * 8 + x.toNat) rfl rfl (by have := d.isLt; have := g.isLt; have := l.toNat_le; have := k.isLt; have := t.isLt; have := x.isLt; omega)
theorem viota (d : BitVec 4) (k : BitVec 2) (t : BitVec 4) (x : BitVec 3) : Statement (.viota d k t x) :=
  of_long (0xC4000200 + d.toNat * 2097152 + k.toNat * 2048 + t.toNat * 8 + x.toNat) rfl rfl (by have := d.isLt; have := k.isLt; have := t.isLt; have := x.isLt; omega)
theorem vmov (d : BitVec 4) (a : BitVec 4) (k : BitVec 2) (t : BitVec 4) (x : BitVec 3) : Statement (.vmov d a k t x) :=
  of_long (0xC4000280 + d.toNat * 2097152 + a.toNat * 131072 + k.toNat * 2048 + t.toNat * 8 + x.toNat) rfl rfl (by have := d.isLt; have := a.isLt; have := k.isLt; have := t.isLt; have := x.isLt; omega)
theorem vqmovPop (d : BitVec 4) (q : BitVec 3) (k : BitVec 2) (t : BitVec 4) (x : BitVec 3) : Statement (.vqmovPop d q k t x) :=
  of_long (0xC4000300 + d.toNat * 2097152 + q.toNat * 131072 + k.toNat * 2048 + t.toNat * 8 + x.toNat) rfl rfl (by have := d.isLt; have := q.isLt; have := k.isLt; have := t.isLt; have := x.isLt; omega)
theorem vqmovPush (q : BitVec 3) (a : BitVec 4) (k : BitVec 2) (t : BitVec 4) (x : BitVec 3) : Statement (.vqmovPush q a k t x) :=
  of_long (0xC4002300 + q.toNat * 2097152 + a.toNat * 131072 + k.toNat * 2048 + t.toNat * 8 + x.toNat) rfl rfl (by have := q.isLt; have := a.isLt; have := k.isLt; have := t.isLt; have := x.isLt; omega)
theorem vmrg (d : BitVec 4) (a : BitVec 3) (b : BitVec 3) (k : BitVec 2) (t : BitVec 4) (x : BitVec 3) : Statement (.vmrg d a b k t x) :=
  of_long (0xC6000000 + d.toNat * 2097152 + a.toNat * 131072 + b.toNat * 8192 + k.toNat * 2048 + t.toNat * 8 + x.toNat) rfl rfl (by have := d.isLt; have := a.isLt; have := b.isLt; have := k.isLt; have := t.isLt; have := x.isLt; omega)
theorem mma (d : BitVec 5) (a : BitVec 5) (l : Bool) (p : BitVec 4) : Statement (.mma d a l p) :=
  of_long (0xC8000000 + d.toNat * 1048576 + a.toNat * 32768 + l.toNat * 16384 + p.toNat * 16) rfl rfl (by have := d.isLt; have := a.isLt; have := l.toNat_le; have := p.isLt; omega)
theorem mmaz (d : BitVec 5) (a : BitVec 5) (l : Bool) (p : BitVec 4) : Statement (.mmaz d a l p) :=
  of_long (0xC8000001 + d.toNat * 1048576 + a.toNat * 32768 + l.toNat * 16384 + p.toNat * 16) rfl rfl (by have := d.isLt; have := a.isLt; have := l.toNat_le; have := p.isLt; omega)
theorem mbs (d : BitVec 5) (a : BitVec 5) (l : Bool) (p : BitVec 4) : Statement (.mbs d a l p) :=
  of_long (0xCA000000 + d.toNat * 1048576 + a.toNat * 32768 + l.toNat * 16384 + p.toNat * 16) rfl rfl (by have := d.isLt; have := a.isLt; have := l.toNat_le; have := p.isLt; omega)
theorem mbsz (d : BitVec 5) (a : BitVec 5) (l : Bool) (p : BitVec 4) : Statement (.mbsz d a l p) :=
  of_long (0xCA000001 + d.toNat * 1048576 + a.toNat * 32768 + l.toNat * 16384 + p.toNat * 16) rfl rfl (by have := d.isLt; have := a.isLt; have := l.toNat_le; have := p.isLt; omega)
theorem msp (d : BitVec 5) (a : BitVec 5) (l : Bool) (p : BitVec 4) : Statement (.msp d a l p) :=
  of_long (0xCC000000 + d.toNat * 1048576 + a.toNat * 32768 + l.toNat * 16384 + p.toNat * 16) rfl rfl (by have := d.isLt; have := a.isLt; have := l.toNat_le; have := p.isLt; omega)
theorem mpre (d : BitVec 5) (a : BitVec 5) (l : Bool) : Statement (.mpre d a l) :=
  of_long (0xCC000001 + d.toNat * 1048576 + a.toNat * 32768 + l.toNat * 16384) rfl rfl (by have := d.isLt; have := a.isLt; have := l.toNat_le; omega)
theorem mpinv (a : BitVec 5) (l : Bool) : Statement (.mpinv a l) :=
  of_long (0xCC000002 + a.toNat * 32768 + l.toNat * 16384) rfl rfl (by have := a.isLt; have := l.toNat_le; omega)
theorem mld (d : BitVec 5) (a : BitVec 5) (l : Bool) (b : BitVec 5) (m : Bool) (p : BitVec 4) : Statement (.mld d a l b m p) :=
  of_long (0xCE000000 + d.toNat * 1048576 + a.toNat * 32768 + l.toNat * 16384 + b.toNat * 512 + m.toNat * 256 + p.toNat * 16) rfl rfl (by have := d.isLt; have := a.isLt; have := l.toNat_le; have := b.isLt; have := m.toNat_le; have := p.isLt; omega)
theorem mst (d : BitVec 5) (a : BitVec 5) (l : Bool) (b : BitVec 5) (m : Bool) (p : BitVec 4) : Statement (.mst d a l b m p) :=
  of_long (0xCE000001 + d.toNat * 1048576 + a.toNat * 32768 + l.toNat * 16384 + b.toNat * 512 + m.toNat * 256 + p.toNat * 16) rfl rfl (by have := d.isLt; have := a.isLt; have := l.toNat_le; have := b.isLt; have := m.toNat_le; have := p.isLt; omega)
theorem mzero (p : BitVec 4) : Statement (.mzero p) :=
  of_long (0xCE000002 + p.toNat * 16) rfl rfl (by have := p.isLt; omega)
theorem mrd (d : BitVec 5) (a : BitVec 5) (l : Bool) (p : BitVec 4) : Statement (.mrd d a l p) :=
  of_long (0xCE000003 + d.toNat * 1048576 + a.toNat * 32768 + l.toNat * 16384 + p.toNat * 16) rfl rfl (by have := d.isLt; have := a.isLt; have := l.toNat_le; have := p.isLt; omega)
theorem mstFill (d : BitVec 5) (a : BitVec 5) (l : Bool) (b : BitVec 5) (m : Bool) (p : BitVec 4) : Statement (.mstFill d a l b m p) :=
  of_long (0xCE000005 + d.toNat * 1048576 + a.toNat * 32768 + l.toNat * 16384 + b.toNat * 512 + m.toNat * 256 + p.toNat * 16) rfl rfl (by have := d.isLt; have := a.isLt; have := l.toNat_le; have := b.isLt; have := m.toNat_le; have := p.isLt; omega)
theorem mstVnx (d : BitVec 5) (a : BitVec 5) (l : Bool) (b : BitVec 5) (m : Bool) (p : BitVec 4) : Statement (.mstVnx d a l b m p) :=
  of_long (0xCE000006 + d.toNat * 1048576 + a.toNat * 32768 + l.toNat * 16384 + b.toNat * 512 + m.toNat * 256 + p.toNat * 16) rfl rfl (by have := d.isLt; have := a.isLt; have := l.toNat_le; have := b.isLt; have := m.toNat_le; have := p.isLt; omega)
theorem mstVset (d : BitVec 5) (a : BitVec 5) (l : Bool) (b : BitVec 5) (m : Bool) (p : BitVec 4) : Statement (.mstVset d a l b m p) :=
  of_long (0xCE000007 + d.toNat * 1048576 + a.toNat * 32768 + l.toNat * 16384 + b.toNat * 512 + m.toNat * 256 + p.toNat * 16) rfl rfl (by have := d.isLt; have := a.isLt; have := l.toNat_le; have := b.isLt; have := m.toNat_le; have := p.isLt; omega)
theorem mcmd (d : BitVec 5) (a : BitVec 5) (l : Bool) (b : BitVec 5) (m : Bool) : Statement (.mcmd d a l b m) :=
  of_long (0xD0000000 + d.toNat * 1048576 + a.toNat * 32768 + l.toNat * 16384 + b.toNat * 512 + m.toNat * 256) rfl rfl (by have := d.isLt; have := a.isLt; have := l.toNat_le; have := b.isLt; have := m.toNat_le; omega)
theorem mqry (d : BitVec 5) (a : BitVec 5) (l : Bool) : Statement (.mqry d a l) :=
  of_long (0xD0000001 + d.toNat * 1048576 + a.toNat * 32768 + l.toNat * 16384) rfl rfl (by have := d.isLt; have := a.isLt; have := l.toNat_le; omega)
theorem hacc (d : BitVec 5) (a : BitVec 5) (l : Bool) (b : BitVec 5) (m : Bool) : Statement (.hacc d a l b m) :=
  of_long (0xD2000000 + d.toNat * 1048576 + a.toNat * 32768 + l.toNat * 16384 + b.toNat * 512 + m.toNat * 256) rfl rfl (by have := d.isLt; have := a.isLt; have := l.toNat_le; have := b.isLt; have := m.toNat_le; omega)
theorem hdrn (d : BitVec 5) (a : BitVec 5) (l : Bool) (b : BitVec 5) (m : Bool) : Statement (.hdrn d a l b m) :=
  of_long (0xD2000001 + d.toNat * 1048576 + a.toNat * 32768 + l.toNat * 16384 + b.toNat * 512 + m.toNat * 256) rfl rfl (by have := d.isLt; have := a.isLt; have := l.toNat_le; have := b.isLt; have := m.toNat_le; omega)
theorem sbnd (a : BitVec 5) (l : Bool) (b : BitVec 5) (m : Bool) : Statement (.sbnd a l b m) :=
  of_long (0xD2000002 + a.toNat * 32768 + l.toNat * 16384 + b.toNat * 512 + m.toNat * 256) rfl rfl (by have := a.isLt; have := l.toNat_le; have := b.isLt; have := m.toNat_le; omega)
theorem carry (d : BitVec 5) (a : BitVec 5) (l : Bool) (b : BitVec 5) (m : Bool) : Statement (.carry d a l b m) :=
  of_long (0xD2000003 + d.toNat * 1048576 + a.toNat * 32768 + l.toNat * 16384 + b.toNat * 512 + m.toNat * 256) rfl rfl (by have := d.isLt; have := a.isLt; have := l.toNat_le; have := b.isLt; have := m.toNat_le; omega)
theorem survBind (d : BitVec 5) (a : BitVec 5) (l : Bool) (b : BitVec 5) (m : Bool) : Statement (.survBind d a l b m) :=
  of_long (0xD4000000 + d.toNat * 1048576 + a.toNat * 32768 + l.toNat * 16384 + b.toNat * 512 + m.toNat * 256) rfl rfl (by have := d.isLt; have := a.isLt; have := l.toNat_le; have := b.isLt; have := m.toNat_le; omega)
theorem survUnbind (a : BitVec 5) (l : Bool) : Statement (.survUnbind a l) :=
  of_long (0xD4000001 + a.toNat * 32768 + l.toNat * 16384) rfl rfl (by have := a.isLt; have := l.toNat_le; omega)
theorem survStart (a : BitVec 5) (l : Bool) : Statement (.survStart a l) :=
  of_long (0xD4000002 + a.toNat * 32768 + l.toNat * 16384) rfl rfl (by have := a.isLt; have := l.toNat_le; omega)
theorem survStop (a : BitVec 5) (l : Bool) : Statement (.survStop a l) :=
  of_long (0xD4000003 + a.toNat * 32768 + l.toNat * 16384) rfl rfl (by have := a.isLt; have := l.toNat_le; omega)
theorem tmld (a : BitVec 5) (l : Bool) (p : BitVec 3) : Statement (.tmld a l p) :=
  of_long (0xD6000000 + a.toNat * 32768 + l.toNat * 16384 + p.toNat * 16) rfl rfl (by have := a.isLt; have := l.toNat_le; have := p.isLt; omega)
theorem tmset (a : BitVec 5) (l : Bool) (n : BitVec 3) (p : BitVec 3) : Statement (.tmset a l n p) :=
  of_long (0xD6000001 + a.toNat * 32768 + l.toNat * 16384 + n.toNat * 512 + p.toNat * 16) rfl rfl (by have := a.isLt; have := l.toNat_le; have := n.isLt; have := p.isLt; omega)
theorem tmget (d : BitVec 5) (n : BitVec 3) (p : BitVec 3) : Statement (.tmget d n p) :=
  of_long (0xD6000002 + d.toNat * 1048576 + n.toNat * 512 + p.toNat * 16) rfl rfl (by have := d.isLt; have := n.isLt; have := p.isLt; omega)
theorem cpy (d : BitVec 5) (s : BitVec 3) (p : BitVec 3) : Statement (.cpy d s p) :=
  of_long (0xD8000000 + d.toNat * 1048576 + s.toNat * 512 + p.toNat * 16) rfl rfl (by have := d.isLt; have := s.isLt; have := p.isLt; omega)
theorem cpyg (d : BitVec 5) (a : BitVec 5) (l : Bool) (s : BitVec 3) (p : BitVec 3) : Statement (.cpyg d a l s p) :=
  of_long (0xD8000001 + d.toNat * 1048576 + a.toNat * 32768 + l.toNat * 16384 + s.toNat * 512 + p.toNat * 16) rfl rfl (by have := d.isLt; have := a.isLt; have := l.toNat_le; have := s.isLt; have := p.isLt; omega)
theorem cpys (d : BitVec 5) (a : BitVec 5) (l : Bool) (s : BitVec 3) (p : BitVec 3) : Statement (.cpys d a l s p) :=
  of_long (0xD8000002 + d.toNat * 1048576 + a.toNat * 32768 + l.toNat * 16384 + s.toNat * 512 + p.toNat * 16) rfl rfl (by have := d.isLt; have := a.isLt; have := l.toNat_le; have := s.isLt; have := p.isLt; omega)
theorem cpyq (d : BitVec 5) (q : BitVec 3) (p : BitVec 3) : Statement (.cpyq d q p) :=
  of_long (0xD8000003 + d.toNat * 1048576 + q.toNat * 512 + p.toNat * 16) rfl rfl (by have := d.isLt; have := q.isLt; have := p.isLt; omega)
theorem cpyf (d : BitVec 5) (a : BitVec 5) (l : Bool) (b : BitVec 5) (m : Bool) (p : BitVec 3) : Statement (.cpyf d a l b m p) :=
  of_long (0xD8000004 + d.toNat * 1048576 + a.toNat * 32768 + l.toNat * 16384 + b.toNat * 512 + m.toNat * 256 + p.toNat * 16) rfl rfl (by have := d.isLt; have := a.isLt; have := l.toNat_le; have := b.isLt; have := m.toNat_le; have := p.isLt; omega)
theorem srd (g : BitVec 5) (n : BitVec 12) : Statement (.srd g n) :=
  of_long (0xF0000000 + g.toNat * 131072 + n.toNat) rfl rfl (by have := g.isLt; have := n.isLt; omega)
theorem swr (g : BitVec 5) (l : Bool) (n : BitVec 12) : Statement (.swr g l n) :=
  of_long (0xF0400000 + g.toNat * 131072 + l.toNat * 65536 + n.toNat) rfl rfl (by have := g.isLt; have := l.toNat_le; have := n.isLt; omega)
theorem trap (n : BitVec 12) : Statement (.trap n) :=
  of_long (0xF2000000 + n.toNat) rfl rfl (by have := n.isLt; omega)
theorem capMint : Statement (.capMint) :=
  of_long (0xF2000800) rfl rfl (by decide)
theorem capNewGeneration : Statement (.capNewGeneration) :=
  of_long (0xF2000801) rfl rfl (by decide)
theorem xret : Statement (.xret) :=
  of_long (0xF2400000) rfl rfl (by decide)
theorem brk (n : BitVec 12) : Statement (.brk n) :=
  of_long (0xF2800000 + n.toNat) rfl rfl (by have := n.isLt; omega)
theorem nop : Statement (.nop) :=
  of_long (0xF2C00000) rfl rfl (by decide)
theorem synci : Statement (.synci) :=
  of_long (0xF3000000) rfl rfl (by decide)
theorem ptinv (a : BitVec 5) (l : Bool) (b : BitVec 5) (m : Bool) : Statement (.ptinv a l b m) :=
  of_long (0xF4000000 + a.toNat * 32768 + l.toNat * 16384 + b.toNat * 512 + m.toNat * 256) rfl rfl (by have := a.isLt; have := l.toNat_le; have := b.isLt; have := m.toNat_le; omega)
theorem atset (a : BitVec 5) (l : Bool) (b : BitVec 5) (m : Bool) : Statement (.atset a l b m) :=
  of_long (0xF4000001 + a.toNat * 32768 + l.toNat * 16384 + b.toNat * 512 + m.toNat * 256) rfl rfl (by have := a.isLt; have := l.toNat_le; have := b.isLt; have := m.toNat_le; omega)
theorem atsync (d : BitVec 5) : Statement (.atsync d) :=
  of_long (0xF4000002 + d.toNat * 1048576) rfl rfl (by have := d.isLt; omega)
theorem migr (d : BitVec 5) (a : BitVec 5) (l : Bool) (b : BitVec 5) (m : Bool) : Statement (.migr d a l b m) :=
  of_long (0xF4000003 + d.toNat * 1048576 + a.toNat * 32768 + l.toNat * 16384 + b.toNat * 512 + m.toNat * 256) rfl rfl (by have := d.isLt; have := a.isLt; have := l.toNat_le; have := b.isLt; have := m.toNat_le; omega)
theorem gstop (d : BitVec 5) (a : BitVec 5) (l : Bool) : Statement (.gstop d a l) :=
  of_long (0xF4000004 + d.toNat * 1048576 + a.toNat * 32768 + l.toNat * 16384) rfl rfl (by have := d.isLt; have := a.isLt; have := l.toNat_le; omega)
theorem svFetch (a : BitVec 3) (b : BitVec 3) (i : BitVec 4) : Statement (.svFetch a b i) :=
  of_compact (0x7800 + a.toNat * 128 + b.toNat * 16 + i.toNat) rfl rfl (by have := a.isLt; have := b.isLt; have := i.isLt; omega)
theorem svEmit (a : BitVec 3) (b : BitVec 3) (i : BitVec 4) : Statement (.svEmit a b i) :=
  of_compact (0x7C00 + a.toNat * 128 + b.toNat * 16 + i.toNat) rfl rfl (by have := a.isLt; have := b.isLt; have := i.isLt; omega)
theorem add (d : BitVec 5) (a : BitVec 5) (l : Bool) (b : BitVec 5) (m : Bool) : Statement (.add d a l b m) :=
  of_long (0x80000000 + d.toNat * 1048576 + a.toNat * 32768 + l.toNat * 16384 + b.toNat * 512 + m.toNat * 256) rfl rfl (by have := d.isLt; have := a.isLt; have := l.toNat_le; have := b.isLt; have := m.toNat_le; omega)
theorem sub (d : BitVec 5) (a : BitVec 5) (l : Bool) (b : BitVec 5) (m : Bool) : Statement (.sub d a l b m) :=
  of_long (0x80000001 + d.toNat * 1048576 + a.toNat * 32768 + l.toNat * 16384 + b.toNat * 512 + m.toNat * 256) rfl rfl (by have := d.isLt; have := a.isLt; have := l.toNat_le; have := b.isLt; have := m.toNat_le; omega)
theorem and (d : BitVec 5) (a : BitVec 5) (l : Bool) (b : BitVec 5) (m : Bool) : Statement (.and d a l b m) :=
  of_long (0x80000002 + d.toNat * 1048576 + a.toNat * 32768 + l.toNat * 16384 + b.toNat * 512 + m.toNat * 256) rfl rfl (by have := d.isLt; have := a.isLt; have := l.toNat_le; have := b.isLt; have := m.toNat_le; omega)
theorem or (d : BitVec 5) (a : BitVec 5) (l : Bool) (b : BitVec 5) (m : Bool) : Statement (.or d a l b m) :=
  of_long (0x80000003 + d.toNat * 1048576 + a.toNat * 32768 + l.toNat * 16384 + b.toNat * 512 + m.toNat * 256) rfl rfl (by have := d.isLt; have := a.isLt; have := l.toNat_le; have := b.isLt; have := m.toNat_le; omega)
theorem xor (d : BitVec 5) (a : BitVec 5) (l : Bool) (b : BitVec 5) (m : Bool) : Statement (.xor d a l b m) :=
  of_long (0x80000004 + d.toNat * 1048576 + a.toNat * 32768 + l.toNat * 16384 + b.toNat * 512 + m.toNat * 256) rfl rfl (by have := d.isLt; have := a.isLt; have := l.toNat_le; have := b.isLt; have := m.toNat_le; omega)
theorem andn (d : BitVec 5) (a : BitVec 5) (l : Bool) (b : BitVec 5) (m : Bool) : Statement (.andn d a l b m) :=
  of_long (0x80000005 + d.toNat * 1048576 + a.toNat * 32768 + l.toNat * 16384 + b.toNat * 512 + m.toNat * 256) rfl rfl (by have := d.isLt; have := a.isLt; have := l.toNat_le; have := b.isLt; have := m.toNat_le; omega)
theorem shl (d : BitVec 5) (a : BitVec 5) (l : Bool) (b : BitVec 5) (m : Bool) : Statement (.shl d a l b m) :=
  of_long (0x80000006 + d.toNat * 1048576 + a.toNat * 32768 + l.toNat * 16384 + b.toNat * 512 + m.toNat * 256) rfl rfl (by have := d.isLt; have := a.isLt; have := l.toNat_le; have := b.isLt; have := m.toNat_le; omega)
theorem shr (d : BitVec 5) (a : BitVec 5) (l : Bool) (b : BitVec 5) (m : Bool) : Statement (.shr d a l b m) :=
  of_long (0x80000007 + d.toNat * 1048576 + a.toNat * 32768 + l.toNat * 16384 + b.toNat * 512 + m.toNat * 256) rfl rfl (by have := d.isLt; have := a.isLt; have := l.toNat_le; have := b.isLt; have := m.toNat_le; omega)
theorem sar (d : BitVec 5) (a : BitVec 5) (l : Bool) (b : BitVec 5) (m : Bool) : Statement (.sar d a l b m) :=
  of_long (0x80000008 + d.toNat * 1048576 + a.toNat * 32768 + l.toNat * 16384 + b.toNat * 512 + m.toNat * 256) rfl rfl (by have := d.isLt; have := a.isLt; have := l.toNat_le; have := b.isLt; have := m.toNat_le; omega)
theorem rot (d : BitVec 5) (a : BitVec 5) (l : Bool) (b : BitVec 5) (m : Bool) : Statement (.rot d a l b m) :=
  of_long (0x80000009 + d.toNat * 1048576 + a.toNat * 32768 + l.toNat * 16384 + b.toNat * 512 + m.toNat * 256) rfl rfl (by have := d.isLt; have := a.isLt; have := l.toNat_le; have := b.isLt; have := m.toNat_le; omega)
theorem min (d : BitVec 5) (a : BitVec 5) (l : Bool) (b : BitVec 5) (m : Bool) : Statement (.min d a l b m) :=
  of_long (0x8000000A + d.toNat * 1048576 + a.toNat * 32768 + l.toNat * 16384 + b.toNat * 512 + m.toNat * 256) rfl rfl (by have := d.isLt; have := a.isLt; have := l.toNat_le; have := b.isLt; have := m.toNat_le; omega)
theorem max (d : BitVec 5) (a : BitVec 5) (l : Bool) (b : BitVec 5) (m : Bool) : Statement (.max d a l b m) :=
  of_long (0x8000000B + d.toNat * 1048576 + a.toNat * 32768 + l.toNat * 16384 + b.toNat * 512 + m.toNat * 256) rfl rfl (by have := d.isLt; have := a.isLt; have := l.toNat_le; have := b.isLt; have := m.toNat_le; omega)
theorem minu (d : BitVec 5) (a : BitVec 5) (l : Bool) (b : BitVec 5) (m : Bool) : Statement (.minu d a l b m) :=
  of_long (0x8000000C + d.toNat * 1048576 + a.toNat * 32768 + l.toNat * 16384 + b.toNat * 512 + m.toNat * 256) rfl rfl (by have := d.isLt; have := a.isLt; have := l.toNat_le; have := b.isLt; have := m.toNat_le; omega)
theorem maxu (d : BitVec 5) (a : BitVec 5) (l : Bool) (b : BitVec 5) (m : Bool) : Statement (.maxu d a l b m) :=
  of_long (0x8000000D + d.toNat * 1048576 + a.toNat * 32768 + l.toNat * 16384 + b.toNat * 512 + m.toNat * 256) rfl rfl (by have := d.isLt; have := a.isLt; have := l.toNat_le; have := b.isLt; have := m.toNat_le; omega)
theorem slt (d : BitVec 5) (a : BitVec 5) (l : Bool) (b : BitVec 5) (m : Bool) : Statement (.slt d a l b m) :=
  of_long (0x8000000E + d.toNat * 1048576 + a.toNat * 32768 + l.toNat * 16384 + b.toNat * 512 + m.toNat * 256) rfl rfl (by have := d.isLt; have := a.isLt; have := l.toNat_le; have := b.isLt; have := m.toNat_le; omega)
theorem sltu (d : BitVec 5) (a : BitVec 5) (l : Bool) (b : BitVec 5) (m : Bool) : Statement (.sltu d a l b m) :=
  of_long (0x8000000F + d.toNat * 1048576 + a.toNat * 32768 + l.toNat * 16384 + b.toNat * 512 + m.toNat * 256) rfl rfl (by have := d.isLt; have := a.isLt; have := l.toNat_le; have := b.isLt; have := m.toNat_le; omega)
theorem sel (d : BitVec 5) (a : BitVec 5) (l : Bool) (b : BitVec 5) (m : Bool) : Statement (.sel d a l b m) :=
  of_long (0x80000010 + d.toNat * 1048576 + a.toNat * 32768 + l.toNat * 16384 + b.toNat * 512 + m.toNat * 256) rfl rfl (by have := d.isLt; have := a.isLt; have := l.toNat_le; have := b.isLt; have := m.toNat_le; omega)
theorem mov (d : BitVec 5) (a : BitVec 5) (l : Bool) : Statement (.mov d a l) :=
  of_long (0x80000011 + d.toNat * 1048576 + a.toNat * 32768 + l.toNat * 16384) rfl rfl (by have := d.isLt; have := a.isLt; have := l.toNat_le; omega)
theorem clz (d : BitVec 5) (a : BitVec 5) (l : Bool) : Statement (.clz d a l) :=
  of_long (0x80000020 + d.toNat * 1048576 + a.toNat * 32768 + l.toNat * 16384) rfl rfl (by have := d.isLt; have := a.isLt; have := l.toNat_le; omega)
theorem ctz (d : BitVec 5) (a : BitVec 5) (l : Bool) : Statement (.ctz d a l) :=
  of_long (0x80000021 + d.toNat * 1048576 + a.toNat * 32768 + l.toNat * 16384) rfl rfl (by have := d.isLt; have := a.isLt; have := l.toNat_le; omega)
theorem popc (d : BitVec 5) (a : BitVec 5) (l : Bool) : Statement (.popc d a l) :=
  of_long (0x80000022 + d.toNat * 1048576 + a.toNat * 32768 + l.toNat * 16384) rfl rfl (by have := d.isLt; have := a.isLt; have := l.toNat_le; omega)
theorem brev (d : BitVec 5) (a : BitVec 5) (l : Bool) : Statement (.brev d a l) :=
  of_long (0x80000023 + d.toNat * 1048576 + a.toNat * 32768 + l.toNat * 16384) rfl rfl (by have := d.isLt; have := a.isLt; have := l.toNat_le; omega)
theorem bswp (d : BitVec 5) (a : BitVec 5) (l : Bool) : Statement (.bswp d a l) :=
  of_long (0x80000024 + d.toNat * 1048576 + a.toNat * 32768 + l.toNat * 16384) rfl rfl (by have := d.isLt; have := a.isLt; have := l.toNat_le; omega)
theorem addW (d : BitVec 5) (a : BitVec 5) (l : Bool) (b : BitVec 5) (m : Bool) : Statement (.addW d a l b m) :=
  of_long (0x82000000 + d.toNat * 1048576 + a.toNat * 32768 + l.toNat * 16384 + b.toNat * 512 + m.toNat * 256) rfl rfl (by have := d.isLt; have := a.isLt; have := l.toNat_le; have := b.isLt; have := m.toNat_le; omega)
theorem subW (d : BitVec 5) (a : BitVec 5) (l : Bool) (b : BitVec 5) (m : Bool) : Statement (.subW d a l b m) :=
  of_long (0x82000001 + d.toNat * 1048576 + a.toNat * 32768 + l.toNat * 16384 + b.toNat * 512 + m.toNat * 256) rfl rfl (by have := d.isLt; have := a.isLt; have := l.toNat_le; have := b.isLt; have := m.toNat_le; omega)
theorem andW (d : BitVec 5) (a : BitVec 5) (l : Bool) (b : BitVec 5) (m : Bool) : Statement (.andW d a l b m) :=
  of_long (0x82000002 + d.toNat * 1048576 + a.toNat * 32768 + l.toNat * 16384 + b.toNat * 512 + m.toNat * 256) rfl rfl (by have := d.isLt; have := a.isLt; have := l.toNat_le; have := b.isLt; have := m.toNat_le; omega)
theorem orW (d : BitVec 5) (a : BitVec 5) (l : Bool) (b : BitVec 5) (m : Bool) : Statement (.orW d a l b m) :=
  of_long (0x82000003 + d.toNat * 1048576 + a.toNat * 32768 + l.toNat * 16384 + b.toNat * 512 + m.toNat * 256) rfl rfl (by have := d.isLt; have := a.isLt; have := l.toNat_le; have := b.isLt; have := m.toNat_le; omega)
theorem xorW (d : BitVec 5) (a : BitVec 5) (l : Bool) (b : BitVec 5) (m : Bool) : Statement (.xorW d a l b m) :=
  of_long (0x82000004 + d.toNat * 1048576 + a.toNat * 32768 + l.toNat * 16384 + b.toNat * 512 + m.toNat * 256) rfl rfl (by have := d.isLt; have := a.isLt; have := l.toNat_le; have := b.isLt; have := m.toNat_le; omega)
theorem andnW (d : BitVec 5) (a : BitVec 5) (l : Bool) (b : BitVec 5) (m : Bool) : Statement (.andnW d a l b m) :=
  of_long (0x82000005 + d.toNat * 1048576 + a.toNat * 32768 + l.toNat * 16384 + b.toNat * 512 + m.toNat * 256) rfl rfl (by have := d.isLt; have := a.isLt; have := l.toNat_le; have := b.isLt; have := m.toNat_le; omega)
theorem shlW (d : BitVec 5) (a : BitVec 5) (l : Bool) (b : BitVec 5) (m : Bool) : Statement (.shlW d a l b m) :=
  of_long (0x82000006 + d.toNat * 1048576 + a.toNat * 32768 + l.toNat * 16384 + b.toNat * 512 + m.toNat * 256) rfl rfl (by have := d.isLt; have := a.isLt; have := l.toNat_le; have := b.isLt; have := m.toNat_le; omega)
theorem shrW (d : BitVec 5) (a : BitVec 5) (l : Bool) (b : BitVec 5) (m : Bool) : Statement (.shrW d a l b m) :=
  of_long (0x82000007 + d.toNat * 1048576 + a.toNat * 32768 + l.toNat * 16384 + b.toNat * 512 + m.toNat * 256) rfl rfl (by have := d.isLt; have := a.isLt; have := l.toNat_le; have := b.isLt; have := m.toNat_le; omega)
theorem sarW (d : BitVec 5) (a : BitVec 5) (l : Bool) (b : BitVec 5) (m : Bool) : Statement (.sarW d a l b m) :=
  of_long (0x82000008 + d.toNat * 1048576 + a.toNat * 32768 + l.toNat * 16384 + b.toNat * 512 + m.toNat * 256) rfl rfl (by have := d.isLt; have := a.isLt; have := l.toNat_le; have := b.isLt; have := m.toNat_le; omega)
theorem rotW (d : BitVec 5) (a : BitVec 5) (l : Bool) (b : BitVec 5) (m : Bool) : Statement (.rotW d a l b m) :=
  of_long (0x82000009 + d.toNat * 1048576 + a.toNat * 32768 + l.toNat * 16384 + b.toNat * 512 + m.toNat * 256) rfl rfl (by have := d.isLt; have := a.isLt; have := l.toNat_le; have := b.isLt; have := m.toNat_le; omega)
theorem minW (d : BitVec 5) (a : BitVec 5) (l : Bool) (b : BitVec 5) (m : Bool) : Statement (.minW d a l b m) :=
  of_long (0x8200000A + d.toNat * 1048576 + a.toNat * 32768 + l.toNat * 16384 + b.toNat * 512 + m.toNat * 256) rfl rfl (by have := d.isLt; have := a.isLt; have := l.toNat_le; have := b.isLt; have := m.toNat_le; omega)
theorem maxW (d : BitVec 5) (a : BitVec 5) (l : Bool) (b : BitVec 5) (m : Bool) : Statement (.maxW d a l b m) :=
  of_long (0x8200000B + d.toNat * 1048576 + a.toNat * 32768 + l.toNat * 16384 + b.toNat * 512 + m.toNat * 256) rfl rfl (by have := d.isLt; have := a.isLt; have := l.toNat_le; have := b.isLt; have := m.toNat_le; omega)
theorem minuW (d : BitVec 5) (a : BitVec 5) (l : Bool) (b : BitVec 5) (m : Bool) : Statement (.minuW d a l b m) :=
  of_long (0x8200000C + d.toNat * 1048576 + a.toNat * 32768 + l.toNat * 16384 + b.toNat * 512 + m.toNat * 256) rfl rfl (by have := d.isLt; have := a.isLt; have := l.toNat_le; have := b.isLt; have := m.toNat_le; omega)
theorem maxuW (d : BitVec 5) (a : BitVec 5) (l : Bool) (b : BitVec 5) (m : Bool) : Statement (.maxuW d a l b m) :=
  of_long (0x8200000D + d.toNat * 1048576 + a.toNat * 32768 + l.toNat * 16384 + b.toNat * 512 + m.toNat * 256) rfl rfl (by have := d.isLt; have := a.isLt; have := l.toNat_le; have := b.isLt; have := m.toNat_le; omega)
theorem sltW (d : BitVec 5) (a : BitVec 5) (l : Bool) (b : BitVec 5) (m : Bool) : Statement (.sltW d a l b m) :=
  of_long (0x8200000E + d.toNat * 1048576 + a.toNat * 32768 + l.toNat * 16384 + b.toNat * 512 + m.toNat * 256) rfl rfl (by have := d.isLt; have := a.isLt; have := l.toNat_le; have := b.isLt; have := m.toNat_le; omega)
theorem sltuW (d : BitVec 5) (a : BitVec 5) (l : Bool) (b : BitVec 5) (m : Bool) : Statement (.sltuW d a l b m) :=
  of_long (0x8200000F + d.toNat * 1048576 + a.toNat * 32768 + l.toNat * 16384 + b.toNat * 512 + m.toNat * 256) rfl rfl (by have := d.isLt; have := a.isLt; have := l.toNat_le; have := b.isLt; have := m.toNat_le; omega)
theorem clzW (d : BitVec 5) (a : BitVec 5) (l : Bool) : Statement (.clzW d a l) :=
  of_long (0x82000020 + d.toNat * 1048576 + a.toNat * 32768 + l.toNat * 16384) rfl rfl (by have := d.isLt; have := a.isLt; have := l.toNat_le; omega)
theorem ctzW (d : BitVec 5) (a : BitVec 5) (l : Bool) : Statement (.ctzW d a l) :=
  of_long (0x82000021 + d.toNat * 1048576 + a.toNat * 32768 + l.toNat * 16384) rfl rfl (by have := d.isLt; have := a.isLt; have := l.toNat_le; omega)
theorem popcW (d : BitVec 5) (a : BitVec 5) (l : Bool) : Statement (.popcW d a l) :=
  of_long (0x82000022 + d.toNat * 1048576 + a.toNat * 32768 + l.toNat * 16384) rfl rfl (by have := d.isLt; have := a.isLt; have := l.toNat_le; omega)
theorem addImm (d : BitVec 5) (a : BitVec 5) (l : Bool) (i : BitVec 10) : Statement (.addImm d a l i) :=
  of_long (0x84000000 + d.toNat * 1048576 + a.toNat * 32768 + l.toNat * 16384 + i.toNat) rfl rfl (by have := d.isLt; have := a.isLt; have := l.toNat_le; have := i.isLt; omega)
theorem andImm (d : BitVec 5) (a : BitVec 5) (l : Bool) (i : BitVec 10) : Statement (.andImm d a l i) :=
  of_long (0x84000400 + d.toNat * 1048576 + a.toNat * 32768 + l.toNat * 16384 + i.toNat) rfl rfl (by have := d.isLt; have := a.isLt; have := l.toNat_le; have := i.isLt; omega)
theorem orImm (d : BitVec 5) (a : BitVec 5) (l : Bool) (i : BitVec 10) : Statement (.orImm d a l i) :=
  of_long (0x84000800 + d.toNat * 1048576 + a.toNat * 32768 + l.toNat * 16384 + i.toNat) rfl rfl (by have := d.isLt; have := a.isLt; have := l.toNat_le; have := i.isLt; omega)
theorem xorImm (d : BitVec 5) (a : BitVec 5) (l : Bool) (i : BitVec 10) : Statement (.xorImm d a l i) :=
  of_long (0x84000C00 + d.toNat * 1048576 + a.toNat * 32768 + l.toNat * 16384 + i.toNat) rfl rfl (by have := d.isLt; have := a.isLt; have := l.toNat_le; have := i.isLt; omega)
theorem shlImm (d : BitVec 5) (a : BitVec 5) (l : Bool) (c : BitVec 6) : Statement (.shlImm d a l c) :=
  of_long (0x84001000 + d.toNat * 1048576 + a.toNat * 32768 + l.toNat * 16384 + c.toNat) rfl rfl (by have := d.isLt; have := a.isLt; have := l.toNat_le; have := c.isLt; omega)
theorem shrImm (d : BitVec 5) (a : BitVec 5) (l : Bool) (c : BitVec 6) : Statement (.shrImm d a l c) :=
  of_long (0x84001400 + d.toNat * 1048576 + a.toNat * 32768 + l.toNat * 16384 + c.toNat) rfl rfl (by have := d.isLt; have := a.isLt; have := l.toNat_le; have := c.isLt; omega)
theorem sarImm (d : BitVec 5) (a : BitVec 5) (l : Bool) (c : BitVec 6) : Statement (.sarImm d a l c) :=
  of_long (0x84001800 + d.toNat * 1048576 + a.toNat * 32768 + l.toNat * 16384 + c.toNat) rfl rfl (by have := d.isLt; have := a.isLt; have := l.toNat_le; have := c.isLt; omega)
theorem rotImm (d : BitVec 5) (a : BitVec 5) (l : Bool) (c : BitVec 6) : Statement (.rotImm d a l c) :=
  of_long (0x84001C00 + d.toNat * 1048576 + a.toNat * 32768 + l.toNat * 16384 + c.toNat) rfl rfl (by have := d.isLt; have := a.isLt; have := l.toNat_le; have := c.isLt; omega)
theorem sltImm (d : BitVec 5) (a : BitVec 5) (l : Bool) (i : BitVec 10) : Statement (.sltImm d a l i) :=
  of_long (0x84002000 + d.toNat * 1048576 + a.toNat * 32768 + l.toNat * 16384 + i.toNat) rfl rfl (by have := d.isLt; have := a.isLt; have := l.toNat_le; have := i.isLt; omega)
theorem sltuImm (d : BitVec 5) (a : BitVec 5) (l : Bool) (i : BitVec 10) : Statement (.sltuImm d a l i) :=
  of_long (0x84002400 + d.toNat * 1048576 + a.toNat * 32768 + l.toNat * 16384 + i.toNat) rfl rfl (by have := d.isLt; have := a.isLt; have := l.toNat_le; have := i.isLt; omega)
theorem minImm (d : BitVec 5) (a : BitVec 5) (l : Bool) (i : BitVec 10) : Statement (.minImm d a l i) :=
  of_long (0x84002800 + d.toNat * 1048576 + a.toNat * 32768 + l.toNat * 16384 + i.toNat) rfl rfl (by have := d.isLt; have := a.isLt; have := l.toNat_le; have := i.isLt; omega)
theorem maxImm (d : BitVec 5) (a : BitVec 5) (l : Bool) (i : BitVec 10) : Statement (.maxImm d a l i) :=
  of_long (0x84002C00 + d.toNat * 1048576 + a.toNat * 32768 + l.toNat * 16384 + i.toNat) rfl rfl (by have := d.isLt; have := a.isLt; have := l.toNat_le; have := i.isLt; omega)
theorem addWImm (d : BitVec 5) (a : BitVec 5) (l : Bool) (i : BitVec 10) : Statement (.addWImm d a l i) :=
  of_long (0x84003000 + d.toNat * 1048576 + a.toNat * 32768 + l.toNat * 16384 + i.toNat) rfl rfl (by have := d.isLt; have := a.isLt; have := l.toNat_le; have := i.isLt; omega)
theorem li (d : BitVec 5) (i : BitVec 19) : Statement (.li d i) :=
  of_long (0x86000000 + d.toNat * 1048576 + i.toNat) rfl rfl (by have := d.isLt; have := i.isLt; omega)
theorem lih (d : BitVec 5) (h : BitVec 2) (i : BitVec 16) : Statement (.lih d h i) :=
  of_long (0x86080000 + d.toNat * 1048576 + h.toNat * 131072 + i.toNat * 2) rfl rfl (by have := d.isLt; have := h.isLt; have := i.isLt; omega)
theorem bfx (d : BitVec 5) (a : BitVec 5) (l : Bool) (o : BitVec 6) (w : BitVec 7) : Statement (.bfx d a l o w) :=
  of_long (0x88000000 + d.toNat * 1048576 + a.toNat * 32768 + l.toNat * 16384 + o.toNat * 128 + w.toNat) rfl rfl (by have := d.isLt; have := a.isLt; have := l.toNat_le; have := o.isLt; have := w.isLt; omega)
theorem bfxs (d : BitVec 5) (a : BitVec 5) (l : Bool) (o : BitVec 6) (w : BitVec 7) : Statement (.bfxs d a l o w) :=
  of_long (0x88000000 + d.toNat * 1048576 + a.toNat * 32768 + l.toNat * 16384 + o.toNat * 128 + w.toNat) rfl rfl (by have := d.isLt; have := a.isLt; have := l.toNat_le; have := o.isLt; have := w.isLt; omega)
theorem bfxs64 (d : BitVec 5) (a : BitVec 5) (l : Bool) (o : BitVec 6) : Statement (.bfxs64 d a l o) :=
  of_long (0x8800207C + d.toNat * 1048576 + a.toNat * 32768 + l.toNat * 16384 + o.toNat * 128) rfl rfl (by have := d.isLt; have := a.isLt; have := l.toNat_le; have := o.isLt; omega)
theorem bfi (d : BitVec 5) (a : BitVec 5) (l : Bool) (o : BitVec 6) (w : BitVec 7) : Statement (.bfi d a l o w) :=
  of_long (0x88002000 + d.toNat * 1048576 + a.toNat * 32768 + l.toNat * 16384 + o.toNat * 128 + w.toNat) rfl rfl (by have := d.isLt; have := a.isLt; have := l.toNat_le; have := o.isLt; have := w.isLt; omega)
theorem bfxReg (d : BitVec 5) (a : BitVec 5) (l : Bool) (b : BitVec 5) (m : Bool) : Statement (.bfxReg d a l b m) :=
  of_long (0x8800207D + d.toNat * 1048576 + a.toNat * 32768 + l.toNat * 16384 + b.toNat * 256 + m.toNat * 128) rfl rfl (by have := d.isLt; have := a.isLt; have := l.toNat_le; have := b.isLt; have := m.toNat_le; omega)
theorem bfxsReg (d : BitVec 5) (a : BitVec 5) (l : Bool) (b : BitVec 5) (m : Bool) : Statement (.bfxsReg d a l b m) :=
  of_long (0x8800207E + d.toNat * 1048576 + a.toNat * 32768 + l.toNat * 16384 + b.toNat * 256 + m.toNat * 128) rfl rfl (by have := d.isLt; have := a.isLt; have := l.toNat_le; have := b.isLt; have := m.toNat_le; omega)
theorem bfiReg (d : BitVec 5) (a : BitVec 5) (l : Bool) (b : BitVec 5) (m : Bool) : Statement (.bfiReg d a l b m) :=
  of_long (0x8800207F + d.toNat * 1048576 + a.toNat * 32768 + l.toNat * 16384 + b.toNat * 256 + m.toNat * 128) rfl rfl (by have := d.isLt; have := a.isLt; have := l.toNat_le; have := b.isLt; have := m.toNat_le; omega)
theorem mul (d : BitVec 5) (a : BitVec 5) (l : Bool) (b : BitVec 5) (m : Bool) : Statement (.mul d a l b m) :=
  of_long (0x8A000000 + d.toNat * 1048576 + a.toNat * 32768 + l.toNat * 16384 + b.toNat * 512 + m.toNat * 256) rfl rfl (by have := d.isLt; have := a.isLt; have := l.toNat_le; have := b.isLt; have := m.toNat_le; omega)
theorem mulh (d : BitVec 5) (a : BitVec 5) (l : Bool) (b : BitVec 5) (m : Bool) : Statement (.mulh d a l b m) :=
  of_long (0x8A000001 + d.toNat * 1048576 + a.toNat * 32768 + l.toNat * 16384 + b.toNat * 512 + m.toNat * 256) rfl rfl (by have := d.isLt; have := a.isLt; have := l.toNat_le; have := b.isLt; have := m.toNat_le; omega)
theorem mulhu (d : BitVec 5) (a : BitVec 5) (l : Bool) (b : BitVec 5) (m : Bool) : Statement (.mulhu d a l b m) :=
  of_long (0x8A000002 + d.toNat * 1048576 + a.toNat * 32768 + l.toNat * 16384 + b.toNat * 512 + m.toNat * 256) rfl rfl (by have := d.isLt; have := a.isLt; have := l.toNat_le; have := b.isLt; have := m.toNat_le; omega)
theorem div (d : BitVec 5) (a : BitVec 5) (l : Bool) (b : BitVec 5) (m : Bool) : Statement (.div d a l b m) :=
  of_long (0x8A000003 + d.toNat * 1048576 + a.toNat * 32768 + l.toNat * 16384 + b.toNat * 512 + m.toNat * 256) rfl rfl (by have := d.isLt; have := a.isLt; have := l.toNat_le; have := b.isLt; have := m.toNat_le; omega)
theorem divu (d : BitVec 5) (a : BitVec 5) (l : Bool) (b : BitVec 5) (m : Bool) : Statement (.divu d a l b m) :=
  of_long (0x8A000004 + d.toNat * 1048576 + a.toNat * 32768 + l.toNat * 16384 + b.toNat * 512 + m.toNat * 256) rfl rfl (by have := d.isLt; have := a.isLt; have := l.toNat_le; have := b.isLt; have := m.toNat_le; omega)
theorem rem (d : BitVec 5) (a : BitVec 5) (l : Bool) (b : BitVec 5) (m : Bool) : Statement (.rem d a l b m) :=
  of_long (0x8A000005 + d.toNat * 1048576 + a.toNat * 32768 + l.toNat * 16384 + b.toNat * 512 + m.toNat * 256) rfl rfl (by have := d.isLt; have := a.isLt; have := l.toNat_le; have := b.isLt; have := m.toNat_le; omega)
theorem remu (d : BitVec 5) (a : BitVec 5) (l : Bool) (b : BitVec 5) (m : Bool) : Statement (.remu d a l b m) :=
  of_long (0x8A000006 + d.toNat * 1048576 + a.toNat * 32768 + l.toNat * 16384 + b.toNat * 512 + m.toNat * 256) rfl rfl (by have := d.isLt; have := a.isLt; have := l.toNat_le; have := b.isLt; have := m.toNat_le; omega)
theorem mulW (d : BitVec 5) (a : BitVec 5) (l : Bool) (b : BitVec 5) (m : Bool) : Statement (.mulW d a l b m) :=
  of_long (0x8A000010 + d.toNat * 1048576 + a.toNat * 32768 + l.toNat * 16384 + b.toNat * 512 + m.toNat * 256) rfl rfl (by have := d.isLt; have := a.isLt; have := l.toNat_le; have := b.isLt; have := m.toNat_le; omega)
theorem mulhW (d : BitVec 5) (a : BitVec 5) (l : Bool) (b : BitVec 5) (m : Bool) : Statement (.mulhW d a l b m) :=
  of_long (0x8A000011 + d.toNat * 1048576 + a.toNat * 32768 + l.toNat * 16384 + b.toNat * 512 + m.toNat * 256) rfl rfl (by have := d.isLt; have := a.isLt; have := l.toNat_le; have := b.isLt; have := m.toNat_le; omega)
theorem mulhuW (d : BitVec 5) (a : BitVec 5) (l : Bool) (b : BitVec 5) (m : Bool) : Statement (.mulhuW d a l b m) :=
  of_long (0x8A000012 + d.toNat * 1048576 + a.toNat * 32768 + l.toNat * 16384 + b.toNat * 512 + m.toNat * 256) rfl rfl (by have := d.isLt; have := a.isLt; have := l.toNat_le; have := b.isLt; have := m.toNat_le; omega)
theorem divW (d : BitVec 5) (a : BitVec 5) (l : Bool) (b : BitVec 5) (m : Bool) : Statement (.divW d a l b m) :=
  of_long (0x8A000013 + d.toNat * 1048576 + a.toNat * 32768 + l.toNat * 16384 + b.toNat * 512 + m.toNat * 256) rfl rfl (by have := d.isLt; have := a.isLt; have := l.toNat_le; have := b.isLt; have := m.toNat_le; omega)
theorem divuW (d : BitVec 5) (a : BitVec 5) (l : Bool) (b : BitVec 5) (m : Bool) : Statement (.divuW d a l b m) :=
  of_long (0x8A000014 + d.toNat * 1048576 + a.toNat * 32768 + l.toNat * 16384 + b.toNat * 512 + m.toNat * 256) rfl rfl (by have := d.isLt; have := a.isLt; have := l.toNat_le; have := b.isLt; have := m.toNat_le; omega)
theorem remW (d : BitVec 5) (a : BitVec 5) (l : Bool) (b : BitVec 5) (m : Bool) : Statement (.remW d a l b m) :=
  of_long (0x8A000015 + d.toNat * 1048576 + a.toNat * 32768 + l.toNat * 16384 + b.toNat * 512 + m.toNat * 256) rfl rfl (by have := d.isLt; have := a.isLt; have := l.toNat_le; have := b.isLt; have := m.toNat_le; omega)
theorem remuW (d : BitVec 5) (a : BitVec 5) (l : Bool) (b : BitVec 5) (m : Bool) : Statement (.remuW d a l b m) :=
  of_long (0x8A000016 + d.toNat * 1048576 + a.toNat * 32768 + l.toNat * 16384 + b.toNat * 512 + m.toNat * 256) rfl rfl (by have := d.isLt; have := a.isLt; have := l.toNat_le; have := b.isLt; have := m.toNat_le; omega)
theorem cAdd (d : BitVec 5) (b : BitVec 5) (l : Bool) : Statement (.cAdd d b l) :=
  of_compact (0x0800 + d.toNat * 64 + b.toNat * 2 + l.toNat) rfl rfl (by have := d.isLt; have := b.isLt; have := l.toNat_le; omega)
theorem cAddi (d : BitVec 5) (i : BitVec 6) : Statement (.cAddi d i) :=
  of_compact (0x1000 + d.toNat * 64 + i.toNat) rfl rfl (by have := d.isLt; have := i.isLt; omega)
theorem cMov (d : BitVec 5) (b : BitVec 5) (l : Bool) : Statement (.cMov d b l) :=
  of_compact (0x1800 + d.toNat * 64 + b.toNat * 2 + l.toNat) rfl rfl (by have := d.isLt; have := b.isLt; have := l.toNat_le; omega)
theorem cLi (d : BitVec 5) (i : BitVec 6) : Statement (.cLi d i) :=
  of_compact (0x2000 + d.toNat * 64 + i.toNat) rfl rfl (by have := d.isLt; have := i.isLt; omega)
theorem cLd (d : BitVec 3) (a : BitVec 3) (l : Bool) (i : BitVec 4) : Statement (.cLd d a l i) :=
  of_compact (0x2800 + d.toNat * 256 + a.toNat * 32 + l.toNat * 16 + i.toNat) rfl rfl (by have := d.isLt; have := a.isLt; have := l.toNat_le; have := i.isLt; omega)
theorem cSt (b : BitVec 3) (m : Bool) (a : BitVec 3) (l : Bool) (i : BitVec 3) : Statement (.cSt b m a l i) :=
  of_compact (0x3000 + b.toNat * 256 + m.toNat * 128 + a.toNat * 16 + l.toNat * 8 + i.toNat) rfl rfl (by have := b.isLt; have := m.toNat_le; have := a.isLt; have := l.toNat_le; have := i.isLt; omega)
theorem cBz (a : BitVec 3) (l : Bool) (o : BitVec 6) : Statement (.cBz a l o) :=
  of_compact (0x3800 + a.toNat * 128 + l.toNat * 64 + o.toNat) rfl rfl (by have := a.isLt; have := l.toNat_le; have := o.isLt; omega)
theorem cBnz (a : BitVec 3) (l : Bool) (o : BitVec 6) : Statement (.cBnz a l o) :=
  of_compact (0x3C00 + a.toNat * 128 + l.toNat * 64 + o.toNat) rfl rfl (by have := a.isLt; have := l.toNat_le; have := o.isLt; omega)
theorem cJ (o : BitVec 11) : Statement (.cJ o) :=
  of_compact (0x4000 + o.toNat) rfl rfl (by have := o.isLt; omega)
theorem cSub (d : BitVec 3) (a : BitVec 3) (l : Bool) : Statement (.cSub d a l) :=
  of_compact (0x4800 + d.toNat * 32 + a.toNat * 4 + l.toNat * 2) rfl rfl (by have := d.isLt; have := a.isLt; have := l.toNat_le; omega)
theorem cAnd (d : BitVec 3) (a : BitVec 3) (l : Bool) : Statement (.cAnd d a l) :=
  of_compact (0x4900 + d.toNat * 32 + a.toNat * 4 + l.toNat * 2) rfl rfl (by have := d.isLt; have := a.isLt; have := l.toNat_le; omega)
theorem cOr (d : BitVec 3) (a : BitVec 3) (l : Bool) : Statement (.cOr d a l) :=
  of_compact (0x4A00 + d.toNat * 32 + a.toNat * 4 + l.toNat * 2) rfl rfl (by have := d.isLt; have := a.isLt; have := l.toNat_le; omega)
theorem cXor (d : BitVec 3) (a : BitVec 3) (l : Bool) : Statement (.cXor d a l) :=
  of_compact (0x4B00 + d.toNat * 32 + a.toNat * 4 + l.toNat * 2) rfl rfl (by have := d.isLt; have := a.isLt; have := l.toNat_le; omega)
theorem cShl (d : BitVec 3) (a : BitVec 3) (l : Bool) : Statement (.cShl d a l) :=
  of_compact (0x4C00 + d.toNat * 32 + a.toNat * 4 + l.toNat * 2) rfl rfl (by have := d.isLt; have := a.isLt; have := l.toNat_le; omega)
theorem cShr (d : BitVec 3) (a : BitVec 3) (l : Bool) : Statement (.cShr d a l) :=
  of_compact (0x4D00 + d.toNat * 32 + a.toNat * 4 + l.toNat * 2) rfl rfl (by have := d.isLt; have := a.isLt; have := l.toNat_le; omega)
theorem cWait (m : BitVec 4) : Statement (.cWait m) :=
  of_compact (0x5000 + m.toNat) rfl rfl (by have := m.isLt; omega)
theorem cRecv (d : BitVec 5) : Statement (.cRecv d) :=
  of_compact (0x5800 + d.toNat * 64) rfl rfl (by have := d.isLt; omega)
theorem cJr (a : BitVec 5) (l : Bool) : Statement (.cJr a l) :=
  of_compact (0x6000 + a.toNat * 64 + l.toNat * 32) rfl rfl (by have := a.isLt; have := l.toNat_le; omega)
theorem cPadd (d : BitVec 5) (b : BitVec 5) (l : Bool) : Statement (.cPadd d b l) :=
  of_compact (0x6800 + d.toNat * 64 + b.toNat * 2 + l.toNat) rfl rfl (by have := d.isLt; have := b.isLt; have := l.toNat_le; omega)
theorem cNop : Statement (.cNop) :=
  of_compact (0x7000) rfl rfl (by decide)
theorem cYield : Statement (.cYield) :=
  of_compact (0x7100) rfl rfl (by decide)
theorem cHhalt : Statement (.cHhalt) :=
  of_compact (0x7200) rfl rfl (by decide)
theorem claimGrant (tile : Nat) : Statement (.claimGrant tile) := of_event rfl rfl
theorem lsplitWrite (core : Nat) (cw : BitVec 3) : Statement (.lsplitWrite core cw) := of_event rfl rfl
theorem vgroupWrite (tile : Nat) (en : Bool) : Statement (.vgroupWrite tile en) := of_event rfl rfl
theorem homeAccept (rid : Nat) : Statement (.homeAccept rid) := of_event rfl rfl
theorem retryReplay (rid : Nat) : Statement (.retryReplay rid) := of_event rfl rfl
theorem loadDataReturn (rid : Nat) (data : Word) : Statement (.loadDataReturn rid data) := of_event rfl rfl
theorem storeAck (rid : Nat) : Statement (.storeAck rid) := of_event rfl rfl
theorem releaseSend (hid : Nat) : Statement (.releaseSend hid) := of_event rfl rfl
theorem barComplete (core : Nat) (ctx : Nat) : Statement (.barComplete core ctx) := of_event rfl rfl
theorem messageArrival (mid : Nat) : Statement (.messageArrival mid) := of_event rfl rfl
theorem messageReplay (mid : Nat) : Statement (.messageReplay mid) := of_event rfl rfl
theorem handlerStart (core : Nat) : Statement (.handlerStart core) := of_event rfl rfl
theorem resumeMessage (mid : Nat) : Statement (.resumeMessage mid) := of_event rfl rfl
theorem stopMessage (mid : Nat) : Statement (.stopMessage mid) := of_event rfl rfl
theorem forwardRequest (rid : Nat) : Statement (.forwardRequest rid) := of_event rfl rfl
theorem forwardExpire (core : Nat) (index : Nat) : Statement (.forwardExpire core index) := of_event rfl rfl
theorem registerPreempt (core : Nat) (ctx : Nat) : Statement (.registerPreempt core ctx) := of_event rfl rfl
theorem registerGrant (core : Nat) : Statement (.registerGrant core) := of_event rfl rfl
theorem engineCommandAccept (cid : Nat) : Statement (.engineCommandAccept cid) := of_event rfl rfl
theorem engineCommandStart (core : Nat) : Statement (.engineCommandStart core) := of_event rfl rfl
theorem engineCommandComplete (core : Nat) : Statement (.engineCommandComplete core) := of_event rfl rfl
theorem engineCommandMigrate (core : Nat) (cid : Nat) : Statement (.engineCommandMigrate core cid) := of_event rfl rfl
theorem engraveStart (sg : Nat) : Statement (.engraveStart sg) := of_event rfl rfl
theorem engraveComplete (sg : Nat) : Statement (.engraveComplete sg) := of_event rfl rfl
theorem copyStart (tile : Nat) : Statement (.copyStart tile) := of_event rfl rfl
theorem copyComplete (tile : Nat) : Statement (.copyComplete tile) := of_event rfl rfl
theorem copyqResume (tile : Nat) : Statement (.copyqResume tile) := of_event rfl rfl
theorem surveyorRun (core : Nat) (stream : Nat) : Statement (.surveyorRun core stream) := of_event rfl rfl
theorem surveyorGatherReturn (core : Nat) (stream : Nat) : Statement (.surveyorGatherReturn core stream) := of_event rfl rfl
theorem memoryStreamRead (core : Nat) (ctx : Nat) (q : BitVec 3) : Statement (.memoryStreamRead core ctx q) := of_event rfl rfl
theorem launchDistribute : Statement (.launchDistribute) := of_event rfl rfl
theorem launchEntryPlace (die : Nat) : Statement (.launchEntryPlace die) := of_event rfl rfl
theorem dispatch (tile : Nat) : Statement (.dispatch tile) := of_event rfl rfl
theorem placementDecision (tile : Nat) : Statement (.placementDecision tile) := of_event rfl rfl
theorem heldTaskResume (tile : Nat) : Statement (.heldTaskResume tile) := of_event rfl rfl
theorem spillRefill (tile : Nat) : Statement (.spillRefill tile) := of_event rfl rfl
theorem spillOfferRetry (tile : Nat) : Statement (.spillOfferRetry tile) := of_event rfl rfl
theorem queueAgeing (tile : Nat) : Statement (.queueAgeing tile) := of_event rfl rfl
theorem pressureSample (tile : Nat) : Statement (.pressureSample tile) := of_event rfl rfl
theorem contourStep (tile : Nat) : Statement (.contourStep tile) := of_event rfl rfl
theorem crewGrant (sg : Nat) : Statement (.crewGrant sg) := of_event rfl rfl
theorem crewTarget (sg : Nat) : Statement (.crewTarget sg) := of_event rfl rfl
theorem crewSwap (sg : Nat) : Statement (.crewSwap sg) := of_event rfl rfl
theorem crewRestore (sg : Nat) : Statement (.crewRestore sg) := of_event rfl rfl
theorem heatSweep (part : Nat) : Statement (.heatSweep part) := of_event rfl rfl
theorem memoryDoubleUpset (address : Nat) : Statement (.memoryDoubleUpset address) := of_event rfl rfl
theorem dieLost (die : Nat) : Statement (.dieLost die) := of_event rfl rfl
theorem routerCycle (router : Nat) (damaged : BitVec 4) : Statement (.routerCycle router damaged) := of_event rfl rfl
theorem linkDead (router : Nat) (dir : BitVec 2) : Statement (.linkDead router dir) := of_event rfl rfl
theorem drainWrite (mask : BitVec 8) : Statement (.drainWrite mask) := of_event rfl rfl
theorem fabricTimedReplay (rid : Nat) : Statement (.fabricTimedReplay rid) := of_event rfl rfl
theorem fabricTransit (index : Nat) : Statement (.fabricTransit index) := of_event rfl rfl
theorem lossPacket (source : Nat) (seqs : List Nat) : Statement (.lossPacket source seqs) := of_event rfl rfl
theorem timeExchange (port : Nat) (peer : BitVec 8) (time : Word) : Statement (.timeExchange port peer time) := of_event rfl rfl
theorem flitArrival (port : Nat) (flit : BitVec 306) : Statement (.flitArrival port flit) := of_event rfl rfl
theorem linkNakResend (port : Nat) (lseq : BitVec 16) : Statement (.linkNakResend port lseq) := of_event rfl rfl
theorem sendWindowDoubleUpset (port : Nat) (lseq : BitVec 16) : Statement (.sendWindowDoubleUpset port lseq) := of_event rfl rfl
theorem replayNotice (rid : Nat) : Statement (.replayNotice rid) := of_event rfl rfl
theorem portDown (port : Nat) : Statement (.portDown port) := of_event rfl rfl
theorem orteWrite (svc : Nat) (value : Word) : Statement (.orteWrite svc value) := of_event rfl rfl
theorem oparkWrite (svc : Nat) (value : Word) : Statement (.oparkWrite svc value) := of_event rfl rfl
theorem oheatWrite (svc : Nat) (value : Word) : Statement (.oheatWrite svc value) := of_event rfl rfl
theorem oasgnWrite (svc : Nat) (value : Word) : Statement (.oasgnWrite svc value) := of_event rfl rfl
theorem opticalWakeTrigger (port : Nat) : Statement (.opticalWakeTrigger port) := of_event rfl rfl
theorem ringSettleDone (ring : Nat) : Statement (.ringSettleDone ring) := of_event rfl rfl
theorem ringLocked (ring : Nat) : Statement (.ringLocked ring) := of_event rfl rfl
theorem ringLockTimeout (ring : Nat) : Statement (.ringLockTimeout ring) := of_event rfl rfl
theorem ringDeskewDone (ring : Nat) : Statement (.ringDeskewDone ring) := of_event rfl rfl
theorem stripeWiden (port : Nat) : Statement (.stripeWiden port) := of_event rfl rfl
theorem monitorSample (ring : Nat) : Statement (.monitorSample ring) := of_event rfl rfl
theorem parkFlit (port : Nat) (mask : BitVec 16) : Statement (.parkFlit port mask) := of_event rfl rfl
theorem wakeFlit (port : Nat) (mask : BitVec 16) : Statement (.wakeFlit port mask) := of_event rfl rfl
theorem lockReport (port : Nat) : Statement (.lockReport port) := of_event rfl rfl
theorem hostLaunchWrite (offset : Nat) (bytes : List Byte) : Statement (.hostLaunchWrite offset bytes) := of_event rfl rfl
theorem hostCommandWrite (offset : Nat) (bytes : List Byte) : Statement (.hostCommandWrite offset bytes) := of_event rfl rfl
theorem hostQueueDeliver (mid : Nat) : Statement (.hostQueueDeliver mid) := of_event rfl rfl
theorem hqsizeWrite (offset : Nat) (bytes : List Byte) : Statement (.hqsizeWrite offset bytes) := of_event rfl rfl
theorem hqheadWrite (offset : Nat) (bytes : List Byte) : Statement (.hqheadWrite offset bytes) := of_event rfl rfl
theorem hqbaseWrite (offset : Nat) (bytes : List Byte) : Statement (.hqbaseWrite offset bytes) := of_event rfl rfl
theorem powerGood (signatureOk : Bool) (trained : BitVec 16) (peers : List (BitVec 8 × BitVec 4)) : Statement (.powerGood signatureOk trained peers) := of_event rfl rfl
theorem thermalThrottle : Statement (.thermalThrottle) := of_event rfl rfl
theorem thermalTrip : Statement (.thermalTrip) := of_event rfl rfl
theorem d3hotRequest : Statement (.d3hotRequest) := of_event rfl rfl
theorem getVersion (request : List Byte) : Statement (.getVersion request) := of_event rfl rfl
theorem getCapabilities (request : List Byte) : Statement (.getCapabilities request) := of_event rfl rfl
theorem negotiateAlgorithms (request : List Byte) : Statement (.negotiateAlgorithms request) := of_event rfl rfl
theorem getDigests (request : List Byte) : Statement (.getDigests request) := of_event rfl rfl
theorem getCertificate (request : List Byte) : Statement (.getCertificate request) := of_event rfl rfl
theorem challenge (request : List Byte) : Statement (.challenge request) := of_event rfl rfl
theorem getMeasurements (request : List Byte) : Statement (.getMeasurements request) := of_event rfl rfl
theorem keyExchange (request : List Byte) : Statement (.keyExchange request) := of_event rfl rfl
theorem finish (request : List Byte) : Statement (.finish request) := of_event rfl rfl
theorem create (body : List Byte) : Statement (.create body) := of_event rfl rfl
theorem destroy (body : List Byte) : Statement (.destroy body) := of_event rfl rfl
theorem setKey (body : List Byte) : Statement (.setKey body) := of_event rfl rfl
theorem setPkg (body : List Byte) : Statement (.setPkg body) := of_event rfl rfl
theorem log (body : List Byte) : Statement (.log body) := of_event rfl rfl
theorem route (body : List Byte) : Statement (.route body) := of_event rfl rfl
theorem packageLoss (reason : Nat) : Statement (.packageLoss reason) := of_event rfl rfl
theorem illegalEncoding (encoding : BitVec 32) (wide : Bool) : Statement (.illegalEncoding encoding wide) := of_event rfl rfl
theorem fetchFault (address : Word) (reason : Nat) : Statement (.fetchFault address reason) := of_event rfl rfl
theorem vendorDefinedRequest (request : List Byte) : Statement (.vendorDefinedRequest request) := of_event rfl rfl

end Sys2Proof.Laws.Encoding
end

