-- ==== Sys2Proof/Tests/Slice0.lean ====
section
/-! SUPPORT. Tests: ill-formed terms, words written out from the encoding tables, single steps with the results that the manual gives, and
states that meet the hypotheses of the statements. -/

open Sys2Proof Sys2Proof.Machine

namespace Sys2Proof.Tests

-- one theorem after the other: each is a kernel evaluation of its own
set_option Elab.async false

/-! ### Ill-formed terms: one for each check, which refuses it -/

theorem test_check_lastUseOfG0 : (Instr.add 5 0 true 7 false).check = some .lastUseOfG0 := by decide
theorem test_check_signOfDoubleword : (Instr.ld 5 6 false true 3 0 0).check = some .signOfDoubleword := by decide
theorem test_check_fieldWidth : (Instr.bfi 5 6 false 0 65).check = some .fieldWidth := by decide
theorem test_check_condition : (Instr.bc 5 false 6 false 6 0).check = some .condition := by decide
theorem test_check_rounding : (Instr.vadd 1 2 3 1 9 5).check = some .rounding := by decide
theorem test_check_predicate : (Instr.vldf 1 6 false 0 0).check = some .predicate := by decide
theorem test_check_sameChannel : (Instr.vmrg 1 2 2 1 9 0).check = some .sameChannel := by decide
theorem test_check_count : (Instr.bar 5 6 false 12).check = some .count := by decide
theorem test_check_mask : (Instr.cWait 0).check = some .mask := by decide
theorem test_check_compactG0 : (Instr.cMov 0 5 false).check = some .compactG0 := by decide
theorem test_check_otherInstruction : (Instr.trap 0x800).check = some .otherInstruction := by decide
theorem test_check_wellFormed : (Instr.add 5 6 true 7 false).check = none := by decide

/-- Whether decoding refuses these halfwords for this reason. -/
noncomputable def refuses (hs : List (BitVec 16)) (e : Reject) : Bool :=
  match decode hs with
  | .error r => r == e
  | .ok _ => false

/-- 03_encoding.md R75: 0xFFFF_FFFF and a halfword of compact opcode 0 are illegal for ever; R91: unassigned codes and reserved bits. -/
theorem test_reject : (refuses [0xFFFF, 0xFFFF] .forever && refuses [0x0000] .forever && refuses [0x8160, 0x4000] .lastUseOfG0
    && refuses [0xFA00, 0x0000] .unassignedOpcode && refuses [0x8053, 0x0E12] .unassignedMinor && refuses [0x8053] .truncated) = true := by
  decide +kernel

/-! ### Decoding: a word for every instruction, written from the encoding tables of 03_encoding.md with every operand set -/

/-- Whether each word decodes to the instruction beside it. -/
noncomputable def reads16 (l : List (Nat × Nat × Instr)) : Bool := l.all (fun e => decodeTableWord e.1 e.2.1 == some e.2.2)

theorem test_decode_01 : reads16 [
    (32, 0x815D5600, .add 21 26 true 11 false),
    (32, 0x815D5601, .sub 21 26 true 11 false),
    (32, 0x815D5602, .and 21 26 true 11 false),
    (32, 0x815D5603, .or 21 26 true 11 false),
    (32, 0x815D5604, .xor 21 26 true 11 false),
    (32, 0x815D5605, .andn 21 26 true 11 false),
    (32, 0x815D5606, .shl 21 26 true 11 false),
    (32, 0x815D5607, .shr 21 26 true 11 false),
    (32, 0x815D5608, .sar 21 26 true 11 false),
    (32, 0x815D5609, .rot 21 26 true 11 false),
    (32, 0x815D560A, .min 21 26 true 11 false),
    (32, 0x815D560B, .max 21 26 true 11 false),
    (32, 0x815D560C, .minu 21 26 true 11 false),
    (32, 0x815D560D, .maxu 21 26 true 11 false),
    (32, 0x815D560E, .slt 21 26 true 11 false),
    (32, 0x815D560F, .sltu 21 26 true 11 false)
  ] = true := by decide +kernel

theorem test_decode_02 : reads16 [
    (32, 0x815D5610, .sel 21 26 true 11 false),
    (32, 0x815D4011, .mov 21 26 true),
    (32, 0x815D4020, .clz 21 26 true),
    (32, 0x815D4021, .ctz 21 26 true),
    (32, 0x815D4022, .popc 21 26 true),
    (32, 0x815D4023, .brev 21 26 true),
    (32, 0x815D4024, .bswp 21 26 true)
  ] = true := by decide +kernel

theorem test_decode_03 : reads16 [
    (32, 0x835D5600, .addW 21 26 true 11 false),
    (32, 0x835D5601, .subW 21 26 true 11 false),
    (32, 0x835D5602, .andW 21 26 true 11 false),
    (32, 0x835D5603, .orW 21 26 true 11 false),
    (32, 0x835D5604, .xorW 21 26 true 11 false),
    (32, 0x835D5605, .andnW 21 26 true 11 false),
    (32, 0x835D5606, .shlW 21 26 true 11 false),
    (32, 0x835D5607, .shrW 21 26 true 11 false),
    (32, 0x835D5608, .sarW 21 26 true 11 false),
    (32, 0x835D5609, .rotW 21 26 true 11 false),
    (32, 0x835D560A, .minW 21 26 true 11 false),
    (32, 0x835D560B, .maxW 21 26 true 11 false),
    (32, 0x835D560C, .minuW 21 26 true 11 false),
    (32, 0x835D560D, .maxuW 21 26 true 11 false),
    (32, 0x835D560E, .sltW 21 26 true 11 false),
    (32, 0x835D560F, .sltuW 21 26 true 11 false)
  ] = true := by decide +kernel

theorem test_decode_04 : reads16 [
    (32, 0x835D4020, .clzW 21 26 true),
    (32, 0x835D4021, .ctzW 21 26 true),
    (32, 0x835D4022, .popcW 21 26 true),
    (32, 0x855D425A, .addImm 21 26 true 602),
    (32, 0x855D465A, .andImm 21 26 true 602),
    (32, 0x855D4A5A, .orImm 21 26 true 602),
    (32, 0x855D4E5A, .xorImm 21 26 true 602),
    (32, 0x855D501A, .shlImm 21 26 true 26),
    (32, 0x855D541A, .shrImm 21 26 true 26),
    (32, 0x855D581A, .sarImm 21 26 true 26),
    (32, 0x855D5C1A, .rotImm 21 26 true 26),
    (32, 0x855D625A, .sltImm 21 26 true 602),
    (32, 0x855D665A, .sltuImm 21 26 true 602),
    (32, 0x855D6A5A, .minImm 21 26 true 602),
    (32, 0x855D6E5A, .maxImm 21 26 true 602),
    (32, 0x855D725A, .addWImm 21 26 true 602)
  ] = true := by decide +kernel

theorem test_decode_05 : reads16 [
    (32, 0x87515A5A, .li 21 88666),
    (32, 0x875CB4B4, .lih 21 2 23130),
    (32, 0x895D5408, .bfx 21 26 true 40 8),
    (32, 0x895D4D48, .bfxs 21 26 true 26 72),
    (32, 0x895D6D7C, .bfxs64 21 26 true 26),
    (32, 0x895D7289, .bfi 21 26 true 37 9),
    (32, 0x895D6B7D, .bfxReg 21 26 true 11 false),
    (32, 0x895D6B7E, .bfxsReg 21 26 true 11 false),
    (32, 0x895D6B7F, .bfiReg 21 26 true 11 false)
  ] = true := by decide +kernel

theorem test_decode_06 : reads16 [
    (32, 0x8B5D5600, .mul 21 26 true 11 false),
    (32, 0x8B5D5601, .mulh 21 26 true 11 false),
    (32, 0x8B5D5602, .mulhu 21 26 true 11 false),
    (32, 0x8B5D5603, .div 21 26 true 11 false),
    (32, 0x8B5D5604, .divu 21 26 true 11 false),
    (32, 0x8B5D5605, .rem 21 26 true 11 false),
    (32, 0x8B5D5606, .remu 21 26 true 11 false),
    (32, 0x8B5D5610, .mulW 21 26 true 11 false),
    (32, 0x8B5D5611, .mulhW 21 26 true 11 false),
    (32, 0x8B5D5612, .mulhuW 21 26 true 11 false),
    (32, 0x8B5D5613, .divW 21 26 true 11 false),
    (32, 0x8B5D5614, .divuW 21 26 true 11 false),
    (32, 0x8B5D5615, .remW 21 26 true 11 false),
    (32, 0x8B5D5616, .remuW 21 26 true 11 false)
  ] = true := by decide +kernel

theorem test_decode_07 : reads16 [
    (32, 0x8D5D5600, .padd 21 26 true 11 false),
    (32, 0x8D5D5610, .pidx 21 26 true 11 false),
    (32, 0x8D5D5622, .pset 21 26 true 11 false 2),
    (32, 0x8D5D4032, .pget 21 26 true 2),
    (32, 0x8D5D5640, .pcore 21 26 true 11 false),
    (32, 0x8D5D5650, .pshrd 21 26 true 11 false),
    (32, 0x8D5D5660, .ext 21 26 true 11 false),
    (32, 0x8FAACA5A, .bc 26 true 11 false 2 602),
    (32, 0x90015A5A, .j 88666),
    (32, 0x92015A5A, .jal 88666),
    (32, 0x955D425A, .jr 21 26 true 602),
    (32, 0x9550065A, .loop 21 602),
    (32, 0x975D745A, .ld 21 26 true true 2 2 90),
    (32, 0x975D5CDA, .ldFut 21 26 true 2 90),
    (32, 0x975D5D5A, .ldTake 21 26 true 2 90)
  ] = true := by decide +kernel

theorem test_decode_08 : reads16 [
    (32, 0x995D745A, .st 21 26 true true 2 2 90),
    (32, 0x995D7CDA, .stFill 21 26 true true 2 90),
    (32, 0x995D7D5A, .stGive 21 26 true true 2 90),
    (32, 0x9B5D56D2, .ldx 21 26 true 11 false true 2 2 2),
    (32, 0x9B5D56D6, .stx 21 26 true 11 false true 2 2 2),
    (32, 0x9D5D5670, .ldtVeq 21 26 true 11 false 2),
    (32, 0x9D5D5671, .ldtVge 21 26 true 11 false 2),
    (32, 0x9D5D40F4, .sttVnx 21 26 true true 2),
    (32, 0x9D5D56F5, .sttVset 21 26 true 11 false true 2),
    (32, 0x9F5D56D0, .lds 21 26 true 11 false true 2 2),
    (32, 0x9F5D56D4, .sts 21 26 true 11 false true 2 2)
  ] = true := by decide +kernel

theorem test_decode_09 : reads16 [
    (32, 0xA15D5606, .amoSwap 21 26 true 11 false 1 2),
    (32, 0xA15D560E, .amoAdd 21 26 true 11 false 1 2),
    (32, 0xA15D5616, .amoAnd 21 26 true 11 false 1 2),
    (32, 0xA15D561E, .amoOr 21 26 true 11 false 1 2),
    (32, 0xA15D5626, .amoXor 21 26 true 11 false 1 2),
    (32, 0xA15D562E, .amoMin 21 26 true 11 false 1 2),
    (32, 0xA15D5636, .amoMax 21 26 true 11 false 1 2),
    (32, 0xA15D563E, .amoMinu 21 26 true 11 false 1 2),
    (32, 0xA15D5646, .amoMaxu 21 26 true 11 false 1 2),
    (32, 0xA15D5686, .cas 21 26 true 11 false 1 2),
    (32, 0xA35D5615, .redo 21 26 true 11 false 21),
    (32, 0xA20D565A, .reda 26 true 11 false 26),
    (32, 0xA35D409A, .redr 21 26 true 26),
    (32, 0xA35D40DA, .redc 21 26 true 26),
    (32, 0xA55D5600, .jinit 21 26 true 11 false),
    (32, 0xA55D5601, .join 21 26 true 11 false)
  ] = true := by decide +kernel

theorem test_decode_10 : reads16 [
    (32, 0xA75D4000, .fence 21 26 true),
    (32, 0xA60D5601, .flush 26 true 11 false),
    (32, 0xA60D5602, .cinv 26 true 11 false),
    (32, 0xA6CF5203, .wait 6 7 10 9),
    (32, 0xA62D5604, .pref 2 26 true 11 false),
    (32, 0xA60D5605, .vrecl 26 true 11 false),
    (32, 0xA75D4006, .tagr 21 26 true),
    (32, 0xA60D5607, .tagw 26 true 11 false),
    (32, 0xA95D5600, .mcast 21 26 true 11 false),
    (32, 0xAA0D5600, .spawn 26 true 11 false),
    (32, 0xAB5D4001, .launch 21 26 true),
    (32, 0xAA000002, .yield),
    (32, 0xAB5D4003, .prio 21 26 true)
  ] = true := by decide +kernel

theorem test_decode_11 : reads16 [
    (32, 0xAC0D5600, .sendm 26 true 11 false),
    (32, 0xAD5D4001, .recv 21 26 true),
    (32, 0xAD500002, .peek 21),
    (32, 0xAC0D4003, .reply 26 true),
    (32, 0xAF5D5600, .hstart 21 26 true 11 false),
    (32, 0xAE0D4001, .hhalt 26 true),
    (32, 0xAE0D5681, .hhaltRetain 26 true 11 false),
    (32, 0xAF5D4002, .hwait 21 26 true),
    (32, 0xB00D5600, .crew 26 true 11 false),
    (32, 0xB1500001, .crewx 21),
    (32, 0xB15D4602, .bar 21 26 true 3)
  ] = true := by decide +kernel

theorem test_decode_12 : reads16 [
    (32, 0xB20D5602, .qbind 26 true 11 false 2),
    (32, 0xB200000A, .qfree 2),
    (32, 0xB3500012, .qctlPop 21 2),
    (32, 0xB20D4212, .qctlPush 26 true 2),
    (32, 0xB20D4412, .qctlPushc 26 true 2),
    (32, 0xB2000612, .qctlFlush 2),
    (32, 0xB350001A, .qstat 21 2),
    (32, 0xB20D4020, .qhnd 26 true),
    (32, 0xB2000028, .qret),
    (32, 0xB55D4000, .vclaim 21 26 true),
    (32, 0xB55D4010, .vreneg 21 26 true),
    (32, 0xB4000020, .vrel),
    (32, 0xB5500038, .pcnt 21 2),
    (32, 0xB55D5648, .pwhile 21 26 true 11 false 2),
    (32, 0xB40D405A, .pmin 26 true 2 2)
  ] = true := by decide +kernel

theorem test_decode_13 : reads16 [
    (32, 0xB73A8108, .vld 9 26 true 2 2),
    (32, 0xB73A8118, .vst 9 26 true 2 2),
    (32, 0xB73A8128, .vldf 9 26 true 2 2),
    (32, 0xB73AAD38, .vlds 9 26 true 11 false 2 2),
    (32, 0xB73AAD48, .vsts 9 26 true 11 false 2 2),
    (32, 0xB93AA908, .vgth 9 26 true 10 2 2),
    (32, 0xB93AA918, .vsct 9 26 true 10 2 2),
    (32, 0xBB2CF054, .vadd 9 6 7 2 10 4),
    (32, 0xBB2CF0D4, .vsub 9 6 7 2 10 4),
    (32, 0xBB2CF154, .vmul 9 6 7 2 10 4),
    (32, 0xBB2CF1D4, .vdiv 9 6 7 2 10 4),
    (32, 0xBB2CF254, .vmin 9 6 7 2 10 4),
    (32, 0xBB2CF2D4, .vmax 9 6 7 2 10 4),
    (32, 0xBB2CF354, .vabsd 9 6 7 2 10 4),
    (32, 0xBB2CF3D4, .vmulh 9 6 7 2 10 4)
  ] = true := by decide +kernel

theorem test_decode_14 : reads16 [
    (32, 0xBD2CF054, .vfma 9 6 7 2 10 4),
    (32, 0xBD2CF0D4, .vfms 9 6 7 2 10 4),
    (32, 0xBF2C3054, .vcvt 9 6 1 2 10 4),
    (32, 0xBF2C10D4, .vabs 9 6 2 10 4),
    (32, 0xBF2C1154, .vneg 9 6 2 10 4),
    (32, 0xBF2C11D4, .vsqrt 9 6 2 10 4),
    (32, 0xBF2C1254, .vrcp 9 6 2 10 4),
    (32, 0xBF2C12D4, .vrsq 9 6 2 10 4),
    (32, 0xBF2C1354, .vexp 9 6 2 10 4),
    (32, 0xBF2C13D4, .vlog 9 6 2 10 4),
    (32, 0xBF2C1454, .vsin 9 6 2 10 4),
    (32, 0xBF2C14D4, .vcos 9 6 2 10 4),
    (32, 0xBF2C1554, .vtanh 9 6 2 10 4)
  ] = true := by decide +kernel

theorem test_decode_15 : reads16 [
    (32, 0xC12CF054, .vand 9 6 7 2 10 4),
    (32, 0xC12CF0D4, .vor 9 6 7 2 10 4),
    (32, 0xC12CF154, .vxor 9 6 7 2 10 4),
    (32, 0xC12CF1D4, .vandn 9 6 7 2 10 4),
    (32, 0xC12CF254, .vshl 9 6 7 2 10 4),
    (32, 0xC12CF2D4, .vshr 9 6 7 2 10 4),
    (32, 0xC12CF354, .vsar 9 6 7 2 10 4),
    (32, 0xC12CF3D4, .vcmp 9 6 7 2 10 4),
    (32, 0xC12CF454, .vsel 9 6 7 2 10 4),
    (32, 0xC2DA1054, .vsum 6 26 2 10 4),
    (32, 0xC2DA10D4, .vrmax 6 26 2 10 4),
    (32, 0xC2DA1154, .vrmin 6 26 2 10 4),
    (32, 0xC32C11D4, .vscan 9 6 2 10 4)
  ] = true := by decide +kernel

theorem test_decode_16 : reads16 [
    (32, 0xC52CF052, .vperm 9 6 7 2 10 2),
    (32, 0xC53A90D4, .vbc 9 26 true 2 10 4),
    (32, 0xC4DA1154, .vext 6 26 2 10 4),
    (32, 0xC53A91D4, .vins 9 26 true 2 10 4),
    (32, 0xC5201254, .viota 9 2 10 4),
    (32, 0xC52C12D2, .vmov 9 6 2 10 2),
    (32, 0xC5241354, .vqmovPop 9 2 2 10 4),
    (32, 0xC44C3354, .vqmovPush 2 6 2 10 4),
    (32, 0xC7247054, .vmrg 9 2 3 2 10 4),
    (32, 0xC95D40A0, .mma 21 26 true 10),
    (32, 0xC95D40A1, .mmaz 21 26 true 10),
    (32, 0xCB5D40A0, .mbs 21 26 true 10),
    (32, 0xCB5D40A1, .mbsz 21 26 true 10),
    (32, 0xCD5D40A0, .msp 21 26 true 10),
    (32, 0xCD5D4001, .mpre 21 26 true),
    (32, 0xCC0D4002, .mpinv 26 true)
  ] = true := by decide +kernel

theorem test_decode_17 : reads16 [
    (32, 0xCF5D56A0, .mld 21 26 true 11 false 10),
    (32, 0xCF5D56A1, .mst 21 26 true 11 false 10),
    (32, 0xCE0000A2, .mzero 10),
    (32, 0xCF5D40A3, .mrd 21 26 true 10),
    (32, 0xCF5D56A5, .mstFill 21 26 true 11 false 10),
    (32, 0xCF5D56A6, .mstVnx 21 26 true 11 false 10),
    (32, 0xCF5D56A7, .mstVset 21 26 true 11 false 10),
    (32, 0xD15D5600, .mcmd 21 26 true 11 false),
    (32, 0xD15D4001, .mqry 21 26 true),
    (32, 0xD35D5600, .hacc 21 26 true 11 false),
    (32, 0xD35D5601, .hdrn 21 26 true 11 false),
    (32, 0xD20D5602, .sbnd 26 true 11 false),
    (32, 0xD35D5603, .carry 21 26 true 11 false)
  ] = true := by decide +kernel

theorem test_decode_18 : reads16 [
    (32, 0xD55D5600, .survBind 21 26 true 11 false),
    (32, 0xD40D4001, .survUnbind 26 true),
    (32, 0xD40D4002, .survStart 26 true),
    (32, 0xD40D4003, .survStop 26 true),
    (32, 0xD60D4020, .tmld 26 true 2),
    (32, 0xD60D4421, .tmset 26 true 2 2),
    (32, 0xD7500422, .tmget 21 2 2),
    (32, 0xD9500220, .cpy 21 1 2),
    (32, 0xD95D4221, .cpyg 21 26 true 1 2),
    (32, 0xD95D4222, .cpys 21 26 true 1 2),
    (32, 0xD9500423, .cpyq 21 2 2),
    (32, 0xD95D5624, .cpyf 21 26 true 11 false 2),
    (32, 0xF0340A5A, .srd 26 2650),
    (32, 0xF0750A5A, .swr 26 true 2650)
  ] = true := by decide +kernel

theorem test_decode_19 : reads16 [
    (32, 0xF2000A5A, .trap 2650),
    (32, 0xF2000800, .capMint),
    (32, 0xF2000801, .capNewGeneration),
    (32, 0xF2400000, .xret),
    (32, 0xF2800A5A, .brk 2650),
    (32, 0xF2C00000, .nop),
    (32, 0xF3000000, .synci),
    (32, 0xF40D5600, .ptinv 26 true 11 false),
    (32, 0xF40D5601, .atset 26 true 11 false),
    (32, 0xF5500002, .atsync 21),
    (32, 0xF55D5603, .migr 21 26 true 11 false),
    (32, 0xF55D4004, .gstop 21 26 true),
    (16, 0x0D57, .cAdd 21 11 true),
    (16, 0x155A, .cAddi 21 26),
    (16, 0x1D57, .cMov 21 11 true),
    (16, 0x255A, .cLi 21 26)
  ] = true := by decide +kernel

theorem test_decode_20 : reads16 [
    (16, 0x295A, .cLd 1 2 true 10),
    (16, 0x332A, .cSt 3 false 2 true 2),
    (16, 0x395A, .cBz 2 true 26),
    (16, 0x3D5A, .cBnz 2 true 26),
    (16, 0x425A, .cJ 602),
    (16, 0x482A, .cSub 1 2 true),
    (16, 0x492A, .cAnd 1 2 true),
    (16, 0x4A2A, .cOr 1 2 true),
    (16, 0x4B2A, .cXor 1 2 true),
    (16, 0x4C2A, .cShl 1 2 true),
    (16, 0x4D2A, .cShr 1 2 true),
    (16, 0x5005, .cWait 5),
    (16, 0x5D40, .cRecv 21),
    (16, 0x66A0, .cJr 26 true),
    (16, 0x6D57, .cPadd 21 11 true)
  ] = true := by decide +kernel

theorem test_decode_21 : reads16 [
    (16, 0x7000, .cNop),
    (16, 0x7100, .cYield),
    (16, 0x7200, .cHhalt),
    (16, 0x793A, .svFetch 2 3 10),
    (16, 0x7D3A, .svEmit 2 3 10)
  ] = true := by decide +kernel
/-! ### Small states -/

/-- A partition of the super-groups 0 and 1, the slices 0 to 7, the ports 0 and 1, the key slot 0 and the gigabytes 0 and 1, with a page
table at 0x3000_0000 and vectors. -/
def partition : Partition :=
  { record := (((((((Vector.replicate 64 0).set 0 3).set 1 0xFF).set 5 3).set 6 1).set 7 0x30000000).set 16 3)
    regs := { xvec := 0x4000, atlas := 0x10800, rdir := 0x10400 }, key := [1, 2, 3], generation := 1 }

/-- A context at a level with these registers, all live, at pc 0x1000. -/
def context (level : Nat) (regs : List (Nat × Word)) : Ctx :=
  { run := .ready, role := .task, pc := 0x1000, live := 0xFFFFFFFF, status := wordOf (0x180 + level * 4096)
    regs := regs.foldl (fun (v : Vector Word 32) e => v.setIfInBounds e.1 e.2) (Vector.replicate 32 0) }

/-- A page of partition 0, at the frame of its own number, readable, writable and executable, in the translation cache of every slice. -/
def pageAt (page size : Nat) : List Translation :=
  partition.slices.map (fun i => { part := 0, slice := 4352 + i, page := page, leaf := wordOf (page + 0x1F), entry := 0x30000000, size := size })

/-- Context x of core c issues. -/
def standAt (c x : Nat) (k : Ctx) : State :=
  { State.reset with
    cur := (c, x), parts := [(0, partition)], translations := pageAt 0x10000 0x1000, fwvec := 0x8000
    cores := (c, { ctxs := [(x, k)] }) :: State.reset.cores }

/-- The control context of core 5 issues. -/
def stand (level : Nat) (regs : List (Nat × Word)) : State := standAt 5 0 (context level regs)

/-- Doublewords in memory. -/
def withMem (s : State) (l : List (Nat × Word)) : State := l.foldl (fun (s : State) e => s.storeBytes e.1 8 e.2.toNat) s

/-- Whether an operation gave this value. -/
def gives {α : Type} [DecidableEq α] (r : Except Stop α) (x : α) : Bool :=
  match r with
  | .ok y => decide (y = x)
  | .error _ => false

def reads (s : State) (r : Nat) (x : Word) : Bool := gives (s.readReg (BitVec.ofNat 5 r)) x

/-- A question about the next state of an instruction; false where it gives none. -/
noncomputable def after (i : Instr) (s : State) (q : State → Bool) : Bool :=
  match exec i s with
  | .next t => q t
  | _ => false

/-- A pointer to an offset of the issuing core's own local SRAM. -/
def here (off : Nat) : Word := wordOf (1 * 2 ^ 52 + 0xFF * 2 ^ 44 + 5 * 2 ^ 32 + off)

/-- A question about the value that an operation gave. -/
def given {α β : Type} (r : Except β α) (q : α → Bool) : Bool :=
  match r with
  | .ok y => q y
  | .error _ => false

def refused {α β : Type} [DecidableEq β] (r : Except β α) (x : β) : Bool :=
  match r with
  | .ok _ => false
  | .error y => decide (y = x)

/-- The hypotheses of `LoadGives`: the request can be sent now, its home answers it, and the instruction can retire. -/
def loadMeets (u : State) (p : Word) (pl : Place) (n : Nat) (op : MemOp) (data expected : Word) (d : Reg) (len : Nat) (dies : List Reg)
    (hint : BitVec 2 := 0) : Bool :=
  pl.remote.isNone && !pl.lost && u.nowAt pl.key && given (u.readyToSend pl n 0) (fun _ => true) && (u.nearLoad p pl op hint).isNone
    && (match (u.depart pl).apply
          { u.requestOf p pl op data 0 none (u.targetOf d) with expected := expected, length := len, hint := hint } with
      | .done t v => t.mayRetire dies [(d, v)]
      | _ => false)

/-- The hypotheses of `StoreGives`. -/
def storeMeets (u : State) (p : Word) (pl : Place) (n : Nat) (op : MemOp) (data expected : Word) (len : Nat) (dies : List Reg) : Bool :=
  pl.remote.isNone && !pl.lost && u.nowAt pl.key && given (u.readyToSend pl n 1) (fun _ => true)
    && (match (u.depart pl).apply
          { u.requestOf p pl op data 1 (some pl.counter) .none with expected := expected, length := len } with
      | .done t _ => t.mayRetire dies []
      | _ => false)

/-- The same state, in which an earlier release of the issuing context is still held. -/
def busy (s : State) : State :=
  { s with nextId := s.nextId + 1, held := [{ id := s.nextId, core := s.cur.1, ctx := s.cur.2, mask := 0, what := .admin 0 }] }

/-- The hypotheses of both clauses of `ReleaseGives`, the second where an operation is outstanding. -/
def releaseMeets (s : State) (p : Word) (pl : Place) (n : Nat) (op : MemOp) (data : Word) (dies : List Reg) : Bool :=
  let busy := busy s
  given (s.extent s.me.dext p) (fun mask => s.drainedNow mask && storeMeets s p pl n op data 0 4 dies && !busy.drainedNow mask
    && given (busy.readyToSend pl n 1) (fun _ => true) && (busy.note pl).mayRetire dies [(0, 0)])

/-- The hypotheses of the clauses of `HomeGives`: its home answers, or the context waits. -/
def homeMeets (u : State) (p : Word) (pl : Place) (n cls : Nat) (d : Reg) (op : MemOp) (data : Word) (dies : List Reg) (answers : Bool) :
    Bool :=
  let r := { u.requestOf p pl op data cls (if cls = 1 then some pl.counter else none) .none with
    blocking := true, dies := dies, target := u.targetOf d }
  given (u.readyToSend pl n cls) (fun _ => true) && u.mayRetire dies [(d, 0)] && pl.remote.isNone && !pl.lost && u.nowAt pl.key
    && (match (u.depart pl).apply r with
      | .done t v => answers && (t.satisfied op).mayRetire dies [(d, v)]
      | .unmet => !answers
      | _ => false)

/-- The hypotheses of the clauses of `BlockingGives`. -/
def blockingMeets (s : State) (p : Word) (pl : Place) (cls : Nat) (releases : Bool) (d : Reg) (op : MemOp) (data : Word) (dies : List Reg)
    (answers : Bool) : Bool :=
  s.mySync.isNone && !s.holding && given (s.extent s.me.dext p) (fun mask => !releases || s.drainedNow mask)
    && homeMeets s p pl 8 cls d op data dies answers

/-! ### States that meet the hypotheses of the statements, at the boundaries of their clauses -/

/-- Two values that a register instruction reads and the value it writes. -/
def mayWrite (s : State) (a : Reg) (l : Bool) (b : Reg) (m : Bool) (d : Reg) (x y v : Word) : Bool :=
  gives (s.readReg a) x && gives (s.readReg b) y && s.mayRetire (used l a ++ used m b) [(d, v)]

/-- The boundary values of a 64-bit operand. -/
def edges : List Word := [0, 1, 0x7FFFFFFFFFFFFFFF, 0x8000000000000000, 0xFFFFFFFFFFFFFFFF]

theorem witness_Alu64Results : edges.all (fun x => edges.all (fun y =>
    mayWrite (stand 0 [(6, x), (7, y)]) 6 true 7 false 8 x y (x + y) && reads (stand 0 [(6, x), (7, y), (8, 1)]) 8 1)) = true := by
  decide +kernel

theorem witness_Alu32Results : edges.all (fun x => edges.all (fun y =>
    mayWrite (stand 0 [(6, x), (7, y)]) 6 false 7 true 8 x y (low32 (fun u v => u + v) x y))) = true := by decide +kernel

theorem witness_ImmediateResults : edges.all (fun x => (([0, 511, 512, 1023] : List (BitVec 10)).all (fun i =>
      mayWrite (stand 0 [(6, x)]) 6 true 6 false 8 x x (x + i.signExtend 64)))
    && ([0, 1, 2, 3] : List (BitVec 2)).all (fun h => mayWrite (stand 0 [(8, x)]) 0 false 8 false 8 0 x (putHalf x h 0xF4B6)
      && (List.range 64).all (fun k => (putHalf x h 0xF4B6).getLsbD k
        == if k / 16 = h.toNat then (0xF4B6#16).getLsbD (k % 16) else x.getLsbD k))) = true := by decide +kernel

theorem witness_BitFieldInstructions : ([(0, 0), (4, 4), (60, 8), (100, 10), (255, 64)] : List (Nat × Nat)).all (fun e =>
    mayWrite (stand 0 [(6, 0x80000000000000F0), (7, wordOf (e.1 + 256 * e.2)), (8, 3)]) 6 true 8 false 8 0x80000000000000F0 3
      (bitInsert 3 0x80000000000000F0 e.1 e.2) && decide (e.1 < 256 ∧ e.2 ≤ 64)) = true := by decide +kernel

theorem witness_MulDivResults : edges.all (fun x => edges.all (fun y =>
    mayWrite (stand 0 [(6, x), (7, y)]) 6 false 7 true 8 x y (if y = 0 then BitVec.allOnes 64 else BitVec.ofInt 64 (x.toInt.tdiv y.toInt))))
    = true := by decide +kernel

/-- The sum of PADD at both ends of its field and one beyond, and the FORMAT and the index of 2^40 of the other clauses (04_scalar.md R107,
R110). -/
theorem witness_PointerResults :
    (([(0x440FFFFFFFFFFFF0, 15, 0), (0x440FFFFFFFFFFFF0, 16, 1), (0x4400000000000010, -16, 0), (0x4400000000000010, -17, 1),
        (here 0xFFFFFFFF, 0, 0), (here 0xFFFFFFFF, 1, 1)] : List (Word × Int × Nat)).all (fun e =>
      let y := BitVec.ofInt 64 e.2.1
      let top := if ptrSpace e.1 = 1 then 31 else if ptrSpace e.1 = 2 then 39 else 51
      let t : Int := (bitsOf e.1 top 0 : Int) + y.toInt
      mayWrite (stand 0 [(6, e.1), (7, y)]) 6 true 7 true 8 e.1 y (setBits e.1 top 0 t.toNat)
        && (decide (0 ≤ t ∧ t < 2 ^ (top + 1)) == (e.2.2 == 0)))
    && fmtBytes (ptrFmt 0x5900001234000000) == 0 && fmtBytes (ptrFmt 0x4400000000001000) == 4
    && mayWrite (stand 0 [(6, 5), (7, 0xFFFFFFFFFF)]) 6 false 7 false 8 5 0xFFFFFFFFFF (wordOf (2 * 2 ^ 52 + 5 * 2 ^ 40 + 0xFFFFFFFFFF))
    && reads (stand 0 [(7, 0x10000000000)]) 7 0x10000000000) = true := by decide +kernel

/-- 04_scalar.md R109's example. -/
theorem witness_PcoreBuilds :
    (mayWrite (stand 0 [(6, 0x100), (7, 0xFF4B6)]) 6 true 7 false 8 0x100 0xFF4B6 0x001FF4B600000100
    && bitsOf 0x001FF4B600000100 63 55 == bitsOf 0x100 63 55 && bitsOf 0x001FF4B600000100 54 52 == 1
    && bitsOf 0x001FF4B600000100 51 32 == bitsOf 0xFF4B6 19 0 && bitsOf 0x001FF4B600000100 31 0 == bitsOf 0x100 31 0) = true := by
  decide +kernel

/-- The corners (0, 1) and (127, 31) of package 255. -/
theorem witness_ExtBuilds :
    let v : Word := 0xFFFF001FFF000000
    (mayWrite (stand 0 [(6, 0xFF001), (7, 0xFFFFF)]) 6 true 7 false 8 0xFF001 0xFFFFF v
    && bitsOf v 63 56 == bitsOf 0xFF001 19 12 && bitsOf v 55 48 == bitsOf 0xFFFFF 19 12 && bitsOf v 47 41 == bitsOf 0xFF001 11 5
    && bitsOf v 40 36 == bitsOf 0xFF001 4 0 && bitsOf v 35 29 == bitsOf 0xFFFFF 11 5 && bitsOf v 28 24 == bitsOf 0xFFFFF 4 0
    && bitsOf v 23 0 == 0) = true := by decide +kernel

/-- A branch taken and not, to an even target and, from an odd pc, to an odd one; the counter of LOOP at 0, 1 and 2. -/
theorem witness_ControlFlow :
    (mayWrite (stand 0 [(6, 1), (7, 2)]) 6 true 7 true 1 1 2 0x1004
    && ([0, 1, 2] : List Word).all (fun x => mayWrite (stand 0 [(8, x)]) 8 false 0 false 8 x 0 (x - 1))
    && ((stand 0 []).me.pc + (2#10).signExtend 64 * 2).getLsbD 0 == false
    && ((standAt 5 0 { context 0 [] with pc := 0x1001 }).me.pc + (2#25).signExtend 64 * 2).getLsbD 0
    && (0x1001 + (512#10).signExtend 64 : Word).getLsbD 0) = true := by decide +kernel

/-- Tensor 1 of the atlas at 0x10800: one dimension of 4 elements of I64 in one shard of this package at 0x10400. -/
def sharded (s : State) : State :=
  withMem s [(0x10840, wordOf (2 ^ 63 + 2 ^ 48 + 2 ^ 45 + 4 * 2 ^ 36)), (0x10848, wordOf (4 * 2 ^ 32 + 2 ^ 16)), (0x10870, 0x10C00),
    (0x10C00, 0xFF00000000000000), (0x10C08, 0x10400)]

/-- The same tensor, its shard on package 7. -/
def shardedFar (s : State) : State := withMem (sharded s) [(0x10C00, 0x0700000000000000)]

/-- A place of a page, of the issuing core's SRAM, and of the last doubleword of each. -/
def spots : List Word := [0x10000, 0x10FF8, here 0x10000, here 0x37FF8]

theorem witness_PlainLoads :
    (spots.all (fun p => ([0, 1, 2, 3] : List (BitVec 2)).all (fun z =>
      let s := stand 0 [(6, p), (7, 0)]
      reads s 6 p && reads s 7 0 && (advance p ((0#7).toInt * 2 ^ z.toNat) == some p)
      && given (s.placeOf p (2 ^ z.toNat) Need.load false) (fun pl =>
        loadMeets s p pl (2 ^ z.toNat) (.load (2 ^ z.toNat) true) 0 0 8 4 (used true 6))))
    && (let s := sharded (stand 0 [(6, 0x0020010000000000), (7, 3)])
      ptrSpace 0x0020010000000000 == 2 && advance 0x0020010000000000 3 == some 0x0020010000000003
      && s.mySync.isNone && !isService s.cur.1 && given (s.placeShard 0x0020010000000003 8 Need.load) (fun e =>
        loadMeets e.2 0x0020010000000003 e.1 8 (.load 8 false) 0 0 8 4 (used true 6 ++ used true 7)))
    && (let s := shardedFar (stand 0 [(6, 0x0020010000000000), (7, 3)])
      s.mySync.isNone && given (s.placeShard 0x0020010000000003 8 Need.load) (fun e => e.1.remote == some 7 && e.2.mySync.isNone
        && given (e.2.readyToSend e.1 8 0) (fun _ => true) && e.2.mayRetire (used true 6 ++ used true 7) [(8, 0)]))) = true := by decide +kernel

theorem witness_PlainStores :
    (spots.all (fun p => ([0, 1, 2, 3] : List (BitVec 2)).all (fun z =>
      let s := stand 0 [(6, p), (7, 0), (8, 5)]
      reads s 6 p && reads s 8 5 && (advance p ((0#7).toInt * 2 ^ z.toNat) == some p)
      && given (s.placeOf p (2 ^ z.toNat) Need.store false) (fun pl =>
        storeMeets s p pl (2 ^ z.toNat) (.store (2 ^ z.toNat)) 5 0 4 (used true 6 ++ used true 8))))
    && (let s := sharded (stand 0 [(6, 0x0020010000000000), (7, 3), (8, 5)])
      given (s.placeShard 0x0020010000000003 8 Need.store) (fun e =>
        storeMeets e.2 0x0020010000000003 e.1 8 (.store 8) 5 0 4 (used true 6 ++ used true 7 ++ used true 8)))
    && (let s := shardedFar (stand 0 [(6, 0x0020010000000000), (7, 3), (8, 5)])
      s.mySync.isNone && given (s.placeShard 0x0020010000000003 8 Need.store) (fun e => e.1.remote == some 7 && e.2.mySync.isNone
        && given (e.2.readyToSend e.1 8 1) (fun _ => true) && e.2.mayRetire (used true 6 ++ used true 7 ++ used true 8) [(0, 0)])))
    = true := by decide +kernel

/-- A sum below the field, a misaligned address, and a page that is not mapped. -/
theorem witness_PlainAccessTraps :
    (advance 0 ((127#7).toInt * 2 ^ (0#2).toNat) == none && reads (stand 0 [(6, 0), (8, 5)]) 6 0
    && advance 0x10001 ((0#7).toInt * 2 ^ (1#2).toNat) == some 0x10001 && ptrAddr 0x10001 % 2 == 1 && ptrSpace 0x10001 == 0
    && !fmtReserved (ptrFmt 0x10001) && (stand 0 []).myPart == some 0
    && refused ((stand 0 []).translate 0 0 Need.load 0x11000) 0 && refused ((stand 0 []).translate 0 0 Need.store 0x11000) 0) = true := by
  decide +kernel

theorem witness_SynchronisingAccesses :
    ([0x10000, here 0x10000] : List Word).all (fun p =>
      let s := stand 0 [(6, p), (7, 0), (8, 5)]
      let e := s.setTag (if p = 0x10000 then 0x10000 else sramKey 5 0x10000) 0
      reads s 6 p && reads s 7 0 && reads s 8 5 && advance p ((0#7).toInt * 8) == some p && advance p 0 == some p
      && given (s.placeOf p 8 Need.read_ true) (fun pl =>
        blockingMeets s p pl 0 false 9 .loadFut 0 (used true 6) true && blockingMeets e p pl 0 false 9 .loadFut 0 (used true 6) false
        && blockingMeets s p pl 0 false 9 (.loadVeq 0) 0 (used true 6 ++ used true 7) true
        && blockingMeets s p pl 0 false 9 (.loadVge 1) 1 (used true 6 ++ used true 7) false
        && loadMeets s p pl 8 .tagRead 0 0 9 4 (used true 6))
      && given (s.placeOf p 8 Need.read_ false) (fun pl => loadMeets s p pl 8 .tagRead 0 0 9 4 (used true 6))
      && given (s.placeOf p 8 Need.both true) (fun pl =>
        blockingMeets s p pl 0 false 9 .loadTake 0 (used true 6) true && blockingMeets e p pl 0 false 9 .loadTake 0 (used true 6) false)
      && given (s.placeOf p 8 Need.store true) (fun pl =>
        releaseMeets s p pl 8 .storeFill 5 (used true 6 ++ used true 8)
        && blockingMeets e p pl 1 true 0 .storeGive 5 (used true 6 ++ used true 8) true
        && blockingMeets s p pl 1 true 0 .storeGive 5 (used true 6 ++ used true 8) false
        && releaseMeets s p pl 8 .storeVnx 5 (used true 6 ++ used true 8)
        && releaseMeets s p pl 8 (.storeVset 0) 5 (used true 6 ++ used true 7 ++ used true 8))
      && given (s.placeOf p 8 Need.store false) (fun pl => releaseMeets s p pl 8 (.tagWrite 0) 0 (used true 6 ++ used true 7))) = true := by decide +kernel

/-- VRECL of no bytes, of the whole of a page, and of one that goes on into the next. -/
theorem witness_SynchronisingAccesses_vrecl :
    (let p : Word := 0x10000
     let s := stand 0 [(6, p), (7, 0x1000)]
     !fmtReserved (ptrFmt p) && ptrSpace p == 0 && ptrAddr p % 8 == 0 && bitsOf 0x1000 39 0 % 8 == 0
     && ptrAddr p / 4096 == (ptrAddr p + bitsOf 0x1000 39 0 - 1) / 4096
     && ptrAddr p / 4096 != (ptrAddr p + bitsOf 0x1008 39 0 - 1) / 4096 && bitsOf 0x1008 39 0 % 8 == 0
     && (stand 0 [(6, p)]).mayRetire (used true 6 ++ used true 7) []
     && given (s.placeOf p 8 Need.store false) (fun pl => (pl.seen.map (·.size)) == some 4096 && releaseMeets s p pl 0x1000 (.retire 0 512) 0 (used true 6 ++ used true 7)))
    = true := by decide +kernel

theorem witness_AtomicsSent :
    ([0x10008, here 0x10008] : List Word).all (fun p => ([4, 8] : List Nat).all (fun n =>
      let s := stand 0 [(6, p), (7, 3), (8, 5)]
      given (s.placeOf p n Need.both true) (fun pl =>
        loadMeets s p pl n (.amo .add n) 3 0 8 4 (used true 6 ++ used true 7)
        && storeMeets s p pl n (.amo .max n) 3 0 4 (used true 6 ++ used true 7)
        && loadMeets s p pl n (.cas n) 3 5 8 4 (used true 6 ++ used true 7)
        && storeMeets s p pl n (.cas n) 3 0 4 (used true 6 ++ used true 7)))) = true := by decide +kernel

/-- A reduction opened at both ends of the exponents of its fixed point, added to, read and closed, and the two uses of a join record. -/
theorem witness_ReductionsAndJoins :
    (let p : Word := 0x10000
     let s := stand 0 [(6, p), (7, 3)]
     !fmtReserved (ptrFmt p) && ptrSpace p == 0 && isNumberCode 4
     && ((0xBCE : Word).setWidth 12).toInt == -1074 && ((1023 : Word).setWidth 12).toInt == 1023
     && given (s.placeOf p 64 Need.store true) (fun pl =>
      let o := { s with accumulators := Table.put s.accumulators pl.key { part := 0, home := pl.home, e := 0 } }
      loadMeets s p pl 0 (.reduceOpen (-160)) 0 0 8 4 (used true 6 ++ used true 7)
      && loadMeets s p pl 0 (.reduceOpen (-1074)) 0 0 8 4 [] && loadMeets s p pl 0 (.reduceOpen 1023) 0 0 8 4 []
      && (o.accumulator pl.part pl.key).isSome && homeMeets o p pl 0 1 0 (.reduceAdd 4) 3 (used true 6 ++ used true 7) true
      && (s.accumulator pl.part pl.key).isNone && s.mySync.isNone)
     && given (s.placeOf p 64 Need.read_ true) (fun pl =>
      let o := { s with accumulators := Table.put s.accumulators pl.key { part := 0, home := pl.home, e := 0 } }
      homeMeets o p pl 0 0 8 (.reduceRead 4) 0 (used true 6) true && homeMeets o p pl 0 0 8 (.reduceClose 4) 0 (used true 6) true
      && o.mySync.isNone)
     && given (s.placeOf p 32 Need.both true) (fun pl => given ((busy s).readyToSend pl 32 0) (fun _ => true)
      && ((busy s).note pl).mayRetire (used true 6 ++ used true 7) [(8, 0)] && loadMeets s p pl 32 .jinit 3 0 8 4 [] && storeMeets s p pl 32 .jinit 3 0 4 [] && releaseMeets s p pl 32 .join 3 []
      && given (s.extent s.me.dext p) (fun mask => s.drainedNow mask) && loadMeets s p pl 32 .join 3 0 8 4 [])) = true := by decide +kernel

/-- A V-copy of the line at 0x10000, of which a store has modified the first doubleword. -/
def copied (s : State) : State :=
  { s with vcopies := [{ part := 0, line := 0x200, frame := 0x200, data := 0x77, dirty := 0xFF }] }

/-- The same line in the cache portion of core 5. -/
def cached (s : State) : State := (copied s).setCore 5 { s.core 5 with lsplit := 1, lines := [{ line := 0x200, data := 0x77 }] }

/-- A request of core 5 for the doubleword at 0x10000. -/
def asking (s : State) (op : MemOp) (data : Word) : Request :=
  s.requestOf 0x10000 { key := 0x10000, home := 4352, counter := 0, part := 0, line := some (0, 0x200) } op data 0 none .none

/-- A doubleword that is full, and one that is empty; data above, below and equal to what is there; and the copy that a slice writes back
before a LDT of its line. -/
theorem witness_HomesPerform :
    (let s := withMem (stand 0 []) [(0x10000, 5)]
     let u := (cached s).atSlice (asking s .loadFut 0)
     u.requests == [] && u.vcopies == [] && u.dword 0x10000 == 0x77 && u.aliasValues none 0x10000 8 == []
     && (s.atSlice (asking s .loadFut 0)).dword 0x10000 == 5 && s.requests == [] && !s.poisoned 0x10000 8 && tagFE (s.tag 0x10000) && !tagFE ((s.setTag 0x10000 0).tag 0x10000)
     && s.dword 0x10000 == 5 && decide ((5 : Word).toInt < (6 : Word).toInt) && decide ((4 : Word).toInt ≤ (5 : Word).toInt)
     && decide ((5 : Word).toInt ≤ (5 : Word).toInt)
     && !bitAt ((stand 0 []).dword 0x10000) 32 && bitAt ((withMem s [(0x10000, 0x100000002)]).dword 0x10000) 32
     && decide (2 ≤ bitsOf ((withMem s [(0x10000, 0x100000002)]).dword 0x10000) 31 0)) = true := by decide +kernel

/-- The V-copy of a line that a load reads and a store writes, at both ends of the line; the drop of a copy that stands alone and of one
before another; the acquire of a core with a line. -/
theorem witness_CachedLines :
    (let s := copied (withMem (stand 0 []) [(0x10000, 5)])
     let c : VCopy := { part := 0, line := 0x200, frame := 0x200, data := 0x77, dirty := 0xFF }
     let r (k : Nat) (op : MemOp) : Request := { asking s op 9 with key := k }
     let two := { s with vcopies := c :: [{ c with line := 0x201, frame := 0x201 }] }
     s.requests == [] && s.copyOf (some (0, 0x200)) 0x10000 == some c && s.copyOf (some (0, 0x200)) 0x1007F == some c
     && (r 0x10000 (.load 8 true)).op == .load 8 true && (r 0x1007F (.store 1)).op == .store 1 && (r 0x10000 (.store 8)).sealSlot.isNone
     && (r 0x1007F (.store 1)).line == some (0, 0x200) && !s.poisoned 0x10000 8 && Memory.wf s.mem && s.vcopies == c :: []
     && two.vcopies.tail.all (fun x => !(x.part == c.part && x.line == c.line)) && !s.dieLost (linearDie (c.frame * 128))
     && s.aliasValues (some (0, 0x200)) 0x10000 8 == [] && s.aliasValues (some (0, 0x200)) 0x1007F 1 == []
     && ((cached s).core 5).lines != []) = true := by decide +kernel

/-- A plain load that hits in the core cache, one that hits in the victim pool, and one with the hint `.byp`, which misses. -/
theorem witness_PlainLoads_near :
    (let s := cached (stand 0 [(6, 0x10000)])
     let p := (copied (stand 0 [(6, 0x10000)])).setCore 5 { (stand 0 [(6, 0x10000)]).core 5 with lsplit := 1 }
     let p := p.setCore 6 { p.core 6 with lsplit := 1, lines := [{ line := 0x200, data := 0x77, epoch := some 0 }] }
     let p := p.setTile (coreTile 5) { p.tile (coreTile 5) with vgroup := true }
     [s, p].all (fun u => given (u.placeOf 0x10000 8 Need.load false) (fun pl =>
       (match u.nearLoad 0x10000 pl (.load 8 true) 0 with
         | some (line, held, v) => (u.moveNear u.cur.1 line held 0).mayRetire (used true 6) [(8, v)]
         | none => false)
       && loadMeets u 0x10000 pl 8 (.load 8 true) 0 0 8 4 (used true 6) 3))) = true := by decide +kernel

theorem witness_FencesAndWaits :
    (let s := stand 0 [(6, 0xFFFF000FFF000000), (7, 0x10000), (8, 0x1000)]
     given (s.extent 0xFFFF000FFF000000 0xFFFF000FFF000000) (fun mask =>
       s.drainedNow mask && !(busy s).drainedNow mask
       && ((s.setMe { s.me with lost := 1 &&& ~~~mask }).acquire s.cur.1).mayRetire (used true 6) [(9, 3)]
       && ((cached s).acquire s.cur.1).mayRetire (used true 6) [(9, 3)])
     && given (s.rangeOf 0x10000 0 [0, 3]) (fun _ => true) && given (s.rangeOf 0x10000 0x1000 [0, 3]) (fun _ => true)
     && given (s.rangeOf (here 0) 0x1000 [0, 1, 2, 3]) (fun _ => true)
     && s.mayRetire (used true 7 ++ used true 8) [] && ptrSpace 0x10000 == 0 && !s.linesPending 0x10000 0x1000
     && { s with requests := [{ (asking s (.store 8) 5) with stage := .sent }] }.linesPending 0x10000 0x1000
     && (s.prefetchRange 0x11000 0x1000 0).mayRetire (used true 7 ++ used true 8) [] && (s.prefetchRange (here 0) 0x1000 0).mayRetire (used true 7 ++ used true 8) []
     && ((cached s).dropNear s.cur.1 ((cached s).linesOf 0x10000 0x1000)).mayRetire (used true 7 ++ used true 8) []
     && storeMeets s 0x10000 { key := 0, home := s.sliceOf 0 (0x10000 / 4096), counter := 0, part := 0 } 0 (.flush 0x1000) 0 0 4 []
     && s.me.outstanding.c0 == 0 && s.mayRetire [] []
     && decide ((14#4).toNat < (s.setMe { s.me with outstanding := { s.me.outstanding with c0 := 15 } }).me.outstanding.c0)) = true := by
  decide +kernel

theorem witness_StoresAreReadBack : (Memory.wf (stand 0 []).mem && Memory.wf (withMem (stand 0 []) [(0x10000, 5), (0x200, 7)]).mem) = true := by
  decide +kernel

/-- The routine directory gives routine 0 the entry 0x2000; the task image, the launch packet and the message at 0x10000 and the message at
0x10080 of class 8 are otherwise zero, and the list at 0x100C0 names 8 bytes for one destination of class. -/
def programs (s : State) : State :=
  withMem s [(0x10400, 0x2000), (0x10408, 0x8000000000000000), (0x10080, 8), (0x100C0, 0x801), (0x100C8, 0x10100)]

theorem witness_TaskInstructions :
    (let s := programs (stand 0 [(6, 0x10000), (7, 9)])
     given (s.taskImage 0x10000) (fun e => e.2 == 0x2000) && !s.classFull 1 && s.mayRetire (used true 6 ++ used true 7) []
     && s.drainedNow 15 && !(busy s).drainedNow 15 && given ((busy s).taskImage 0x10000) (fun _ => true)
     && given (spaces 0x10000 [0, 1]) (fun _ => true) && given (s.fetchImage 0x10000 0 16) (fun img =>
       bitsOf (img.getD 0 0) 44 42 == 0 && bitsOf (img.getD 4 0) 63 8 == 0 && (List.range 11).all (fun i => img.getD (5 + i) 0 == 0)
       && s.myPart == some (bitsOf (img.getD 0 0) 51 48))
     && given (s.routineEntry 0 0x10000) (fun _ => true) && s.mayRetire (used true 6) [(8, 0)] && s.mayRetire [] []) = true := by
  decide +kernel

theorem witness_MulticastsAndMessagesSent :
    (let y := here 0
     let s := programs (stand 0 [(6, 0x10080), (7, y)])
     given (s.messageImage 0x10080) (fun img => decide (8 ≤ bitsOf (img.getD 0 0) 4 0)) && !fmtReserved (ptrFmt y) && ptrSpace y == 1
     && decide (ptrPkg y ≠ 0xFE) && s.coreNamed y == some (.inl 5) && s.mayName 5 && !s.dieLost (coreDie 5) && !s.classFull 1
     && !s.retryFull && given (s.extent s.me.dext y) (fun mask => s.drainedNow mask) && s.mayRetire (used true 6 ++ used true 7) []
     && decide (s.coreCounter 5 ≠ 3)
     && (let r := s.setMe { s.me with replyTo := some (0, 5, 0) }
       given (r.destinationOf (wordOf (2 ^ 52 + 0 * 2 ^ 44 + 5 * 2 ^ 32))) (fun e => decide (e.2 ≠ 3))
       && given (r.extent r.me.dext 0x10080) (fun mask => r.drainedNow mask) && r.mayRetire (used true 6) [])) = true := by decide +kernel

/-- MCAST of one doubleword to one VIRT destination. -/
theorem witness_MulticastsAndMessagesSent_mcast :
    (let s := programs (stand 0 [(6, 0x10000), (7, 0x100C0)])
     given (spaces 0x10000 [0, 1]) (fun _ => true) && given (spaces 0x100C0 [0]) (fun _ => true) && !s.classFull 1
     && given (s.fetchData 0x100C0 8) (fun w =>
       let h := wordOf w
       bitsOf h 63 20 == 0 && !bitAt h 7 && bitsOf h 19 8 == 8 && bitsOf h 6 0 == 1
       && given (s.fetchImage 0x100C0 1 1) (fun dests => dests == [0x10100] && given (s.fetchImage 0x10000 0 1) (fun data =>
         given (((s.takeNumber.2).beginOp s.cur.1 s.cur.2 1 none).mcastAll false s.nextId s.takeNumber.1 (data.map (·.toNat)) false
           dests) (fun e => !e.1.requests.any (fun r => r.grp == s.nextId)
           && (e.1.complete s.cur.1 s.cur.2 (s.myPart.getD 0) s.me.opNumber (some 1) (if e.2 then 1 else 0) []).mayRetire
             (used true 6 ++ used true 7) [(8, 0)]))))) = true := by decide +kernel

/-- The issuing core has a message of class 8 for context 0 in its inbox. -/
def mailed (s : State) : State :=
  s.setMine { s.mine with inbox := [{ header := headerOf 0 6 1 0 7 0 8, arg0 := 11 }] }

theorem witness_MessagesTaken :
    (let s := mailed (stand 0 [(6, 0x10000)])
     given (s.storePlaces 0x10000 0 7) (fun places => !places.any (fun e => s.conflicts e.2.key 8)) && decide (s.me.outstanding.c1 < 57)
     && (match s.nextMessage s.cur.1 s.cur.2 with
       | some g => s.mayRetire [] [(8, g.header)] && s.mayRetire (used true 6) [(8, g.header)]
       | none => false)
     && (stand 0 []).nextMessage 5 0 == none && (stand 0 []).mayRetire [] [(8, 0)]) = true := by decide +kernel

/-- A helper of core 5 issues. -/
def standHelper (regs : List (Nat × Word)) : State := standAt 5 1 (context 0 regs)

theorem witness_HelpersAndHandlers :
    (let s := stand 1 [(6, 0x2000), (7, 3)]
     let h := programs (standHelper [(6, 0x10000), (7, 3)])
     let u := h.unbindStreams h.cur.1 h.cur.2
     let full := s.setMine { s.mine with ctxs := (List.range 11).map (fun x => (x, if x = 0 then s.me else context 0 [])) }
     decide (1 ≤ s.me.level) && s.cur.2 == 0 && !isService s.cur.1 && !bitAt (0x2000 : Word) 0 && s.mine.freeHelpers.head? == some 1
     && s.mayRetire (used true 6 ++ used true 7) [(8, 1)] && full.mine.freeHelpers == [] && full.mayRetire [] [(8, 0)]
     && decide (h.cur.2 ≠ 0) && u.quiet && !(busy u).quiet && given (h.taskImage 0x10000) (fun _ => true)
     && bitAt (2 : Word) 1 && !(s.mine.ctx 1).isLive && s.mayRetire (used true 6) [(8, 1)]
     && (full.mine.ctx 1).isLive && (full.nextMessage 5 0).isNone && ((mailed full).nextMessage 5 0).isSome) = true := by decide +kernel

theorem witness_HelpersAndHandlers_light :
    (let s := stand 0 [(6, 0x3001), (7, 0x3000)]
     let r := s.setMe { s.me with inLight := true }
     bitAt (0x3001 : Word) 0 && !bitAt (0x3000 : Word) 0 && s.mayRetire (used true 7) [] && r.me.inLight && r.mayRetire [] []
     && !s.me.inLight) = true := by decide +kernel

/-- Context 1 of core 5, in a crew of the two cores (0, 5) and (0, 6). -/
def inCrew (regs : List (Nat × Word)) : State :=
  let s := programs (standAt 5 1 { context 0 regs with role := .member 9 })
  { s with crews := [{ id := 9, part := 0, sg := 0, rect := ⟨0, 5, 1, 2⟩, members := [⟨5, 1, false⟩, ⟨6, 1, false⟩], join := 0, level := 0 }] }

theorem witness_CrewsAndBarriers :
    (let s := programs (stand 0 [(6, 0x10000), (7, 0)])
     let c := inCrew []
     given (s.taskImage 0x10000) (fun e =>
       let t := s.newTask e.1 e.2 none
       let req : CrewRequest := { task := t, w := 1, h := 1, level := t.prio.toNat, joined := s.gtc }
       let u := s.retiredTo (s.me.pc + 4) (used true 6 ++ used true 7) []
       (({ u with nextId := s.nextId + 1 }.beginOp s.cur.1 s.cur.2 1 none).crewArrive (superGroupOf s.cur.1) req).isSome)
     && !s.classFull 1 && s.mayRetire (used true 6 ++ used true 7) [] && s.drainedNow 15 && !(busy s).drainedNow 15
     && (c.crewOf c.cur.1 c.cur.2).isSome && c.mayRetire [] [(8, 0)] && (s.crewOf s.cur.1 s.cur.2).isNone) = true := by decide +kernel

/-- BAR over the whole crew, over the core of a context outside one, where the first arrival completes the epoch, and over the cores of
the package. -/
theorem witness_CrewsAndBarriers_bar :
    (let e : Word := wordOf (0xFD * 2 ^ 56 + 0xFD * 2 ^ 48 + 1 * 2 ^ 24)
     let one : Word := wordOf (0xFF * 2 ^ 56 + 0xFF * 2 ^ 48 + 5 * 2 ^ 36 + 5 * 2 ^ 24)
     let c := inCrew [(6, e)]
     let s := stand 0 [(6, one)]
     let b (cores : List Nat) (x : Arrival) : Barrier :=
       { extent := e, cores := cores, part := 0, counts := [(5, 0, 1, 1)], arrivals := [x] }
     let x (k : Nat) : Arrival := { core := 5, ctx := k, epoch := 0, rd := 8, status := 0, dies := used true 6 }
     c.barrierCores e == some [5, 6] && given (c.extent e e) (fun mask => c.drainedNow mask) && (b [5, 6] (x 1)).full 0 == false
     && c.barriers.find? (fun b => b.arrivals.any c.isMine) == none
     && s.barrierCores one == some [5] && given (s.extent one one) (fun mask => s.drainedNow mask) && (b [5] (x 0)).full 0
     && given (s.leaveBarrier (b [5] (x 0)) (x 0) (used true 6)) (fun _ => true)
     && s.barrierCores 0xFFFF000FFF000000 == none) = true := by decide +kernel

theorem witness_ChannelInstructions :
    (let s := stand 0 [(6, 0), (7, 0x10000), (8, 0x10003)]
     let bindTo (h : Channel) : State := s.setChannel 5 0 3 h
     let data : Channel := { kind := 4, entries := [{ data := 9 }] }
     let control : Channel := { kind := 4, entries := [{ control := true, data := 9 }] }
     let full : Channel := { kind := 0, entries := List.replicate 16 {} }
     let out : Channel := { kind := 2 }
     let lit := (bindTo control).setMe { (bindTo control).me with lightAddr := 0x6000 }
     s.bound 3 == none && given (s.binding 0 0x10000) (fun _ => true) && s.mayRetire (used true 6 ++ used true 7) []
     && (bindTo data).bound 3 == some data && data.readable && bitsOf (8 : Word) 2 0 == 0
     && ((bindTo full).bound 3 == some full && !(bindTo full).filling 3)
     && headEntry ((bindTo data).entriesOf 5 data) == some { data := 9 } && (bindTo data).mayRetire [] [(8, 9)]
     && headEntry (lit.entriesOf 5 control) == some { control := true, data := 9 }
     && (let u := lit.setEntries 5 0 3 control (lit.entriesOf 5 control).tail
       decide (u.me.lightAddr ≠ 0) && !u.me.inLight)
     && !out.readable && decide (((bindTo out).entriesOf 5 out).length < 16) && (bindTo out).mayRetire (used true 6) []) = true := by
  decide +kernel

/-- Core 5 has asked for lanes, another core is ahead of it in the queue of the tile. -/
def behindOther (s : State) : State :=
  s.setTile 1 { s.tile 1 with claimQueue := [{ core := 6, ctx := 0, req := 256, minreq := 16 }] }

/-- A request of 0 lanes, of 256 lanes with least 16, and the same with W. -/
theorem witness_LaneClaims :
    (let s := stand 0 [(6, 0x10100)]
     !isService s.cur.1 && reads s 6 0x10100 && s.me.claim.isNone && claimReq 0 == 0 && claimReq 0x10100 == 256
     && claimMin 0x10100 == 16 && s.mayGrant (coreTile 5) && s.freeGroups (coreTile 5) == 16
     && min (claimReq 0x10100) (16 * s.freeGroups (coreTile 5)) == 256 && s.mayRetire (used true 6) [(8, 0)]
     && s.mayRetire (used true 6) [(8, 256)] && !(behindOther s).mayGrant (coreTile 5) && !claimWaits 0x10100
     && claimWaits 0x80010100 && (behindOther s).claimPlace (coreTile 5) == none
     && (s.openGroups (coreTile 5)).length == 16) = true := by decide +kernel

/-- The control context of core 5 holds a claim of 32 lanes, its registers 1 to 3 of the elements 0, 1, 2, …, -1 and 1. -/
def vectors (regs : List (Nat × Word)) : State :=
  let c := Claim.fresh [3, 4] 32 16
  let c := c.setReg 1 ((List.range 32).map (fun i => BitVec.ofNat 32 i))
  let c := c.setReg 2 (List.replicate 32 0xFFFFFFFF)
  let c := c.setReg 3 (List.replicate 32 1)
  standAt 5 0 { context 0 regs with claim := some { c with k1 := 4, k2 := 0, k3 := 32 } }

/-- A renegotiation that shrinks, one that grows, and one that is refused and does not wait. -/
theorem witness_LaneClaims_held :
    (let s := vectors [(6, 0x10010), (7, 0x100100)]
     let c := (s.me.claim.getD (Claim.fresh [] 0 0)).settled
     s.me.claim == some c && c.g == 32 && claimReq 0x10010 == 16 && claimReq 0x100100 == 256 && s.mayGrant (coreTile 5)
     && (s.otherGroups (coreTile 5) c).length == 14 && claimMin 0x100100 == 16 && !(behindOther s).mayGrant (coreTile 5)
     && !claimWaits 0x100100 && s.mayRetire (used true 6) [(8, 16)] && s.mayRetire (used true 6) [(8, 256)]
     && s.mayRetire (used true 6) [(8, 32)] && s.mayRetire [] [] && (stand 0 []).me.claim.isNone) = true := by decide +kernel

/-- Vector registers v of the claim can be read and written, and type t is the format f. -/
def vectorMeets (s : State) (t : BitVec 4) (f : Fmt) (rs : List (BitVec 4)) : Bool :=
  s.me.claim.isSome && fmtOf (typeCode t.toNat) == some f && s.mayRetire [] []
  && rs.all (fun v => !s.vAwaited v && (Table.look s.me.lostLoads (64 + v.toNat)).isNone
    && given (s.readV (s.me.claim.getD (Claim.fresh [] 0 0)) v) (fun _ => true))

/-- Every number of active elements: all, 4 and none; types of 8, 32 and 64 bits and a floating type. -/
theorem witness_VectorElementOperations :
    (let s := vectors []
     let c := s.me.claim.getD (Claim.fresh [] 0 0)
     vectorMeets s 0 (.int true 8) [1, 2, 3] && vectorMeets s 2 (.int true 32) [1, 2, 3] && vectorMeets s 7 (.int false 64) [1, 2, 3]
     && vectorMeets s 9 (.flt fmtF32) [1, 2, 3] && vectorMeets s 8 (.flt fmtF64) [1, 2, 3]
     && active c 0 32 == 32 && active c 1 32 == 4 && active c 2 32 == 0 && active c 0 64 == 16
     && decide ((5#3).toNat < 6)) = true := by decide +kernel

/-- A counter that reaches its bound within g lanes, one that does not, and one that is past it; VEXT of no element and of the last. -/
theorem witness_VectorReductionsMovesPredicates :
    (let s := vectors [(6, 0), (7, 33), (8, 0xFFFFFFFFFFFFFFFF)]
     let c := s.me.claim.getD (Claim.fresh [] 0 0)
     vectorMeets s 2 (.int true 32) [1, 2, 3] && s.mayRetire [] [(9, 4)] && s.mayRetire (used true 6 ++ used true 7) [(9, 1)]
     && reads s 6 0 && reads s 7 33 && reads s 8 0xFFFFFFFFFFFFFFFF && s.mayRetire (used true 6) []
     && active c 2 32 == 0 && decide (0 < active c 0 32) && decide (active c 0 32 = positions 32 c.g) && decide (active c 1 32 < positions 32 c.g)
     && c.pred 1 == 4 && (c.setPred 0 7).pred 0 == 32) = true := by decide +kernel

/-- VIRT elements of I32 at 0x10000, at a stride of 8 bytes, and at the indices of register 1; VLDF to the last element of the page and
beyond. -/
theorem witness_VectorMemoryAndChannels :
    (let p : Word := 0x0C00000000010000
     let q : Word := 0x0C00000000010FFC
     let s := vectors [(6, p), (7, 8), (10, q)]
     let c := s.me.claim.getD (Claim.fresh [] 0 0)
     let f : Fmt := .int true 32
     let loads (places : List (Word × Place)) : Bool := places.all (fun e => (s.ownRead e.1 e.2 4 0).isSome && (s.ownRead e.1 e.2 4 3).isSome && !e.2.lost && e.2.remote.isNone
       && s.nowAt e.2.key) && given (s.groupReady places 4 0) (fun _ => true) && s.mayRetire (used true 6 ++ used true 7) []
     let later := { s with eager := false }
     let travels (places : List (Word × Place)) : Bool := places.all (fun e => (later.nearHit e.1 e.2 0).isNone && later.elementLater e.2)
       && given (later.groupReady places 4 0) (fun _ => true)
     let stores (places : List (Word × Place)) : Bool := given (s.groupReady places 4 1) (fun _ => true)
     let run (n : Nat) : List Int := (List.range n).map (fun (i : Nat) => (i : Int) * 4)
     given (vectorFormat p) (fun e => e.1 == f && e.2 == 4) && vectorMeets s 2 f [1, 2]
     && given (s.elementPlaces p 4 Need.load (run 4)) loads && given (s.elementPlaces p 4 Need.store (run 4)) stores
     && given (later.elementPlaces p 4 Need.load (run 4)) travels && given (s.elementPlaces p 4 Need.load (run 0)) loads && given (s.elementPlaces p 4 Need.store (run 0)) stores
     && given (s.elementPlaces p 4 Need.load ((List.range 4).map (fun (i : Nat) => (i : Int) * 8))) loads
     && given (s.elementPlaces p 4 Need.load (gathered (c.reg 1) 4 4)) loads
     && given (s.elementPlaces p 4 Need.store (gathered (c.reg 1) 4 4)) stores
     && ((s.elementsUntil p 4 Need.load (run 4)).2.isNone && loads (s.elementsUntil p 4 Need.load (run 4)).1)
     && ((s.elementsUntil q 4 Need.load (run 2)).2.isSome && (s.elementsUntil q 4 Need.load (run 2)).1.length == 1)) = true := by
  decide +kernel

theorem witness_VectorMemoryAndChannels_vqmov :
    (let s := vectors []
     let c := s.me.claim.getD (Claim.fresh [] 0 0)
     let h : Channel := { kind := 4, entries := [{ data := 9 }] }
     let out : Channel := { kind := 2 }
     let t := s.setChannel 5 0 3 h
     let u := s.setChannel 5 0 3 out
     let full : Channel := { kind := 0, entries := List.replicate 16 {} }
     t.bound 3 == some h && h.readable && vectorMeets t 2 (.int true 32) [1] && active c 2 32 == 0 && decide (0 < active c 1 32)
     && headEntry (t.entriesOf t.cur.1 h) == some { data := 9 } && u.bound 3 == some out && !out.readable
     && decide ((u.entriesOf u.cur.1 out).length < 16) && decide (16 ≤ ((s.setChannel 5 0 3 full).entriesOf 5 full).length)
     && (let g := (s.setChannel 5 0 3 { kind := 4, entries := [{ control := true }] }).setMe { s.me with lightAddr := 0x6000 }
       decide (g.me.lightAddr ≠ 0) && !g.me.inLight && !g.vAwaited 1)) = true := by decide +kernel

/-- Two channels whose keys come in turns, merged to a count of 4, and two control values that end the merge. -/
theorem witness_MergeCompletes :
    (let ha : Channel := { kind := 4, entries := [{ data := 1 }, { data := 3 }, { control := true }] }
     let hb : Channel := { kind := 4, entries := [{ data := 2 }, { data := 4 }, { control := true }] }
     let s := ((vectors []).setChannel 5 0 1 ha).setChannel 5 0 2 hb
     let c := s.me.claim.getD (Claim.fresh [] 0 0)
     let r := mergeLoop (.int true 32) true (active c 1 32) (readyEntries (s.entriesOf 5 ha)) (readyEntries (s.entriesOf 5 hb)) []
     let p := mergeLoop (.int true 32) false 2 (readyEntries (s.entriesOf 5 ha)) (readyEntries (s.entriesOf 5 hb)) []
     let e := mergeLoop (.int true 32) true (active c 3 32) (readyEntries (s.entriesOf 5 ha)) (readyEntries (s.entriesOf 5 hb)) []
     s.bound 1 == some ha && ha.readable && s.bound 2 == some hb && hb.readable && vectorMeets s 2 (.int true 32) [1]
     && !bitAt s.me.mrgst 63 && s.eager && p.2.2.1 == [1, 2] && !p.2.2.2 && r.2.2.1 == [1, 2, 3, 4] && r.2.2.2 && e.2.2.1 == [1, 2, 3, 4] && e.2.2.2) = true := by decide +kernel

theorem witness_VectorElementsWritten :
    (element (putElements (List.replicate 4 7) (.int false 8) 1 [300, 2]) 8 1 == 300 % 2 ^ 8
    && element (putElements (List.replicate 4 7) (.int false 8) 1 [300, 2]) 8 3 == 7 && decide (1 + [300, 2].length ≤ 4)) = true := by
  decide +kernel

/-- An MMA block at 0x10100 of F32 operands at 0x10200 and 0x10300 with K = 1, MBS the same with one bit plane of I8 and K = 64, and MSP
with the tile at 0x10200; and a map image at 0x10140 of 4 raw bytes at 0x10400 and the descriptor of a stream at 0x10180. -/
def blocks (s : State) : State :=
  withMem s [(0x10100, wordOf (0x11 * 2 ^ 48 + 0x11 * 2 ^ 42 + 2 ^ 20)), (0x10108, 0x10200), (0x10110, 32), (0x10118, 0x10300),
    (0x10120, 32),
    (0x10900, wordOf (2 ^ 60 + 0x20 * 2 ^ 48 + 2 ^ 42 + 64 * 2 ^ 20 + 2 ^ 16)), (0x10908, 0x10200), (0x10910, 64), (0x10918, 0x10300),
    (0x10920, 32),
    (0x10A00, wordOf (2 * 2 ^ 60 + 0x11 * 2 ^ 48 + 0x11 * 2 ^ 42)), (0x10A08, 0x10200), (0x10A18, 0x10300)]

/-- The engine of core 5 has room, and the counters of DEXT have drained. -/
def engineOpen (s : State) (q : Word) : Bool :=
  decide (s.mine.engine.accepted.length < 8) && !s.classFull 3 && given (s.extent s.me.dext q) (fun mask => s.drainedNow mask)

theorem witness_MatrixCommandsQueued :
    (let s := blocks (stand 0 [(6, 0x10100)])
     let cmd (b : Vector Word 8) (k : CmdKind) (z : Bool) : Command := (s.newCommand k 1).withBlock b z 1
     !isService s.cur.1 && given (spaces 0x10100 [0, 1]) (fun _ => true)
     && given (s.blockAt 0x10100) (fun b => given (s.checkBlock s.cur.1 (cmd b .mma false) 0x10100) (fun _ => true)
       && given (s.checkBlock s.cur.1 (cmd b .mma true) 0x10100) (fun _ => true))
     && given (s.blockAt 0x10900) (fun b => given (s.checkBlock s.cur.1 (cmd b .mbs false) 0x10900) (fun _ => true)
       && given (s.checkBlock s.cur.1 (cmd b .mbs true) 0x10900) (fun _ => true))
     && given (s.blockAt 0x10A00) (fun b => given (s.checkBlock s.cur.1 (cmd b .msp false) 0x10A00) (fun _ => true)
       && !bitAt (b.toList.getD 0 0) 59)
     && engineOpen s 0x10100 && s.mayRetire (used true 6) [(8, 0)]) = true := by decide +kernel

theorem witness_MatrixCommandsQueued_mld :
    (let q : Word := 0x4400000000010000
     let s := stand 0 [(6, q), (7, 32)]
     given (s.engineSpace q [0, 1, 3]) (fun _ => true) && s.patchOk 5 0 && s.patchOk 5 15
     && !s.overlaps 5 0 q (ptrFmt q) 32 (bitsOf 32 39 0) 32 && engineOpen s q && mldFormat (ptrFmt q) && mstFormat (ptrFmt q)
     && tagAligned q (bitsOf 32 39 0) && s.mayRetire (used true 6 ++ used true 7) [(8, 0)] && s.mayRetire [] []) = true := by
  decide +kernel

/-- A patch that a running command names, and one that none names; MCMD at once and held. -/
theorem witness_EngineQueriesAndSparseTables :
    (let s := blocks (stand 0 [(6, 0x10100), (7, here 0)])
     let b := s.setMine { s.mine with engine := { s.mine.engine with running := some (s.newCommand .mld 1) } }
     !s.conflicts (sramKey 5 0x1000) 4 && s.patchOk 5 1 && b.patchBusy (sramKey 5 0x1000) && !s.patchBusy (sramKey 5 0x1000) && !s.poisoned (sramKey 5 0x1000) 4
     && s.mayRetire (used true 6) [(8, 0)] && bitsOf (0 : Word) 7 0 == 0 && given (s.blockAt 0x10100) (fun _ => true)
     && given (spaces (here 0) [1]) (fun _ => true) && s.coreNamed (here 0) == some (.inl 5) && s.mayName 5 && !s.dieLost (coreDie 5)
     && !s.classFull 3 && given (s.extent s.me.dext 0x10100) (fun mask => s.drainedNow mask && !(busy s).drainedNow mask)
     && s.mayRetire (used true 6 ++ used true 7) [(8, 0)] && ptrSpace 0x10000 == 0 && ptrAddr 0x10000 % 8 == 0) = true := by decide +kernel

/-- A hash table of 16 entries of I64 at 0x10000 of the SRAM, and arrays of one key and one value at 0x10100 and 0x10200. -/
def tables (s : State) : State :=
  let s := withMem s [(sramKey 5 0x10000, 0x40004), (0x10000, 0x1000000000010100), (0x10008, 0x1000000000010200), (0x10010, 1), (0x10100, 7),
    (0x10200, 9)]
  { s with tags := (List.range 16).map (fun e => ((sramKey 5 0x10010 + 16 * e) / 8, 0)) }

theorem witness_EngineQueriesAndSparseTables_hash :
    (let p := here 0x10000
     let s := tables (stand 0 [(6, p), (7, 0x10000)])
     given (s.hashTable p) (fun t => t.logc == 4 && t.vfmt == 4
       && given (s.arrayDescriptor 0x10000) (fun (keys, vals, n) => ptrFmt keys == 4 && haccValue (ptrFmt vals) && n == 1
         && given (s.haccFrom t keys vals false 1 0) (fun u => (u.setHprog 0).mayRetire (used true 6 ++ used true 7) [(8, 1)]
           && s.eager && bitsOf s.me.hprog 39 0 == 0 && given (s.tableUses t) (fun _ => true)
           && u.occupied t == [(7, 9)] && decide ((u.occupied t).length ≤ n)
           && given (u.drainPlaces keys 8 0 1) (fun _ => true) && given (u.drainPlaces vals (fmtBytes t.vfmt) 0 1) (fun _ => true)
           && decide (u.me.outstanding.c1 < 62))))
     && s.mayRetire (used true 6 ++ used true 7) [] && given (s.tableHeader p) (fun _ => true)
     && given (spaces 0x10000 [0, 3]) (fun _ => true)
     && given (s.placeOf 0x10000 16 Need.both true) (fun pl => s.mySync.isNone
       && homeMeets s 0x10000 pl 16 1 0 .carry 5 (used true 6 ++ used true 7) true
       && homeMeets s 0x10000 pl 16 0 8 .carry 5 (used true 6 ++ used true 7) true)) = true := by decide +kernel

/-- A stream of one line at 0x10400 whose kernel at 0x10000 ends at once, bound to the lowest of four free streams and to none. -/
theorem witness_SurveyorInstructions :
    (let s := withMem (stand 0 [(6, 0x10180), (7, 0x10000)]) [(0x10180, 0x10400), (0x10188, 1), (0x10000, 0x7200)]
     let t : Stream := { ctx := 0, kernel := [0x7200], pointer := 0x10400, lines := 1, base := 0 }
     let u := s.setMine { s.mine with streams := [(1, t), (2, t), (3, t), (4, t)] }
     given (spaces 0x10180 [0, 1]) (fun _ => true) && ptrAddr 0x10180 % 8 == 0
     && given (s.fetchImage 0x10180 0 4) (fun desc => given (spaces (desc.getD 0 0) [0]) (fun _ => true)
       && ptrAddr (desc.getD 0 0) % 64 == 0 && bitsOf (desc.getD 1 0) 63 40 == 0 && desc.getD 3 0 == 0)
     && !bitAt (0x10000 : Word) 0 && given (s.kernelFrom 0x10000 64) (fun k => k == some [0x7200]) && (kernelError [0x7200]).isNone
     && (Table.look s.mine.streams 1).isNone && s.mayRetire (used true 6 ++ used true 7) [(8, 1)]
     && (Table.look u.mine.streams 4).isSome && u.mayRetire (used true 6 ++ used true 7) [(8, 0)]
     && Table.look u.mine.streams (bitsOf (4 : Word) 2 0) == some t && u.mayRetire (used true 6) []) = true := by decide +kernel

/-- A map of 4 raw bytes at 0x10400. -/
def byteMap : Vector Word 8 := ⟨#[0x10400, 0, 0x100000400, 0x100, 0x100, 0x100, 0x100, 0], rfl⟩

/-- A copy of 4 raw bytes; one whose map has no elements; the copy to a list, from a channel and of a value. -/
theorem witness_TensorMapsAndCopies :
    (let s := stand 0 [(6, 0x0C00000000010000), (7, 0)]
     let s := s.setMe { s.me with maps := (s.me.maps.setIfInBounds 1 byteMap).setIfInBounds 2 byteMap }
     let s := s.setChannel 5 0 3 { kind := 0 }
     let m := withMem s [(0x10140, 0x10400), (0x10150, 0x100000400), (0x10158, 0x100), (0x10160, 0x100), (0x10168, 0x100), (0x10170, 0x100)]
     let ok (c : Copy) : Bool := !c.null && given (s.checkCopy c) (fun _ => true)
       && given (s.extent s.me.dext (mapBase c.dst)) (fun mask => s.drainedNow mask && !(busy s).drainedNow mask)
     (mapError byteMap).isNone && given (m.fetchImage 0x10140 0 8) (fun img =>
       (mapError (Vector.ofFn (fun i : Fin 8 => img.getD i.val 0))).isNone)
     && (mapError ((s.mapReg 1).setIfInBounds 1 5)).isNone && s.mayRetire (used true 6) []
     && ok (s.newCopy .cpy (s.mapReg 1) (s.mapReg 2)) && ok { s.newCopy .cpyg (s.mapReg 1) (s.mapReg 2) with list := 0x0C00000000010000 }
     && ok { s.newCopy .cpys (s.mapReg 1) (s.mapReg 2) with list := 0x0C00000000010000 }
     && ok { s.newCopy .cpyq (s.mapReg 1) (s.mapReg 1) with channel := 3 } && ok { s.newCopy .cpyf (s.mapReg 1) (s.mapReg 1) with value := 1 }
     && (s.newCopy .cpy (s.mapReg 0) (s.mapReg 0)).null && decide ((s.tile (coreTile 5)).copies.length < 16) && !s.classFull 2
     && s.mayRetire (used true 6 ++ used true 7) [(8, 0)]) = true := by decide +kernel

/-- CAUSE reads at level 1 and takes no write, FADDR is written at level 1; 0x3FF is no register. -/
theorem witness_StateRegisters :
    (let s := stand 1 [(6, 5)]
     let u := stand 0 [(6, 5)]
     regLevels 5 0 == some (0, some 0) && reads s 6 5 && s.mayRetire [] [(8, s.readState 0)] && s.mayRetire (used true 6) []
     && (List.range 4096).any (fun n => match regLevels 5 n with
       | some (r, some w) => decide (u.me.level < r) && decide (u.me.level < w)
       | _ => false)
     && (List.range 4096).any (fun n => match regLevels 5 n with
       | some (_, none) => true
       | _ => false)
     && (regLevels 5 0xFFF).isNone && !s.anyPatchBusy 5) = true := by decide +kernel

theorem witness_StateRegisterFields :
    ((List.range 16).all (fun v => (context 0 []).level == 0 && (context 2 []).level == 2 && bitsOf (wordOf v) 2 0 == v % 8)
    && decide (0x200 ≤ 0x206 ∧ 0x206 ≤ 0x20B) && (0 : Word) &&& 0xFFFF == 0) = true := by decide +kernel

/-- Level 0 with a vector, TRAP of 2,047 and 2,048, and level 2. -/
theorem witness_TrapEntryAndDoubleTrap :
    (([0, 1, 2] : List Nat).all (fun v =>
      let s := stand v []
      s.me.level == v && !s.me.inTrap && decide ((s.partRegs s.myPart).xvec &&& ~~~1#64 ≠ 0) && decide (s.fwvec &&& ~~~1#64 ≠ 0))
    && (let f := standAt 4108 0 { context 2 [] with status := wordOf (0x180 + 2 * 4096 + 2048) }
      let n := { standAt 4108 0 (context 2 []) with fwvec := 0 }
      f.me.inTrap && f.myPart.isNone && n.vector (n.me.trapLevel { cause := .illegal, faddr := 0 }) == 0 && n.myPart.isNone)) = true := by
  decide +kernel

theorem witness_SystemInstructions :
    (let s := stand 0 []
     let h (pc : Word) : State := standAt 5 0 { context 1 [] with status := wordOf (0x180 + 4096 + 2048), xpc := pc }
     decide ((2047#12).toNat < 2048) && decide (2048 ≤ (2048#12).toNat) && s.me.level == 0 && (stand 1 []).me.level == 1
     && !(stand 1 []).me.inTrap && (h 0x2000).me.inTrap && (h 0x2000).me.level == 1 && !(h 0x2000).me.xpc.getLsbD 0
     && (h 0x2001).me.xpc.getLsbD 0 && s.mayRetire [] [] && s.drainedNow allCounters && !(busy s).drainedNow allCounters) = true := by
  decide +kernel

/-- CAP_MINT for a core of the partition, for one of another, and for rights of 31 and 32. -/
theorem witness_CapabilityAndPrivilegeTraps :
    (([5, 64] : List Nat).all (fun target => ([31, 32] : List Nat).all (fun rights =>
      let s := stand 1 [(4, wordOf (target + rights * 4096))]
      let c := { s.me.enter { cause := .trap, code := 0x800, xpc := some (s.me.pc + 4) } (s.fwvec &&& ~~~1#64) with pc := 0 }.leave
      decide (1 ≤ s.me.level) && !s.me.inTrap && s.myPart == some 0 && s.part 0 == some partition && c.live.getLsbD 4
      && bitsOf (c.at_ 4) 11 0 == target && bitsOf (c.at_ 4) 19 12 == rights && (s.setMe (c.setReg 5 1)).poolFits (c.setReg 5 1)
      && (s.setMe (c.setReg 5 2)).poolFits (c.setReg 5 2) && (s.setMe c).poolFits c
      && (let k := (c.setReg 4 (partition.capability 0 rights target)).setReg 5 0
        (s.setMe k).poolFits k)))
    && (stand 1 []).partOf 5 == some 0 && (stand 1 []).partOf 4095 != some 0 && (stand 0 []).me.level == 0) = true := by decide +kernel

/-- A tensor entry at 0x10840 with generation 1, an image of generation 2 at 0x10100 and one of generation 1. -/
theorem witness_TranslationInstructions :
    (let s := withMem (sharded (stand 1 [(6, 1), (7, 0x10100), (9, 0x1000), (10, 0x10000)]))
       [(0x10100, wordOf (2 ^ 63 + 2 * 2 ^ 48 + 2 ^ 45 + 4 * 2 ^ 36)), (0x10108, wordOf (4 * 2 ^ 32 + 2 ^ 16)), (0x10130, 0x10C00)]
     let held : Held := { id := 0, core := 5, ctx := 0, mask := 0, what := .admin 7 }
     let w := { s with nextId := 1, held := [held] }
     decide (1 ≤ s.me.level) && given (spaces 0x10000 [0]) (fun _ => true) && s.myPart == some 0 && s.drainedNow allCounters
     && !(busy s).drainedNow allCounters && s.mayRetire (used true 6 ++ used true 7) []
     && given (s.fetchImage 0x10100 0 8) (fun img => imageAccepted (Vector.ofFn (fun i : Fin 8 => img.getD i.val 0))
       && bitsOf (img.getD 0 0) 55 48 == 2 && decide ((s.partRegs s.myPart).atlas ≠ 0)
       && (let va := ptrAddr (s.partRegs s.myPart).atlas + 64 * bitsOf 1 11 0
         let old (s : State) (g : Nat) : Bool := given (s.placeOf (wordOf va) 8 Need.both false) (fun pl => !pl.lost
           && (match s.plainRead pl 8 with
             | some v => bitsOf (wordOf v) 55 48 == g
             | none => false)
           && ((s.note pl).fill pl.line pl.key pl.sealSlot 0 false).mayRetire (used true 6 ++ used true 7) [])
         given (s.translate 0 1 Need.both va) (fun e => old s 1 && old (withMem s [(e.2, 2 * 2 ^ 48)]) 2)))
     && s.mySync284.isNone && w.mySync284 == some (held, 7) && !w.oldLookups 0 7
     && { w with requests := [{ (s.requestOf 0 { key := 0, home := 4352, counter := 0, part := 0 } (.load 8 false) 0 0 none .none) with
            tensor := some (1, 1, 0) }] }.oldLookups 0 7
     && w.mayRetire [] [(8, 0)]) = true := by decide +kernel

theorem witness_CompactForms :
    (let s := stand 0 [(5, 3), (6, 0), (7, 0x2001)]
     reads s 5 3 && reads s 6 0 && reads s 7 0x2001 && s.mayRetire (used true 6) [(5, 3)] && s.mayRetire [] [(5, 3)] && s.mayRetire (used true 6) []
     && s.mayRetire [] [] && !(s.me.pc + (1#6).signExtend 64 * 2).getLsbD 0
     && ((standAt 5 0 { context 0 [] with pc := 0x1001 }).me.pc + (1#6).signExtend 64 * 2).getLsbD 0
     && (0x2001 : Word).getLsbD 0
     && mayWrite (stand 0 [(5, 0x000FFFFFFFFFFFFF), (6, 1)]) 5 false 6 true 5 0x000FFFFFFFFFFFFF 1 0) = true := by decide +kernel

/-- A control context issues, and nothing is outstanding. -/
def quietControl (s : State) : Bool := s.cur.2 == 0 && s.requests.isEmpty && s.held.isEmpty

/-- Its instructions can retire. -/
theorem quietControl_mayRetire (s : State) (h : quietControl s = true) (dies : List Reg) (writes : List (Reg × Word)) :
    s.mayRetire dies writes = true := by
  simp only [quietControl, Bool.and_eq_true, beq_iff_eq, List.isEmpty_iff] at h
  simp [State.mayRetire, State.poolFits, State.awaited, h.1.1, h.1.2, h.2]

/-- Helper 1 of core 5 is stopped for a migration to core 6, with a save area in a page of 1 MiB. -/
def migrating : State :=
  let s := stand 1 [(6, 1), (7, wordOf (1 * 2 ^ 52 + 0xFF * 2 ^ 44 + 6 * 2 ^ 32)), (9, 11), (10, 2)]
  let s := { s with translations := pageAt 0x100000 0x100000 ++ s.translations }
  s.setMine { s.mine with saveb := 0x100000, ctxs := s.mine.ctxs ++ [(1, { context 0 [] with run := .migrating })] }

/-- The machine in which MIGR saves the helper. -/
def saving : State :=
  let t := ((migrating.settleSync 5 1 false).forgetAsked 5 1).withdrawClaim 5 1
  let e := t.ctx 5 1
  t.setCtx 5 1 { e with claim := e.claim.map (fun q => { q.settled with floor := e.claimFloor q }) }

theorem witness_MigrationAndGangStops :
    (let s := migrating
     let y := wordOf (1 * 2 ^ 52 + 0xFF * 2 ^ 44 + 6 * 2 ^ 32)
     decide (1 ≤ s.me.level) && decide ((standHelper []).cur.2 ≠ 0) && decide (10 < bitsOf (11 : Word) 3 0) && bitsOf (1 : Word) 3 0 == 1
     && given (spaces y [1]) (fun _ => true) && s.coreNamed y == some (.inl 6) && s.drainedNow allCounters
     && decide (s.migrRefusal 2 6 ≠ 0) && (s.unmigrate 2).mayRetire (used true 10 ++ used true 7) [(8, wordOf (s.migrRefusal 2 6))]
     && s.migrRefusal 1 6 == 0 && (s.ctx 5 1).run == .migrating
     && (let r := s.setCtx 5 1 { s.ctx 5 1 with run := .ready }
       (r.ctx 5 1).run == .ready && (r.ctx 5 1).engineQuiet && decide ((r.ctx 5 1).level ≠ 2)
         && ((r.lay 5 1 .migrating true).ctx 5 1).run == .migrating)) = true := by decide +kernel

theorem witness_MigrationAndGangStops_ready :
    (let t := ((migrating.settleSync 5 1 false).forgetAsked 5 1).withdrawClaim 5 1
     (t.ctx 5 1).engineQuiet && t.settled 5 1 && decide (saving.mine.forwards.length < 16)
     && decide ((saving.core 6).inbox.length + ((saving.core 5).messagesFor 1).length ≤ 64) && quietControl saving) = true := by
  decide +kernel

/-- The helper is saved, reloaded and moved, and MIGR can retire. -/
theorem witness_MigrationAndGangStops_moves : ∃ u v newh rest, saving.save 5 1 true = .ok u ∧ u.reload 5 1 = .ok v
    ∧ (v.core 6).freeHelpers = newh :: rest
    ∧ ((v.moveHelper 1 6 newh).acquire 6).mayRetire (used true 6 ++ used true 7) [(8, 0)] = true := by
  have q : quietControl saving = true := by decide +kernel
  have h : given (saving.save 5 1 true) (fun u => given (u.reload 5 1) (fun v => !(v.core 6).freeHelpers.isEmpty)) = true := by
    decide +kernel
  cases hu : saving.save 5 1 true with
  | error e => rw [hu] at h; cases h
  | ok u => cases hv : u.reload 5 1 with
    | error e => rw [hu] at h; simp [given, hv] at h
    | ok v => cases hf : (v.core 6).freeHelpers with
      | nil => rw [hu] at h; simp [given, hv, hf] at h
      | cons n rest =>
        refine ⟨u, v, n, rest, rfl, hv, hf, quietControl_mayRetire _ ?_ _ _⟩
        have c := (((save_calm hu).trans (reload_calm hv)).trans (moveHelper_calm v 1 6 n)).trans (acquire_calm _ 6)
        rw [quietControl, c.1, c.2.1, c.2.2]
        exact q

/-- The same machine whose partition holds one super-group. -/
theorem witness_MigrationAndGangStops_gang :
    (let p := { partition with record := partition.record.set 0 1 }
     let s := { stand 1 [(6, 0), (7, 1)] with parts := [(0, p)] }
     let t := s.gangStop 0 5 0
     let g : Gang := { entered := 0, core := 5, ctx := 0, stopping := false }
     let u := { s with parts := [(0, { p with gang := some g })] }
     s.myPart == some 0 && s.part 0 == some p && p.gang.isNone && s.drainedNow allCounters && !(0 : Word).getLsbD 0 && (1 : Word).getLsbD 0
     && t.gangPending 0 == [] && !g.stopping
     && ({ s with parts := [(0, { p with gang := some { g with stopping := true } })] }.gangPending 0) == []
     && (let d := s.setCtx 5 1 { context 2 [] with run := .ready }
       (d.gangStop 0 5 0).gangPending 0 != []) && (t.setGang 0 (some g)).mayRetire (used true 6) [(8, s.gtc)]
     && ((u.gangRelease 0).setGang 0 none).mayRetire (used true 6) [(8, s.gtc)]) = true := by decide +kernel

/-- A request of the control context of core 5 for the doubleword 0x10000, at a stage. -/
def request (s : State) (op : MemOp) (target : Target) (cls : Nat) (counter : Option Nat) (stage : Stage) : Request :=
  { s.requestOf 0x10000 { key := 0x10000, home := 4352, counter := 0, part := 0 } op 5 cls counter target with id := 3, stage := stage }

def sends (s : State) (r : Request) : State := { s with nextId := 4, requests := [r] }

theorem witness_HomeEvents :
    (let s := stand 0 []
     let load := request s (.load 8 false) (.reg 9) 0 none .sent
     let fut := request s .loadFut (.reg 9) 0 none .sent
     let take := sends (s.setTag 0x10000 0) fut
     let other := { request s (.store 8) .none 1 (some 0) .sent with id := 2 }
     (sends s load).requests.find? (fun q => q.id == 3) == some load && !(sends s load).overtakes load && !(sends s load).patchBusy 0x10000
     && ((sends s load).forwardOf load).isNone && !(sends s load).homeLost load && load.origin.isNone
     && (match (sends s load).apply load with
       | .done _ _ => true
       | _ => false)
     && (match take.apply fut with
       | .unmet => true
       | _ => false)
     && { sends s load with requests := [{ other with seq := 0 }, { load with seq := 1 }] }.overtakes { load with seq := 1 }
     && (match s.apply (request s (.reduceRead 4) (.reg 9) 0 none .sent) with
       | .trap _ => true
       | _ => false)
     && ({ sends s { load with key := 0 } with lostDies := 255 }).homeLost { load with key := 0 }) = true := by decide +kernel

theorem witness_HomeEvents_replies :
    (let s := stand 0 []
     let nacked := request s (.load 8 false) (.reg 9) 0 none .nacked
     let back := request s (.load 8 false) (.reg 9) 0 none (.returned 7)
     let acked := request s (.store 8) .none 1 (some 0) .acked
     let h : Held := { id := 2, core := 5, ctx := 0, mask := 15, what := .request acked }
     (sends s nacked).requests.find? (fun q => q.id == 3) == some nacked && nacked.remote.isNone
     && (sends s back).requests.find? (fun q => q.id == 3) == some back && !back.blocking && back.origin.isNone && decide (back.ctx < 16)
     && (s.ctx back.core back.ctx).run == .ready && (let r := { back with stage := .sent, remote := some 7 }
       (sends s r).requests.find? (fun q => q.id == 3) == some r) && (sends s acked).requests.find? (fun q => q.id == 3) == some acked
     && acked.origin.isNone && { acked with stage := .sent, remote := some 7 }.abroad && !isLoad acked.op && acked.target == .none
     && { s with held := [h] }.held.find? (fun x => x.id == 2) == some h && { s with held := [h] }.drained h.core h.ctx h.id h.mask
     && !{ sends s { acked with id := 1, stage := .sent } with held := [h] }.drained h.core h.ctx h.id h.mask
     && decide (0x13FFFFFFFFF < 0x14000000000) && !s.poison.contains (0x10000 / 8)
     && { s with poison := [0x10000 / 8] }.poison.contains (0x10000 / 8) && s.part 0 == some partition && given partition.root (fun _ => true) && decide (s.heatfade ≠ 0)
     && { s with heatfade := 0 }.heatfade == 0) = true := by decide +kernel

/-- A message of class 8 on its way to core 5. -/
def flight (cls dctx : Nat) (arg : Word) : Flight :=
  { id := 3, dest := .core 5, source := 6, msg := { header := headerOf 0 6 0 dctx 7 0 cls, arg0 := arg } }

def flies (s : State) (f : Flight) : State := { s with nextId := 4, flights := [f] }

theorem witness_MessageEvents :
    (let s := stand 0 []
     let u := flies s (flight 8 0 0)
     let c0 := flies s (flight 0 0 0)
     let full := u.setMine { u.mine with inbox := List.replicate 64 {} }
     u.flights.find? (fun x => x.id == 3) == some (flight 8 0 0) && !u.behind (flight 8 0 0) && !u.dieLost (coreDie 5)
     && !(flight 8 0 0).nacked && { flight 8 0 0 with issuer := some (6, 0, 0) }.issuer.isSome && { u with lostDies := 1 }.dieLost (coreDie 5)
     && (flight 1 0 0).msg.cls == 1 && !([1, 3, 4, 5] : List Nat).contains (flight 8 0 0).msg.cls && ((u.core 5).forwardOf (flight 8 0 0).msg).isNone
     && !inboxFull (u.core 5).inbox (flight 8 0 0).msg && inboxFull (full.core 5).inbox (flight 8 0 0).msg
     && (c0.ctx 5 (flight 0 0 0).msg.dctx).isLive && (flight 0 3 0).msg.cls == 0 && !(c0.ctx 5 (flight 0 3 0).msg.dctx).isLive
     && (flight 3 0 1).msg.cls == 3 && ((flight 3 0 1).msg.arg0 &&& ~~~1) == 0 && (s.ctx 5 0).run != .faulted
     && ((standAt 5 0 { context 0 [] with run := .faulted }).ctx 5 0).run == .faulted && ((flight 3 0 2).msg.arg0 &&& ~~~1) != 0
     && (flight 5 1 0).msg.cls == 5 && ((standHelper []).ctx 5 1).isLive) = true := by decide +kernel

/-- A message of class 8 that starts a handler whose vector stands in the routine table of the core, a helper that waits for registers,
and the head of the claim queue of a tile. -/
theorem witness_MessageEvents_contexts :
    (let s := withMem (stand 0 []) [(sramKey 5 0x3D000 + 8 * 8, 0x2001)]
     let k := s.setMine { s.mine with inbox := [{ header := headerOf 0 6 0 0 7 0 8 }] }
     let starts := (k.core 5).inbox.any (k.startsHandler 5) && k.handlerOf 5 8 == some 0x2000
     let w := migrating.setCtx 5 1 { context 0 [] with wait := .register }
     let w : State := { w.setMine { w.mine with waiters := [{ ctx := 1, preempted := false, need := 4 }] } with cycle := 5000 }
     let f : Forward := { toCore := 6, helper := 1, toHelper := 1, banks := 0x100 }
     let g := { s.setMine { s.mine with forwards := [f] } with cycle := 2 ^ 20 }
     let r := { request s (.load 8 false) (.reg 9) 0 none .sent with key := sramKey 5 0x10000, home := 5 }
     let p := withMem (w.setCtx 5 1 { context 0 [] with run := .preempted }) []
     let p := p.setMine { p.mine with waiters := [{ ctx := 1, preempted := true, need := 15 }] }
     let q : ClaimRequest := { core := 5, ctx := 0, req := 32, minreq := 16 }
     let c := (standAt 5 0 { context 0 [] with wait := .claim }).setTile 1 { s.tile 1 with claimQueue := [q] }
     starts && (k.core 5).freeReserved.isSome && !k.gangStopping 5
     && (w.core 5).waiters.any (fun x => x.ctx == 1 && decide (x.since + 4096 < w.cycle)) && ((w.core 5).ctx 1).level != 2 && ((w.core 5).ctx 1).run == .ready
     && given ((w.lay 5 1 .preempted true).save 5 1 false) (fun _ => true) && decide ((w.core 5).sharedUsed < 64)
     && ((w.core 5).ctx 1).wait == .register && refused ((standHelper []).save 5 1 false) 0 && decide ((p.core 5).sharedUsed + 15 ≤ 64)
     && ((p.core 5).ctx 1).isPreempted && given (p.reload 5 1) (fun t => decide ((p.core 5).sharedUsed + ((t.ctx 5 1).holds - 16) ≤ 64))
     && (g.core 5).forwards[0]? == some f && g.requests == [] && g.flights == [] && decide (f.since + 2 ^ 20 ≤ g.cycle)
     && (sends g r).forwardOf r == some f && !(sends g r).overtakes r && r.remote.isNone
     && (c.tile 1).claimQueue == [q] && (c.ctx 5 0).wait == .claim && (c.ctx 5 0).claim.isNone && !s.anyPatchBusy 5
     && (let z := c.setTile 1 { c.tile 1 with claimQueue := [{ q with resuming := true }] }
       decide (16 ≤ 16 * (z.reclaim 1 (fun t => decide (16 ≤ 16 * t.freeGroups 1)) 64).freeGroups 1))
     && (let h := (vectors []).setMe { (vectors []).me with wait := .claim }
       let e := h.me.claim.getD (Claim.fresh [] 0 0)
       let z := h.reclaim 1 (fun t => decide (16 ≤ e.settled.g + 16 * (t.otherGroups 1 e.settled).length)) 64
       (h.ctx 5 0).wait == .claim && h.me.claim.isSome && decide (16 ≤ e.settled.g + 16 * (z.otherGroups 1 e.settled).length))) = true := by
  decide +kernel


/-- A launch packet of these doublewords, one of 4 roots of level 3, a task, and queue entries of both. -/
def packet (count : Nat) (join : Word) : Vector Word 16 := ((Vector.replicate 16 0).set 0 (wordOf (count + 3 * 2 ^ 45))).set 2 join

def someTask : Task :=
  { entry := 0x2000, prio := 2, cost := 4, join := 0, args := Vector.replicate 4 0, operands := [], pull := 0, anchor := none, part := 0 }

def someLaunch : Launch :=
  { id := 3, part := 0, entry := 0x2000, packet := packet 4 0, stride := 1, tiles := 32, toPlace := [0], dies := [(0, 4, 0, 0)] }

def queued (kind : QKind) (resident : Bool) : QEntry := { kind := kind, level := 2, resident := resident, joined := 0 }

def withTile (s : State) (n : Nat) (f : Tile → Tile) : State := s.setTile n (f (s.tile n))

theorem witness_LaunchEvents :
    (let s := stand 0 []
     let r (count : Nat) (join : Word) : LaunchRequest := { packet := packet count join, part := 0, entry := 0x2000 }
     let tiles := s.tilesOf 0
     let l := { someLaunch with tiles := tiles.length }
     let u := { s with launches := [l] }
     let counts : List Nat := (List.range 8).filter (fun die => !(l.onDie tiles die).isEmpty)
     decide (2 ^ 32 < bitsOf ((r (2 ^ 32 + 1) 0).packet.toList.getD 0 0) 39 0)
     && decide (bitsOf ((r 4 0).packet.toList.getD 0 0) 39 0 ≤ 2 ^ 32) && (r 4 0).packet.toList.getD 2 0 == 0 && counts == [0]
     && u.launches.find? (fun l => l.toPlace.contains 0) == some l
     && ((l.onDie (u.tilesOf l.part) 0).foldl (fun (acc : Option State) e => acc.bind (fun t => t.placeEntry l e)) (some u)).isSome)
      = true := by decide +kernel

theorem witness_LaunchEvents_dispatch :
    (let s := { stand 0 [] with launches := [someLaunch] }
     let a := withTile s 1 (fun u => { u with queue := [queued (.task someTask) true] })
     let b := withTile s 1 (fun u => { u with queue := [queued (.roots 3 0) true] })
     let c := withTile s 1 (fun u => { u with queue := [queued (.task someTask) false] })
     !a.dieLost (tileDie 1) && a.dispatchable 1 == some (queued (.task someTask) true) && a.fewest (a.eligible 1 (queued (.task someTask) true)) == some 4
     && (a.core 4).freeHelpers.head? == some 1 && b.dispatchable 1 == some (queued (.roots 3 0) true)
     && b.launches.find? (fun l => l.id == 3) == some someLaunch && b.fewest (b.eligible 1 (queued (.roots 3 0) true)) == some 4
     && decide (residents (c.tile 1).queue ≤ 1920) && hasSpilled (c.tile 1).queue 2
     && ([3, 4, 5, 6, 7] : List Nat).all (fun w => !hasSpilled (c.tile 1).queue w) && s.partOfGroup (tileSuperGroup 1) == some 0) = true := by
  decide +kernel

/-- A task to be decided at a tile of high pressure whose neighbour reports little. -/
theorem witness_LaunchEvents_relief :
    (let s := withTile (stand 0 []) 1 (fun u => { u with deciding := [someTask] })
     let m := withTile s 1 (fun u => { u with p := 0x800, pairs := u.pairs.set 0 (1, 0) })
     earliestTask (s.tile 1).deciding == some someTask
     && (let t := s.setTile 1 { s.tile 1 with deciding := (s.tile 1).deciding.erase someTask }
       t.placement 1 (t.partRegs (some 0)) someTask == none)
     && (let t := m.setTile 1 { m.tile 1 with deciding := (m.tile 1).deciding.erase someTask }
       t.placement 1 (t.partRegs (some 0)) someTask == some 9)
     && !([0, 1, 2, 3] : List Nat).any (s.aheadOf 1) && !s.dieLost (tileDie 1) && !s.paused.getLsbD (tileDie 1) && { m with paused := 1 }.paused.getLsbD (tileDie 1)) = true := by decide +kernel

/-- A crew request at super-group 0. -/
def crewAsks (level : Nat) : CrewRequest := { task := someTask, w := 2, h := 1, level := level, joined := 0 }

def withGroup (s : State) (n : Nat) (f : SuperGroup → SuperGroup) : State := s.setSuperGroup n (f (s.superGroup n))

/-- A granted crew of two members in helpers 1 of the cores 0 and 32. -/
def crewed : State :=
  (withGroup (stand 0 []) 0 (fun g => { g with requests := [crewAsks 2] })).crewGrant 0

/-- A machine with one swap slot, at 0x300000. -/
def slotted : Partition := { partition with record := partition.record.set 9 0x300001 }
def withSlot (s : State) : State :=
  { s with
    parts := [(0, slotted)]
    translations := pageAt 0x300000 0x100000 ++ s.translations }

/-- The crew, its members stopped for a swap into slot 0, and the machine after that. -/
def swapping : State :=
  let s := withSlot crewed
  match s.crews with
  | c :: _ => s.swapBegin c 0 0 (slotted.slotBase 0)
  | [] => s

/-- A swapped crew of one member that has halted. -/
def swappedAway : State :=
  let c : Crew :=
    { id := 9, part := 0, sg := 0, rect := { x := 0, y := 0, w := 1, h := 1 }, members := [{ core := 0, ctx := 1, halted := true }]
      join := 0, level := 2, swapped := some 0, saved := [{}], savedBanks := [[]], savedNeighbours := [[]], savedInboxes := [[]] }
  let r := { crewAsks 2 with w := 1, restore := some 9 }
  withGroup { withSlot (stand 0 []) with crews := [c] } 0 (fun g => { g with requests := [r] })

theorem witness_CrewEvents :
    (let s := withGroup (stand 0 []) 0 (fun g => { g with requests := [crewAsks 2] })
     let w := swappedAway
     let late := { s with gtc := 200000 }
     s.crewChoice 0 == some (crewAsks 2, { x := 0, y := 0, w := 2, h := 1 }) && (crewAsks 2).restore.isNone
     && (match w.crewChoice 0 with
       | some (r, _) => (w.crews.find? (fun c => some c.id == r.restore && !c.saved.isEmpty)).isSome && w.partOfGroup 0 == some 0
         && w.part 0 == some slotted
       | none => false)
     && (s.superGroup 0).ordered == [crewAsks 2] && (s.superGroup 0).target.isNone && decide ((late.partRegs (some 0)).ageus.toNat * 1000 ≤ late.gtc.toNat - (crewAsks 2).joined.toNat)
     && (late.bestTarget 0 2 1).isSome
     && ((withGroup s 0 (fun g => { g with target := late.bestTarget 0 2 1 })).superGroup 0).target.isSome) = true := by decide +kernel

theorem witness_CrewEvents_swap :
    (let s := swapping
     let r := { crewAsks 3 with targeted := some 0 }
     let u := withGroup { withSlot crewed with gtc := 200000 } 0 (fun g =>
       { g with target := some { x := 0, y := 0, w := 2, h := 1 }, requests := [r] })
     let b : Barrier := { extent := 0, cores := [5], part := 0, counts := [(5, 0, 1, 1)], arrivals := [{ core := 5, ctx := 0, epoch := 0, rd := 8, status := 0 }] }
     let k := { standAt 5 0 { context 0 [] with wait := .barrier } with barriers := [b] }
     (match s.crews.find? (fun c => c.sg == 0 && c.swapped.isSome && c.saved.isEmpty) with
       | some c => s.crewQuiet c
         && (let t := (c.living.foldl (fun (s : State) e => s.captureBarrier e.2) s).raiseFloors c
           given (t.swapSave 0 (slotted.slotBase 0) c.living) (fun _ => true))
         && !(s.setCtx 0 1 { s.ctx 0 1 with outstanding := { c0 := 1 } }).crewQuiet c
       | none => false)
     && (u.crews.find? (fun c => c.sg == 0 && c.swapped.isSome && c.saved.isEmpty)).isNone
     && (u.superGroup 0).requests.find? (fun r => r.targeted.isSome) == some r
     && decide (slotted.regs.ageus.toNat * 1000 ≤ u.gtc.toNat - (r.targeted.getD 0).toNat) && slotted.gang.isNone
     && (u.victim r { x := 0, y := 0, w := 2, h := 1 }).isSome && u.freeSlot 0 slotted == some 0
     && (k.ctx 5 0).wait == .barrier
     && k.barriers.any (fun b => b.arrivals.any (fun a => (a.core == 5 && a.ctx == 0) && b.full a.epoch))) = true := by decide +kernel

/-- A command of core 6 for the engine of core 5: a block of K = 1 that starts from zero and writes back, with the capability of core 5. -/
def sentBlock : Command :=
  let s := blocks (stand 0 [(6, 0x10100)])
  let cap (h : Nat) : Word := wordOf (0x1F * 2 ^ 40 + 2 ^ 32 + h)
  let c := s.newCommand .mma 0
  let c := match s.blockAt 0x10100 with
    | .ok b => c.withBlock b true 0
    | .error _ => c
  { c with
    id := 3, issuer := 6, viaMcmd := true, counter := some 0
    block := ((c.block.set 0 (c.block[0] ||| wordOf (2 ^ 58))).set 5 0x4400000000010000).set 7 (cap (capabilityHash [1, 2, 3] 0 0x1F 1 5)) }

theorem witness_EngineEvents :
    (let s := stand 0 []
     let c := sentBlock
     let u := { s with nextId := 4, commands := [c] }
     let bad := { c with block := c.block.set 7 0 }
     let q := s.setMine { s.mine with engine := { s.mine.engine with queue := [{ c with viaMcmd := false, counter := none }] } }
     let k := { c with kind := .mzero, viaMcmd := false, counter := none }
     let r := s.setMine { s.mine with engine := { s.mine.engine with running := some k } }
     let p := { partition with regs := { partition.regs with mmigt := 1 } }
     let m := { q with parts := [(0, p)] }
     u.commands.find? (fun x => x.id == 3 && x.viaMcmd) == some c && c.counter == some 0 && !u.dieLost (coreDie c.target) && !u.commandBehind c
     && decide ((u.core c.target).engine.accepted.length < 8) && u.capPasses c && !u.capPasses bad
     && given ((u.asIssuer c.issuer c.issuerCtx c.level).checkBlock c.target c 0) (fun _ => true)
     && (q.core 5).engine.running.isNone && (oldestEligible [] (q.core 5).engine.queue).isSome
     && (r.core 5).engine.running == some k
     && (match r.runCommand 5 k with
       | .ended _ => true
       | _ => false)
     && (match r.runCommand 5 { k with kind := .mpre } with
       | .goes _ => true
       | _ => false)
     && (match r.runCommand 5 { k with kind := .mld, pointer := wordOf (0x11 * 2 ^ 58 + 2 ^ 52 + 7 * 2 ^ 44 + 0x10000), stride := 32 } with
       | .asks t p _ _ => (t.fetched k.id p).isNone
       | _ => false)
     && (tileCores (coreTile 5)).find? (fun n => n != 5 && (m.core n).engine.queue.isEmpty && (m.core n).engine.running.isNone) == some 4
     && (m.partRegs (m.partOf 5)).mmigt != 0 && !c.moved && c.isBlock && c.zero && c.writesBack && c.asrc == 0 && c.bsrc == 0 && !c.afwd
     && !c.bfwd) = true := by decide +kernel

/-- A tile of one element at 0x10400: of the version asked for, of another, and one whose count is wrong. -/
theorem witness_EngineEvents_engraver :
    (let r : Engrave := { part := 0, address := 0x10400, version := 0 }
     let go := { r with started := true }
     let tile (count : Nat) : State :=
       withGroup (withMem (stand 0 []) [(0x10400, wordOf (0x11 * 2 ^ 58 + count * 2 ^ 45)), (0x10408, 1)]) 0 (fun g =>
         { g with engraver := [r] })
     let s := tile 1
     (s.superGroup 0).engraver == [r] && given (s.tileHeader 0 0 0x10400) (fun (w, v) =>
       let g := { go with header := w }
       given (s.readRows g (List.range 64)) (fun got =>
         let rows := (List.range 64).map (fun i => Table.get got i 0)
         v == r.version && v != ({ r with version := 1 } : Engrave).version && !tileMalformed g.header rows
           && tileMalformed ({ g with header := 0 } : Engrave).header rows && go.started && !r.started && s.eager && g.rows == []))
     && given (s.readRows go []) (fun got => got == [])) = true := by decide +kernel

/-- A copy of 4 bytes, one from a sharded source, a CPYQ set aside whose channel has room. -/
theorem witness_CopyEvents :
    (let s := (sharded (stand 0 [])).setChannel 5 0 3 { kind := 0 }
     let c := { s.newCopy .cpy byteMap byteMap with id := 3 }
     let far := { c with src := byteMap.set 0 0x0020010000000000 }
     let q := { s.newCopy .cpyq byteMap byteMap with id := 3, channel := 3, started := true }
     let holds (c : Copy) : State := withTile s 1 (fun t => { t with copies := [c] })
     ((holds c).tile 1).runningCopy.isNone && ((holds c).tile 1).copies.find? (fun c => !c.started) == some c
     && decide (¬ (c.hasSource = true ∧ ptrSpace (mapBase c.src) = 2)) && far.hasSource && ptrSpace (mapBase far.src) == 2
     && given ((holds far).lookupEntry far.part 1 (bitsOf (mapBase far.src) 51 40)) (fun _ => true)
     && !given ((withTile (stand 0 []) 1 (fun t => { t with copies := [far] })).lookupEntry far.part 1 (bitsOf (mapBase far.src) 51 40))
       (fun _ => true)
     && ((holds { c with started := true }).tile 1).runningCopy == some { c with started := true } && c.kind != .cpyq
     && ((holds q).tile 1).runningCopy == some q
     && ((holds { q with aside := true }).tile 1).copies.find? (fun c => c.aside && (holds { q with aside := true }).copyRoom c)
       == some { q with aside := true }) = true := by decide +kernel

/-- A stream of one line, before its run, in it and after it; a gather and a memory stream of one doubleword. -/
theorem witness_CopyEvents_streams :
    (let s := withMem (stand 0 []) [(0x10400, 7)]
     let t : Stream := { ctx := 0, kernel := [0x0800, 0x7200], pointer := 0x10400, lines := 1, base := 0, started := true }
     let has (t : Stream) : State := s.setStream 5 1 t
     let goes := { t with kernel := [0x7000, 0x7200] }
     let g := { t with queue := [{ reserved := some 0x10400 }] }
     let h : Channel := { kind := 4, pointer := 0x10400, count := 1 }
     let m := s.setChannel 5 0 3 h
     Table.look ((has t).core 5).streams 1 == some t
     && (match goes.execute 0, goes.execute 1 with
       | .goes _ _, .ends => true
       | _, _ => false)
     && t.wantsLine && t.ahead == [] && t.at_.isNone && !t.ended && decide (t.nextLine < t.lines)
     && (let r := { t with ahead := [.bytes (List.replicate 64 0)] }
       !r.wantsLine && ((has r).core 5).nextRun == some 1)
     && (let d := { t with nextLine := 1 }
       !d.wantsLine && decide (d.lines ≤ d.nextLine) && !d.queue.any (·.reserved.isSome)) && decide (t.queue.length < 16)
     && g.queue.findSome? (·.reserved) == some 0x10400
     && s.eager && (gathersOf g.queue)[0]? == some (0, 0x10400)
     && given (((has g).streamView 5 g).gatherDword (streamGroup 5 1) 0x10400) (fun v => v == 7)
     && m.channel 5 0 (3 : BitVec 3).toNat == some h && !h.closed && decide (h.entries.length < 16) && decide (h.delivered < h.count)
     && given (elementPtr h.pointer (8 * h.delivered : Nat)) (fun p => p == 0x10400)
     && given ((m.asIssuer 5 0 (m.ctx 5 0).level).elementBytes (channelGroup 5 0 3) 0x10400 8 none) (fun v => v == 7)
     && decide (({ h with delivered := 1 } : Channel).count ≤ 1)) = true := by decide +kernel

def withRing (s : State) (n : Nat) (x : Ring) : State := s.setRing n x
def withPort (s : State) (n : Nat) (p : Port) : State := s.setPort n p

/-- Ring 16 of port 0 is a free send ring; ring 0 carries wavelength 0; ring 20 is a receive ring. -/
theorem witness_OpticalEvents :
    (let s := State.reset
     let in_ (n : Nat) (x : BitVec 3) : State := withRing s n { s.ring n with state := x }
     let svc := (s.setCore 4112 { s.core 4112 with osel := 16 }).core 4112
     svc.selectedRing 4112 == 16 && ringSends 16 && (s.ring 16).state == 0 && !ringSends 20 && (s.ring 0).state == 1
     && decide (((5 : Word).setWidth 5).toNat < 16) && decide (16 ≤ ((31 : Word).setWidth 5).toNat)
     && (let u := withRing s 0 { s.ring 0 with lambda := 31, state := 0 }
       ((List.range 20).map (fun n => 16 / 20 * 20 + n)).find? (fun q => q != 16 && (u.ring q).lambda == 0) == none)
     && (s.port (ringPort 16)).opark.getLsbD 0 && !((withPort s 0 { s.port 0 with opark := 0 }).port (ringPort 16)).opark.getLsbD 0
     && ((in_ 0 2).ring 0).state == 2 && ((in_ 0 3).ring 0).state == 3 && ((in_ 0 4).ring 0).state == 4 && ((in_ 0 5).ring 0).state == 5
     && (withRing s 0 { state := 3, mon := 2032, lambda := 0 }).ring 0 == { state := 3, mon := 2032, lambda := 0 }
     && decide (¬ (2032 ≤ (2065 : BitVec 12).toNat ∧ (2065 : BitVec 12).toNat ≤ 2064))
     && (let p : Port := { s.port 0 with oqthr := 1, queued := [0] }
       p.oqthr != 0 && p.opark != 0 && !p.wk && decide (p.oqthr.toNat ≤ p.queued.length) && (s.port 0).oqthr == 0)
     && !(portRings 0).any (fun r => (s.ring r).busy) && !(s.port 0).awaitLock && (portRings 0).any (fun r => ((in_ 0 2).ring r).busy)) = true := by
  decide +kernel

/-- The clauses of a monitor sample exclude each other and leave nothing out; which one a sample falls under is the resonance's to say,
which is open. -/
theorem witness_OpticalEvents_sample (s : State) (ring : Nat) :
    let x := s.ring ring
    let e : Int := (x.heat.toNat : Int) - Config.resonance ring x.lambda.toNat s.choice
    e.natAbs ≤ 1024 ∨ 1024 < e.natAbs := le_or_gt _ _

/-- The check of a flit has one of three results; which one is free. -/
theorem witness_LinkEvents_check (s : State) : s.free 0 3 = 0 ∨ s.free 0 3 = 1 ∨ s.free 0 3 = 2 := by
  have h : s.free 0 3 < 3 := Nat.mod_lt _ (by decide)
  omega

/-- Package 7 lies behind port 0, which is up. -/
def routed (s : State) : State := withPort s 0 { s.port 0 with up := true, routes := [(7, (true, 1))] }

theorem witness_LinkEvents :
    (let s := routed (stand 0 [])
     let p : Port := { window := [(3, 0, 0)] }
     let r := { request s (.load 8 false) (.reg 9) 0 none .sent with remote := some 7, home := 4352 }
     let u := sends s r
     let cut := sends (stand 0 []) r
     p.window.any (fun e => e.1 == 3) && !p.window.any (fun e => e.1 == 4)
     && u.requests.find? (fun q => q.id == 3) == some r && r.remote == some 7 && r.stage == .sent
     && (u.putRequest { r with stage := .sent }).portFor r.part 7 r.core (homekeyOf r.home r.key) == some 0
     && (cut.putRequest { r with stage := .sent }).portFor r.part 7 r.core (homekeyOf r.home r.key) == none) = true := by decide +kernel

theorem witness_FabricEvents :
    (let s := routed (stand 0 [])
     let t : Transit := { dest := 7, hopLimit := 1, source := 5, seq := 0 }
     let lone := { t with dest := 9 }
     let u := { s with transits := [t] }
     decide (5 < 4096) && !s.dieLost (coreDie 5) && !s.paused.getLsbD (coreDie 5) && (s.router 5).injecting.isEmpty
     && (s.keptFlit 5 0).isNone && { s with lostDies := 1 }.dieLost 0 && !s.dieLost 0 && State.reset.parts == [] && decide (s.parts ≠ [])
     && u.transits[0]? == some t && t.hopLimit != 0 && ({ t with hopLimit := 0 } : Transit).hopLimit == 0
     && { u with transits := u.transits.eraseIdx 0 }.transitPort t.dest (t.source % 8192) t.homekey == some 0
     && { u with transits := u.transits.eraseIdx 0 }.transitPort lone.dest (lone.source % 8192) lone.homekey == none
     && (s.port 0).up && decide ((0 : BitVec 8).toNat < { s with pkg := 1 }.pkg.toNat) && decide (s.gtc.toNat < (5 : Word).toNat)
     && decide ((0 : Word).toNat ≤ s.gtc.toNat)) = true := by decide +kernel

/-- A host launch of routine 0, of a routine that the directory does not name, and a host command to core 5. -/
theorem witness_HostEvents :
    (let s := programs (stand 0 [])
     let zero : List Byte := List.replicate 128 0
     let bad := zero.set 5 0x10
     let command := zero.set 0 5
     let h := { s.setHostQueue 0 0 { logSize := 4 } with gtc := 1 }
     let full := s.setHostQueue 0 0 { logSize := 4, tail := 15 }
     let f : Flight := { id := 3, dest := .hostQueue 0 0, source := 5, msg := {} }
     decide (zero.length = 128) && s.takesWork 0 && !s.takesWork 1 && given (s.hostLaunchEntry 0 (dwordsOf zero)) (fun _ => true)
     && refused (s.hostLaunchEntry 0 (dwordsOf bad)) .address && s.partOf (bitsOf ((dwordsOf command).getD 0 0) 11 0) == some 0
     && (s.hostQueue 0 0).logSize == 0 && (h.hostQueue 0 0).logSize == 4 && bitsOf (4 : Word) 4 0 == 4 && bitsOf (16 : Word) 4 0 == 16
     && decide (f.gtc.toNat < h.gtc.toNat) && (flies h f).flights.find? (fun f => f.id == 3) == some f && !(flies h f).flights.any (fun g => g.dest == f.dest && g.before f)
     && ((h.hostQueue 0 0).tail + 1) % 16 != (h.hostQueue 0 0).head % 16
     && ((full.hostQueue 0 0).tail + 1) % 16 == (full.hostQueue 0 0).head % 16) = true := by decide +kernel

theorem witness_FirmwareEvents :
    (let s := stand 0 []
     let open_ := { s with spdm := { s.spdm with session := true, versioned := true, capable := true, negotiated := true } }
     let p := { partition with destroying := true }
     let d := { open_ with parts := [(0, p)] }
     let still := d.setCtx 5 0 { d.ctx 5 0 with run := .gangStopped }
     let running := d.setMine { d.mine with engine := { d.mine.engine with running := some (d.newCommand .mzero 0) } }
     !s.spdm.session && open_.spdm.session && open_.spdm.versioned && open_.spdm.capable && open_.spdm.negotiated
     && decide (open_.spdm.xmssIndex < 2 ^ 20) && decide (2 ^ 20 ≤ { s.spdm with xmssIndex := 2 ^ 20 }.xmssIndex)
     && decide (([] : List Byte).length ≠ 8) && byteAt (List.replicate 8 0) 0 == 0 && numberAt (List.replicate 8 0) 1 7 == 0
     && d.part 0 == some p && p.destroying && still.part 0 == some p && still.unitsIdle 0 p && still.allStopped 0 && !d.allStopped 0 && !running.unitsIdle 0 p && byteAt [7, 0, 0, 0] 0 == 7
     && numberAt [1, 0, 0, 0] 2 2 == (([1, 0, 0, 0] : List Byte).drop 4).length && !s.spdm.handshake
     && { s.spdm with handshake := true }.handshake) = true := by decide +kernel

/-- A FINISH that ends in the MAC of the session, whatever that is. -/
theorem witness_FirmwareEvents_finish :
    ∃ r : List Byte, (Config.finishMac State.reset.spdm.secret State.reset.spdm.transcript).isSuffixOf r = true :=
  ⟨Config.finishMac State.reset.spdm.secret State.reset.spdm.transcript, by simp⟩

/-- It is the turn of core 5, which stands at a compact and at a full-length instruction, at halfwords that do not decode, and at a page
that is not mapped. -/
def turnOf (w : Nat) (pc : Word) : State :=
  let s := standAt 5 0 { context 0 [] with pc := pc }
  { (s.storeBytes 0x10000 4 w) with agenda := [.issue 5 0] }

/-- The state at the turn, and that from which its context issues. -/
noncomputable def turned (s : State) : State := { s.background with agenda := s.background.agenda.drop 1 }
noncomputable def mine (s : State) : State := (turned s).issueFrom 5 0

noncomputable def itsTurn (s : State) : Bool :=
  s.background.turn == some (.issue 5 0) && !s.background.stopped && (turned s).nextIssue 5 == some 0

/-- The first halfword of an instruction, where it is fetched, and the second one. -/
noncomputable def firstHalf (s : State) : Option (BitVec 16) := (s.fetchHalf s.me.pc).toOption.map (·.1)
noncomputable def secondHalf (s : State) : Option (BitVec 16) :=
  (s.fetchHalf s.me.pc).toOption.bind (fun e => (e.2.fetchHalf (s.me.pc + 2)).toOption.map (·.1))

theorem witness_StepRunsDecoded_turn : itsTurn (turnOf 0x7000 0x10000) = true := by decide +kernel

theorem witness_StepRunsDecoded_turnUnmapped : itsTurn (turnOf 0 0x20000) = true := by decide +kernel

theorem witness_StepRunsDecoded : firstHalf (mine (turnOf 0x7000 0x10000)) = some 0x7000 := by decide +kernel

/-- The full-length instruction stands in a line that the core's instruction cache holds. -/
def inCodeLine (w : Nat) : State :=
  let s := turnOf w 0x10000
  s.setCore 5 { s.core 5 with icache := [{ line := 512, data := BitVec.ofNat 1024 w }] }

theorem witness_StepRunsDecoded_turnLong : itsTurn (inCodeLine 0xF2C0) = true := by decide +kernel

theorem witness_StepRunsDecoded_long :
    firstHalf (mine (inCodeLine 0xF2C0)) = some 0xF2C0 ∧ secondHalf (mine (inCodeLine 0xF2C0)) = some 0 := by decide +kernel

theorem witness_StepRunsDecoded_bad : firstHalf (mine (turnOf 0 0x10000)) = some 0 ∧ firstHalf (mine (turnOf 0 0x20000)) = none := by
  decide +kernel

theorem witness_StepRunsDecoded_decode :
    (given (decode [0x7000]) (fun e => e.1 == .cNop) && given (decode [0xF2C0, 0]) (fun e => e.1 == .nop)
    && !given (decode [0]) (fun _ => true) && !given (decode [0xFFFF, 0xFFFF]) (fun _ => true)) = true := by decide +kernel

/-- The turn of a context that waits, of a unit of the package, and of none in a package held in reset. -/
theorem witness_StepRunsDecoded_turns :
    (let s := { standAt 5 0 { context 0 [] with wait := .register } with agenda := [.issue 5 0] }
     let e := { State.reset with agenda := [.event (.portDown 0)] }
     let off := { State.reset with heldInReset := true, agenda := [.issue 4108 0] }
     let on := { State.reset with heldInReset := true, agenda := [.event (.powerGood true 0 [])] }
     let slot := { s with agenda := [.slot 5] }
     let time := { State.reset with agenda := [.tick] }
     (turned s).nextIssue 5 == none && s.background.turn == some (.issue 5 0)
     && (turned slot).nextIssue 5 == none && slot.background.turn == some (.slot 5) && !slot.background.stopped
     && time.background.turn == some .tick && !time.background.stopped
     && e.background.turn == some (.event (.portDown 0)) && !e.background.stopped && off.background.stopped
     && off.background.turn == some (.issue 4108 0) && on.background.turn == some (.event (.powerGood true 0 []))) = true := by decide +kernel

theorem witness_RegisterFrame :
    (stand 0 []).me.stepping = false ∧ (stand 0 []).me.lostLoads = [] := by decide +kernel

theorem witness_DecodeEncode : (Instr.add 1 2 true 3 false).check = none ∧ (Instr.add 1 2 true 3 false).length ≠ 0 := by decide +kernel

theorem witness_StepKeepsMemoryCanonical :
    Memory.wf (withMem (turnOf 0x7000 0x10000) [(0x10100, 5)]).mem = true
    ∧ ∃ t, step (turnOf 0x7000 0x10000) = .next t := by
  refine ⟨by decide +kernel, ?_⟩
  have h : (match step (turnOf 0x7000 0x10000) with
    | .next _ => true
    | _ => false) = true := by decide +kernel
  split at h
  · exact ⟨_, by assumption⟩
  · cases h
/-! ### Single steps, with the results of the manual -/

/-- The register written by one instruction. -/
noncomputable def result (i : Instr) (regs : List (Nat × Word)) (rd : Nat) (x : Word) : Bool := after i (stand 0 regs) (fun t => t.me.at_ rd == x)

/-- The trap taken by one instruction: the cause and FADDR, from the instruction at 0x1000 to the vector at 0x4000. -/
noncomputable def trapsTo (i : Instr) (s : State) (n : Nat) (faddr : Word) : Bool :=
  after i s (fun t => t.me.cause == wordOf n && t.me.faddr == faddr && t.me.xpc == 0x1000 && t.me.pc == 0x4000)

/-- 04_scalar.md R98: sums wrap. -/
theorem test_add_wraps : after (.add 8 6 false 7 false) (stand 0 [(6, 0xFFFFFFFFFFFFFFFF), (7, 2)]) (fun t =>
    t.me.at_ 8 == 1 && t.me.pc == 0x1004) = true := by decide +kernel
/-- 01_assembly.md R27, R28: a last-use mark leaves its register dead. -/
theorem test_last_use : after (.add 8 6 true 7 false) (stand 0 []) (fun t => !t.me.live.getLsbD 6 && t.me.live.getLsbD 7) = true := by
  decide +kernel
/-- 10_system_instr.md R275: the number of the dead register stands in FADDR. -/
theorem test_dead_register :
    trapsTo (.add 8 6 false 7 false) (standAt 5 0 { context 0 [] with live := 0xFFFFFF7F }) 3 7 = true := by decide +kernel
/-- 04_scalar.md R99, its example. -/
theorem test_shr_w : result (.shrW 5 6 false 7 false) [(6, 0x80000000)] 5 0xFFFFFFFF80000000 = true := by decide +kernel
/-- 04_scalar.md R102, the third instruction of its example. -/
theorem test_lih : result (.lih 5 3 0x1F) [(5, 0x0000F4B600000100)] 5 0x001FF4B600000100 = true := by decide +kernel
/-- 04_scalar.md R104, its worked cases. -/
theorem test_bfx : result (.bfx 5 6 false 60 8) [(6, 0x80000000000000F0)] 5 8 = true := by decide +kernel
theorem test_bfxs : result (.bfxs 5 6 false 60 72) [(6, 0x80000000000000F0)] 5 0xFFFFFFFFFFFFFFF8 = true := by decide +kernel
theorem test_bfx_far : result (.bfxReg 5 6 false 7 false) [(6, 0x80000000000000F0), (7, 0xA64)] 5 0 = true := by decide +kernel
theorem test_bfxs_far : result (.bfxsReg 5 6 false 7 false) [(6, 0x80000000000000F0), (7, 0xA64)] 5 0xFFFFFFFFFFFFFFFF = true := by
  decide +kernel
theorem test_bfi : result (.bfi 5 6 false 60 8) [(6, 0xAB)] 5 0xB000000000000000 = true := by decide +kernel
/-- 04_scalar.md R106, its table. -/
theorem test_div_zero : result (.div 8 6 false 0 false) [(6, 7)] 8 0xFFFFFFFFFFFFFFFF = true := by decide +kernel
theorem test_rem_zero : result (.rem 8 6 false 0 false) [(6, 7)] 8 7 = true := by decide +kernel
theorem test_div_least : result (.div 8 6 false 7 false) [(6, 0x8000000000000000), (7, -1)] 8 0x8000000000000000 = true := by decide +kernel
theorem test_rem_sign : result (.rem 8 6 false 7 false) [(6, -7), (7, 2)] 8 (-1) = true := by decide +kernel
theorem test_div_w : result (.divW 8 6 false 7 false) [(6, 0x180000000), (7, -1)] 8 0xFFFFFFFF80000000 = true := by decide +kernel
theorem test_remu_w : result (.remuW 8 6 false 7 false) [(6, 0x100000009)] 8 9 = true := by decide +kernel
/-- 04_scalar.md R107, its table. -/
theorem test_padd : result (.padd 8 6 false 7 false) [(6, 0x440FFFFFFFFFFFF0), (7, 8)] 8 0x440FFFFFFFFFFFF8 = true := by decide +kernel
theorem test_padd_overflow :
    trapsTo (.padd 8 6 false 7 false) (stand 0 [(6, 0x440FFFFFFFFFFFF0), (7, 32)]) 4 0x440FFFFFFFFFFFF0 = true := by decide +kernel
theorem test_pidx : result (.pidx 8 6 false 7 false) [(6, 0x4400000000001000), (7, 3)] 8 0x440000000000100C = true := by decide +kernel
theorem test_pidx_coded :
    trapsTo (.pidx 8 6 false 7 false) (stand 0 [(6, 0x5900001234000000), (7, 1)]) 6 0x5900001234000000 = true := by decide +kernel
/-- 04_scalar.md R109, its example. -/
theorem test_pcore : result (.pcore 8 6 false 7 false) [(6, 0x100), (7, 0xFF4B6)] 8 0x001FF4B600000100 = true := by decide +kernel
/-- 04_scalar.md R114 and 03_encoding.md: `loop a3, top` three halfwords back, from 2 and from 1. -/
theorem test_loop : after (.loop 7 0x3FD) (stand 0 [(7, 2)]) (fun t => t.me.at_ 7 == 1 && t.me.pc == 0xFFA) = true := by decide +kernel
theorem test_loop_ends : after (.loop 7 0x3FD) (stand 0 [(7, 1)]) (fun t => t.me.at_ 7 == 0 && t.me.pc == 0x1004) = true := by decide +kernel
/-- 05_memory_instr.md R122: a load of 4 bytes extends its sign, from local SRAM and through a page. -/
theorem test_ld : after (.ld 8 6 false true 2 0 1) (withMem (stand 0 [(6, here 0x10000)]) [(sramKey 5 0x10000, 0x8000000012345678)])
    (fun t => t.me.at_ 8 == 0xFFFFFFFF80000000) = true := by decide +kernel
theorem test_ld_page : after (.ld 8 6 false true 2 0 1) (withMem (stand 0 [(6, 0x10800)]) [(0x10800, 0x8000000012345678)])
    (fun t => t.me.at_ 8 == 0xFFFFFFFF80000000) = true := by decide +kernel
/-- 05_memory_instr.md R122: a store of 2 bytes writes two, the low one first. -/
theorem test_st : after (.st 8 6 false false 1 0 1) (stand 0 [(6, 0x10800), (8, 0x11223344)]) (fun t =>
    t.viewDword (some (0, 0x210)) 0x10800 == 0x33440000 && t.dword 0x10800 == 0) = true := by decide +kernel
/-- 05_memory_instr.md R135: FLUSH writes the modified bytes of a line back to memory and drops it. -/
theorem test_flush : after (.flush 6 false 7 false) (copied (withMem (stand 0 [(6, 0x10000), (7, 8)]) [(0x10000, 5), (0x10008, 6)])) (fun t =>
    t.dword 0x10000 == 0x77 && t.dword 0x10008 == 6 && t.vcopies == []) = true := by decide +kernel
/-- 15_memory_map.md R348 and 05_memory_instr.md R121: a plain load reads the line of its core cache, one with the hint .byp that of L2. -/
theorem test_near : (let s := (cached (stand 0 [(6, 0x10000)])).setCore 5 { (stand 0 [(6, 0x10000)]).core 5 with lsplit := 1, lines := [{ line := 0x200, data := 0x66 }] }
    after (.ld 8 6 false true 3 0 0) s (fun t => t.me.at_ 8 == 0x66) && after (.ld 8 6 false true 3 3 0) s (fun t => t.me.at_ 8 == 0x77)) = true := by
  decide +kernel
/-- 05_memory_instr.md R131: the version rises by one and the word is full (the second time of the worked hand-off). -/
theorem test_vnx : after (.sttVnx 8 6 false false 0) (stand 0 [(6, 0x10800), (8, 9)]) (fun t =>
    tagVer (t.tag 0x10800) == 1 && tagFE (t.tag 0x10800) && t.dword 0x10800 == 9) = true := by decide +kernel
/-- 05_memory_instr.md R136: the old value to rd, the sum to memory. -/
theorem test_amo_add : after (.amoAdd 8 6 false 7 false 1 0) (withMem (stand 0 [(6, 0x10800), (7, -1)]) [(0x10800, 5)]) (fun t =>
    t.me.at_ 8 == 5 && t.dword 0x10800 == 4) = true := by decide +kernel
theorem test_amo_misaligned : trapsTo (.amoAdd 8 6 false 7 false 1 0) (stand 0 [(6, 0x10804)]) 5 0x10804 = true := by decide +kernel
/-- 02_numbers.md R73, the worked sum: 2^100 and −2^100 are in the accumulator already, 1.0 arrives; REDR gives 1.0 in F32. -/
theorem test_reda_exact : after (.reda 6 false 7 false 0x11) ({ stand 0 [(6, 0x10800), (7, 0x3F800000)] with
    accumulators := [(0x10800, { part := 0, home := 4352, e := -160, contributions := 2 })] }) (fun t =>
    (t.accumulators.map (fun e => e.2.sum)) == [2 ^ 160]) = true := by decide +kernel
theorem test_redr_exact : after (.redr 8 6 false 0x11) ({ stand 0 [(6, 0x10800)] with
    accumulators := [(0x10800, { part := 0, home := 4352, e := -160, sum := 2 ^ 160, contributions := 3 })] }) (fun t =>
    t.me.at_ 8 == 0x3F800000 && t.me.fpflags == 0) = true := by decide +kernel
/-- 10_system_instr.md R275: a TRAP records its number and the next instruction. -/
theorem test_trap : after (.trap 3) (stand 0 []) (fun t => t.me.cause == 0x30E && t.me.xpc == 0x1004 && t.me.level == 1 && t.me.xpl == 0)
    = true := by decide +kernel
/-- 07_vector_instr.md R202: a running sum of 0, 1, 2, … in four active elements; the others stand. -/
theorem test_vscan : after (.vscan 4 1 1 2 0) (vectors []) (fun t => (t.me.claim.map (fun c => (c.reg 4).take 6)) == some [0, 1, 3, 6, 0, 0])
    = true := by decide +kernel
/-- 07_vector_instr.md R200: the sum of 32 ones. -/
theorem test_vsum : after (.vsum 3 8 3 2 0) (vectors []) (fun t => t.me.at_ 8 == 32) = true := by decide +kernel

/-- A context whose registers 5, 6 and 7 hold these bits in every lane. -/
def floats (x y z : BitVec 32) : State :=
  let c := ((Claim.fresh [3, 4] 32 16).setReg 5 (List.replicate 32 x)).setReg 6 (List.replicate 32 y)
  standAt 5 0 { context 0 [] with claim := some { c.setReg 7 (List.replicate 32 z) with k1 := 1, k2 := 0, k3 := 32 } }

/-- Lane 0 of a vector register, with FPFLAGS. -/
noncomputable def laneZero (i : Instr) (s : State) (v : BitVec 4) (x : BitVec 32) (flags : Word) : Bool :=
  after i s (fun t => (t.me.claim.map (fun c => (c.reg v).head?)) == some (some x) && t.me.fpflags == flags)

/-- 02_numbers.md R52: 1 + 2^−24 in F32 is a tie that goes to the even 1 under RNE and up under RUP, inexact in both. -/
theorem test_vadd_rne : laneZero (.vadd 4 5 6 1 9 0) (floats 0x3F800000 0x33800000 0) 4 0x3F800000 16 = true := by decide +kernel
theorem test_vadd_rup : laneZero (.vadd 4 5 6 1 9 2) (floats 0x3F800000 0x33800000 0) 4 0x3F800001 16 = true := by decide +kernel
/-- 07_vector_instr.md R194: one rounding: (1 + 2^−12)² − (1 + 2^−11) is 2^−24 exactly. -/
theorem test_vfma_once : laneZero (.vfma 7 5 6 1 9 0) (floats 0x3F800800 0x3F800800 0xBF801000) 7 0x33800000 0 = true := by decide +kernel
/-- 02_numbers.md R50, R56: ∞ − ∞ is the default NaN of F32, invalid. -/
theorem test_vsub_infinity : laneZero (.vsub 4 5 6 1 9 0) (floats 0x7F800000 0x7F800000 0) 4 0x7FC00000 1 = true := by decide +kernel

end Sys2Proof.Tests
end

/-! Fields of a word: their bits, how they lie side by side, and what replacing one does. -/

namespace Sys2Proof

/-- The bits of a field, wherever it lies in the word. -/
theorem testBit_bitsOf (x : Word) (hi lo i : Nat) :
    (bitsOf x hi lo).testBit i = (decide (i < hi + 1 - lo) && x.getLsbD (lo + i)) := by
  simp [bitsOf, BitVec.testBit_toNat]

/-- A field whose value is known gives the bits of the word in its place. -/
theorem getLsbD_of_bitsOf_eq {x : Word} {hi lo n i : Nat} (h : bitsOf x hi lo = n) (hl : lo ≤ i) (hh : i ≤ hi) :
    x.getLsbD i = n.testBit (i - lo) := by
  have hin : i - lo < hi + 1 - lo := by omega
  rw [← h, testBit_bitsOf, decide_eq_true hin, Bool.true_and, Nat.add_sub_cancel' hl]

/-- A field is the field above the bit m and the field from the bit m down, side by side. -/
theorem bitsOf_split (x : Word) {hi m lo : Nat} (hl : lo ≤ m) (hh : m ≤ hi) :
    bitsOf x hi lo = bitsOf x hi (m + 1) * 2 ^ (m + 1 - lo) + bitsOf x m lo := by
  have hw : hi + 1 - lo = (m + 1 - lo) + (hi + 1 - (m + 1)) := by omega
  have hs : m + 1 = lo + (m + 1 - lo) := by omega
  simp only [bitsOf, hw, Nat.pow_add, Nat.mod_mul]
  rw [Nat.add_comm, Nat.mul_comm, ← Nat.shiftRight_eq_div_pow, ← Nat.shiftRight_add, ← hs]

@[simp] theorem wordOf_bitsOf_all (x : Word) : wordOf (bitsOf x 63 0) = x := by
  rw [bitsOf, Nat.shiftRight_zero, Nat.mod_eq_of_lt x.isLt, wordOf, BitVec.ofNat_toNat, BitVec.setWidth_eq]

/-- A word cut at a field: what lies above it, the field, what lies below it. -/
theorem toNat_around_field (x : Word) {hi lo : Nat} (hl : lo ≤ hi) :
    x.toNat = 2 ^ lo * (2 ^ (hi + 1 - lo) * (x.toNat >>> (hi + 1)) + bitsOf x hi lo) + x.toNat % 2 ^ lo := by
  have hs : hi + 1 = lo + (hi + 1 - lo) := by omega
  conv_rhs => rw [bitsOf, hs, Nat.shiftRight_add, ← hs, Nat.shiftRight_eq_div_pow _ (hi + 1 - lo), Nat.div_add_mod,
    Nat.shiftRight_eq_div_pow, Nat.div_add_mod]

/-- Replacing a field gives the bits of the new value in the field, and leaves the others alone. -/
theorem getLsbD_setBits (x : Word) (n : Nat) {hi lo : Nat} (hl : lo ≤ hi) (hh : hi < 64) (i : Nat) :
    (setBits x hi lo n).getLsbD i = if lo ≤ i ∧ i ≤ hi then n.testBit (i - lo) else x.getLsbD i := by
  have hx := toNat_around_field x hl
  have hset : x.toNat - bitsOf x hi lo * 2 ^ lo + n % 2 ^ (hi + 1 - lo) * 2 ^ lo
      = 2 ^ lo * (2 ^ (hi + 1 - lo) * (x.toNat >>> (hi + 1)) + n % 2 ^ (hi + 1 - lo)) + x.toNat % 2 ^ lo := by
    rw [Nat.mul_add] at hx ⊢
    rw [Nat.mul_comm _ (2 ^ lo), Nat.mul_comm _ (2 ^ lo)]
    omega
  rw [setBits, hset, wordOf, BitVec.getLsbD_ofNat, Nat.testBit_two_pow_mul_add _ (Nat.mod_lt _ (Nat.two_pow_pos lo)),
    Nat.testBit_two_pow_mul_add _ (Nat.mod_lt _ (Nat.two_pow_pos _)), Nat.testBit_mod_two_pow, Nat.testBit_mod_two_pow,
    Nat.testBit_shiftRight, BitVec.testBit_toNat, BitVec.testBit_toNat]
  by_cases h64 : i < 64
  · by_cases hlo : i < lo
    · simp [h64, hlo, Nat.not_le.2 hlo]
    · by_cases hhi : i ≤ hi
      · have hw : i - lo < hi + 1 - lo := by omega
        simp [h64, hlo, hhi, hw, Nat.not_lt.1 hlo]
      · have hw : ¬ i - lo < hi + 1 - lo := by omega
        have habove : hi + 1 + (i - lo - (hi + 1 - lo)) = i := by omega
        simp [h64, hlo, hhi, hw, habove]
  · have hhi : ¬ i ≤ hi := by omega
    simp [h64, hhi, BitVec.getLsbD_of_ge x i (Nat.not_lt.1 h64)]

end Sys2Proof

/-! The bit-field, multiply, divide and pointer instructions of 04_scalar.md (R103 to R111). -/

namespace Sys2Proof.Machine

/-! ### Bit fields (R103, R104) -/

theorem testBit_fieldOf_zeros (x : Word) {o i : Nat} (w : Nat) (h : o + i < 512) :
    (fieldOf x o w false).testBit i = (decide (i < w) && x.getLsbD (o + i)) := by
  simp only [fieldOf, Nat.testBit_mod_two_pow, Nat.testBit_div_two_pow, BitVec.testBit_toNat, Nat.add_comm i o]
  simp [h]

theorem testBit_fieldOf_signs (x : Word) {o i : Nat} (w : Nat) (h : o + i < 512) :
    (fieldOf x o w true).testBit i = (decide (i < w) && x.getLsbD (min 63 (o + i))) := by
  simp only [fieldOf, Nat.testBit_mod_two_pow, Nat.testBit_div_two_pow, BitVec.testBit_toNat, Nat.add_comm i o, if_true,
    BitVec.getLsbD_signExtend, decide_eq_true h, Bool.true_and, BitVec.msb_eq_getLsbD_last]
  split_ifs with h64
  · rw [Nat.min_eq_right (by omega)]
  · rw [Nat.min_eq_left (by omega)]

theorem fieldOf_lt (x : Word) (o w : Nat) (fill : Bool) : fieldOf x o w fill < 2 ^ w := Nat.mod_lt _ (Nat.two_pow_pos w)

/-- BFXS is the sign extension of a field of its width (R104). -/
theorem bitFieldSigned_eq_signExtend (x : Word) (o : Nat) {w : Nat} (hw : 0 < w) :
    bitFieldSigned x o w = (BitVec.ofNat w (fieldOf x o w true)).signExtend 64 := by
  have hf := fieldOf_lt x o w true
  rw [bitFieldSigned, if_neg (by omega), BitVec.signExtend, BitVec.toInt_eq_msb_cond, BitVec.msb_eq_decide,
    BitVec.toNat_ofNat, Nat.mod_eq_of_lt hf]
  by_cases h : fieldOf x o w true < 2 ^ (w - 1)
  · simp [h, Nat.not_le.2 h, wordOf]
  · simp [h, Nat.not_lt.1 h, wordOfInt]

theorem getLsbD_bitField (x : Word) {o i : Nat} (w : Nat) (ho : o < 256) (hi : i < 64) :
    (bitField x o w).getLsbD i = (decide (i < w) && x.getLsbD (o + i)) := by
  rw [bitField, wordOf, BitVec.getLsbD_ofNat, testBit_fieldOf_zeros x w (by omega), decide_eq_true hi, Bool.true_and]

theorem getLsbD_bitFieldSigned (x : Word) {o w i : Nat} (ho : o < 256) (hw : w ≤ 64) (hi : i < 64) :
    (bitFieldSigned x o w).getLsbD i = (decide (0 < w) && x.getLsbD (min 63 (o + min i (w - 1)))) := by
  rcases Nat.eq_zero_or_pos w with rfl | hpos
  · simp [bitFieldSigned]
  · rw [bitFieldSigned_eq_signExtend x o hpos, BitVec.getLsbD_signExtend, BitVec.msb_eq_getLsbD_last, BitVec.getLsbD_ofNat,
      BitVec.getLsbD_ofNat, testBit_fieldOf_signs x w (by omega), testBit_fieldOf_signs x w (by omega)]
    by_cases hiw : i < w
    · simp [hi, hiw, hpos, Nat.min_eq_left (Nat.le_sub_one_of_lt hiw)]
    · simp [hi, hiw, hpos, Nat.min_eq_right (show w - 1 ≤ i by omega)]

theorem getLsbD_bitInsert (y x : Word) {o w i : Nat} (hi : i < 64) :
    (bitInsert y x o w).getLsbD i = if o ≤ i ∧ i < o + w then x.getLsbD (i - o) else y.getLsbD i := by
  simp only [bitInsert, wordOf, BitVec.getLsbD_or, BitVec.getLsbD_and, BitVec.getLsbD_not, BitVec.getLsbD_ofNat,
    Nat.testBit_mul_two_pow, Nat.testBit_two_pow_sub_one, BitVec.testBit_toNat, decide_eq_true hi, Bool.true_and]
  by_cases ho : o ≤ i
  · have hlt : i - o < w ↔ i < o + w := by omega
    by_cases hw : i < o + w <;> simp [ho, hw, hlt]
  · simp [ho]

theorem fieldOffset_eq (y : Word) : fieldOffset y = y.toNat % 256 := by
  rw [fieldOffset, bitsOf, Nat.shiftRight_zero]
  rfl

theorem fieldWidth_eq (y : Word) : fieldWidth y = min (y.toNat / 256 % 256) 64 := by
  rw [fieldWidth, bitsOf, Nat.shiftRight_eq_div_pow]
  rfl

/-- BFI reads rd as its second source, without a last-use mark (R103). -/
theorem exec_bfi_next {s : State} {d a : Reg} {l : Bool} {o : BitVec 6} {w : BitVec 7} {x y : Word} (hx : Reads s a x)
    (hy : Reads s d y) (h : s.mayRetire (used l a) [(d, bitInsert y x o.toNat w.toNat)] = true) :
    exec (.bfi d a l o w) s = .next (s.advanced 4 (used l a) [(d, bitInsert y x o.toNat w.toNat)]) := by
  have hdies : used l a ++ used false d = used l a := List.append_nil _
  change execBfi d a l o w s = _
  rw [← hdies] at h ⊢
  exact binary_next (f := fun x y => bitInsert y x o.toNat w.toNat) hx hy h

/-- Settles O4: the forms are register shapes of their field functions, whose bits are those of R104. -/
theorem bitFieldInstructions : Obligations.BitFieldInstructions := by
  unfold Obligations.BitFieldInstructions
  refine ⟨⟨fun s d a l o w x hx => ⟨?bfxImm, ?bfxsImm, ?bfxs64, fun y hy => exec_bfi_next hx hy⟩,
    ?bfx, ?bfxs, ?bfi⟩, fun x y o w i ho hw hi =>
      ⟨getLsbD_bitField x w ho hi, getLsbD_bitFieldSigned x ho hw hi, getLsbD_bitInsert y x hi⟩⟩
  case bfxImm => exact Unary_of (mk := fun d a l => .bfx d a l o w) _ (fun _ _ _ _ => rfl) (fun _ => rfl) s d a l x hx
  case bfxsImm => exact Unary_of (mk := fun d a l => .bfxs d a l o w) _ (fun _ _ _ _ => rfl) (fun _ => rfl) s d a l x hx
  case bfxs64 => exact Unary_of (mk := fun d a l => .bfxs64 d a l o) _ (fun _ _ _ _ => rfl) (fun _ => rfl) s d a l x hx
  case bfx => exact Binary_of _ (fun _ _ _ _ _ _ => rfl) fun x y => by rw [fieldOffset_eq, fieldWidth_eq]
  case bfxs => exact Binary_of _ (fun _ _ _ _ _ _ => rfl) fun x y => by rw [fieldOffset_eq, fieldWidth_eq]
  case bfi => exact Ternary_of _ (fun _ _ _ _ _ _ => rfl) fun z x y => by rw [fieldOffset_eq, fieldWidth_eq]

/-! ### Multiply and divide (R105, R106) -/

theorem mulLow_eq {n : Nat} (x y : BitVec n) : mulLow x y = BitVec.ofNat n (x.toNat * y.toNat) := BitVec.mul_def

theorem narrow_eq_low32 {f g : BitVec 32 → BitVec 32 → BitVec 32} (h : ∀ x y, f x y = g x y) (x y : Word) :
    narrow f x y = low32 g x y := by
  rw [narrow, low32, BitVec.truncate_eq_setWidth, BitVec.truncate_eq_setWidth, h]

/-- Settles O5: each instruction is `binary` of its function, or of that function on the low halves. -/
theorem mulDivResults : Obligations.MulDivResults := by
  unfold Obligations.MulDivResults
  refine ⟨Binary_of mulLow ?_ mulLow_eq, Binary_of mulHigh ?_ fun _ _ => rfl, Binary_of mulHighU ?_ fun _ _ => rfl,
    Binary_of quot ?_ fun _ _ => rfl, Binary_of quotU ?_ fun _ _ => rfl, Binary_of remS ?_ fun _ _ => rfl,
    Binary_of remU ?_ fun _ _ => rfl, Binary_of (narrow mulLow) ?_ (narrow_eq_low32 mulLow_eq),
    Binary_of (narrow mulHigh) ?_ (narrow_eq_low32 fun _ _ => rfl), Binary_of (narrow mulHighU) ?_ (narrow_eq_low32 fun _ _ => rfl),
    Binary_of (narrow quot) ?_ (narrow_eq_low32 fun _ _ => rfl), Binary_of (narrow quotU) ?_ (narrow_eq_low32 fun _ _ => rfl),
    Binary_of (narrow remS) ?_ (narrow_eq_low32 fun _ _ => rfl), Binary_of (narrow remU) ?_ (narrow_eq_low32 fun _ _ => rfl)⟩
  all_goals exact fun _ _ _ _ _ _ => rfl

/-! ### What a run comes to -/

theorem conclude_retire {s : State} {n : Nat} {dies : List Reg} {writes : List (Reg × Word)}
    (h : s.mayRetire dies writes = true) : conclude s (s.retire n dies writes) = .next (s.advanced n dies writes) := by
  rw [retire_ok h]
  rfl

theorem conclude_trapWith_bind {α : Type} (s : State) (c : Cause) (f : Word) (k : α → Run) :
    conclude s (trapWith c f >>= k) = .next (s.takeTrap { cause := c, faddr := f }) := rfl

/-! ### Pointers (R107 to R111) -/

/-- The address field of the pointer's space, moved by an exact delta (R107). -/
def movedField (p : Word) (delta : Int) : Int := (bitsOf p (addrTop p) 0 : Int) + delta

/-- The pointer with its address field moved, everything else copied (R107). -/
def movedPointer (p : Word) (delta : Int) : Word := setBits p (addrTop p) 0 (movedField p delta).toNat

theorem advanceOr_inField {p : Word} {delta : Int} (h0 : 0 ≤ movedField p delta)
    (h1 : movedField p delta < 2 ^ (addrTop p + 1)) : advanceOr p delta = .ok (movedPointer p delta) := by
  unfold movedField at h0 h1
  simp [advanceOr, advance, movedPointer, movedField, not_lt.2 h0, not_le.2 h1]

theorem advanceOr_outOfField {p : Word} {delta : Int}
    (h : movedField p delta < 0 ∨ 2 ^ (addrTop p + 1) ≤ movedField p delta) : advanceOr p delta = trapWith .ptrovf p := by
  unfold movedField at h
  simp [advanceOr, advance, h]

/-- What PIDX counts in: an element of SHRD, or the bytes of an element of FMT, 0 where it is not whole bytes (R107). -/
def elementStep (p : Word) : Nat := if ptrSpace p = 2 then 1 else fmtBytes (ptrFmt p)

theorem pidxSize_of_whole {p : Word} (h : elementStep p ≠ 0) : pidxSize p = .ok (elementStep p) := by
  unfold elementStep at h ⊢
  unfold pidxSize
  split_ifs at h ⊢ with hspace hzero
  · rfl
  · exact absurd hzero h
  · rfl

theorem pidxSize_of_zero {p : Word} (h : elementStep p = 0) : pidxSize p = trapWith .format p := by
  unfold elementStep at h
  unfold pidxSize
  split_ifs at h ⊢ with hspace
  rfl

/-- How PADD and PIDX end, once the delta is known. -/
theorem conclude_advance_inField {s : State} {n : Nat} {dies : List Reg} {d : Reg} {p : Word} {delta : Int}
    (h0 : 0 ≤ movedField p delta) (h1 : movedField p delta < 2 ^ (addrTop p + 1))
    (h : s.mayRetire dies [(d, movedPointer p delta)] = true) :
    conclude s (advanceOr p delta >>= fun q => s.retire n dies [(d, q)]) = .next (s.advanced n dies [(d, movedPointer p delta)]) := by
  rw [advanceOr_inField h0 h1]
  exact conclude_retire h

theorem conclude_advance_outOfField {s : State} {p : Word} {delta : Int} (k : Word → Run)
    (h : movedField p delta < 0 ∨ 2 ^ (addrTop p + 1) ≤ movedField p delta) :
    conclude s (advanceOr p delta >>= k) = .next (s.takeTrap { cause := .ptrovf, faddr := p }) := by
  rw [advanceOr_outOfField h, conclude_trapWith_bind]

theorem exec_padd {s : State} {d a b : Reg} {l m : Bool} {p y : Word} (hp : Reads s a p) (hy : Reads s b y) :
    exec (.padd d a l b m) s
      = conclude s (advanceOr p y.toInt >>= fun q => s.retire 4 (used l a ++ used m b) [(d, q)]) := by
  rw [Reads] at hp hy
  change execPadd d a l b m s = _
  simp only [execPadd, padd, hp, hy, bind, Except.bind]

theorem exec_pidx {s : State} {d a b : Reg} {l m : Bool} {p y : Word} (hp : Reads s a p) (hy : Reads s b y) :
    exec (.pidx d a l b m) s = conclude s (pidxSize p >>= fun n => advanceOr p (y.toInt * n) >>= fun q =>
      s.retire 4 (used l a ++ used m b) [(d, q)]) := by
  rw [Reads] at hp hy
  change execPidx d a l b m s = _
  simp only [execPidx, hp, hy, bind, Except.bind]

theorem exec_pidx_of_whole {s : State} {d a b : Reg} {l m : Bool} {p y : Word} (hp : Reads s a p) (hy : Reads s b y)
    (h : elementStep p ≠ 0) : exec (.pidx d a l b m) s
      = conclude s (advanceOr p (y.toInt * elementStep p) >>= fun q => s.retire 4 (used l a ++ used m b) [(d, q)]) := by
  rw [exec_pidx hp hy, pidxSize_of_whole h]
  rfl

theorem exec_pidx_of_zero {s : State} {d a b : Reg} {l m : Bool} {p y : Word} (hp : Reads s a p) (hy : Reads s b y)
    (h : elementStep p = 0) : exec (.pidx d a l b m) s = .next (s.takeTrap { cause := .format, faddr := p }) := by
  rw [exec_pidx hp hy, pidxSize_of_zero h, conclude_trapWith_bind]

theorem exec_pshrd_inField {s : State} {d a b : Reg} {l m : Bool} {x y : Word} (hx : Reads s a x) (hy : Reads s b y)
    (h : y.toNat < 2 ^ 40) (hr : s.mayRetire (used l a ++ used m b) [(d, shrdPointer x y)] = true) :
    exec (.pshrd d a l b m) s = .next (s.advanced 4 (used l a ++ used m b) [(d, shrdPointer x y)]) := by
  rw [Reads] at hx hy
  change execPshrd d a l b m s = _
  simp only [execPshrd, hx, hy, bind, Except.bind, if_neg (Nat.not_le.2 h)]
  exact conclude_retire hr

theorem exec_pshrd_outOfField {s : State} {d a b : Reg} {l m : Bool} {x y : Word} (hx : Reads s a x) (hy : Reads s b y)
    (h : 2 ^ 40 ≤ y.toNat) : exec (.pshrd d a l b m) s = .next (s.takeTrap { cause := .ptrovf, faddr := y }) := by
  rw [Reads] at hx hy
  change execPshrd d a l b m s = _
  simp only [execPshrd, hx, hy, bind, Except.bind, if_pos h]
  rfl

/-- Settles O6: PADD and PIDX end as their advance does, PSET and PGET have the register shapes, PSHRD splits on its index. -/
theorem pointerResults : Obligations.PointerResults := by
  unfold Obligations.PointerResults
  refine ⟨?padd, ?pidx, ?pset, ?pget, ?pshrd⟩
  case padd =>
    intro s d a l b m p y hp hy top t q dies
    rw [Completes, Completes, exec_padd hp hy]
    exact ⟨fun ⟨h0, h1, hr⟩ => conclude_advance_inField h0 h1 hr, fun h => conclude_advance_outOfField _ h⟩
  case pidx =>
    intro s d a l b m p y hp hy top size t q dies
    refine ⟨fun ⟨hs, h0, h1, hr⟩ => ?_, exec_pidx_of_zero hp hy, fun ⟨hs, h⟩ => ?_⟩
    · exact (exec_pidx_of_whole hp hy hs).trans (conclude_advance_inField h0 h1 hr)
    · exact (exec_pidx_of_whole hp hy hs).trans (conclude_advance_outOfField _ h)
  case pset => exact fun f => Binary_of _ (fun _ _ _ _ _ _ => rfl) fun _ _ => rfl
  case pget => exact fun f => Unary_of _ (fun _ _ _ _ => rfl) fun _ => rfl
  case pshrd =>
    intro s d a l b m x y hx hy v
    exact ⟨fun ⟨h, hr⟩ => exec_pshrd_inField hx hy h hr, exec_pshrd_outOfField hx hy⟩

/-- The fields of a CORE pointer fix it (R109). -/
theorem corePointer_of_fields {v x y : Word} (hfmt : bitsOf v 63 55 = bitsOf x 63 55) (hspace : bitsOf v 54 52 = 1)
    (hcore : bitsOf v 51 32 = bitsOf y 19 0) (hoff : bitsOf v 31 0 = bitsOf x 31 0) : v = corePointer x y := by
  refine BitVec.eq_of_getLsbD_eq fun i hi => ?_
  rw [corePointer, getLsbD_setBits _ _ (by omega) (by omega), getLsbD_setBits _ _ (by omega) (by omega),
    getLsbD_setBits _ _ (by omega) (by omega)]
  split_ifs with h32 h52 h55
  · exact getLsbD_of_bitsOf_eq hoff h32.1 h32.2
  · exact getLsbD_of_bitsOf_eq hcore h52.1 h52.2
  · exact getLsbD_of_bitsOf_eq hspace h55.1 h55.2
  · rw [getLsbD_of_bitsOf_eq hfmt (i := i) (by omega) (by omega)]
    exact (getLsbD_of_bitsOf_eq rfl (by omega) (by omega)).symm

/-- Settles O7: the pointer with these fields is PCORE's. -/
theorem pcoreBuilds : Obligations.PcoreBuilds := by
  unfold Obligations.PcoreBuilds
  intro s d a l b m x y v hx hy hfmt hspace hcore hoff hr
  obtain rfl := corePointer_of_fields hfmt hspace hcore hoff
  exact Binary_of corePointer (fun _ _ _ _ _ _ => rfl) (fun _ _ => rfl) s d a l b m x y hx hy hr

/-- The fields of an extent fix it (R111, R360). -/
theorem extentOf_of_fields {v x y : Word} (hplo : bitsOf v 63 56 = bitsOf x 19 12) (hphi : bitsOf v 55 48 = bitsOf y 19 12)
    (hx0 : bitsOf v 47 41 = bitsOf x 11 5) (hy0 : bitsOf v 40 36 = bitsOf x 4 0) (hx1 : bitsOf v 35 29 = bitsOf y 11 5)
    (hy1 : bitsOf v 28 24 = bitsOf y 4 0) (hrest : bitsOf v 23 0 = 0) : v = extentOf x y := by
  have hv : bitsOf v 63 0 = bitsOf x 19 12 * 2 ^ 56 + bitsOf y 19 12 * 2 ^ 48 + bitsOf x 11 0 * 2 ^ 36 + bitsOf y 11 0 * 2 ^ 24 := by
    have hx : bitsOf x 11 0 = bitsOf x 11 5 * 2 ^ 5 + bitsOf x 4 0 := bitsOf_split x (by decide) (by decide)
    have hy : bitsOf y 11 0 = bitsOf y 11 5 * 2 ^ 5 + bitsOf y 4 0 := bitsOf_split y (by decide) (by decide)
    have h56 : bitsOf v 63 0 = bitsOf v 63 56 * 2 ^ 56 + bitsOf v 55 0 := bitsOf_split v (by decide) (by decide)
    have h48 : bitsOf v 55 0 = bitsOf v 55 48 * 2 ^ 48 + bitsOf v 47 0 := bitsOf_split v (by decide) (by decide)
    have h41 : bitsOf v 47 0 = bitsOf v 47 41 * 2 ^ 41 + bitsOf v 40 0 := bitsOf_split v (by decide) (by decide)
    have h36 : bitsOf v 40 0 = bitsOf v 40 36 * 2 ^ 36 + bitsOf v 35 0 := bitsOf_split v (by decide) (by decide)
    have h29 : bitsOf v 35 0 = bitsOf v 35 29 * 2 ^ 29 + bitsOf v 28 0 := bitsOf_split v (by decide) (by decide)
    have h24 : bitsOf v 28 0 = bitsOf v 28 24 * 2 ^ 24 + bitsOf v 23 0 := bitsOf_split v (by decide) (by decide)
    rw [h56, h48, h41, h36, h29, h24, hplo, hphi, hx0, hy0, hx1, hy1, hrest, hx, hy]
    ring
  rw [← wordOf_bitsOf_all v, hv, extentOf]

/-- Settles O8: the extent with these fields is EXT's. -/
theorem extBuilds : Obligations.ExtBuilds := by
  unfold Obligations.ExtBuilds
  intro s d a l b m x y v hx hy hplo hphi hx0 hy0 hx1 hy1 hrest hr
  obtain rfl := extentOf_of_fields hplo hphi hx0 hy0 hx1 hy1 hrest
  exact Binary_of extentOf (fun _ _ _ _ _ _ => rfl) (fun _ _ => rfl) s d a l b m x y hx hy hr

end Sys2Proof.Machine

/-! Taking messages: RECV, C.RECV and PEEK (06_task_instr.md R163, R164). -/

namespace Sys2Proof.Machine

/-! ### The course of a RECV -/

/-- The state after an instruction that retires at `pc'` has taken a message: the header is in rd, the message is out of the inbox, its
source is the reply target, and its core has acquired (R163). -/
def State.taken (s : State) (pc' : Word) (dies : List Reg) (d : Reg) (g : Message) : State :=
  let u := s.retiredTo pc' dies [(d, g.header)]
  let w := u.setMine { u.mine with inbox := dropFirst (s.forRecv s.cur.1 s.cur.2) u.mine.inbox }
  (w.setMe { w.me with replyTo := some g.source }).acquire s.cur.1

/-- With no message for it a RECV waits, whatever rs1 holds. -/
theorem receive_waits {s : State} {d a : Reg} {p : Word} (n : Nat) (l : Bool) (hp : Reads s a p)
    (hm : s.nextMessage s.cur.1 s.cur.2 = none) : receive s n d a l = stall .retry := by
  rw [Reads] at hp
  simp only [receive, hp, hm, bind, Except.bind]

/-- With g0 for rs1 the payload goes nowhere. -/
theorem receive_header {s : State} {d : Reg} {g : Message} (n : Nat) (hm : s.nextMessage s.cur.1 s.cur.2 = some g)
    (hr : s.mayRetire [] [(d, g.header)] = true) :
    receive s n d 0 false = .ok (s.taken (s.me.pc + wordOf n) [] d g) := by
  have hp : s.readReg 0 = .ok 0 := readReg_zero s
  have hdies : used false 0 = [] := rfl
  simp only [receive, hp, hm, hdies, retire_ok hr, bind, Except.bind, pure, Except.pure, State.taken, if_true, if_false,
    List.any_nil, Bool.false_eq_true, ne_eq, not_true_eq_false, false_and, or_false, List.zip_nil_left, List.foldl_nil]

/-- With another rs1 the seven stores follow the taking, at the places that were checked before it. -/
theorem receive_payload {s : State} {d a : Reg} {l : Bool} {p : Word} {g : Message} {places : List (Word × Place)} (n : Nat)
    (hp : Reads s a p) (ha : a ≠ 0) (hm : s.nextMessage s.cur.1 s.cur.2 = some g) (hpl : s.storePlaces p 0 7 = .ok places)
    (hc : places.any (fun e => s.conflicts e.2.key 8) = false) (ho : s.me.outstanding.c1 < 57)
    (hr : s.mayRetire (used l a) [(d, g.header)] = true) :
    receive s n d a l = .ok ((places.zip g.payload).foldl (fun (t : State) e => t.storeNow e.1.1 e.1.2 e.2)
      (s.taken (s.me.pc + wordOf n) (used l a) d g)) := by
  rw [Reads] at hp
  have hroom : ¬ 57 ≤ s.me.outstanding.get 1 := Nat.not_le.2 ho
  simp only [receive, hp, hm, hpl, hc, hroom, ha, retire_ok hr, bind, Except.bind, pure, Except.pure, State.taken, if_false,
    Bool.false_eq_true, false_or, and_false]

/-! ### The instructions -/

theorem exec_recv (s : State) (d a : Reg) (l : Bool) :
    exec (.recv d a l) s = concludeAs (Instr.recv d a l).encoding s (receive s 4 d a l) := rfl

theorem exec_cRecv (s : State) (d : Reg) :
    exec (.cRecv d) s = concludeAs (halfword 11 (d.toNat * 64)) s (receive s 2 d 0 false) := rfl

theorem concludeAs_ok (e : Word) (s t : State) : concludeAs e s (.ok t) = .next (s.afterStep t) := rfl

theorem concludeAs_stall (e : Word) (s : State) (w : Wait) : concludeAs e s (stall w) = .next (s.block w) := rfl

/-- PEEK retires with what it reads of the inbox: the two outcomes of the search are the header and 0. -/
theorem exec_peek (s : State) (d : Reg) : exec (.peek d) s
    = conclude s (s.retire 4 [] [(d, (s.nextMessage s.cur.1 s.cur.2).elim 0 Message.header)]) := by
  change execPeek d s = _
  rw [execPeek]
  cases s.nextMessage s.cur.1 s.cur.2 <;> rfl

/-- Settles O22: RECV and C.RECV are one `receive`, which waits, takes a message, or takes it and stores its payload. -/
theorem messagesTaken : Obligations.MessagesTaken := by
  unfold Obligations.MessagesTaken
  refine ⟨?taken, ?stored, ?empty, ?peek⟩
  case taken =>
    intro s d g hm hr
    refine ⟨?_, ?_⟩
    · rw [Completes, exec_recv, receive_header 4 hm hr, concludeAs_ok]
      rfl
    · rw [Completes, exec_cRecv, receive_header 2 hm hr, concludeAs_ok]
      rfl
  case stored =>
    intro s d a l p g places hp ha hm hpl hc ho hr
    rw [Completes, exec_recv, receive_payload 4 hp ha hm hpl hc ho hr, concludeAs_ok]
    rfl
  case empty =>
    intro s d a l p hp hm
    refine ⟨?_, ?_⟩
    · rw [Completes, exec_recv, receive_waits 4 l hp hm, concludeAs_stall]
    · rw [Completes, exec_cRecv, receive_waits 2 false (readReg_zero s) hm, concludeAs_stall]
  case peek =>
    intro s d v hv hr
    have hread : (s.nextMessage s.cur.1 s.cur.2).elim 0 Message.header = v := by
      rw [hv]
      cases s.nextMessage s.cur.1 s.cur.2 <;> rfl
    rw [Completes, exec_peek, hread]
    exact conclude_retire hr

end Sys2Proof.Machine

/-! Decoding an encoded instruction (03_encoding.md R74 to R95): a word is its fields side by side, and the decoder reads them back. -/

namespace Sys2Proof

/-! ### Fields side by side -/

/-- A field of `w` bits below the rest of a word. -/
def below (w v rest : Nat) : Nat := v + 2 ^ w * rest

/-- A value that fits a field of `w` bits. -/
def Fits (w v : Nat) : Prop := v < 2 ^ w

@[simp] theorem fits_toNat {w : Nat} (x : BitVec w) : Fits w x.toNat := x.isLt

@[simp] theorem fits_bool (l : Bool) : Fits 1 l.toNat := l.toNat_lt

@[simp] theorem fits_numeral {w v : Nat} (h : Nat.blt v (2 ^ w) = true) : Fits w v := Nat.le_of_ble_eq_true h

@[simp] theorem toNat_bool_beq_one (l : Bool) : (l.toNat == 1) = l := by cases l <;> rfl

/-- The field at the bottom. -/
@[simp] theorem fld_below_self {w v rest : Nat} (hv : Fits w v) : fld (below w v rest) 0 w = v := by
  rw [fld, below, Nat.pow_zero, Nat.div_one, Nat.add_mul_mod_self_left, Nat.mod_eq_of_lt hv]

/-- A field above the one at the bottom lies in the rest. -/
@[simp] theorem fld_below_rest {w v rest lo n : Nat} (hv : Fits w v) (h : w ≤ lo) : fld (below w v rest) lo n = fld rest (lo - w) n := by
  obtain ⟨k, rfl⟩ := Nat.exists_eq_add_of_le h
  rw [fld, fld, below, Nat.pow_add, ← Nat.div_div_eq_div_mul, Nat.add_mul_div_left _ _ (Nat.two_pow_pos w),
    Nat.div_eq_of_lt hv, Nat.zero_add, Nat.add_sub_cancel_left]

/-- A part of the field at the bottom. -/
@[simp] theorem fld_below_part {w v rest lo n : Nat} (h : lo + n < w) : fld (below w v rest) lo n = fld v lo n := by
  replace h := Nat.le_of_lt h
  obtain ⟨k, rfl⟩ := Nat.exists_eq_add_of_le h
  rw [fld, fld, below, Nat.add_assoc, Nat.pow_add, Nat.mul_assoc, Nat.add_mul_div_left _ _ (Nat.two_pow_pos lo), Nat.pow_add,
    Nat.mul_assoc, Nat.add_mul_mod_self_left]

/-- A field that reaches into the rest has a value exactly where both its parts have theirs. -/
@[simp] theorem fld_below_across {w v rest lo n c : Nat} (hv : Fits w v) (hlo : lo < w) (h : w < lo + n) :
    fld (below w v rest) lo n = c ↔ v / 2 ^ lo = c % 2 ^ (w - lo) ∧ fld rest 0 (n - (w - lo)) = c / 2 ^ (w - lo) := by
  obtain ⟨j, rfl⟩ := Nat.exists_eq_add_of_lt hlo
  obtain ⟨k, rfl⟩ := Nat.exists_eq_add_of_le (show j + 1 ≤ n by omega)
  have hj : lo + j + 1 - lo = j + 1 := by omega
  have hk : j + 1 + k - (j + 1) = k := by omega
  have hlow : v / 2 ^ lo < 2 ^ (j + 1) := by
    rw [Nat.div_lt_iff_lt_mul (Nat.two_pow_pos lo), ← Nat.pow_add, Nat.add_comm (j + 1)]
    exact hv
  have hsplit : fld (below (lo + j + 1) v rest) lo (j + 1 + k) = v / 2 ^ lo + 2 ^ (j + 1) * (rest % 2 ^ k) := by
    rw [fld, below, Nat.add_assoc, Nat.pow_add, Nat.mul_assoc, Nat.add_mul_div_left _ _ (Nat.two_pow_pos lo), Nat.pow_add _ (j + 1) k,
      Nat.mod_mul, Nat.add_mul_mod_self_left, Nat.mod_eq_of_lt hlow, Nat.add_mul_div_left _ _ (Nat.two_pow_pos _),
      Nat.div_eq_of_lt hlow, Nat.zero_add]
  rw [hsplit, hj, hk, fld, Nat.pow_zero, Nat.div_one]
  constructor
  · rintro rfl
    rw [Nat.add_mul_mod_self_left, Nat.mod_eq_of_lt hlow, Nat.add_mul_div_left _ _ (Nat.two_pow_pos _), Nat.div_eq_of_lt hlow,
      Nat.zero_add]
    exact ⟨rfl, rfl⟩
  · rintro ⟨h1, h2⟩
    rw [h1, h2, Nat.mod_add_div]

/-! ### From the halfwords to the fields -/

/-- The halfwords of a long encoding are read as the number that they are. -/
theorem decode_long {n : Nat} (h31 : 2 ^ 31 ≤ n) (h32 : n < 2 ^ 32) :
    decode [BitVec.ofNat 16 (n / 65536), BitVec.ofNat 16 n] = (decode32 n).map (·, []) := by
  have hwide : isWide (BitVec.ofNat 16 (n / 65536)) = true := by
    rw [isWide, BitVec.getLsbD_ofNat, Nat.testBit_eq_decide_div_mod_eq]
    simp only [decide_eq_true_eq, Bool.and_eq_true]
    omega
  have hword : (BitVec.ofNat 16 (n / 65536)).toNat * 65536 + (BitVec.ofNat 16 n).toNat = n := by
    rw [BitVec.toNat_ofNat, BitVec.toNat_ofNat]
    omega
  simp only [decode, hwide, hword, if_true]

/-- The halfword of a compact encoding is read as the number that it is. -/
theorem decode_compact {n : Nat} (h15 : n < 2 ^ 15) : decode [BitVec.ofNat 16 n] = (decode16 n).map (·, []) := by
  have hwide : isWide (BitVec.ofNat 16 n) = false := by
    rw [isWide, BitVec.getLsbD_ofNat, Nat.testBit_eq_decide_div_mod_eq]
    simp only [Bool.and_eq_false_iff, decide_eq_false_iff_not]
    omega
  have hword : (BitVec.ofNat 16 n).toNat = n := by
    rw [BitVec.toNat_ofNat]
    omega
  rw [decode, hwide, hword]
  rfl

/-- The fields that the decoder reads of an encoding, before it checks them. -/
noncomputable def decodeFields (length w : Nat) : Except Reject Instr := if length = 4 then decodeFields32 w else decodeFields16 w

theorem checked_ok {i : Instr} (h : i.check = none) : checked (.ok i) = .ok i := by
  simp only [checked, h]

/-- The pattern that is illegal for ever has no major opcode. -/
theorem decodeFields32_forever : decodeFields32 0xFFFFFFFF = .error .unassignedOpcode := by decide +kernel

/-! ### The decoder of each opcode -/

section

-- one lemma after the other: all of them wait for the equations of the same two functions
set_option Elab.async false

theorem decodeFields32_00 {w : Nat} (h : fld w 25 6 = 0) : decodeFields32 w = decodeMajor00 w := by
  simp only [decodeFields32, h]
theorem decodeFields32_01 {w : Nat} (h : fld w 25 6 = 1) : decodeFields32 w = decodeMajor01 w := by
  simp only [decodeFields32, h]
theorem decodeFields32_02 {w : Nat} (h : fld w 25 6 = 2) : decodeFields32 w = decodeMajor02 w := by
  simp only [decodeFields32, h]
theorem decodeFields32_03 {w : Nat} (h : fld w 25 6 = 3) : decodeFields32 w = decodeMajor03 w := by
  simp only [decodeFields32, h]
theorem decodeFields32_04 {w : Nat} (h : fld w 25 6 = 4) : decodeFields32 w = decodeMajor04 w := by
  simp only [decodeFields32, h]
theorem decodeFields32_05 {w : Nat} (h : fld w 25 6 = 5) : decodeFields32 w = decodeMajor05 w := by
  simp only [decodeFields32, h]
theorem decodeFields32_06 {w : Nat} (h : fld w 25 6 = 6) : decodeFields32 w = decodeMajor06 w := by
  simp only [decodeFields32, h]
theorem decodeFields32_07 {w : Nat} (h : fld w 25 6 = 7) : decodeFields32 w = decodeMajor07 w := by
  simp only [decodeFields32, h]
theorem decodeFields32_08 {w : Nat} (h : fld w 25 6 = 8) : decodeFields32 w = decodeMajor08 w := by
  simp only [decodeFields32, h]
theorem decodeFields32_09 {w : Nat} (h : fld w 25 6 = 9) : decodeFields32 w = decodeMajor09 w := by
  simp only [decodeFields32, h]
theorem decodeFields32_0A {w : Nat} (h : fld w 25 6 = 10) : decodeFields32 w = decodeMajor0A w := by
  simp only [decodeFields32, h]
theorem decodeFields32_0B {w : Nat} (h : fld w 25 6 = 11) : decodeFields32 w = decodeMajor0B w := by
  simp only [decodeFields32, h]
theorem decodeFields32_0C {w : Nat} (h : fld w 25 6 = 12) : decodeFields32 w = decodeMajor0C w := by
  simp only [decodeFields32, h]
theorem decodeFields32_0D {w : Nat} (h : fld w 25 6 = 13) : decodeFields32 w = decodeMajor0D w := by
  simp only [decodeFields32, h]
theorem decodeFields32_0E {w : Nat} (h : fld w 25 6 = 14) : decodeFields32 w = decodeMajor0E w := by
  simp only [decodeFields32, h]
theorem decodeFields32_0F {w : Nat} (h : fld w 25 6 = 15) : decodeFields32 w = decodeMajor0F w := by
  simp only [decodeFields32, h]
theorem decodeFields32_10 {w : Nat} (h : fld w 25 6 = 16) : decodeFields32 w = decodeMajor10 w := by
  simp only [decodeFields32, h]
theorem decodeFields32_11 {w : Nat} (h : fld w 25 6 = 17) : decodeFields32 w = decodeMajor11 w := by
  simp only [decodeFields32, h]
theorem decodeFields32_12 {w : Nat} (h : fld w 25 6 = 18) : decodeFields32 w = decodeMajor12 w := by
  simp only [decodeFields32, h]
theorem decodeFields32_13 {w : Nat} (h : fld w 25 6 = 19) : decodeFields32 w = decodeMajor13 w := by
  simp only [decodeFields32, h]
theorem decodeFields32_14 {w : Nat} (h : fld w 25 6 = 20) : decodeFields32 w = decodeMajor14 w := by
  simp only [decodeFields32, h]
theorem decodeFields32_15 {w : Nat} (h : fld w 25 6 = 21) : decodeFields32 w = decodeMajor15 w := by
  simp only [decodeFields32, h]
theorem decodeFields32_16 {w : Nat} (h : fld w 25 6 = 22) : decodeFields32 w = decodeMajor16 w := by
  simp only [decodeFields32, h]
theorem decodeFields32_17 {w : Nat} (h : fld w 25 6 = 23) : decodeFields32 w = decodeMajor17 w := by
  simp only [decodeFields32, h]
theorem decodeFields32_18 {w : Nat} (h : fld w 25 6 = 24) : decodeFields32 w = decodeMajor18 w := by
  simp only [decodeFields32, h]
theorem decodeFields32_19 {w : Nat} (h : fld w 25 6 = 25) : decodeFields32 w = decodeMajor19 w := by
  simp only [decodeFields32, h]
theorem decodeFields32_1A {w : Nat} (h : fld w 25 6 = 26) : decodeFields32 w = decodeMajor1A w := by
  simp only [decodeFields32, h]
theorem decodeFields32_1B {w : Nat} (h : fld w 25 6 = 27) : decodeFields32 w = decodeMajor1B w := by
  simp only [decodeFields32, h]
theorem decodeFields32_1C {w : Nat} (h : fld w 25 6 = 28) : decodeFields32 w = decodeMajor1C w := by
  simp only [decodeFields32, h]
theorem decodeFields32_1D {w : Nat} (h : fld w 25 6 = 29) : decodeFields32 w = decodeMajor1D w := by
  simp only [decodeFields32, h]
theorem decodeFields32_1E {w : Nat} (h : fld w 25 6 = 30) : decodeFields32 w = decodeMajor1E w := by
  simp only [decodeFields32, h]
theorem decodeFields32_1F {w : Nat} (h : fld w 25 6 = 31) : decodeFields32 w = decodeMajor1F w := by
  simp only [decodeFields32, h]
theorem decodeFields32_20 {w : Nat} (h : fld w 25 6 = 32) : decodeFields32 w = decodeMajor20 w := by
  simp only [decodeFields32, h]
theorem decodeFields32_21 {w : Nat} (h : fld w 25 6 = 33) : decodeFields32 w = decodeMajor21 w := by
  simp only [decodeFields32, h]
theorem decodeFields32_22 {w : Nat} (h : fld w 25 6 = 34) : decodeFields32 w = decodeMajor22 w := by
  simp only [decodeFields32, h]
theorem decodeFields32_23 {w : Nat} (h : fld w 25 6 = 35) : decodeFields32 w = decodeMajor23 w := by
  simp only [decodeFields32, h]
theorem decodeFields32_24 {w : Nat} (h : fld w 25 6 = 36) : decodeFields32 w = decodeMajor24 w := by
  simp only [decodeFields32, h]
theorem decodeFields32_25 {w : Nat} (h : fld w 25 6 = 37) : decodeFields32 w = decodeMajor25 w := by
  simp only [decodeFields32, h]
theorem decodeFields32_26 {w : Nat} (h : fld w 25 6 = 38) : decodeFields32 w = decodeMajor26 w := by
  simp only [decodeFields32, h]
theorem decodeFields32_27 {w : Nat} (h : fld w 25 6 = 39) : decodeFields32 w = decodeMajor27 w := by
  simp only [decodeFields32, h]
theorem decodeFields32_28 {w : Nat} (h : fld w 25 6 = 40) : decodeFields32 w = decodeMajor28 w := by
  simp only [decodeFields32, h]
theorem decodeFields32_29 {w : Nat} (h : fld w 25 6 = 41) : decodeFields32 w = decodeMajor29 w := by
  simp only [decodeFields32, h]
theorem decodeFields32_2A {w : Nat} (h : fld w 25 6 = 42) : decodeFields32 w = decodeMajor2A w := by
  simp only [decodeFields32, h]
theorem decodeFields32_2B {w : Nat} (h : fld w 25 6 = 43) : decodeFields32 w = decodeMajor2B w := by
  simp only [decodeFields32, h]
theorem decodeFields32_2C {w : Nat} (h : fld w 25 6 = 44) : decodeFields32 w = decodeMajor2C w := by
  simp only [decodeFields32, h]
theorem decodeFields32_38 {w : Nat} (h : fld w 25 6 = 56) : decodeFields32 w = decodeMajor38 w := by
  simp only [decodeFields32, h]
theorem decodeFields32_39 {w : Nat} (h : fld w 25 6 = 57) : decodeFields32 w = decodeMajor39 w := by
  simp only [decodeFields32, h]
theorem decodeFields32_3A {w : Nat} (h : fld w 25 6 = 58) : decodeFields32 w = decodeMajor3A w := by
  simp only [decodeFields32, h]
theorem decodeFields16_01 {w : Nat} (h : fld w 11 4 = 1) : decodeFields16 w = decodeCompact01 w := by
  simp only [decodeFields16, h]
theorem decodeFields16_02 {w : Nat} (h : fld w 11 4 = 2) : decodeFields16 w = decodeCompact02 w := by
  simp only [decodeFields16, h]
theorem decodeFields16_03 {w : Nat} (h : fld w 11 4 = 3) : decodeFields16 w = decodeCompact03 w := by
  simp only [decodeFields16, h]
theorem decodeFields16_04 {w : Nat} (h : fld w 11 4 = 4) : decodeFields16 w = decodeCompact04 w := by
  simp only [decodeFields16, h]
theorem decodeFields16_05 {w : Nat} (h : fld w 11 4 = 5) : decodeFields16 w = decodeCompact05 w := by
  simp only [decodeFields16, h]
theorem decodeFields16_06 {w : Nat} (h : fld w 11 4 = 6) : decodeFields16 w = decodeCompact06 w := by
  simp only [decodeFields16, h]
theorem decodeFields16_07 {w : Nat} (h : fld w 11 4 = 7) : decodeFields16 w = decodeCompact07 w := by
  simp only [decodeFields16, h]
theorem decodeFields16_08 {w : Nat} (h : fld w 11 4 = 8) : decodeFields16 w = decodeCompact08 w := by
  simp only [decodeFields16, h]
theorem decodeFields16_09 {w : Nat} (h : fld w 11 4 = 9) : decodeFields16 w = decodeCompact09 w := by
  simp only [decodeFields16, h]
theorem decodeFields16_0A {w : Nat} (h : fld w 11 4 = 10) : decodeFields16 w = decodeCompact0A w := by
  simp only [decodeFields16, h]
theorem decodeFields16_0B {w : Nat} (h : fld w 11 4 = 11) : decodeFields16 w = decodeCompact0B w := by
  simp only [decodeFields16, h]
theorem decodeFields16_0C {w : Nat} (h : fld w 11 4 = 12) : decodeFields16 w = decodeCompact0C w := by
  simp only [decodeFields16, h]
theorem decodeFields16_0D {w : Nat} (h : fld w 11 4 = 13) : decodeFields16 w = decodeCompact0D w := by
  simp only [decodeFields16, h]
theorem decodeFields16_0E {w : Nat} (h : fld w 11 4 = 14) : decodeFields16 w = decodeCompact0E w := by
  simp only [decodeFields16, h]
theorem decodeFields16_0F {w : Nat} (h : fld w 11 4 = 15) : decodeFields16 w = decodeCompact0F w := by
  simp only [decodeFields16, h]

end

end Sys2Proof

namespace Sys2Proof.Laws.Decoding

/-- The fields of a well-formed instruction's encoding are read back as the instruction. -/
def Statement (i : Instr) : Prop := i.check = none → decodeFields i.length i.encodeNat = .ok i

/-- An instruction that passes its checks passes the first of them and those that follow. -/
theorem none_of_check {b : Bool} {r : Reject} {rest : Option Reject} (h : (if b then some r else rest) = none) :
    b = false ∧ rest = none := by
  cases b with
  | true => exact absurd h (by simp)
  | false => exact ⟨rfl, h⟩

theorem of_long {i : Instr} (w : Nat) (h : i.length = 4) (e : i.encodeNat = w) (d : i.check = none → decodeFields32 w = .ok i) :
    Statement i := fun hc => by rw [decodeFields, h, e, if_pos rfl, d hc]

theorem of_compact {i : Instr} (w : Nat) (h : i.length = 2) (e : i.encodeNat = w) (d : i.check = none → decodeFields16 w = .ok i) :
    Statement i := fun hc => by rw [decodeFields, h, e, if_neg (by decide), d hc]


theorem padd (d : BitVec 5) (a : BitVec 5) (l : Bool) (b : BitVec 5) (m : Bool) : Statement (.padd d a l b m) := by
  refine of_long (below 2 0 <| below 6 0 <| below 1 m.toNat <| below 5 b.toNat <| below 1 l.toNat <| below 5 a.toNat <| below 5 d.toNat <| below 6 6 1) rfl ?_ fun hc => ?_
  · show 0x8C000000 + d.toNat * 1048576 + a.toNat * 32768 + l.toNat * 16384 + b.toNat * 512 + m.toNat * 256 = _
    simp only [below]
    omega
  · rw [decodeFields32_06 (by simp)]
    simp [decodeMajor06]

theorem pidx (d : BitVec 5) (a : BitVec 5) (l : Bool) (b : BitVec 5) (m : Bool) : Statement (.pidx d a l b m) := by
  refine of_long (below 2 0 <| below 6 4 <| below 1 m.toNat <| below 5 b.toNat <| below 1 l.toNat <| below 5 a.toNat <| below 5 d.toNat <| below 6 6 1) rfl ?_ fun hc => ?_
  · show 0x8C000010 + d.toNat * 1048576 + a.toNat * 32768 + l.toNat * 16384 + b.toNat * 512 + m.toNat * 256 = _
    simp only [below]
    omega
  · rw [decodeFields32_06 (by simp)]
    simp [decodeMajor06]

theorem pset (d : BitVec 5) (a : BitVec 5) (l : Bool) (b : BitVec 5) (m : Bool) (f : BitVec 2) : Statement (.pset d a l b m f) := by
  refine of_long (below 2 f.toNat <| below 6 8 <| below 1 m.toNat <| below 5 b.toNat <| below 1 l.toNat <| below 5 a.toNat <| below 5 d.toNat <| below 6 6 1) rfl ?_ fun hc => ?_
  · show 0x8C000020 + d.toNat * 1048576 + a.toNat * 32768 + l.toNat * 16384 + b.toNat * 512 + m.toNat * 256 + f.toNat = _
    simp only [below]
    omega
  · rw [decodeFields32_06 (by simp)]
    simp [decodeMajor06]

theorem pget (d : BitVec 5) (a : BitVec 5) (l : Bool) (f : BitVec 2) : Statement (.pget d a l f) := by
  refine of_long (below 2 f.toNat <| below 6 12 <| below 6 0 <| below 1 l.toNat <| below 5 a.toNat <| below 5 d.toNat <| below 6 6 1) rfl ?_ fun hc => ?_
  · show 0x8C000030 + d.toNat * 1048576 + a.toNat * 32768 + l.toNat * 16384 + f.toNat = _
    simp only [below]
    omega
  · rw [decodeFields32_06 (by simp)]
    simp [decodeMajor06]

theorem pcore (d : BitVec 5) (a : BitVec 5) (l : Bool) (b : BitVec 5) (m : Bool) : Statement (.pcore d a l b m) := by
  refine of_long (below 2 0 <| below 6 16 <| below 1 m.toNat <| below 5 b.toNat <| below 1 l.toNat <| below 5 a.toNat <| below 5 d.toNat <| below 6 6 1) rfl ?_ fun hc => ?_
  · show 0x8C000040 + d.toNat * 1048576 + a.toNat * 32768 + l.toNat * 16384 + b.toNat * 512 + m.toNat * 256 = _
    simp only [below]
    omega
  · rw [decodeFields32_06 (by simp)]
    simp [decodeMajor06]

theorem pshrd (d : BitVec 5) (a : BitVec 5) (l : Bool) (b : BitVec 5) (m : Bool) : Statement (.pshrd d a l b m) := by
  refine of_long (below 2 0 <| below 6 20 <| below 1 m.toNat <| below 5 b.toNat <| below 1 l.toNat <| below 5 a.toNat <| below 5 d.toNat <| below 6 6 1) rfl ?_ fun hc => ?_
  · show 0x8C000050 + d.toNat * 1048576 + a.toNat * 32768 + l.toNat * 16384 + b.toNat * 512 + m.toNat * 256 = _
    simp only [below]
    omega
  · rw [decodeFields32_06 (by simp)]
    simp [decodeMajor06]

theorem ext (d : BitVec 5) (a : BitVec 5) (l : Bool) (b : BitVec 5) (m : Bool) : Statement (.ext d a l b m) := by
  refine of_long (below 2 0 <| below 6 24 <| below 1 m.toNat <| below 5 b.toNat <| below 1 l.toNat <| below 5 a.toNat <| below 5 d.toNat <| below 6 6 1) rfl ?_ fun hc => ?_
  · show 0x8C000060 + d.toNat * 1048576 + a.toNat * 32768 + l.toNat * 16384 + b.toNat * 512 + m.toNat * 256 = _
    simp only [below]
    omega
  · rw [decodeFields32_06 (by simp)]
    simp [decodeMajor06]

theorem bc (a : BitVec 5) (l : Bool) (b : BitVec 5) (m : Bool) (c : BitVec 3) (o : BitVec 10) : Statement (.bc a l b m c o) := by
  refine of_long (below 10 o.toNat <| below 3 c.toNat <| below 1 m.toNat <| below 5 b.toNat <| below 1 l.toNat <| below 5 a.toNat <| below 6 7 1) rfl ?_ fun hc => ?_
  · show 0x8E000000 + a.toNat * 1048576 + l.toNat * 524288 + b.toNat * 16384 + m.toNat * 8192 + c.toNat * 1024 + o.toNat = _
    simp only [below]
    omega
  · rw [decodeFields32_07 (by simp)]
    simp [decodeMajor07]

theorem j (o : BitVec 25) : Statement (.j o) := by
  refine of_long (below 25 o.toNat <| below 6 8 1) rfl ?_ fun hc => ?_
  · show 0x90000000 + o.toNat = _
    simp only [below]
    omega
  · rw [decodeFields32_08 (by simp)]
    simp [decodeMajor08]

theorem jal (o : BitVec 25) : Statement (.jal o) := by
  refine of_long (below 25 o.toNat <| below 6 9 1) rfl ?_ fun hc => ?_
  · show 0x92000000 + o.toNat = _
    simp only [below]
    omega
  · rw [decodeFields32_09 (by simp)]
    simp [decodeMajor09]

theorem jr (d : BitVec 5) (a : BitVec 5) (l : Bool) (i : BitVec 10) : Statement (.jr d a l i) := by
  refine of_long (below 10 i.toNat <| below 4 0 <| below 1 l.toNat <| below 5 a.toNat <| below 5 d.toNat <| below 6 10 1) rfl ?_ fun hc => ?_
  · show 0x94000000 + d.toNat * 1048576 + a.toNat * 32768 + l.toNat * 16384 + i.toNat = _
    simp only [below]
    omega
  · rw [decodeFields32_0A (by simp)]
    simp [decodeMajor0A]

theorem loop (d : BitVec 5) (i : BitVec 10) : Statement (.loop d i) := by
  refine of_long (below 10 i.toNat <| below 4 1 <| below 6 0 <| below 5 d.toNat <| below 6 10 1) rfl ?_ fun hc => ?_
  · show 0x94000400 + d.toNat * 1048576 + i.toNat = _
    simp only [below]
    omega
  · rw [decodeFields32_0A (by simp)]
    simp [decodeMajor0A]

theorem ld (d : BitVec 5) (a : BitVec 5) (l : Bool) (s : Bool) (z : BitVec 2) (h : BitVec 2) (i : BitVec 7) : Statement (.ld d a l s z h i) := by
  refine of_long (below 7 i.toNat <| below 2 0 <| below 2 h.toNat <| below 2 z.toNat <| below 1 s.toNat <| below 1 l.toNat <| below 5 a.toNat <| below 5 d.toNat <| below 6 11 1) rfl ?_ fun hc => ?_
  · show 0x96000000 + d.toNat * 1048576 + a.toNat * 32768 + l.toNat * 16384 + s.toNat * 8192 + z.toNat * 2048 + h.toNat * 512 + i.toNat = _
    simp only [below]
    omega
  · rw [decodeFields32_0B (by simp)]
    simp [decodeMajor0B]

theorem ldFut (d : BitVec 5) (a : BitVec 5) (l : Bool) (h : BitVec 2) (i : BitVec 7) : Statement (.ldFut d a l h i) := by
  refine of_long (below 7 i.toNat <| below 2 1 <| below 2 h.toNat <| below 3 3 <| below 1 l.toNat <| below 5 a.toNat <| below 5 d.toNat <| below 6 11 1) rfl ?_ fun hc => ?_
  · show 0x96001880 + d.toNat * 1048576 + a.toNat * 32768 + l.toNat * 16384 + h.toNat * 512 + i.toNat = _
    simp only [below]
    omega
  · rw [decodeFields32_0B (by simp)]
    simp [decodeMajor0B]

theorem ldTake (d : BitVec 5) (a : BitVec 5) (l : Bool) (h : BitVec 2) (i : BitVec 7) : Statement (.ldTake d a l h i) := by
  refine of_long (below 7 i.toNat <| below 2 2 <| below 2 h.toNat <| below 3 3 <| below 1 l.toNat <| below 5 a.toNat <| below 5 d.toNat <| below 6 11 1) rfl ?_ fun hc => ?_
  · show 0x96001900 + d.toNat * 1048576 + a.toNat * 32768 + l.toNat * 16384 + h.toNat * 512 + i.toNat = _
    simp only [below]
    omega
  · rw [decodeFields32_0B (by simp)]
    simp [decodeMajor0B]

theorem st (d : BitVec 5) (a : BitVec 5) (l : Bool) (e : Bool) (z : BitVec 2) (h : BitVec 2) (i : BitVec 7) : Statement (.st d a l e z h i) := by
  refine of_long (below 7 i.toNat <| below 2 0 <| below 2 h.toNat <| below 2 z.toNat <| below 1 e.toNat <| below 1 l.toNat <| below 5 a.toNat <| below 5 d.toNat <| below 6 12 1) rfl ?_ fun hc => ?_
  · show 0x98000000 + d.toNat * 1048576 + a.toNat * 32768 + l.toNat * 16384 + e.toNat * 8192 + z.toNat * 2048 + h.toNat * 512 + i.toNat = _
    simp only [below]
    omega
  · rw [decodeFields32_0C (by simp)]
    simp [decodeMajor0C]

theorem stFill (d : BitVec 5) (a : BitVec 5) (l : Bool) (e : Bool) (h : BitVec 2) (i : BitVec 7) : Statement (.stFill d a l e h i) := by
  refine of_long (below 7 i.toNat <| below 2 1 <| below 2 h.toNat <| below 2 3 <| below 1 e.toNat <| below 1 l.toNat <| below 5 a.toNat <| below 5 d.toNat <| below 6 12 1) rfl ?_ fun hc => ?_
  · show 0x98001880 + d.toNat * 1048576 + a.toNat * 32768 + l.toNat * 16384 + e.toNat * 8192 + h.toNat * 512 + i.toNat = _
    simp only [below]
    omega
  · rw [decodeFields32_0C (by simp)]
    simp [decodeMajor0C]

theorem stGive (d : BitVec 5) (a : BitVec 5) (l : Bool) (e : Bool) (h : BitVec 2) (i : BitVec 7) : Statement (.stGive d a l e h i) := by
  refine of_long (below 7 i.toNat <| below 2 2 <| below 2 h.toNat <| below 2 3 <| below 1 e.toNat <| below 1 l.toNat <| below 5 a.toNat <| below 5 d.toNat <| below 6 12 1) rfl ?_ fun hc => ?_
  · show 0x98001900 + d.toNat * 1048576 + a.toNat * 32768 + l.toNat * 16384 + e.toNat * 8192 + h.toNat * 512 + i.toNat = _
    simp only [below]
    omega
  · rw [decodeFields32_0C (by simp)]
    simp [decodeMajor0C]

theorem ldx (d : BitVec 5) (a : BitVec 5) (l : Bool) (b : BitVec 5) (m : Bool) (s : Bool) (z : BitVec 2) (h : BitVec 2) (x : BitVec 2) : Statement (.ldx d a l b m s z h x) := by
  refine of_long (below 2 x.toNat <| below 1 0 <| below 2 h.toNat <| below 2 z.toNat <| below 1 s.toNat <| below 1 m.toNat <| below 5 b.toNat <| below 1 l.toNat <| below 5 a.toNat <| below 5 d.toNat <| below 6 13 1) rfl ?_ fun hc => ?_
  · show 0x9A000000 + d.toNat * 1048576 + a.toNat * 32768 + l.toNat * 16384 + b.toNat * 512 + m.toNat * 256 + s.toNat * 128 + z.toNat * 32 + h.toNat * 8 + x.toNat = _
    simp only [below]
    omega
  · rw [decodeFields32_0D (by simp)]
    simp [decodeMajor0D]

theorem stx (d : BitVec 5) (a : BitVec 5) (l : Bool) (b : BitVec 5) (m : Bool) (e : Bool) (z : BitVec 2) (h : BitVec 2) (x : BitVec 2) : Statement (.stx d a l b m e z h x) := by
  refine of_long (below 2 x.toNat <| below 1 1 <| below 2 h.toNat <| below 2 z.toNat <| below 1 e.toNat <| below 1 m.toNat <| below 5 b.toNat <| below 1 l.toNat <| below 5 a.toNat <| below 5 d.toNat <| below 6 13 1) rfl ?_ fun hc => ?_
  · show 0x9A000004 + d.toNat * 1048576 + a.toNat * 32768 + l.toNat * 16384 + b.toNat * 512 + m.toNat * 256 + e.toNat * 128 + z.toNat * 32 + h.toNat * 8 + x.toNat = _
    simp only [below]
    omega
  · rw [decodeFields32_0D (by simp)]
    simp [decodeMajor0D]

theorem ldtVeq (d : BitVec 5) (a : BitVec 5) (l : Bool) (b : BitVec 5) (m : Bool) (h : BitVec 2) : Statement (.ldtVeq d a l b m h) := by
  refine of_long (below 3 0 <| below 2 h.toNat <| below 2 3 <| below 1 0 <| below 1 m.toNat <| below 5 b.toNat <| below 1 l.toNat <| below 5 a.toNat <| below 5 d.toNat <| below 6 14 1) rfl ?_ fun hc => ?_
  · show 0x9C000060 + d.toNat * 1048576 + a.toNat * 32768 + l.toNat * 16384 + b.toNat * 512 + m.toNat * 256 + h.toNat * 8 = _
    simp only [below]
    omega
  · rw [decodeFields32_0E (by simp)]
    simp [decodeMajor0E]

theorem ldtVge (d : BitVec 5) (a : BitVec 5) (l : Bool) (b : BitVec 5) (m : Bool) (h : BitVec 2) : Statement (.ldtVge d a l b m h) := by
  refine of_long (below 3 1 <| below 2 h.toNat <| below 2 3 <| below 1 0 <| below 1 m.toNat <| below 5 b.toNat <| below 1 l.toNat <| below 5 a.toNat <| below 5 d.toNat <| below 6 14 1) rfl ?_ fun hc => ?_
  · show 0x9C000061 + d.toNat * 1048576 + a.toNat * 32768 + l.toNat * 16384 + b.toNat * 512 + m.toNat * 256 + h.toNat * 8 = _
    simp only [below]
    omega
  · rw [decodeFields32_0E (by simp)]
    simp [decodeMajor0E]

theorem sttVnx (d : BitVec 5) (a : BitVec 5) (l : Bool) (e : Bool) (h : BitVec 2) : Statement (.sttVnx d a l e h) := by
  refine of_long (below 3 4 <| below 2 h.toNat <| below 2 3 <| below 1 e.toNat <| below 6 0 <| below 1 l.toNat <| below 5 a.toNat <| below 5 d.toNat <| below 6 14 1) rfl ?_ fun hc => ?_
  · show 0x9C000064 + d.toNat * 1048576 + a.toNat * 32768 + l.toNat * 16384 + e.toNat * 128 + h.toNat * 8 = _
    simp only [below]
    omega
  · rw [decodeFields32_0E (by simp)]
    simp [decodeMajor0E]

theorem sttVset (d : BitVec 5) (a : BitVec 5) (l : Bool) (b : BitVec 5) (m : Bool) (e : Bool) (h : BitVec 2) : Statement (.sttVset d a l b m e h) := by
  refine of_long (below 3 5 <| below 2 h.toNat <| below 2 3 <| below 1 e.toNat <| below 1 m.toNat <| below 5 b.toNat <| below 1 l.toNat <| below 5 a.toNat <| below 5 d.toNat <| below 6 14 1) rfl ?_ fun hc => ?_
  · show 0x9C000065 + d.toNat * 1048576 + a.toNat * 32768 + l.toNat * 16384 + b.toNat * 512 + m.toNat * 256 + e.toNat * 128 + h.toNat * 8 = _
    simp only [below]
    omega
  · rw [decodeFields32_0E (by simp)]
    simp [decodeMajor0E]

theorem lds (d : BitVec 5) (a : BitVec 5) (l : Bool) (b : BitVec 5) (m : Bool) (s : Bool) (z : BitVec 2) (h : BitVec 2) : Statement (.lds d a l b m s z h) := by
  refine of_long (below 3 0 <| below 2 h.toNat <| below 2 z.toNat <| below 1 s.toNat <| below 1 m.toNat <| below 5 b.toNat <| below 1 l.toNat <| below 5 a.toNat <| below 5 d.toNat <| below 6 15 1) rfl ?_ fun hc => ?_
  · show 0x9E000000 + d.toNat * 1048576 + a.toNat * 32768 + l.toNat * 16384 + b.toNat * 512 + m.toNat * 256 + s.toNat * 128 + z.toNat * 32 + h.toNat * 8 = _
    simp only [below]
    omega
  · rw [decodeFields32_0F (by simp)]
    simp [decodeMajor0F]

theorem sts (d : BitVec 5) (a : BitVec 5) (l : Bool) (b : BitVec 5) (m : Bool) (e : Bool) (z : BitVec 2) (h : BitVec 2) : Statement (.sts d a l b m e z h) := by
  refine of_long (below 3 4 <| below 2 h.toNat <| below 2 z.toNat <| below 1 e.toNat <| below 1 m.toNat <| below 5 b.toNat <| below 1 l.toNat <| below 5 a.toNat <| below 5 d.toNat <| below 6 15 1) rfl ?_ fun hc => ?_
  · show 0x9E000004 + d.toNat * 1048576 + a.toNat * 32768 + l.toNat * 16384 + b.toNat * 512 + m.toNat * 256 + e.toNat * 128 + z.toNat * 32 + h.toNat * 8 = _
    simp only [below]
    omega
  · rw [decodeFields32_0F (by simp)]
    simp [decodeMajor0F]

theorem amoSwap (d : BitVec 5) (a : BitVec 5) (l : Bool) (b : BitVec 5) (m : Bool) (z : BitVec 1) (h : BitVec 2) : Statement (.amoSwap d a l b m z h) := by
  refine of_long (below 2 h.toNat <| below 1 z.toNat <| below 5 0 <| below 1 m.toNat <| below 5 b.toNat <| below 1 l.toNat <| below 5 a.toNat <| below 5 d.toNat <| below 6 16 1) rfl ?_ fun hc => ?_
  · show 0xA0000000 + d.toNat * 1048576 + a.toNat * 32768 + l.toNat * 16384 + b.toNat * 512 + m.toNat * 256 + z.toNat * 4 + h.toNat = _
    simp only [below]
    omega
  · rw [decodeFields32_10 (by simp)]
    simp [decodeMajor10]

theorem amoAdd (d : BitVec 5) (a : BitVec 5) (l : Bool) (b : BitVec 5) (m : Bool) (z : BitVec 1) (h : BitVec 2) : Statement (.amoAdd d a l b m z h) := by
  refine of_long (below 2 h.toNat <| below 1 z.toNat <| below 5 1 <| below 1 m.toNat <| below 5 b.toNat <| below 1 l.toNat <| below 5 a.toNat <| below 5 d.toNat <| below 6 16 1) rfl ?_ fun hc => ?_
  · show 0xA0000008 + d.toNat * 1048576 + a.toNat * 32768 + l.toNat * 16384 + b.toNat * 512 + m.toNat * 256 + z.toNat * 4 + h.toNat = _
    simp only [below]
    omega
  · rw [decodeFields32_10 (by simp)]
    simp [decodeMajor10]

theorem amoAnd (d : BitVec 5) (a : BitVec 5) (l : Bool) (b : BitVec 5) (m : Bool) (z : BitVec 1) (h : BitVec 2) : Statement (.amoAnd d a l b m z h) := by
  refine of_long (below 2 h.toNat <| below 1 z.toNat <| below 5 2 <| below 1 m.toNat <| below 5 b.toNat <| below 1 l.toNat <| below 5 a.toNat <| below 5 d.toNat <| below 6 16 1) rfl ?_ fun hc => ?_
  · show 0xA0000010 + d.toNat * 1048576 + a.toNat * 32768 + l.toNat * 16384 + b.toNat * 512 + m.toNat * 256 + z.toNat * 4 + h.toNat = _
    simp only [below]
    omega
  · rw [decodeFields32_10 (by simp)]
    simp [decodeMajor10]

theorem amoOr (d : BitVec 5) (a : BitVec 5) (l : Bool) (b : BitVec 5) (m : Bool) (z : BitVec 1) (h : BitVec 2) : Statement (.amoOr d a l b m z h) := by
  refine of_long (below 2 h.toNat <| below 1 z.toNat <| below 5 3 <| below 1 m.toNat <| below 5 b.toNat <| below 1 l.toNat <| below 5 a.toNat <| below 5 d.toNat <| below 6 16 1) rfl ?_ fun hc => ?_
  · show 0xA0000018 + d.toNat * 1048576 + a.toNat * 32768 + l.toNat * 16384 + b.toNat * 512 + m.toNat * 256 + z.toNat * 4 + h.toNat = _
    simp only [below]
    omega
  · rw [decodeFields32_10 (by simp)]
    simp [decodeMajor10]

theorem amoXor (d : BitVec 5) (a : BitVec 5) (l : Bool) (b : BitVec 5) (m : Bool) (z : BitVec 1) (h : BitVec 2) : Statement (.amoXor d a l b m z h) := by
  refine of_long (below 2 h.toNat <| below 1 z.toNat <| below 5 4 <| below 1 m.toNat <| below 5 b.toNat <| below 1 l.toNat <| below 5 a.toNat <| below 5 d.toNat <| below 6 16 1) rfl ?_ fun hc => ?_
  · show 0xA0000020 + d.toNat * 1048576 + a.toNat * 32768 + l.toNat * 16384 + b.toNat * 512 + m.toNat * 256 + z.toNat * 4 + h.toNat = _
    simp only [below]
    omega
  · rw [decodeFields32_10 (by simp)]
    simp [decodeMajor10]

theorem amoMin (d : BitVec 5) (a : BitVec 5) (l : Bool) (b : BitVec 5) (m : Bool) (z : BitVec 1) (h : BitVec 2) : Statement (.amoMin d a l b m z h) := by
  refine of_long (below 2 h.toNat <| below 1 z.toNat <| below 5 5 <| below 1 m.toNat <| below 5 b.toNat <| below 1 l.toNat <| below 5 a.toNat <| below 5 d.toNat <| below 6 16 1) rfl ?_ fun hc => ?_
  · show 0xA0000028 + d.toNat * 1048576 + a.toNat * 32768 + l.toNat * 16384 + b.toNat * 512 + m.toNat * 256 + z.toNat * 4 + h.toNat = _
    simp only [below]
    omega
  · rw [decodeFields32_10 (by simp)]
    simp [decodeMajor10]

theorem amoMax (d : BitVec 5) (a : BitVec 5) (l : Bool) (b : BitVec 5) (m : Bool) (z : BitVec 1) (h : BitVec 2) : Statement (.amoMax d a l b m z h) := by
  refine of_long (below 2 h.toNat <| below 1 z.toNat <| below 5 6 <| below 1 m.toNat <| below 5 b.toNat <| below 1 l.toNat <| below 5 a.toNat <| below 5 d.toNat <| below 6 16 1) rfl ?_ fun hc => ?_
  · show 0xA0000030 + d.toNat * 1048576 + a.toNat * 32768 + l.toNat * 16384 + b.toNat * 512 + m.toNat * 256 + z.toNat * 4 + h.toNat = _
    simp only [below]
    omega
  · rw [decodeFields32_10 (by simp)]
    simp [decodeMajor10]

theorem amoMinu (d : BitVec 5) (a : BitVec 5) (l : Bool) (b : BitVec 5) (m : Bool) (z : BitVec 1) (h : BitVec 2) : Statement (.amoMinu d a l b m z h) := by
  refine of_long (below 2 h.toNat <| below 1 z.toNat <| below 5 7 <| below 1 m.toNat <| below 5 b.toNat <| below 1 l.toNat <| below 5 a.toNat <| below 5 d.toNat <| below 6 16 1) rfl ?_ fun hc => ?_
  · show 0xA0000038 + d.toNat * 1048576 + a.toNat * 32768 + l.toNat * 16384 + b.toNat * 512 + m.toNat * 256 + z.toNat * 4 + h.toNat = _
    simp only [below]
    omega
  · rw [decodeFields32_10 (by simp)]
    simp [decodeMajor10]

theorem amoMaxu (d : BitVec 5) (a : BitVec 5) (l : Bool) (b : BitVec 5) (m : Bool) (z : BitVec 1) (h : BitVec 2) : Statement (.amoMaxu d a l b m z h) := by
  refine of_long (below 2 h.toNat <| below 1 z.toNat <| below 5 8 <| below 1 m.toNat <| below 5 b.toNat <| below 1 l.toNat <| below 5 a.toNat <| below 5 d.toNat <| below 6 16 1) rfl ?_ fun hc => ?_
  · show 0xA0000040 + d.toNat * 1048576 + a.toNat * 32768 + l.toNat * 16384 + b.toNat * 512 + m.toNat * 256 + z.toNat * 4 + h.toNat = _
    simp only [below]
    omega
  · rw [decodeFields32_10 (by simp)]
    simp [decodeMajor10]

theorem cas (d : BitVec 5) (a : BitVec 5) (l : Bool) (b : BitVec 5) (m : Bool) (z : BitVec 1) (h : BitVec 2) : Statement (.cas d a l b m z h) := by
  refine of_long (below 2 h.toNat <| below 1 z.toNat <| below 5 16 <| below 1 m.toNat <| below 5 b.toNat <| below 1 l.toNat <| below 5 a.toNat <| below 5 d.toNat <| below 6 16 1) rfl ?_ fun hc => ?_
  · show 0xA0000080 + d.toNat * 1048576 + a.toNat * 32768 + l.toNat * 16384 + b.toNat * 512 + m.toNat * 256 + z.toNat * 4 + h.toNat = _
    simp only [below]
    omega
  · rw [decodeFields32_10 (by simp)]
    simp [decodeMajor10]

theorem redo (d : BitVec 5) (a : BitVec 5) (l : Bool) (b : BitVec 5) (m : Bool) (f : BitVec 6) : Statement (.redo d a l b m f) := by
  refine of_long (below 6 f.toNat <| below 2 0 <| below 1 m.toNat <| below 5 b.toNat <| below 1 l.toNat <| below 5 a.toNat <| below 5 d.toNat <| below 6 17 1) rfl ?_ fun hc => ?_
  · show 0xA2000000 + d.toNat * 1048576 + a.toNat * 32768 + l.toNat * 16384 + b.toNat * 512 + m.toNat * 256 + f.toNat = _
    simp only [below]
    omega
  · rw [decodeFields32_11 (by simp)]
    simp [decodeMajor11]

theorem reda (a : BitVec 5) (l : Bool) (b : BitVec 5) (m : Bool) (f : BitVec 6) : Statement (.reda a l b m f) := by
  refine of_long (below 6 f.toNat <| below 2 1 <| below 1 m.toNat <| below 5 b.toNat <| below 1 l.toNat <| below 5 a.toNat <| below 5 0 <| below 6 17 1) rfl ?_ fun hc => ?_
  · show 0xA2000040 + a.toNat * 32768 + l.toNat * 16384 + b.toNat * 512 + m.toNat * 256 + f.toNat = _
    simp only [below]
    omega
  · rw [decodeFields32_11 (by simp)]
    simp [decodeMajor11]

theorem redr (d : BitVec 5) (a : BitVec 5) (l : Bool) (f : BitVec 6) : Statement (.redr d a l f) := by
  refine of_long (below 6 f.toNat <| below 2 2 <| below 6 0 <| below 1 l.toNat <| below 5 a.toNat <| below 5 d.toNat <| below 6 17 1) rfl ?_ fun hc => ?_
  · show 0xA2000080 + d.toNat * 1048576 + a.toNat * 32768 + l.toNat * 16384 + f.toNat = _
    simp only [below]
    omega
  · rw [decodeFields32_11 (by simp)]
    simp [decodeMajor11]

theorem redc (d : BitVec 5) (a : BitVec 5) (l : Bool) (f : BitVec 6) : Statement (.redc d a l f) := by
  refine of_long (below 6 f.toNat <| below 2 3 <| below 6 0 <| below 1 l.toNat <| below 5 a.toNat <| below 5 d.toNat <| below 6 17 1) rfl ?_ fun hc => ?_
  · show 0xA20000C0 + d.toNat * 1048576 + a.toNat * 32768 + l.toNat * 16384 + f.toNat = _
    simp only [below]
    omega
  · rw [decodeFields32_11 (by simp)]
    simp [decodeMajor11]

theorem jinit (d : BitVec 5) (a : BitVec 5) (l : Bool) (b : BitVec 5) (m : Bool) : Statement (.jinit d a l b m) := by
  refine of_long (below 8 0 <| below 1 m.toNat <| below 5 b.toNat <| below 1 l.toNat <| below 5 a.toNat <| below 5 d.toNat <| below 6 18 1) rfl ?_ fun hc => ?_
  · show 0xA4000000 + d.toNat * 1048576 + a.toNat * 32768 + l.toNat * 16384 + b.toNat * 512 + m.toNat * 256 = _
    simp only [below]
    omega
  · rw [decodeFields32_12 (by simp)]
    simp [decodeMajor12]

theorem join (d : BitVec 5) (a : BitVec 5) (l : Bool) (b : BitVec 5) (m : Bool) : Statement (.join d a l b m) := by
  refine of_long (below 8 1 <| below 1 m.toNat <| below 5 b.toNat <| below 1 l.toNat <| below 5 a.toNat <| below 5 d.toNat <| below 6 18 1) rfl ?_ fun hc => ?_
  · show 0xA4000001 + d.toNat * 1048576 + a.toNat * 32768 + l.toNat * 16384 + b.toNat * 512 + m.toNat * 256 = _
    simp only [below]
    omega
  · rw [decodeFields32_12 (by simp)]
    simp [decodeMajor12]

theorem fence (d : BitVec 5) (a : BitVec 5) (l : Bool) : Statement (.fence d a l) := by
  refine of_long (below 8 0 <| below 1 0 <| below 5 0 <| below 1 l.toNat <| below 5 a.toNat <| below 5 d.toNat <| below 6 19 1) rfl ?_ fun hc => ?_
  · show 0xA6000000 + d.toNat * 1048576 + a.toNat * 32768 + l.toNat * 16384 = _
    simp only [below]
    omega
  · rw [decodeFields32_13 (by simp)]
    simp [decodeMajor13]

theorem flush (a : BitVec 5) (l : Bool) (b : BitVec 5) (m : Bool) : Statement (.flush a l b m) := by
  refine of_long (below 8 1 <| below 1 m.toNat <| below 5 b.toNat <| below 1 l.toNat <| below 5 a.toNat <| below 2 0 <| below 3 0 <| below 6 19 1) rfl ?_ fun hc => ?_
  · show 0xA6000001 + a.toNat * 32768 + l.toNat * 16384 + b.toNat * 512 + m.toNat * 256 = _
    simp only [below]
    omega
  · rw [decodeFields32_13 (by simp)]
    simp [decodeMajor13]

theorem cinv (a : BitVec 5) (l : Bool) (b : BitVec 5) (m : Bool) : Statement (.cinv a l b m) := by
  refine of_long (below 8 2 <| below 1 m.toNat <| below 5 b.toNat <| below 1 l.toNat <| below 5 a.toNat <| below 2 0 <| below 3 0 <| below 6 19 1) rfl ?_ fun hc => ?_
  · show 0xA6000002 + a.toNat * 32768 + l.toNat * 16384 + b.toNat * 512 + m.toNat * 256 = _
    simp only [below]
    omega
  · rw [decodeFields32_13 (by simp)]
    simp [decodeMajor13]

theorem wait (a : BitVec 4) (b : BitVec 4) (c : BitVec 4) (d : BitVec 4) : Statement (.wait a b c d) := by
  refine of_long (below 8 3 <| below 1 0 <| below 4 d.toNat <| below 4 c.toNat <| below 4 b.toNat <| below 4 a.toNat <| below 6 19 1) rfl ?_ fun hc => ?_
  · show 0xA6000003 + a.toNat * 2097152 + b.toNat * 131072 + c.toNat * 8192 + d.toNat * 512 = _
    simp only [below]
    omega
  · rw [decodeFields32_13 (by simp)]
    simp [decodeMajor13]

theorem pref (h : BitVec 2) (a : BitVec 5) (l : Bool) (b : BitVec 5) (m : Bool) : Statement (.pref h a l b m) := by
  refine of_long (below 8 4 <| below 1 m.toNat <| below 5 b.toNat <| below 1 l.toNat <| below 5 a.toNat <| below 2 h.toNat <| below 3 0 <| below 6 19 1) rfl ?_ fun hc => ?_
  · show 0xA6000004 + h.toNat * 1048576 + a.toNat * 32768 + l.toNat * 16384 + b.toNat * 512 + m.toNat * 256 = _
    simp only [below]
    omega
  · rw [decodeFields32_13 (by simp)]
    simp [decodeMajor13]

theorem vrecl (a : BitVec 5) (l : Bool) (b : BitVec 5) (m : Bool) : Statement (.vrecl a l b m) := by
  refine of_long (below 8 5 <| below 1 m.toNat <| below 5 b.toNat <| below 1 l.toNat <| below 5 a.toNat <| below 2 0 <| below 3 0 <| below 6 19 1) rfl ?_ fun hc => ?_
  · show 0xA6000005 + a.toNat * 32768 + l.toNat * 16384 + b.toNat * 512 + m.toNat * 256 = _
    simp only [below]
    omega
  · rw [decodeFields32_13 (by simp)]
    simp [decodeMajor13]

theorem tagr (d : BitVec 5) (a : BitVec 5) (l : Bool) : Statement (.tagr d a l) := by
  refine of_long (below 8 6 <| below 1 0 <| below 5 0 <| below 1 l.toNat <| below 5 a.toNat <| below 5 d.toNat <| below 6 19 1) rfl ?_ fun hc => ?_
  · show 0xA6000006 + d.toNat * 1048576 + a.toNat * 32768 + l.toNat * 16384 = _
    simp only [below]
    omega
  · rw [decodeFields32_13 (by simp)]
    simp [decodeMajor13]

theorem tagw (a : BitVec 5) (l : Bool) (b : BitVec 5) (m : Bool) : Statement (.tagw a l b m) := by
  refine of_long (below 8 7 <| below 1 m.toNat <| below 5 b.toNat <| below 1 l.toNat <| below 5 a.toNat <| below 2 0 <| below 3 0 <| below 6 19 1) rfl ?_ fun hc => ?_
  · show 0xA6000007 + a.toNat * 32768 + l.toNat * 16384 + b.toNat * 512 + m.toNat * 256 = _
    simp only [below]
    omega
  · rw [decodeFields32_13 (by simp)]
    simp [decodeMajor13]

theorem mcast (d : BitVec 5) (a : BitVec 5) (l : Bool) (b : BitVec 5) (m : Bool) : Statement (.mcast d a l b m) := by
  refine of_long (below 8 0 <| below 1 m.toNat <| below 5 b.toNat <| below 1 l.toNat <| below 5 a.toNat <| below 5 d.toNat <| below 6 20 1) rfl ?_ fun hc => ?_
  · show 0xA8000000 + d.toNat * 1048576 + a.toNat * 32768 + l.toNat * 16384 + b.toNat * 512 + m.toNat * 256 = _
    simp only [below]
    omega
  · rw [decodeFields32_14 (by simp)]
    simp [decodeMajor14]

theorem spawn (a : BitVec 5) (l : Bool) (b : BitVec 5) (m : Bool) : Statement (.spawn a l b m) := by
  refine of_long (below 8 0 <| below 1 m.toNat <| below 5 b.toNat <| below 1 l.toNat <| below 5 a.toNat <| below 5 0 <| below 6 21 1) rfl ?_ fun hc => ?_
  · show 0xAA000000 + a.toNat * 32768 + l.toNat * 16384 + b.toNat * 512 + m.toNat * 256 = _
    simp only [below]
    omega
  · rw [decodeFields32_15 (by simp)]
    simp [decodeMajor15]

theorem launch (d : BitVec 5) (a : BitVec 5) (l : Bool) : Statement (.launch d a l) := by
  refine of_long (below 8 1 <| below 6 0 <| below 1 l.toNat <| below 5 a.toNat <| below 5 d.toNat <| below 6 21 1) rfl ?_ fun hc => ?_
  · show 0xAA000001 + d.toNat * 1048576 + a.toNat * 32768 + l.toNat * 16384 = _
    simp only [below]
    omega
  · rw [decodeFields32_15 (by simp)]
    simp [decodeMajor15]

theorem yield : Statement (.yield) := by
  refine of_long (below 8 2 <| below 6 0 <| below 6 0 <| below 5 0 <| below 6 21 1) rfl ?_ fun hc => ?_
  · show 0xAA000002 = _
    simp only [below]
    omega
  · rw [decodeFields32_15 (by simp)]
    simp [decodeMajor15]

theorem prio (d : BitVec 5) (a : BitVec 5) (l : Bool) : Statement (.prio d a l) := by
  refine of_long (below 8 3 <| below 6 0 <| below 1 l.toNat <| below 5 a.toNat <| below 5 d.toNat <| below 6 21 1) rfl ?_ fun hc => ?_
  · show 0xAA000003 + d.toNat * 1048576 + a.toNat * 32768 + l.toNat * 16384 = _
    simp only [below]
    omega
  · rw [decodeFields32_15 (by simp)]
    simp [decodeMajor15]

theorem sendm (a : BitVec 5) (l : Bool) (b : BitVec 5) (m : Bool) : Statement (.sendm a l b m) := by
  refine of_long (below 8 0 <| below 1 m.toNat <| below 5 b.toNat <| below 1 l.toNat <| below 5 a.toNat <| below 5 0 <| below 6 22 1) rfl ?_ fun hc => ?_
  · show 0xAC000000 + a.toNat * 32768 + l.toNat * 16384 + b.toNat * 512 + m.toNat * 256 = _
    simp only [below]
    omega
  · rw [decodeFields32_16 (by simp)]
    simp [decodeMajor16]

theorem recv (d : BitVec 5) (a : BitVec 5) (l : Bool) : Statement (.recv d a l) := by
  refine of_long (below 8 1 <| below 6 0 <| below 1 l.toNat <| below 5 a.toNat <| below 5 d.toNat <| below 6 22 1) rfl ?_ fun hc => ?_
  · show 0xAC000001 + d.toNat * 1048576 + a.toNat * 32768 + l.toNat * 16384 = _
    simp only [below]
    omega
  · rw [decodeFields32_16 (by simp)]
    simp [decodeMajor16]

theorem peek (d : BitVec 5) : Statement (.peek d) := by
  refine of_long (below 8 2 <| below 6 0 <| below 6 0 <| below 5 d.toNat <| below 6 22 1) rfl ?_ fun hc => ?_
  · show 0xAC000002 + d.toNat * 1048576 = _
    simp only [below]
    omega
  · rw [decodeFields32_16 (by simp)]
    simp [decodeMajor16]

theorem reply (a : BitVec 5) (l : Bool) : Statement (.reply a l) := by
  refine of_long (below 8 3 <| below 6 0 <| below 1 l.toNat <| below 5 a.toNat <| below 5 0 <| below 6 22 1) rfl ?_ fun hc => ?_
  · show 0xAC000003 + a.toNat * 32768 + l.toNat * 16384 = _
    simp only [below]
    omega
  · rw [decodeFields32_16 (by simp)]
    simp [decodeMajor16]

theorem hstart (d : BitVec 5) (a : BitVec 5) (l : Bool) (b : BitVec 5) (m : Bool) : Statement (.hstart d a l b m) := by
  refine of_long (below 8 0 <| below 1 m.toNat <| below 5 b.toNat <| below 1 l.toNat <| below 5 a.toNat <| below 5 d.toNat <| below 6 23 1) rfl ?_ fun hc => ?_
  · show 0xAE000000 + d.toNat * 1048576 + a.toNat * 32768 + l.toNat * 16384 + b.toNat * 512 + m.toNat * 256 = _
    simp only [below]
    omega
  · rw [decodeFields32_17 (by simp)]
    simp [decodeMajor17]

theorem hhalt (a : BitVec 5) (l : Bool) : Statement (.hhalt a l) := by
  refine of_long (below 8 1 <| below 6 0 <| below 1 l.toNat <| below 5 a.toNat <| below 5 0 <| below 6 23 1) rfl ?_ fun hc => ?_
  · show 0xAE000001 + a.toNat * 32768 + l.toNat * 16384 = _
    simp only [below]
    omega
  · rw [decodeFields32_17 (by simp)]
    simp [decodeMajor17]

theorem hhaltRetain (a : BitVec 5) (l : Bool) (b : BitVec 5) (m : Bool) : Statement (.hhaltRetain a l b m) := by
  refine of_long (below 8 129 <| below 1 m.toNat <| below 5 b.toNat <| below 1 l.toNat <| below 5 a.toNat <| below 5 0 <| below 6 23 1) rfl ?_ fun hc => ?_
  · show 0xAE000081 + a.toNat * 32768 + l.toNat * 16384 + b.toNat * 512 + m.toNat * 256 = _
    simp only [below]
    omega
  · rw [decodeFields32_17 (by simp)]
    simp [decodeMajor17]

theorem hwait (d : BitVec 5) (a : BitVec 5) (l : Bool) : Statement (.hwait d a l) := by
  refine of_long (below 8 2 <| below 6 0 <| below 1 l.toNat <| below 5 a.toNat <| below 5 d.toNat <| below 6 23 1) rfl ?_ fun hc => ?_
  · show 0xAE000002 + d.toNat * 1048576 + a.toNat * 32768 + l.toNat * 16384 = _
    simp only [below]
    omega
  · rw [decodeFields32_17 (by simp)]
    simp [decodeMajor17]

theorem crew (a : BitVec 5) (l : Bool) (b : BitVec 5) (m : Bool) : Statement (.crew a l b m) := by
  refine of_long (below 8 0 <| below 1 m.toNat <| below 5 b.toNat <| below 1 l.toNat <| below 5 a.toNat <| below 5 0 <| below 6 24 1) rfl ?_ fun hc => ?_
  · show 0xB0000000 + a.toNat * 32768 + l.toNat * 16384 + b.toNat * 512 + m.toNat * 256 = _
    simp only [below]
    omega
  · rw [decodeFields32_18 (by simp)]
    simp [decodeMajor18]

theorem crewx (d : BitVec 5) : Statement (.crewx d) := by
  refine of_long (below 8 1 <| below 1 0 <| below 11 0 <| below 5 d.toNat <| below 6 24 1) rfl ?_ fun hc => ?_
  · show 0xB0000001 + d.toNat * 1048576 = _
    simp only [below]
    omega
  · rw [decodeFields32_18 (by simp)]
    simp [decodeMajor18]

theorem bar (d : BitVec 5) (a : BitVec 5) (l : Bool) (n : BitVec 5) : Statement (.bar d a l n) := by
  refine of_long (below 8 2 <| below 1 0 <| below 5 n.toNat <| below 1 l.toNat <| below 5 a.toNat <| below 5 d.toNat <| below 6 24 1) rfl ?_ fun hc => ?_
  · show 0xB0000002 + d.toNat * 1048576 + a.toNat * 32768 + l.toNat * 16384 + n.toNat * 512 = _
    simp only [below]
    omega
  · rw [decodeFields32_18 (by simp)]
    simp [decodeMajor18]

theorem qbind (a : BitVec 5) (l : Bool) (b : BitVec 5) (m : Bool) (q : BitVec 3) : Statement (.qbind a l b m q) := by
  refine of_long (below 3 q.toNat <| below 5 0 <| below 1 m.toNat <| below 5 b.toNat <| below 1 l.toNat <| below 5 a.toNat <| below 5 0 <| below 6 25 1) rfl ?_ fun hc => ?_
  · show 0xB2000000 + a.toNat * 32768 + l.toNat * 16384 + b.toNat * 512 + m.toNat * 256 + q.toNat = _
    simp only [below]
    omega
  · rw [decodeFields32_19 (by simp)]
    simp [decodeMajor19]

theorem qfree (q : BitVec 3) : Statement (.qfree q) := by
  refine of_long (below 3 q.toNat <| below 5 1 <| below 6 0 <| below 6 0 <| below 5 0 <| below 6 25 1) rfl ?_ fun hc => ?_
  · show 0xB2000008 + q.toNat = _
    simp only [below]
    omega
  · rw [decodeFields32_19 (by simp)]
    simp [decodeMajor19]

theorem qctlPop (d : BitVec 5) (q : BitVec 3) : Statement (.qctlPop d q) := by
  refine of_long (below 3 q.toNat <| below 5 2 <| below 6 0 <| below 6 0 <| below 5 d.toNat <| below 6 25 1) rfl ?_ fun hc => ?_
  · show 0xB2000010 + d.toNat * 1048576 + q.toNat = _
    simp only [below]
    omega
  · rw [decodeFields32_19 (by simp)]
    simp [decodeMajor19]

theorem qctlPush (a : BitVec 5) (l : Bool) (q : BitVec 3) : Statement (.qctlPush a l q) := by
  refine of_long (below 3 q.toNat <| below 5 2 <| below 6 2 <| below 1 l.toNat <| below 5 a.toNat <| below 5 0 <| below 6 25 1) rfl ?_ fun hc => ?_
  · show 0xB2000210 + a.toNat * 32768 + l.toNat * 16384 + q.toNat = _
    simp only [below]
    omega
  · rw [decodeFields32_19 (by simp)]
    simp [decodeMajor19]

theorem qctlPushc (a : BitVec 5) (l : Bool) (q : BitVec 3) : Statement (.qctlPushc a l q) := by
  refine of_long (below 3 q.toNat <| below 5 2 <| below 6 4 <| below 1 l.toNat <| below 5 a.toNat <| below 5 0 <| below 6 25 1) rfl ?_ fun hc => ?_
  · show 0xB2000410 + a.toNat * 32768 + l.toNat * 16384 + q.toNat = _
    simp only [below]
    omega
  · rw [decodeFields32_19 (by simp)]
    simp [decodeMajor19]

theorem qctlFlush (q : BitVec 3) : Statement (.qctlFlush q) := by
  refine of_long (below 3 q.toNat <| below 5 2 <| below 6 6 <| below 6 0 <| below 5 0 <| below 6 25 1) rfl ?_ fun hc => ?_
  · show 0xB2000610 + q.toNat = _
    simp only [below]
    omega
  · rw [decodeFields32_19 (by simp)]
    simp [decodeMajor19]

theorem qstat (d : BitVec 5) (q : BitVec 3) : Statement (.qstat d q) := by
  refine of_long (below 3 q.toNat <| below 5 3 <| below 6 0 <| below 6 0 <| below 5 d.toNat <| below 6 25 1) rfl ?_ fun hc => ?_
  · show 0xB2000018 + d.toNat * 1048576 + q.toNat = _
    simp only [below]
    omega
  · rw [decodeFields32_19 (by simp)]
    simp [decodeMajor19]

theorem qhnd (a : BitVec 5) (l : Bool) : Statement (.qhnd a l) := by
  refine of_long (below 3 0 <| below 5 4 <| below 6 0 <| below 1 l.toNat <| below 5 a.toNat <| below 5 0 <| below 6 25 1) rfl ?_ fun hc => ?_
  · show 0xB2000020 + a.toNat * 32768 + l.toNat * 16384 = _
    simp only [below]
    omega
  · rw [decodeFields32_19 (by simp)]
    simp [decodeMajor19]

theorem qret : Statement (.qret) := by
  refine of_long (below 3 0 <| below 5 5 <| below 6 0 <| below 6 0 <| below 5 0 <| below 6 25 1) rfl ?_ fun hc => ?_
  · show 0xB2000028 = _
    simp only [below]
    omega
  · rw [decodeFields32_19 (by simp)]
    simp [decodeMajor19]

theorem vclaim (d : BitVec 5) (a : BitVec 5) (l : Bool) : Statement (.vclaim d a l) := by
  refine of_long (below 2 0 <| below 2 0 <| below 4 0 <| below 6 0 <| below 1 l.toNat <| below 5 a.toNat <| below 5 d.toNat <| below 6 26 1) rfl ?_ fun hc => ?_
  · show 0xB4000000 + d.toNat * 1048576 + a.toNat * 32768 + l.toNat * 16384 = _
    simp only [below]
    omega
  · rw [decodeFields32_1A (by simp)]
    simp [decodeMajor1A]

theorem vreneg (d : BitVec 5) (a : BitVec 5) (l : Bool) : Statement (.vreneg d a l) := by
  refine of_long (below 2 0 <| below 2 0 <| below 4 1 <| below 6 0 <| below 1 l.toNat <| below 5 a.toNat <| below 5 d.toNat <| below 6 26 1) rfl ?_ fun hc => ?_
  · show 0xB4000010 + d.toNat * 1048576 + a.toNat * 32768 + l.toNat * 16384 = _
    simp only [below]
    omega
  · rw [decodeFields32_1A (by simp)]
    simp [decodeMajor1A]

theorem vrel : Statement (.vrel) := by
  refine of_long (below 2 0 <| below 2 0 <| below 4 2 <| below 6 0 <| below 6 0 <| below 5 0 <| below 6 26 1) rfl ?_ fun hc => ?_
  · show 0xB4000020 = _
    simp only [below]
    omega
  · rw [decodeFields32_1A (by simp)]
    simp [decodeMajor1A]

theorem pcnt (d : BitVec 5) (k : BitVec 2) : Statement (.pcnt d k) := by
  refine of_long (below 2 0 <| below 2 k.toNat <| below 4 3 <| below 6 0 <| below 6 0 <| below 5 d.toNat <| below 6 26 1) rfl ?_ fun hc => ?_
  · show 0xB4000030 + d.toNat * 1048576 + k.toNat * 4 = _
    simp only [below]
    omega
  · rw [decodeFields32_1A (by simp)]
    simp [decodeMajor1A]

theorem pwhile (d : BitVec 5) (a : BitVec 5) (l : Bool) (b : BitVec 5) (m : Bool) (k : BitVec 2) : Statement (.pwhile d a l b m k) := by
  refine of_long (below 2 0 <| below 2 k.toNat <| below 4 4 <| below 1 m.toNat <| below 5 b.toNat <| below 1 l.toNat <| below 5 a.toNat <| below 5 d.toNat <| below 6 26 1) rfl ?_ fun hc => ?_
  · show 0xB4000040 + d.toNat * 1048576 + a.toNat * 32768 + l.toNat * 16384 + b.toNat * 512 + m.toNat * 256 + k.toNat * 4 = _
    simp only [below]
    omega
  · rw [decodeFields32_1A (by simp)]
    simp [decodeMajor1A]

theorem pmin (a : BitVec 5) (l : Bool) (k : BitVec 2) (kb : BitVec 2) : Statement (.pmin a l k kb) := by
  refine of_long (below 2 kb.toNat <| below 2 k.toNat <| below 4 5 <| below 6 0 <| below 1 l.toNat <| below 5 a.toNat <| below 5 0 <| below 6 26 1) rfl ?_ fun hc => ?_
  · show 0xB4000050 + a.toNat * 32768 + l.toNat * 16384 + k.toNat * 4 + kb.toNat = _
    simp only [below]
    omega
  · rw [decodeFields32_1A (by simp)]
    simp [decodeMajor1A]

theorem vld (d : BitVec 4) (a : BitVec 5) (l : Bool) (k : BitVec 2) (h : BitVec 2) : Statement (.vld d a l k h) := by
  refine of_long (below 2 0 <| below 2 h.toNat <| below 3 0 <| below 2 k.toNat <| below 6 0 <| below 1 l.toNat <| below 5 a.toNat <| below 4 d.toNat <| below 6 27 1) rfl ?_ fun hc => ?_
  · show 0xB6000000 + d.toNat * 2097152 + a.toNat * 65536 + l.toNat * 32768 + k.toNat * 128 + h.toNat * 4 = _
    simp only [below]
    omega
  · rw [decodeFields32_1B (by simp)]
    simp [decodeMajor1B]

theorem vst (d : BitVec 4) (a : BitVec 5) (l : Bool) (k : BitVec 2) (h : BitVec 2) : Statement (.vst d a l k h) := by
  refine of_long (below 2 0 <| below 2 h.toNat <| below 3 1 <| below 2 k.toNat <| below 6 0 <| below 1 l.toNat <| below 5 a.toNat <| below 4 d.toNat <| below 6 27 1) rfl ?_ fun hc => ?_
  · show 0xB6000010 + d.toNat * 2097152 + a.toNat * 65536 + l.toNat * 32768 + k.toNat * 128 + h.toNat * 4 = _
    simp only [below]
    omega
  · rw [decodeFields32_1B (by simp)]
    simp [decodeMajor1B]

theorem vldf (d : BitVec 4) (a : BitVec 5) (l : Bool) (k : BitVec 2) (h : BitVec 2) : Statement (.vldf d a l k h) := by
  refine of_long (below 2 0 <| below 2 h.toNat <| below 3 2 <| below 2 k.toNat <| below 6 0 <| below 1 l.toNat <| below 5 a.toNat <| below 4 d.toNat <| below 6 27 1) rfl ?_ fun hc => ?_
  · show 0xB6000020 + d.toNat * 2097152 + a.toNat * 65536 + l.toNat * 32768 + k.toNat * 128 + h.toNat * 4 = _
    simp only [below]
    omega
  · rw [decodeFields32_1B (by simp)]
    simp [decodeMajor1B]

theorem vlds (d : BitVec 4) (a : BitVec 5) (l : Bool) (b : BitVec 5) (m : Bool) (k : BitVec 2) (h : BitVec 2) : Statement (.vlds d a l b m k h) := by
  refine of_long (below 2 0 <| below 2 h.toNat <| below 3 3 <| below 2 k.toNat <| below 1 m.toNat <| below 5 b.toNat <| below 1 l.toNat <| below 5 a.toNat <| below 4 d.toNat <| below 6 27 1) rfl ?_ fun hc => ?_
  · show 0xB6000030 + d.toNat * 2097152 + a.toNat * 65536 + l.toNat * 32768 + b.toNat * 1024 + m.toNat * 512 + k.toNat * 128 + h.toNat * 4 = _
    simp only [below]
    omega
  · rw [decodeFields32_1B (by simp)]
    simp [decodeMajor1B]

theorem vsts (d : BitVec 4) (a : BitVec 5) (l : Bool) (b : BitVec 5) (m : Bool) (k : BitVec 2) (h : BitVec 2) : Statement (.vsts d a l b m k h) := by
  refine of_long (below 2 0 <| below 2 h.toNat <| below 3 4 <| below 2 k.toNat <| below 1 m.toNat <| below 5 b.toNat <| below 1 l.toNat <| below 5 a.toNat <| below 4 d.toNat <| below 6 27 1) rfl ?_ fun hc => ?_
  · show 0xB6000040 + d.toNat * 2097152 + a.toNat * 65536 + l.toNat * 32768 + b.toNat * 1024 + m.toNat * 512 + k.toNat * 128 + h.toNat * 4 = _
    simp only [below]
    omega
  · rw [decodeFields32_1B (by simp)]
    simp [decodeMajor1B]

theorem vgth (d : BitVec 4) (a : BitVec 5) (l : Bool) (w : BitVec 4) (k : BitVec 2) (h : BitVec 2) : Statement (.vgth d a l w k h) := by
  refine of_long (below 2 0 <| below 2 h.toNat <| below 3 0 <| below 2 k.toNat <| below 1 0 <| below 4 w.toNat <| below 1 0 <| below 1 l.toNat <| below 5 a.toNat <| below 4 d.toNat <| below 6 28 1) rfl ?_ fun hc => ?_
  · show 0xB8000000 + d.toNat * 2097152 + a.toNat * 65536 + l.toNat * 32768 + w.toNat * 1024 + k.toNat * 128 + h.toNat * 4 = _
    simp only [below]
    omega
  · rw [decodeFields32_1C (by simp)]
    simp [decodeMajor1C]

theorem vsct (d : BitVec 4) (a : BitVec 5) (l : Bool) (w : BitVec 4) (k : BitVec 2) (h : BitVec 2) : Statement (.vsct d a l w k h) := by
  refine of_long (below 2 0 <| below 2 h.toNat <| below 3 1 <| below 2 k.toNat <| below 1 0 <| below 4 w.toNat <| below 1 0 <| below 1 l.toNat <| below 5 a.toNat <| below 4 d.toNat <| below 6 28 1) rfl ?_ fun hc => ?_
  · show 0xB8000010 + d.toNat * 2097152 + a.toNat * 65536 + l.toNat * 32768 + w.toNat * 1024 + k.toNat * 128 + h.toNat * 4 = _
    simp only [below]
    omega
  · rw [decodeFields32_1C (by simp)]
    simp [decodeMajor1C]

theorem vadd (d : BitVec 4) (a : BitVec 4) (b : BitVec 4) (k : BitVec 2) (t : BitVec 4) (x : BitVec 3) : Statement (.vadd d a b k t x) := by
  refine of_long (below 3 x.toNat <| below 4 t.toNat <| below 4 0 <| below 2 k.toNat <| below 4 b.toNat <| below 4 a.toNat <| below 4 d.toNat <| below 6 29 1) rfl ?_ fun hc => ?_
  · show 0xBA000000 + d.toNat * 2097152 + a.toNat * 131072 + b.toNat * 8192 + k.toNat * 2048 + t.toNat * 8 + x.toNat = _
    simp only [below]
    omega
  · rw [decodeFields32_1D (by simp)]
    simp [decodeMajor1D]

theorem vsub (d : BitVec 4) (a : BitVec 4) (b : BitVec 4) (k : BitVec 2) (t : BitVec 4) (x : BitVec 3) : Statement (.vsub d a b k t x) := by
  refine of_long (below 3 x.toNat <| below 4 t.toNat <| below 4 1 <| below 2 k.toNat <| below 4 b.toNat <| below 4 a.toNat <| below 4 d.toNat <| below 6 29 1) rfl ?_ fun hc => ?_
  · show 0xBA000080 + d.toNat * 2097152 + a.toNat * 131072 + b.toNat * 8192 + k.toNat * 2048 + t.toNat * 8 + x.toNat = _
    simp only [below]
    omega
  · rw [decodeFields32_1D (by simp)]
    simp [decodeMajor1D]

theorem vmul (d : BitVec 4) (a : BitVec 4) (b : BitVec 4) (k : BitVec 2) (t : BitVec 4) (x : BitVec 3) : Statement (.vmul d a b k t x) := by
  refine of_long (below 3 x.toNat <| below 4 t.toNat <| below 4 2 <| below 2 k.toNat <| below 4 b.toNat <| below 4 a.toNat <| below 4 d.toNat <| below 6 29 1) rfl ?_ fun hc => ?_
  · show 0xBA000100 + d.toNat * 2097152 + a.toNat * 131072 + b.toNat * 8192 + k.toNat * 2048 + t.toNat * 8 + x.toNat = _
    simp only [below]
    omega
  · rw [decodeFields32_1D (by simp)]
    simp [decodeMajor1D]

theorem vdiv (d : BitVec 4) (a : BitVec 4) (b : BitVec 4) (k : BitVec 2) (t : BitVec 4) (x : BitVec 3) : Statement (.vdiv d a b k t x) := by
  refine of_long (below 3 x.toNat <| below 4 t.toNat <| below 4 3 <| below 2 k.toNat <| below 4 b.toNat <| below 4 a.toNat <| below 4 d.toNat <| below 6 29 1) rfl ?_ fun hc => ?_
  · show 0xBA000180 + d.toNat * 2097152 + a.toNat * 131072 + b.toNat * 8192 + k.toNat * 2048 + t.toNat * 8 + x.toNat = _
    simp only [below]
    omega
  · rw [decodeFields32_1D (by simp)]
    simp [decodeMajor1D]

theorem vmin (d : BitVec 4) (a : BitVec 4) (b : BitVec 4) (k : BitVec 2) (t : BitVec 4) (x : BitVec 3) : Statement (.vmin d a b k t x) := by
  refine of_long (below 3 x.toNat <| below 4 t.toNat <| below 4 4 <| below 2 k.toNat <| below 4 b.toNat <| below 4 a.toNat <| below 4 d.toNat <| below 6 29 1) rfl ?_ fun hc => ?_
  · show 0xBA000200 + d.toNat * 2097152 + a.toNat * 131072 + b.toNat * 8192 + k.toNat * 2048 + t.toNat * 8 + x.toNat = _
    simp only [below]
    omega
  · rw [decodeFields32_1D (by simp)]
    simp [decodeMajor1D]

theorem vmax (d : BitVec 4) (a : BitVec 4) (b : BitVec 4) (k : BitVec 2) (t : BitVec 4) (x : BitVec 3) : Statement (.vmax d a b k t x) := by
  refine of_long (below 3 x.toNat <| below 4 t.toNat <| below 4 5 <| below 2 k.toNat <| below 4 b.toNat <| below 4 a.toNat <| below 4 d.toNat <| below 6 29 1) rfl ?_ fun hc => ?_
  · show 0xBA000280 + d.toNat * 2097152 + a.toNat * 131072 + b.toNat * 8192 + k.toNat * 2048 + t.toNat * 8 + x.toNat = _
    simp only [below]
    omega
  · rw [decodeFields32_1D (by simp)]
    simp [decodeMajor1D]

theorem vabsd (d : BitVec 4) (a : BitVec 4) (b : BitVec 4) (k : BitVec 2) (t : BitVec 4) (x : BitVec 3) : Statement (.vabsd d a b k t x) := by
  refine of_long (below 3 x.toNat <| below 4 t.toNat <| below 4 6 <| below 2 k.toNat <| below 4 b.toNat <| below 4 a.toNat <| below 4 d.toNat <| below 6 29 1) rfl ?_ fun hc => ?_
  · show 0xBA000300 + d.toNat * 2097152 + a.toNat * 131072 + b.toNat * 8192 + k.toNat * 2048 + t.toNat * 8 + x.toNat = _
    simp only [below]
    omega
  · rw [decodeFields32_1D (by simp)]
    simp [decodeMajor1D]

theorem vmulh (d : BitVec 4) (a : BitVec 4) (b : BitVec 4) (k : BitVec 2) (t : BitVec 4) (x : BitVec 3) : Statement (.vmulh d a b k t x) := by
  refine of_long (below 3 x.toNat <| below 4 t.toNat <| below 4 7 <| below 2 k.toNat <| below 4 b.toNat <| below 4 a.toNat <| below 4 d.toNat <| below 6 29 1) rfl ?_ fun hc => ?_
  · show 0xBA000380 + d.toNat * 2097152 + a.toNat * 131072 + b.toNat * 8192 + k.toNat * 2048 + t.toNat * 8 + x.toNat = _
    simp only [below]
    omega
  · rw [decodeFields32_1D (by simp)]
    simp [decodeMajor1D]

theorem vfma (d : BitVec 4) (a : BitVec 4) (b : BitVec 4) (k : BitVec 2) (t : BitVec 4) (x : BitVec 3) : Statement (.vfma d a b k t x) := by
  refine of_long (below 3 x.toNat <| below 4 t.toNat <| below 4 0 <| below 2 k.toNat <| below 4 b.toNat <| below 4 a.toNat <| below 4 d.toNat <| below 6 30 1) rfl ?_ fun hc => ?_
  · show 0xBC000000 + d.toNat * 2097152 + a.toNat * 131072 + b.toNat * 8192 + k.toNat * 2048 + t.toNat * 8 + x.toNat = _
    simp only [below]
    omega
  · rw [decodeFields32_1E (by simp)]
    simp [decodeMajor1E]

theorem vfms (d : BitVec 4) (a : BitVec 4) (b : BitVec 4) (k : BitVec 2) (t : BitVec 4) (x : BitVec 3) : Statement (.vfms d a b k t x) := by
  refine of_long (below 3 x.toNat <| below 4 t.toNat <| below 4 1 <| below 2 k.toNat <| below 4 b.toNat <| below 4 a.toNat <| below 4 d.toNat <| below 6 30 1) rfl ?_ fun hc => ?_
  · show 0xBC000080 + d.toNat * 2097152 + a.toNat * 131072 + b.toNat * 8192 + k.toNat * 2048 + t.toNat * 8 + x.toNat = _
    simp only [below]
    omega
  · rw [decodeFields32_1E (by simp)]
    simp [decodeMajor1E]

theorem vcvt (d : BitVec 4) (a : BitVec 4) (s : BitVec 4) (k : BitVec 2) (t : BitVec 4) (x : BitVec 3) : Statement (.vcvt d a s k t x) := by
  refine of_long (below 3 x.toNat <| below 4 t.toNat <| below 4 0 <| below 2 k.toNat <| below 4 s.toNat <| below 4 a.toNat <| below 4 d.toNat <| below 6 31 1) rfl ?_ fun hc => ?_
  · show 0xBE000000 + d.toNat * 2097152 + a.toNat * 131072 + s.toNat * 8192 + k.toNat * 2048 + t.toNat * 8 + x.toNat = _
    simp only [below]
    omega
  · rw [decodeFields32_1F (by simp)]
    simp [decodeMajor1F]

theorem vabs (d : BitVec 4) (a : BitVec 4) (k : BitVec 2) (t : BitVec 4) (x : BitVec 3) : Statement (.vabs d a k t x) := by
  refine of_long (below 3 x.toNat <| below 4 t.toNat <| below 4 1 <| below 2 k.toNat <| below 4 0 <| below 4 a.toNat <| below 4 d.toNat <| below 6 31 1) rfl ?_ fun hc => ?_
  · show 0xBE000080 + d.toNat * 2097152 + a.toNat * 131072 + k.toNat * 2048 + t.toNat * 8 + x.toNat = _
    simp only [below]
    omega
  · rw [decodeFields32_1F (by simp)]
    simp [decodeMajor1F]

theorem vneg (d : BitVec 4) (a : BitVec 4) (k : BitVec 2) (t : BitVec 4) (x : BitVec 3) : Statement (.vneg d a k t x) := by
  refine of_long (below 3 x.toNat <| below 4 t.toNat <| below 4 2 <| below 2 k.toNat <| below 4 0 <| below 4 a.toNat <| below 4 d.toNat <| below 6 31 1) rfl ?_ fun hc => ?_
  · show 0xBE000100 + d.toNat * 2097152 + a.toNat * 131072 + k.toNat * 2048 + t.toNat * 8 + x.toNat = _
    simp only [below]
    omega
  · rw [decodeFields32_1F (by simp)]
    simp [decodeMajor1F]

theorem vsqrt (d : BitVec 4) (a : BitVec 4) (k : BitVec 2) (t : BitVec 4) (x : BitVec 3) : Statement (.vsqrt d a k t x) := by
  refine of_long (below 3 x.toNat <| below 4 t.toNat <| below 4 3 <| below 2 k.toNat <| below 4 0 <| below 4 a.toNat <| below 4 d.toNat <| below 6 31 1) rfl ?_ fun hc => ?_
  · show 0xBE000180 + d.toNat * 2097152 + a.toNat * 131072 + k.toNat * 2048 + t.toNat * 8 + x.toNat = _
    simp only [below]
    omega
  · rw [decodeFields32_1F (by simp)]
    simp [decodeMajor1F]

theorem vrcp (d : BitVec 4) (a : BitVec 4) (k : BitVec 2) (t : BitVec 4) (x : BitVec 3) : Statement (.vrcp d a k t x) := by
  refine of_long (below 3 x.toNat <| below 4 t.toNat <| below 4 4 <| below 2 k.toNat <| below 4 0 <| below 4 a.toNat <| below 4 d.toNat <| below 6 31 1) rfl ?_ fun hc => ?_
  · show 0xBE000200 + d.toNat * 2097152 + a.toNat * 131072 + k.toNat * 2048 + t.toNat * 8 + x.toNat = _
    simp only [below]
    omega
  · rw [decodeFields32_1F (by simp)]
    simp [decodeMajor1F]

theorem vrsq (d : BitVec 4) (a : BitVec 4) (k : BitVec 2) (t : BitVec 4) (x : BitVec 3) : Statement (.vrsq d a k t x) := by
  refine of_long (below 3 x.toNat <| below 4 t.toNat <| below 4 5 <| below 2 k.toNat <| below 4 0 <| below 4 a.toNat <| below 4 d.toNat <| below 6 31 1) rfl ?_ fun hc => ?_
  · show 0xBE000280 + d.toNat * 2097152 + a.toNat * 131072 + k.toNat * 2048 + t.toNat * 8 + x.toNat = _
    simp only [below]
    omega
  · rw [decodeFields32_1F (by simp)]
    simp [decodeMajor1F]

theorem vexp (d : BitVec 4) (a : BitVec 4) (k : BitVec 2) (t : BitVec 4) (x : BitVec 3) : Statement (.vexp d a k t x) := by
  refine of_long (below 3 x.toNat <| below 4 t.toNat <| below 4 6 <| below 2 k.toNat <| below 4 0 <| below 4 a.toNat <| below 4 d.toNat <| below 6 31 1) rfl ?_ fun hc => ?_
  · show 0xBE000300 + d.toNat * 2097152 + a.toNat * 131072 + k.toNat * 2048 + t.toNat * 8 + x.toNat = _
    simp only [below]
    omega
  · rw [decodeFields32_1F (by simp)]
    simp [decodeMajor1F]

theorem vlog (d : BitVec 4) (a : BitVec 4) (k : BitVec 2) (t : BitVec 4) (x : BitVec 3) : Statement (.vlog d a k t x) := by
  refine of_long (below 3 x.toNat <| below 4 t.toNat <| below 4 7 <| below 2 k.toNat <| below 4 0 <| below 4 a.toNat <| below 4 d.toNat <| below 6 31 1) rfl ?_ fun hc => ?_
  · show 0xBE000380 + d.toNat * 2097152 + a.toNat * 131072 + k.toNat * 2048 + t.toNat * 8 + x.toNat = _
    simp only [below]
    omega
  · rw [decodeFields32_1F (by simp)]
    simp [decodeMajor1F]

theorem vsin (d : BitVec 4) (a : BitVec 4) (k : BitVec 2) (t : BitVec 4) (x : BitVec 3) : Statement (.vsin d a k t x) := by
  refine of_long (below 3 x.toNat <| below 4 t.toNat <| below 4 8 <| below 2 k.toNat <| below 4 0 <| below 4 a.toNat <| below 4 d.toNat <| below 6 31 1) rfl ?_ fun hc => ?_
  · show 0xBE000400 + d.toNat * 2097152 + a.toNat * 131072 + k.toNat * 2048 + t.toNat * 8 + x.toNat = _
    simp only [below]
    omega
  · rw [decodeFields32_1F (by simp)]
    simp [decodeMajor1F]

theorem vcos (d : BitVec 4) (a : BitVec 4) (k : BitVec 2) (t : BitVec 4) (x : BitVec 3) : Statement (.vcos d a k t x) := by
  refine of_long (below 3 x.toNat <| below 4 t.toNat <| below 4 9 <| below 2 k.toNat <| below 4 0 <| below 4 a.toNat <| below 4 d.toNat <| below 6 31 1) rfl ?_ fun hc => ?_
  · show 0xBE000480 + d.toNat * 2097152 + a.toNat * 131072 + k.toNat * 2048 + t.toNat * 8 + x.toNat = _
    simp only [below]
    omega
  · rw [decodeFields32_1F (by simp)]
    simp [decodeMajor1F]

theorem vtanh (d : BitVec 4) (a : BitVec 4) (k : BitVec 2) (t : BitVec 4) (x : BitVec 3) : Statement (.vtanh d a k t x) := by
  refine of_long (below 3 x.toNat <| below 4 t.toNat <| below 4 10 <| below 2 k.toNat <| below 4 0 <| below 4 a.toNat <| below 4 d.toNat <| below 6 31 1) rfl ?_ fun hc => ?_
  · show 0xBE000500 + d.toNat * 2097152 + a.toNat * 131072 + k.toNat * 2048 + t.toNat * 8 + x.toNat = _
    simp only [below]
    omega
  · rw [decodeFields32_1F (by simp)]
    simp [decodeMajor1F]

theorem vand (d : BitVec 4) (a : BitVec 4) (b : BitVec 4) (k : BitVec 2) (t : BitVec 4) (x : BitVec 3) : Statement (.vand d a b k t x) := by
  refine of_long (below 3 x.toNat <| below 4 t.toNat <| below 4 0 <| below 2 k.toNat <| below 4 b.toNat <| below 4 a.toNat <| below 4 d.toNat <| below 6 32 1) rfl ?_ fun hc => ?_
  · show 0xC0000000 + d.toNat * 2097152 + a.toNat * 131072 + b.toNat * 8192 + k.toNat * 2048 + t.toNat * 8 + x.toNat = _
    simp only [below]
    omega
  · rw [decodeFields32_20 (by simp)]
    simp [decodeMajor20]

theorem vor (d : BitVec 4) (a : BitVec 4) (b : BitVec 4) (k : BitVec 2) (t : BitVec 4) (x : BitVec 3) : Statement (.vor d a b k t x) := by
  refine of_long (below 3 x.toNat <| below 4 t.toNat <| below 4 1 <| below 2 k.toNat <| below 4 b.toNat <| below 4 a.toNat <| below 4 d.toNat <| below 6 32 1) rfl ?_ fun hc => ?_
  · show 0xC0000080 + d.toNat * 2097152 + a.toNat * 131072 + b.toNat * 8192 + k.toNat * 2048 + t.toNat * 8 + x.toNat = _
    simp only [below]
    omega
  · rw [decodeFields32_20 (by simp)]
    simp [decodeMajor20]

theorem vxor (d : BitVec 4) (a : BitVec 4) (b : BitVec 4) (k : BitVec 2) (t : BitVec 4) (x : BitVec 3) : Statement (.vxor d a b k t x) := by
  refine of_long (below 3 x.toNat <| below 4 t.toNat <| below 4 2 <| below 2 k.toNat <| below 4 b.toNat <| below 4 a.toNat <| below 4 d.toNat <| below 6 32 1) rfl ?_ fun hc => ?_
  · show 0xC0000100 + d.toNat * 2097152 + a.toNat * 131072 + b.toNat * 8192 + k.toNat * 2048 + t.toNat * 8 + x.toNat = _
    simp only [below]
    omega
  · rw [decodeFields32_20 (by simp)]
    simp [decodeMajor20]

theorem vandn (d : BitVec 4) (a : BitVec 4) (b : BitVec 4) (k : BitVec 2) (t : BitVec 4) (x : BitVec 3) : Statement (.vandn d a b k t x) := by
  refine of_long (below 3 x.toNat <| below 4 t.toNat <| below 4 3 <| below 2 k.toNat <| below 4 b.toNat <| below 4 a.toNat <| below 4 d.toNat <| below 6 32 1) rfl ?_ fun hc => ?_
  · show 0xC0000180 + d.toNat * 2097152 + a.toNat * 131072 + b.toNat * 8192 + k.toNat * 2048 + t.toNat * 8 + x.toNat = _
    simp only [below]
    omega
  · rw [decodeFields32_20 (by simp)]
    simp [decodeMajor20]

theorem vshl (d : BitVec 4) (a : BitVec 4) (b : BitVec 4) (k : BitVec 2) (t : BitVec 4) (x : BitVec 3) : Statement (.vshl d a b k t x) := by
  refine of_long (below 3 x.toNat <| below 4 t.toNat <| below 4 4 <| below 2 k.toNat <| below 4 b.toNat <| below 4 a.toNat <| below 4 d.toNat <| below 6 32 1) rfl ?_ fun hc => ?_
  · show 0xC0000200 + d.toNat * 2097152 + a.toNat * 131072 + b.toNat * 8192 + k.toNat * 2048 + t.toNat * 8 + x.toNat = _
    simp only [below]
    omega
  · rw [decodeFields32_20 (by simp)]
    simp [decodeMajor20]

theorem vshr (d : BitVec 4) (a : BitVec 4) (b : BitVec 4) (k : BitVec 2) (t : BitVec 4) (x : BitVec 3) : Statement (.vshr d a b k t x) := by
  refine of_long (below 3 x.toNat <| below 4 t.toNat <| below 4 5 <| below 2 k.toNat <| below 4 b.toNat <| below 4 a.toNat <| below 4 d.toNat <| below 6 32 1) rfl ?_ fun hc => ?_
  · show 0xC0000280 + d.toNat * 2097152 + a.toNat * 131072 + b.toNat * 8192 + k.toNat * 2048 + t.toNat * 8 + x.toNat = _
    simp only [below]
    omega
  · rw [decodeFields32_20 (by simp)]
    simp [decodeMajor20]

theorem vsar (d : BitVec 4) (a : BitVec 4) (b : BitVec 4) (k : BitVec 2) (t : BitVec 4) (x : BitVec 3) : Statement (.vsar d a b k t x) := by
  refine of_long (below 3 x.toNat <| below 4 t.toNat <| below 4 6 <| below 2 k.toNat <| below 4 b.toNat <| below 4 a.toNat <| below 4 d.toNat <| below 6 32 1) rfl ?_ fun hc => ?_
  · show 0xC0000300 + d.toNat * 2097152 + a.toNat * 131072 + b.toNat * 8192 + k.toNat * 2048 + t.toNat * 8 + x.toNat = _
    simp only [below]
    omega
  · rw [decodeFields32_20 (by simp)]
    simp [decodeMajor20]

theorem vcmp (d : BitVec 4) (a : BitVec 4) (b : BitVec 4) (k : BitVec 2) (t : BitVec 4) (c : BitVec 3) : Statement (.vcmp d a b k t c) := by
  refine of_long (below 3 c.toNat <| below 4 t.toNat <| below 4 7 <| below 2 k.toNat <| below 4 b.toNat <| below 4 a.toNat <| below 4 d.toNat <| below 6 32 1) rfl ?_ fun hc => ?_
  · show 0xC0000380 + d.toNat * 2097152 + a.toNat * 131072 + b.toNat * 8192 + k.toNat * 2048 + t.toNat * 8 + c.toNat = _
    simp only [below]
    omega
  · rw [decodeFields32_20 (by simp)]
    simp [decodeMajor20]

theorem vsel (d : BitVec 4) (a : BitVec 4) (b : BitVec 4) (k : BitVec 2) (t : BitVec 4) (x : BitVec 3) : Statement (.vsel d a b k t x) := by
  refine of_long (below 3 x.toNat <| below 4 t.toNat <| below 4 8 <| below 2 k.toNat <| below 4 b.toNat <| below 4 a.toNat <| below 4 d.toNat <| below 6 32 1) rfl ?_ fun hc => ?_
  · show 0xC0000400 + d.toNat * 2097152 + a.toNat * 131072 + b.toNat * 8192 + k.toNat * 2048 + t.toNat * 8 + x.toNat = _
    simp only [below]
    omega
  · rw [decodeFields32_20 (by simp)]
    simp [decodeMajor20]

theorem vsum (a : BitVec 4) (g : BitVec 5) (k : BitVec 2) (t : BitVec 4) (x : BitVec 3) : Statement (.vsum a g k t x) := by
  refine of_long (below 3 x.toNat <| below 4 t.toNat <| below 4 0 <| below 2 k.toNat <| below 3 0 <| below 5 g.toNat <| below 4 a.toNat <| below 6 33 1) rfl ?_ fun hc => ?_
  · show 0xC2000000 + a.toNat * 2097152 + g.toNat * 65536 + k.toNat * 2048 + t.toNat * 8 + x.toNat = _
    simp only [below]
    omega
  · rw [decodeFields32_21 (by simp)]
    simp [decodeMajor21]

theorem vrmax (a : BitVec 4) (g : BitVec 5) (k : BitVec 2) (t : BitVec 4) (x : BitVec 3) : Statement (.vrmax a g k t x) := by
  refine of_long (below 3 x.toNat <| below 4 t.toNat <| below 4 1 <| below 2 k.toNat <| below 3 0 <| below 5 g.toNat <| below 4 a.toNat <| below 6 33 1) rfl ?_ fun hc => ?_
  · show 0xC2000080 + a.toNat * 2097152 + g.toNat * 65536 + k.toNat * 2048 + t.toNat * 8 + x.toNat = _
    simp only [below]
    omega
  · rw [decodeFields32_21 (by simp)]
    simp [decodeMajor21]

theorem vrmin (a : BitVec 4) (g : BitVec 5) (k : BitVec 2) (t : BitVec 4) (x : BitVec 3) : Statement (.vrmin a g k t x) := by
  refine of_long (below 3 x.toNat <| below 4 t.toNat <| below 4 2 <| below 2 k.toNat <| below 3 0 <| below 5 g.toNat <| below 4 a.toNat <| below 6 33 1) rfl ?_ fun hc => ?_
  · show 0xC2000100 + a.toNat * 2097152 + g.toNat * 65536 + k.toNat * 2048 + t.toNat * 8 + x.toNat = _
    simp only [below]
    omega
  · rw [decodeFields32_21 (by simp)]
    simp [decodeMajor21]

theorem vscan (d : BitVec 4) (a : BitVec 4) (k : BitVec 2) (t : BitVec 4) (x : BitVec 3) : Statement (.vscan d a k t x) := by
  refine of_long (below 3 x.toNat <| below 4 t.toNat <| below 4 3 <| below 2 k.toNat <| below 3 0 <| below 1 0 <| below 4 a.toNat <| below 4 d.toNat <| below 6 33 1) rfl ?_ fun hc => ?_
  · show 0xC2000180 + d.toNat * 2097152 + a.toNat * 131072 + k.toNat * 2048 + t.toNat * 8 + x.toNat = _
    simp only [below]
    omega
  · rw [decodeFields32_21 (by simp)]
    simp [decodeMajor21]

theorem vperm (d : BitVec 4) (a : BitVec 4) (b : BitVec 4) (k : BitVec 2) (t : BitVec 4) (x : BitVec 3) : Statement (.vperm d a b k t x) := by
  refine of_long (below 3 x.toNat <| below 4 t.toNat <| below 4 0 <| below 2 k.toNat <| below 4 b.toNat <| below 4 a.toNat <| below 4 d.toNat <| below 6 34 1) rfl ?_ fun hc => ?_
  · show 0xC4000000 + d.toNat * 2097152 + a.toNat * 131072 + b.toNat * 8192 + k.toNat * 2048 + t.toNat * 8 + x.toNat = _
    simp only [below]
    omega
  · rw [decodeFields32_22 (by simp)]
    simp [decodeMajor22]

theorem vbc (d : BitVec 4) (g : BitVec 5) (l : Bool) (k : BitVec 2) (t : BitVec 4) (x : BitVec 3) : Statement (.vbc d g l k t x) := by
  refine of_long (below 3 x.toNat <| below 4 t.toNat <| below 4 1 <| below 2 k.toNat <| below 2 0 <| below 1 l.toNat <| below 5 g.toNat <| below 4 d.toNat <| below 6 34 1) rfl ?_ fun hc => ?_
  · show 0xC4000080 + d.toNat * 2097152 + g.toNat * 65536 + l.toNat * 32768 + k.toNat * 2048 + t.toNat * 8 + x.toNat = _
    simp only [below]
    omega
  · rw [decodeFields32_22 (by simp)]
    simp [decodeMajor22]

theorem vext (a : BitVec 4) (g : BitVec 5) (k : BitVec 2) (t : BitVec 4) (x : BitVec 3) : Statement (.vext a g k t x) := by
  refine of_long (below 3 x.toNat <| below 4 t.toNat <| below 4 2 <| below 2 k.toNat <| below 2 0 <| below 1 0 <| below 5 g.toNat <| below 4 a.toNat <| below 6 34 1) rfl ?_ fun hc => ?_
  · show 0xC4000100 + a.toNat * 2097152 + g.toNat * 65536 + k.toNat * 2048 + t.toNat * 8 + x.toNat = _
    simp only [below]
    omega
  · rw [decodeFields32_22 (by simp)]
    simp [decodeMajor22]

theorem vins (d : BitVec 4) (g : BitVec 5) (l : Bool) (k : BitVec 2) (t : BitVec 4) (x : BitVec 3) : Statement (.vins d g l k t x) := by
  refine of_long (below 3 x.toNat <| below 4 t.toNat <| below 4 3 <| below 2 k.toNat <| below 2 0 <| below 1 l.toNat <| below 5 g.toNat <| below 4 d.toNat <| below 6 34 1) rfl ?_ fun hc => ?_
  · show 0xC4000180 + d.toNat * 2097152 + g.toNat * 65536 + l.toNat * 32768 + k.toNat * 2048 + t.toNat * 8 + x.toNat = _
    simp only [below]
    omega
  · rw [decodeFields32_22 (by simp)]
    simp [decodeMajor22]

theorem viota (d : BitVec 4) (k : BitVec 2) (t : BitVec 4) (x : BitVec 3) : Statement (.viota d k t x) := by
  refine of_long (below 3 x.toNat <| below 4 t.toNat <| below 4 4 <| below 2 k.toNat <| below 2 0 <| below 1 0 <| below 1 0 <| below 3 0 <| below 1 0 <| below 4 d.toNat <| below 6 34 1) rfl ?_ fun hc => ?_
  · show 0xC4000200 + d.toNat * 2097152 + k.toNat * 2048 + t.toNat * 8 + x.toNat = _
    simp only [below]
    omega
  · rw [decodeFields32_22 (by simp)]
    simp [decodeMajor22]

theorem vmov (d : BitVec 4) (a : BitVec 4) (k : BitVec 2) (t : BitVec 4) (x : BitVec 3) : Statement (.vmov d a k t x) := by
  refine of_long (below 3 x.toNat <| below 4 t.toNat <| below 4 5 <| below 2 k.toNat <| below 2 0 <| below 1 0 <| below 1 0 <| below 4 a.toNat <| below 4 d.toNat <| below 6 34 1) rfl ?_ fun hc => ?_
  · show 0xC4000280 + d.toNat * 2097152 + a.toNat * 131072 + k.toNat * 2048 + t.toNat * 8 + x.toNat = _
    simp only [below]
    omega
  · rw [decodeFields32_22 (by simp)]
    simp [decodeMajor22]

theorem vqmovPop (d : BitVec 4) (q : BitVec 3) (k : BitVec 2) (t : BitVec 4) (x : BitVec 3) : Statement (.vqmovPop d q k t x) := by
  refine of_long (below 3 x.toNat <| below 4 t.toNat <| below 4 6 <| below 2 k.toNat <| below 2 0 <| below 1 0 <| below 1 0 <| below 3 q.toNat <| below 1 0 <| below 4 d.toNat <| below 6 34 1) rfl ?_ fun hc => ?_
  · show 0xC4000300 + d.toNat * 2097152 + q.toNat * 131072 + k.toNat * 2048 + t.toNat * 8 + x.toNat = _
    simp only [below]
    omega
  · rw [decodeFields32_22 (by simp)]
    simp [decodeMajor22]

theorem vqmovPush (q : BitVec 3) (a : BitVec 4) (k : BitVec 2) (t : BitVec 4) (x : BitVec 3) : Statement (.vqmovPush q a k t x) := by
  refine of_long (below 3 x.toNat <| below 4 t.toNat <| below 4 6 <| below 2 k.toNat <| below 2 1 <| below 1 0 <| below 1 0 <| below 4 a.toNat <| below 3 q.toNat <| below 1 0 <| below 6 34 1) rfl ?_ fun hc => ?_
  · show 0xC4002300 + q.toNat * 2097152 + a.toNat * 131072 + k.toNat * 2048 + t.toNat * 8 + x.toNat = _
    simp only [below]
    omega
  · rw [decodeFields32_22 (by simp)]
    simp [decodeMajor22]

theorem vmrg (d : BitVec 4) (a : BitVec 3) (b : BitVec 3) (k : BitVec 2) (t : BitVec 4) (x : BitVec 3) : Statement (.vmrg d a b k t x) := by
  refine of_long (below 3 x.toNat <| below 4 t.toNat <| below 4 0 <| below 2 k.toNat <| below 3 b.toNat <| below 1 0 <| below 3 a.toNat <| below 1 0 <| below 4 d.toNat <| below 6 35 1) rfl ?_ fun hc => ?_
  · show 0xC6000000 + d.toNat * 2097152 + a.toNat * 131072 + b.toNat * 8192 + k.toNat * 2048 + t.toNat * 8 + x.toNat = _
    simp only [below]
    omega
  · rw [decodeFields32_23 (by simp)]
    simp [decodeMajor23]

theorem mma (d : BitVec 5) (a : BitVec 5) (l : Bool) (p : BitVec 4) : Statement (.mma d a l p) := by
  refine of_long (below 4 0 <| below 4 p.toNat <| below 6 0 <| below 1 l.toNat <| below 5 a.toNat <| below 5 d.toNat <| below 6 36 1) rfl ?_ fun hc => ?_
  · show 0xC8000000 + d.toNat * 1048576 + a.toNat * 32768 + l.toNat * 16384 + p.toNat * 16 = _
    simp only [below]
    omega
  · rw [decodeFields32_24 (by simp)]
    simp [decodeMajor24]

theorem mmaz (d : BitVec 5) (a : BitVec 5) (l : Bool) (p : BitVec 4) : Statement (.mmaz d a l p) := by
  refine of_long (below 4 1 <| below 4 p.toNat <| below 6 0 <| below 1 l.toNat <| below 5 a.toNat <| below 5 d.toNat <| below 6 36 1) rfl ?_ fun hc => ?_
  · show 0xC8000001 + d.toNat * 1048576 + a.toNat * 32768 + l.toNat * 16384 + p.toNat * 16 = _
    simp only [below]
    omega
  · rw [decodeFields32_24 (by simp)]
    simp [decodeMajor24]

theorem mbs (d : BitVec 5) (a : BitVec 5) (l : Bool) (p : BitVec 4) : Statement (.mbs d a l p) := by
  refine of_long (below 4 0 <| below 4 p.toNat <| below 6 0 <| below 1 l.toNat <| below 5 a.toNat <| below 5 d.toNat <| below 6 37 1) rfl ?_ fun hc => ?_
  · show 0xCA000000 + d.toNat * 1048576 + a.toNat * 32768 + l.toNat * 16384 + p.toNat * 16 = _
    simp only [below]
    omega
  · rw [decodeFields32_25 (by simp)]
    simp [decodeMajor25]

theorem mbsz (d : BitVec 5) (a : BitVec 5) (l : Bool) (p : BitVec 4) : Statement (.mbsz d a l p) := by
  refine of_long (below 4 1 <| below 4 p.toNat <| below 6 0 <| below 1 l.toNat <| below 5 a.toNat <| below 5 d.toNat <| below 6 37 1) rfl ?_ fun hc => ?_
  · show 0xCA000001 + d.toNat * 1048576 + a.toNat * 32768 + l.toNat * 16384 + p.toNat * 16 = _
    simp only [below]
    omega
  · rw [decodeFields32_25 (by simp)]
    simp [decodeMajor25]

theorem msp (d : BitVec 5) (a : BitVec 5) (l : Bool) (p : BitVec 4) : Statement (.msp d a l p) := by
  refine of_long (below 4 0 <| below 4 p.toNat <| below 6 0 <| below 1 l.toNat <| below 5 a.toNat <| below 5 d.toNat <| below 6 38 1) rfl ?_ fun hc => ?_
  · show 0xCC000000 + d.toNat * 1048576 + a.toNat * 32768 + l.toNat * 16384 + p.toNat * 16 = _
    simp only [below]
    omega
  · rw [decodeFields32_26 (by simp)]
    simp [decodeMajor26]

theorem mpre (d : BitVec 5) (a : BitVec 5) (l : Bool) : Statement (.mpre d a l) := by
  refine of_long (below 4 1 <| below 4 0 <| below 6 0 <| below 1 l.toNat <| below 5 a.toNat <| below 5 d.toNat <| below 6 38 1) rfl ?_ fun hc => ?_
  · show 0xCC000001 + d.toNat * 1048576 + a.toNat * 32768 + l.toNat * 16384 = _
    simp only [below]
    omega
  · rw [decodeFields32_26 (by simp)]
    simp [decodeMajor26]

theorem mpinv (a : BitVec 5) (l : Bool) : Statement (.mpinv a l) := by
  refine of_long (below 4 2 <| below 4 0 <| below 6 0 <| below 1 l.toNat <| below 5 a.toNat <| below 5 0 <| below 6 38 1) rfl ?_ fun hc => ?_
  · show 0xCC000002 + a.toNat * 32768 + l.toNat * 16384 = _
    simp only [below]
    omega
  · rw [decodeFields32_26 (by simp)]
    simp [decodeMajor26]

theorem mld (d : BitVec 5) (a : BitVec 5) (l : Bool) (b : BitVec 5) (m : Bool) (p : BitVec 4) : Statement (.mld d a l b m p) := by
  refine of_long (below 4 0 <| below 4 p.toNat <| below 1 m.toNat <| below 5 b.toNat <| below 1 l.toNat <| below 5 a.toNat <| below 5 d.toNat <| below 6 39 1) rfl ?_ fun hc => ?_
  · show 0xCE000000 + d.toNat * 1048576 + a.toNat * 32768 + l.toNat * 16384 + b.toNat * 512 + m.toNat * 256 + p.toNat * 16 = _
    simp only [below]
    omega
  · rw [decodeFields32_27 (by simp)]
    simp [decodeMajor27]

theorem mst (d : BitVec 5) (a : BitVec 5) (l : Bool) (b : BitVec 5) (m : Bool) (p : BitVec 4) : Statement (.mst d a l b m p) := by
  refine of_long (below 4 1 <| below 4 p.toNat <| below 1 m.toNat <| below 5 b.toNat <| below 1 l.toNat <| below 5 a.toNat <| below 5 d.toNat <| below 6 39 1) rfl ?_ fun hc => ?_
  · show 0xCE000001 + d.toNat * 1048576 + a.toNat * 32768 + l.toNat * 16384 + b.toNat * 512 + m.toNat * 256 + p.toNat * 16 = _
    simp only [below]
    omega
  · rw [decodeFields32_27 (by simp)]
    simp [decodeMajor27]

theorem mzero (p : BitVec 4) : Statement (.mzero p) := by
  refine of_long (below 4 2 <| below 4 p.toNat <| below 6 0 <| below 11 0 <| below 6 39 1) rfl ?_ fun hc => ?_
  · show 0xCE000002 + p.toNat * 16 = _
    simp only [below]
    omega
  · rw [decodeFields32_27 (by simp)]
    simp [decodeMajor27]

theorem mrd (d : BitVec 5) (a : BitVec 5) (l : Bool) (p : BitVec 4) : Statement (.mrd d a l p) := by
  refine of_long (below 4 3 <| below 4 p.toNat <| below 6 0 <| below 1 l.toNat <| below 5 a.toNat <| below 5 d.toNat <| below 6 39 1) rfl ?_ fun hc => ?_
  · show 0xCE000003 + d.toNat * 1048576 + a.toNat * 32768 + l.toNat * 16384 + p.toNat * 16 = _
    simp only [below]
    omega
  · rw [decodeFields32_27 (by simp)]
    simp [decodeMajor27]

theorem mstFill (d : BitVec 5) (a : BitVec 5) (l : Bool) (b : BitVec 5) (m : Bool) (p : BitVec 4) : Statement (.mstFill d a l b m p) := by
  refine of_long (below 4 5 <| below 4 p.toNat <| below 1 m.toNat <| below 5 b.toNat <| below 1 l.toNat <| below 5 a.toNat <| below 5 d.toNat <| below 6 39 1) rfl ?_ fun hc => ?_
  · show 0xCE000005 + d.toNat * 1048576 + a.toNat * 32768 + l.toNat * 16384 + b.toNat * 512 + m.toNat * 256 + p.toNat * 16 = _
    simp only [below]
    omega
  · rw [decodeFields32_27 (by simp)]
    simp [decodeMajor27]

theorem mstVnx (d : BitVec 5) (a : BitVec 5) (l : Bool) (b : BitVec 5) (m : Bool) (p : BitVec 4) : Statement (.mstVnx d a l b m p) := by
  refine of_long (below 4 6 <| below 4 p.toNat <| below 1 m.toNat <| below 5 b.toNat <| below 1 l.toNat <| below 5 a.toNat <| below 5 d.toNat <| below 6 39 1) rfl ?_ fun hc => ?_
  · show 0xCE000006 + d.toNat * 1048576 + a.toNat * 32768 + l.toNat * 16384 + b.toNat * 512 + m.toNat * 256 + p.toNat * 16 = _
    simp only [below]
    omega
  · rw [decodeFields32_27 (by simp)]
    simp [decodeMajor27]

theorem mstVset (d : BitVec 5) (a : BitVec 5) (l : Bool) (b : BitVec 5) (m : Bool) (p : BitVec 4) : Statement (.mstVset d a l b m p) := by
  refine of_long (below 4 7 <| below 4 p.toNat <| below 1 m.toNat <| below 5 b.toNat <| below 1 l.toNat <| below 5 a.toNat <| below 5 d.toNat <| below 6 39 1) rfl ?_ fun hc => ?_
  · show 0xCE000007 + d.toNat * 1048576 + a.toNat * 32768 + l.toNat * 16384 + b.toNat * 512 + m.toNat * 256 + p.toNat * 16 = _
    simp only [below]
    omega
  · rw [decodeFields32_27 (by simp)]
    simp [decodeMajor27]

theorem mcmd (d : BitVec 5) (a : BitVec 5) (l : Bool) (b : BitVec 5) (m : Bool) : Statement (.mcmd d a l b m) := by
  refine of_long (below 8 0 <| below 1 m.toNat <| below 5 b.toNat <| below 1 l.toNat <| below 5 a.toNat <| below 5 d.toNat <| below 6 40 1) rfl ?_ fun hc => ?_
  · show 0xD0000000 + d.toNat * 1048576 + a.toNat * 32768 + l.toNat * 16384 + b.toNat * 512 + m.toNat * 256 = _
    simp only [below]
    omega
  · rw [decodeFields32_28 (by simp)]
    simp [decodeMajor28]

theorem mqry (d : BitVec 5) (a : BitVec 5) (l : Bool) : Statement (.mqry d a l) := by
  refine of_long (below 8 1 <| below 6 0 <| below 1 l.toNat <| below 5 a.toNat <| below 5 d.toNat <| below 6 40 1) rfl ?_ fun hc => ?_
  · show 0xD0000001 + d.toNat * 1048576 + a.toNat * 32768 + l.toNat * 16384 = _
    simp only [below]
    omega
  · rw [decodeFields32_28 (by simp)]
    simp [decodeMajor28]

theorem hacc (d : BitVec 5) (a : BitVec 5) (l : Bool) (b : BitVec 5) (m : Bool) : Statement (.hacc d a l b m) := by
  refine of_long (below 8 0 <| below 1 m.toNat <| below 5 b.toNat <| below 1 l.toNat <| below 5 a.toNat <| below 5 d.toNat <| below 6 41 1) rfl ?_ fun hc => ?_
  · show 0xD2000000 + d.toNat * 1048576 + a.toNat * 32768 + l.toNat * 16384 + b.toNat * 512 + m.toNat * 256 = _
    simp only [below]
    omega
  · rw [decodeFields32_29 (by simp)]
    simp [decodeMajor29]

theorem hdrn (d : BitVec 5) (a : BitVec 5) (l : Bool) (b : BitVec 5) (m : Bool) : Statement (.hdrn d a l b m) := by
  refine of_long (below 8 1 <| below 1 m.toNat <| below 5 b.toNat <| below 1 l.toNat <| below 5 a.toNat <| below 5 d.toNat <| below 6 41 1) rfl ?_ fun hc => ?_
  · show 0xD2000001 + d.toNat * 1048576 + a.toNat * 32768 + l.toNat * 16384 + b.toNat * 512 + m.toNat * 256 = _
    simp only [below]
    omega
  · rw [decodeFields32_29 (by simp)]
    simp [decodeMajor29]

theorem sbnd (a : BitVec 5) (l : Bool) (b : BitVec 5) (m : Bool) : Statement (.sbnd a l b m) := by
  refine of_long (below 8 2 <| below 1 m.toNat <| below 5 b.toNat <| below 1 l.toNat <| below 5 a.toNat <| below 5 0 <| below 6 41 1) rfl ?_ fun hc => ?_
  · show 0xD2000002 + a.toNat * 32768 + l.toNat * 16384 + b.toNat * 512 + m.toNat * 256 = _
    simp only [below]
    omega
  · rw [decodeFields32_29 (by simp)]
    simp [decodeMajor29]

theorem carry (d : BitVec 5) (a : BitVec 5) (l : Bool) (b : BitVec 5) (m : Bool) : Statement (.carry d a l b m) := by
  refine of_long (below 8 3 <| below 1 m.toNat <| below 5 b.toNat <| below 1 l.toNat <| below 5 a.toNat <| below 5 d.toNat <| below 6 41 1) rfl ?_ fun hc => ?_
  · show 0xD2000003 + d.toNat * 1048576 + a.toNat * 32768 + l.toNat * 16384 + b.toNat * 512 + m.toNat * 256 = _
    simp only [below]
    omega
  · rw [decodeFields32_29 (by simp)]
    simp [decodeMajor29]

theorem survBind (d : BitVec 5) (a : BitVec 5) (l : Bool) (b : BitVec 5) (m : Bool) : Statement (.survBind d a l b m) := by
  refine of_long (below 8 0 <| below 1 m.toNat <| below 5 b.toNat <| below 1 l.toNat <| below 5 a.toNat <| below 5 d.toNat <| below 6 42 1) rfl ?_ fun hc => ?_
  · show 0xD4000000 + d.toNat * 1048576 + a.toNat * 32768 + l.toNat * 16384 + b.toNat * 512 + m.toNat * 256 = _
    simp only [below]
    omega
  · rw [decodeFields32_2A (by simp)]
    simp [decodeMajor2A]

theorem survUnbind (a : BitVec 5) (l : Bool) : Statement (.survUnbind a l) := by
  refine of_long (below 8 1 <| below 6 0 <| below 1 l.toNat <| below 5 a.toNat <| below 5 0 <| below 6 42 1) rfl ?_ fun hc => ?_
  · show 0xD4000001 + a.toNat * 32768 + l.toNat * 16384 = _
    simp only [below]
    omega
  · rw [decodeFields32_2A (by simp)]
    simp [decodeMajor2A]

theorem survStart (a : BitVec 5) (l : Bool) : Statement (.survStart a l) := by
  refine of_long (below 8 2 <| below 6 0 <| below 1 l.toNat <| below 5 a.toNat <| below 5 0 <| below 6 42 1) rfl ?_ fun hc => ?_
  · show 0xD4000002 + a.toNat * 32768 + l.toNat * 16384 = _
    simp only [below]
    omega
  · rw [decodeFields32_2A (by simp)]
    simp [decodeMajor2A]

theorem survStop (a : BitVec 5) (l : Bool) : Statement (.survStop a l) := by
  refine of_long (below 8 3 <| below 6 0 <| below 1 l.toNat <| below 5 a.toNat <| below 5 0 <| below 6 42 1) rfl ?_ fun hc => ?_
  · show 0xD4000003 + a.toNat * 32768 + l.toNat * 16384 = _
    simp only [below]
    omega
  · rw [decodeFields32_2A (by simp)]
    simp [decodeMajor2A]

theorem tmld (a : BitVec 5) (l : Bool) (p : BitVec 3) : Statement (.tmld a l p) := by
  refine of_long (below 4 0 <| below 3 p.toNat <| below 2 0 <| below 3 0 <| below 2 0 <| below 1 l.toNat <| below 5 a.toNat <| below 5 0 <| below 6 43 1) rfl ?_ fun hc => ?_
  · show 0xD6000000 + a.toNat * 32768 + l.toNat * 16384 + p.toNat * 16 = _
    simp only [below]
    omega
  · rw [decodeFields32_2B (by simp)]
    simp [decodeMajor2B]

theorem tmset (a : BitVec 5) (l : Bool) (n : BitVec 3) (p : BitVec 3) : Statement (.tmset a l n p) := by
  refine of_long (below 4 1 <| below 3 p.toNat <| below 2 0 <| below 3 n.toNat <| below 2 0 <| below 1 l.toNat <| below 5 a.toNat <| below 5 0 <| below 6 43 1) rfl ?_ fun hc => ?_
  · show 0xD6000001 + a.toNat * 32768 + l.toNat * 16384 + n.toNat * 512 + p.toNat * 16 = _
    simp only [below]
    omega
  · rw [decodeFields32_2B (by simp)]
    simp [decodeMajor2B]

theorem tmget (d : BitVec 5) (n : BitVec 3) (p : BitVec 3) : Statement (.tmget d n p) := by
  refine of_long (below 4 2 <| below 3 p.toNat <| below 2 0 <| below 3 n.toNat <| below 2 0 <| below 6 0 <| below 5 d.toNat <| below 6 43 1) rfl ?_ fun hc => ?_
  · show 0xD6000002 + d.toNat * 1048576 + n.toNat * 512 + p.toNat * 16 = _
    simp only [below]
    omega
  · rw [decodeFields32_2B (by simp)]
    simp [decodeMajor2B]

theorem cpy (d : BitVec 5) (s : BitVec 3) (p : BitVec 3) : Statement (.cpy d s p) := by
  refine of_long (below 4 0 <| below 3 p.toNat <| below 1 0 <| below 1 0 <| below 3 s.toNat <| below 2 0 <| below 6 0 <| below 5 d.toNat <| below 6 44 1) rfl ?_ fun hc => ?_
  · show 0xD8000000 + d.toNat * 1048576 + s.toNat * 512 + p.toNat * 16 = _
    simp only [below]
    omega
  · rw [decodeFields32_2C (by simp)]
    simp [decodeMajor2C]

theorem cpyg (d : BitVec 5) (a : BitVec 5) (l : Bool) (s : BitVec 3) (p : BitVec 3) : Statement (.cpyg d a l s p) := by
  refine of_long (below 4 1 <| below 3 p.toNat <| below 1 0 <| below 1 0 <| below 3 s.toNat <| below 2 0 <| below 1 l.toNat <| below 5 a.toNat <| below 5 d.toNat <| below 6 44 1) rfl ?_ fun hc => ?_
  · show 0xD8000001 + d.toNat * 1048576 + a.toNat * 32768 + l.toNat * 16384 + s.toNat * 512 + p.toNat * 16 = _
    simp only [below]
    omega
  · rw [decodeFields32_2C (by simp)]
    simp [decodeMajor2C]

theorem cpys (d : BitVec 5) (a : BitVec 5) (l : Bool) (s : BitVec 3) (p : BitVec 3) : Statement (.cpys d a l s p) := by
  refine of_long (below 4 2 <| below 3 p.toNat <| below 1 0 <| below 1 0 <| below 3 s.toNat <| below 2 0 <| below 1 l.toNat <| below 5 a.toNat <| below 5 d.toNat <| below 6 44 1) rfl ?_ fun hc => ?_
  · show 0xD8000002 + d.toNat * 1048576 + a.toNat * 32768 + l.toNat * 16384 + s.toNat * 512 + p.toNat * 16 = _
    simp only [below]
    omega
  · rw [decodeFields32_2C (by simp)]
    simp [decodeMajor2C]

theorem cpyq (d : BitVec 5) (q : BitVec 3) (p : BitVec 3) : Statement (.cpyq d q p) := by
  refine of_long (below 4 3 <| below 3 p.toNat <| below 1 0 <| below 1 0 <| below 3 q.toNat <| below 2 0 <| below 6 0 <| below 5 d.toNat <| below 6 44 1) rfl ?_ fun hc => ?_
  · show 0xD8000003 + d.toNat * 1048576 + q.toNat * 512 + p.toNat * 16 = _
    simp only [below]
    omega
  · rw [decodeFields32_2C (by simp)]
    simp [decodeMajor2C]

theorem cpyf (d : BitVec 5) (a : BitVec 5) (l : Bool) (b : BitVec 5) (m : Bool) (p : BitVec 3) : Statement (.cpyf d a l b m p) := by
  refine of_long (below 4 4 <| below 3 p.toNat <| below 1 0 <| below 1 m.toNat <| below 5 b.toNat <| below 1 l.toNat <| below 5 a.toNat <| below 5 d.toNat <| below 6 44 1) rfl ?_ fun hc => ?_
  · show 0xD8000004 + d.toNat * 1048576 + a.toNat * 32768 + l.toNat * 16384 + b.toNat * 512 + m.toNat * 256 + p.toNat * 16 = _
    simp only [below]
    omega
  · rw [decodeFields32_2C (by simp)]
    simp [decodeMajor2C]

theorem srd (g : BitVec 5) (n : BitVec 12) : Statement (.srd g n) := by
  refine of_long (below 12 n.toNat <| below 4 0 <| below 1 0 <| below 5 g.toNat <| below 3 0 <| below 6 56 1) rfl ?_ fun hc => ?_
  · show 0xF0000000 + g.toNat * 131072 + n.toNat = _
    simp only [below]
    omega
  · rw [decodeFields32_38 (by simp)]
    simp [decodeMajor38]

theorem swr (g : BitVec 5) (l : Bool) (n : BitVec 12) : Statement (.swr g l n) := by
  refine of_long (below 12 n.toNat <| below 4 0 <| below 1 l.toNat <| below 5 g.toNat <| below 3 1 <| below 6 56 1) rfl ?_ fun hc => ?_
  · show 0xF0400000 + g.toNat * 131072 + l.toNat * 65536 + n.toNat = _
    simp only [below]
    omega
  · rw [decodeFields32_38 (by simp)]
    simp [decodeMajor38]

theorem trap (n : BitVec 12) : Statement (.trap n) := by
  refine of_long (below 12 n.toNat <| below 13 0 <| below 6 57 1) rfl ?_ fun hc => ?_
  · show 0xF2000000 + n.toNat = _
    simp only [below]
    omega
  · rw [decodeFields32_39 (by simp)]
    have hcode : (n == 0x800 || n == 0x801) = false := (none_of_check hc).1
    have h0 : n.toNat ≠ 0x800 := by
      rintro h
      obtain rfl : n = 0x800 := BitVec.eq_of_toNat_eq h
      exact absurd hcode (by decide)
    have h1 : n.toNat ≠ 0x801 := by
      rintro h
      obtain rfl : n = 0x801 := BitVec.eq_of_toNat_eq h
      exact absurd hcode (by decide)
    simp [decodeMajor39, h0, h1]

theorem capMint : Statement (.capMint) := by
  refine of_long (below 12 2048 <| below 13 0 <| below 6 57 1) rfl ?_ fun hc => ?_
  · show 0xF2000800 = _
    simp only [below]
    omega
  · rw [decodeFields32_39 (by simp)]
    simp [decodeMajor39]

theorem capNewGeneration : Statement (.capNewGeneration) := by
  refine of_long (below 12 2049 <| below 13 0 <| below 6 57 1) rfl ?_ fun hc => ?_
  · show 0xF2000801 = _
    simp only [below]
    omega
  · rw [decodeFields32_39 (by simp)]
    simp [decodeMajor39]

theorem xret : Statement (.xret) := by
  refine of_long (below 12 0 <| below 13 1024 <| below 6 57 1) rfl ?_ fun hc => ?_
  · show 0xF2400000 = _
    simp only [below]
    omega
  · rw [decodeFields32_39 (by simp)]
    simp [decodeMajor39]

theorem brk (n : BitVec 12) : Statement (.brk n) := by
  refine of_long (below 12 n.toNat <| below 13 2048 <| below 6 57 1) rfl ?_ fun hc => ?_
  · show 0xF2800000 + n.toNat = _
    simp only [below]
    omega
  · rw [decodeFields32_39 (by simp)]
    simp [decodeMajor39]

theorem nop : Statement (.nop) := by
  refine of_long (below 12 0 <| below 13 3072 <| below 6 57 1) rfl ?_ fun hc => ?_
  · show 0xF2C00000 = _
    simp only [below]
    omega
  · rw [decodeFields32_39 (by simp)]
    simp [decodeMajor39]

theorem synci : Statement (.synci) := by
  refine of_long (below 12 0 <| below 13 4096 <| below 6 57 1) rfl ?_ fun hc => ?_
  · show 0xF3000000 = _
    simp only [below]
    omega
  · rw [decodeFields32_39 (by simp)]
    simp [decodeMajor39]

theorem ptinv (a : BitVec 5) (l : Bool) (b : BitVec 5) (m : Bool) : Statement (.ptinv a l b m) := by
  refine of_long (below 8 0 <| below 1 m.toNat <| below 5 b.toNat <| below 1 l.toNat <| below 5 a.toNat <| below 5 0 <| below 6 58 1) rfl ?_ fun hc => ?_
  · show 0xF4000000 + a.toNat * 32768 + l.toNat * 16384 + b.toNat * 512 + m.toNat * 256 = _
    simp only [below]
    omega
  · rw [decodeFields32_3A (by simp)]
    simp [decodeMajor3A]

theorem atset (a : BitVec 5) (l : Bool) (b : BitVec 5) (m : Bool) : Statement (.atset a l b m) := by
  refine of_long (below 8 1 <| below 1 m.toNat <| below 5 b.toNat <| below 1 l.toNat <| below 5 a.toNat <| below 5 0 <| below 6 58 1) rfl ?_ fun hc => ?_
  · show 0xF4000001 + a.toNat * 32768 + l.toNat * 16384 + b.toNat * 512 + m.toNat * 256 = _
    simp only [below]
    omega
  · rw [decodeFields32_3A (by simp)]
    simp [decodeMajor3A]

theorem atsync (d : BitVec 5) : Statement (.atsync d) := by
  refine of_long (below 8 2 <| below 6 0 <| below 6 0 <| below 5 d.toNat <| below 6 58 1) rfl ?_ fun hc => ?_
  · show 0xF4000002 + d.toNat * 1048576 = _
    simp only [below]
    omega
  · rw [decodeFields32_3A (by simp)]
    simp [decodeMajor3A]

theorem migr (d : BitVec 5) (a : BitVec 5) (l : Bool) (b : BitVec 5) (m : Bool) : Statement (.migr d a l b m) := by
  refine of_long (below 8 3 <| below 1 m.toNat <| below 5 b.toNat <| below 1 l.toNat <| below 5 a.toNat <| below 5 d.toNat <| below 6 58 1) rfl ?_ fun hc => ?_
  · show 0xF4000003 + d.toNat * 1048576 + a.toNat * 32768 + l.toNat * 16384 + b.toNat * 512 + m.toNat * 256 = _
    simp only [below]
    omega
  · rw [decodeFields32_3A (by simp)]
    simp [decodeMajor3A]

theorem gstop (d : BitVec 5) (a : BitVec 5) (l : Bool) : Statement (.gstop d a l) := by
  refine of_long (below 8 4 <| below 6 0 <| below 1 l.toNat <| below 5 a.toNat <| below 5 d.toNat <| below 6 58 1) rfl ?_ fun hc => ?_
  · show 0xF4000004 + d.toNat * 1048576 + a.toNat * 32768 + l.toNat * 16384 = _
    simp only [below]
    omega
  · rw [decodeFields32_3A (by simp)]
    simp [decodeMajor3A]

theorem svFetch (a : BitVec 3) (b : BitVec 3) (i : BitVec 4) : Statement (.svFetch a b i) := by
  refine of_compact (below 4 i.toNat <| below 3 b.toNat <| below 3 a.toNat <| below 1 0 <| below 4 15 0) rfl ?_ fun hc => ?_
  · show 0x7800 + a.toNat * 128 + b.toNat * 16 + i.toNat = _
    simp only [below]
    omega
  · rw [decodeFields16_0F (by simp)]
    simp [decodeCompact0F]

theorem svEmit (a : BitVec 3) (b : BitVec 3) (i : BitVec 4) : Statement (.svEmit a b i) := by
  refine of_compact (below 4 i.toNat <| below 3 b.toNat <| below 3 a.toNat <| below 1 1 <| below 4 15 0) rfl ?_ fun hc => ?_
  · show 0x7C00 + a.toNat * 128 + b.toNat * 16 + i.toNat = _
    simp only [below]
    omega
  · rw [decodeFields16_0F (by simp)]
    simp [decodeCompact0F]

theorem add (d : BitVec 5) (a : BitVec 5) (l : Bool) (b : BitVec 5) (m : Bool) : Statement (.add d a l b m) := by
  refine of_long (below 8 0 <| below 1 m.toNat <| below 5 b.toNat <| below 1 l.toNat <| below 5 a.toNat <| below 5 d.toNat <| below 6 0 1) rfl ?_ fun hc => ?_
  · show 0x80000000 + d.toNat * 1048576 + a.toNat * 32768 + l.toNat * 16384 + b.toNat * 512 + m.toNat * 256 = _
    simp only [below]
    omega
  · rw [decodeFields32_00 (by simp)]
    simp [decodeMajor00]

theorem sub (d : BitVec 5) (a : BitVec 5) (l : Bool) (b : BitVec 5) (m : Bool) : Statement (.sub d a l b m) := by
  refine of_long (below 8 1 <| below 1 m.toNat <| below 5 b.toNat <| below 1 l.toNat <| below 5 a.toNat <| below 5 d.toNat <| below 6 0 1) rfl ?_ fun hc => ?_
  · show 0x80000001 + d.toNat * 1048576 + a.toNat * 32768 + l.toNat * 16384 + b.toNat * 512 + m.toNat * 256 = _
    simp only [below]
    omega
  · rw [decodeFields32_00 (by simp)]
    simp [decodeMajor00]

theorem and (d : BitVec 5) (a : BitVec 5) (l : Bool) (b : BitVec 5) (m : Bool) : Statement (.and d a l b m) := by
  refine of_long (below 8 2 <| below 1 m.toNat <| below 5 b.toNat <| below 1 l.toNat <| below 5 a.toNat <| below 5 d.toNat <| below 6 0 1) rfl ?_ fun hc => ?_
  · show 0x80000002 + d.toNat * 1048576 + a.toNat * 32768 + l.toNat * 16384 + b.toNat * 512 + m.toNat * 256 = _
    simp only [below]
    omega
  · rw [decodeFields32_00 (by simp)]
    simp [decodeMajor00]

theorem or (d : BitVec 5) (a : BitVec 5) (l : Bool) (b : BitVec 5) (m : Bool) : Statement (.or d a l b m) := by
  refine of_long (below 8 3 <| below 1 m.toNat <| below 5 b.toNat <| below 1 l.toNat <| below 5 a.toNat <| below 5 d.toNat <| below 6 0 1) rfl ?_ fun hc => ?_
  · show 0x80000003 + d.toNat * 1048576 + a.toNat * 32768 + l.toNat * 16384 + b.toNat * 512 + m.toNat * 256 = _
    simp only [below]
    omega
  · rw [decodeFields32_00 (by simp)]
    simp [decodeMajor00]

theorem xor (d : BitVec 5) (a : BitVec 5) (l : Bool) (b : BitVec 5) (m : Bool) : Statement (.xor d a l b m) := by
  refine of_long (below 8 4 <| below 1 m.toNat <| below 5 b.toNat <| below 1 l.toNat <| below 5 a.toNat <| below 5 d.toNat <| below 6 0 1) rfl ?_ fun hc => ?_
  · show 0x80000004 + d.toNat * 1048576 + a.toNat * 32768 + l.toNat * 16384 + b.toNat * 512 + m.toNat * 256 = _
    simp only [below]
    omega
  · rw [decodeFields32_00 (by simp)]
    simp [decodeMajor00]

theorem andn (d : BitVec 5) (a : BitVec 5) (l : Bool) (b : BitVec 5) (m : Bool) : Statement (.andn d a l b m) := by
  refine of_long (below 8 5 <| below 1 m.toNat <| below 5 b.toNat <| below 1 l.toNat <| below 5 a.toNat <| below 5 d.toNat <| below 6 0 1) rfl ?_ fun hc => ?_
  · show 0x80000005 + d.toNat * 1048576 + a.toNat * 32768 + l.toNat * 16384 + b.toNat * 512 + m.toNat * 256 = _
    simp only [below]
    omega
  · rw [decodeFields32_00 (by simp)]
    simp [decodeMajor00]

theorem shl (d : BitVec 5) (a : BitVec 5) (l : Bool) (b : BitVec 5) (m : Bool) : Statement (.shl d a l b m) := by
  refine of_long (below 8 6 <| below 1 m.toNat <| below 5 b.toNat <| below 1 l.toNat <| below 5 a.toNat <| below 5 d.toNat <| below 6 0 1) rfl ?_ fun hc => ?_
  · show 0x80000006 + d.toNat * 1048576 + a.toNat * 32768 + l.toNat * 16384 + b.toNat * 512 + m.toNat * 256 = _
    simp only [below]
    omega
  · rw [decodeFields32_00 (by simp)]
    simp [decodeMajor00]

theorem shr (d : BitVec 5) (a : BitVec 5) (l : Bool) (b : BitVec 5) (m : Bool) : Statement (.shr d a l b m) := by
  refine of_long (below 8 7 <| below 1 m.toNat <| below 5 b.toNat <| below 1 l.toNat <| below 5 a.toNat <| below 5 d.toNat <| below 6 0 1) rfl ?_ fun hc => ?_
  · show 0x80000007 + d.toNat * 1048576 + a.toNat * 32768 + l.toNat * 16384 + b.toNat * 512 + m.toNat * 256 = _
    simp only [below]
    omega
  · rw [decodeFields32_00 (by simp)]
    simp [decodeMajor00]

theorem sar (d : BitVec 5) (a : BitVec 5) (l : Bool) (b : BitVec 5) (m : Bool) : Statement (.sar d a l b m) := by
  refine of_long (below 8 8 <| below 1 m.toNat <| below 5 b.toNat <| below 1 l.toNat <| below 5 a.toNat <| below 5 d.toNat <| below 6 0 1) rfl ?_ fun hc => ?_
  · show 0x80000008 + d.toNat * 1048576 + a.toNat * 32768 + l.toNat * 16384 + b.toNat * 512 + m.toNat * 256 = _
    simp only [below]
    omega
  · rw [decodeFields32_00 (by simp)]
    simp [decodeMajor00]

theorem rot (d : BitVec 5) (a : BitVec 5) (l : Bool) (b : BitVec 5) (m : Bool) : Statement (.rot d a l b m) := by
  refine of_long (below 8 9 <| below 1 m.toNat <| below 5 b.toNat <| below 1 l.toNat <| below 5 a.toNat <| below 5 d.toNat <| below 6 0 1) rfl ?_ fun hc => ?_
  · show 0x80000009 + d.toNat * 1048576 + a.toNat * 32768 + l.toNat * 16384 + b.toNat * 512 + m.toNat * 256 = _
    simp only [below]
    omega
  · rw [decodeFields32_00 (by simp)]
    simp [decodeMajor00]

theorem min (d : BitVec 5) (a : BitVec 5) (l : Bool) (b : BitVec 5) (m : Bool) : Statement (.min d a l b m) := by
  refine of_long (below 8 10 <| below 1 m.toNat <| below 5 b.toNat <| below 1 l.toNat <| below 5 a.toNat <| below 5 d.toNat <| below 6 0 1) rfl ?_ fun hc => ?_
  · show 0x8000000A + d.toNat * 1048576 + a.toNat * 32768 + l.toNat * 16384 + b.toNat * 512 + m.toNat * 256 = _
    simp only [below]
    omega
  · rw [decodeFields32_00 (by simp)]
    simp [decodeMajor00]

theorem max (d : BitVec 5) (a : BitVec 5) (l : Bool) (b : BitVec 5) (m : Bool) : Statement (.max d a l b m) := by
  refine of_long (below 8 11 <| below 1 m.toNat <| below 5 b.toNat <| below 1 l.toNat <| below 5 a.toNat <| below 5 d.toNat <| below 6 0 1) rfl ?_ fun hc => ?_
  · show 0x8000000B + d.toNat * 1048576 + a.toNat * 32768 + l.toNat * 16384 + b.toNat * 512 + m.toNat * 256 = _
    simp only [below]
    omega
  · rw [decodeFields32_00 (by simp)]
    simp [decodeMajor00]

theorem minu (d : BitVec 5) (a : BitVec 5) (l : Bool) (b : BitVec 5) (m : Bool) : Statement (.minu d a l b m) := by
  refine of_long (below 8 12 <| below 1 m.toNat <| below 5 b.toNat <| below 1 l.toNat <| below 5 a.toNat <| below 5 d.toNat <| below 6 0 1) rfl ?_ fun hc => ?_
  · show 0x8000000C + d.toNat * 1048576 + a.toNat * 32768 + l.toNat * 16384 + b.toNat * 512 + m.toNat * 256 = _
    simp only [below]
    omega
  · rw [decodeFields32_00 (by simp)]
    simp [decodeMajor00]

theorem maxu (d : BitVec 5) (a : BitVec 5) (l : Bool) (b : BitVec 5) (m : Bool) : Statement (.maxu d a l b m) := by
  refine of_long (below 8 13 <| below 1 m.toNat <| below 5 b.toNat <| below 1 l.toNat <| below 5 a.toNat <| below 5 d.toNat <| below 6 0 1) rfl ?_ fun hc => ?_
  · show 0x8000000D + d.toNat * 1048576 + a.toNat * 32768 + l.toNat * 16384 + b.toNat * 512 + m.toNat * 256 = _
    simp only [below]
    omega
  · rw [decodeFields32_00 (by simp)]
    simp [decodeMajor00]

theorem slt (d : BitVec 5) (a : BitVec 5) (l : Bool) (b : BitVec 5) (m : Bool) : Statement (.slt d a l b m) := by
  refine of_long (below 8 14 <| below 1 m.toNat <| below 5 b.toNat <| below 1 l.toNat <| below 5 a.toNat <| below 5 d.toNat <| below 6 0 1) rfl ?_ fun hc => ?_
  · show 0x8000000E + d.toNat * 1048576 + a.toNat * 32768 + l.toNat * 16384 + b.toNat * 512 + m.toNat * 256 = _
    simp only [below]
    omega
  · rw [decodeFields32_00 (by simp)]
    simp [decodeMajor00]

theorem sltu (d : BitVec 5) (a : BitVec 5) (l : Bool) (b : BitVec 5) (m : Bool) : Statement (.sltu d a l b m) := by
  refine of_long (below 8 15 <| below 1 m.toNat <| below 5 b.toNat <| below 1 l.toNat <| below 5 a.toNat <| below 5 d.toNat <| below 6 0 1) rfl ?_ fun hc => ?_
  · show 0x8000000F + d.toNat * 1048576 + a.toNat * 32768 + l.toNat * 16384 + b.toNat * 512 + m.toNat * 256 = _
    simp only [below]
    omega
  · rw [decodeFields32_00 (by simp)]
    simp [decodeMajor00]

theorem sel (d : BitVec 5) (a : BitVec 5) (l : Bool) (b : BitVec 5) (m : Bool) : Statement (.sel d a l b m) := by
  refine of_long (below 8 16 <| below 1 m.toNat <| below 5 b.toNat <| below 1 l.toNat <| below 5 a.toNat <| below 5 d.toNat <| below 6 0 1) rfl ?_ fun hc => ?_
  · show 0x80000010 + d.toNat * 1048576 + a.toNat * 32768 + l.toNat * 16384 + b.toNat * 512 + m.toNat * 256 = _
    simp only [below]
    omega
  · rw [decodeFields32_00 (by simp)]
    simp [decodeMajor00]

theorem mov (d : BitVec 5) (a : BitVec 5) (l : Bool) : Statement (.mov d a l) := by
  refine of_long (below 8 17 <| below 6 0 <| below 1 l.toNat <| below 5 a.toNat <| below 5 d.toNat <| below 6 0 1) rfl ?_ fun hc => ?_
  · show 0x80000011 + d.toNat * 1048576 + a.toNat * 32768 + l.toNat * 16384 = _
    simp only [below]
    omega
  · rw [decodeFields32_00 (by simp)]
    simp [decodeMajor00]

theorem clz (d : BitVec 5) (a : BitVec 5) (l : Bool) : Statement (.clz d a l) := by
  refine of_long (below 8 32 <| below 6 0 <| below 1 l.toNat <| below 5 a.toNat <| below 5 d.toNat <| below 6 0 1) rfl ?_ fun hc => ?_
  · show 0x80000020 + d.toNat * 1048576 + a.toNat * 32768 + l.toNat * 16384 = _
    simp only [below]
    omega
  · rw [decodeFields32_00 (by simp)]
    simp [decodeMajor00]

theorem ctz (d : BitVec 5) (a : BitVec 5) (l : Bool) : Statement (.ctz d a l) := by
  refine of_long (below 8 33 <| below 6 0 <| below 1 l.toNat <| below 5 a.toNat <| below 5 d.toNat <| below 6 0 1) rfl ?_ fun hc => ?_
  · show 0x80000021 + d.toNat * 1048576 + a.toNat * 32768 + l.toNat * 16384 = _
    simp only [below]
    omega
  · rw [decodeFields32_00 (by simp)]
    simp [decodeMajor00]

theorem popc (d : BitVec 5) (a : BitVec 5) (l : Bool) : Statement (.popc d a l) := by
  refine of_long (below 8 34 <| below 6 0 <| below 1 l.toNat <| below 5 a.toNat <| below 5 d.toNat <| below 6 0 1) rfl ?_ fun hc => ?_
  · show 0x80000022 + d.toNat * 1048576 + a.toNat * 32768 + l.toNat * 16384 = _
    simp only [below]
    omega
  · rw [decodeFields32_00 (by simp)]
    simp [decodeMajor00]

theorem brev (d : BitVec 5) (a : BitVec 5) (l : Bool) : Statement (.brev d a l) := by
  refine of_long (below 8 35 <| below 6 0 <| below 1 l.toNat <| below 5 a.toNat <| below 5 d.toNat <| below 6 0 1) rfl ?_ fun hc => ?_
  · show 0x80000023 + d.toNat * 1048576 + a.toNat * 32768 + l.toNat * 16384 = _
    simp only [below]
    omega
  · rw [decodeFields32_00 (by simp)]
    simp [decodeMajor00]

theorem bswp (d : BitVec 5) (a : BitVec 5) (l : Bool) : Statement (.bswp d a l) := by
  refine of_long (below 8 36 <| below 6 0 <| below 1 l.toNat <| below 5 a.toNat <| below 5 d.toNat <| below 6 0 1) rfl ?_ fun hc => ?_
  · show 0x80000024 + d.toNat * 1048576 + a.toNat * 32768 + l.toNat * 16384 = _
    simp only [below]
    omega
  · rw [decodeFields32_00 (by simp)]
    simp [decodeMajor00]

theorem addW (d : BitVec 5) (a : BitVec 5) (l : Bool) (b : BitVec 5) (m : Bool) : Statement (.addW d a l b m) := by
  refine of_long (below 8 0 <| below 1 m.toNat <| below 5 b.toNat <| below 1 l.toNat <| below 5 a.toNat <| below 5 d.toNat <| below 6 1 1) rfl ?_ fun hc => ?_
  · show 0x82000000 + d.toNat * 1048576 + a.toNat * 32768 + l.toNat * 16384 + b.toNat * 512 + m.toNat * 256 = _
    simp only [below]
    omega
  · rw [decodeFields32_01 (by simp)]
    simp [decodeMajor01]

theorem subW (d : BitVec 5) (a : BitVec 5) (l : Bool) (b : BitVec 5) (m : Bool) : Statement (.subW d a l b m) := by
  refine of_long (below 8 1 <| below 1 m.toNat <| below 5 b.toNat <| below 1 l.toNat <| below 5 a.toNat <| below 5 d.toNat <| below 6 1 1) rfl ?_ fun hc => ?_
  · show 0x82000001 + d.toNat * 1048576 + a.toNat * 32768 + l.toNat * 16384 + b.toNat * 512 + m.toNat * 256 = _
    simp only [below]
    omega
  · rw [decodeFields32_01 (by simp)]
    simp [decodeMajor01]

theorem andW (d : BitVec 5) (a : BitVec 5) (l : Bool) (b : BitVec 5) (m : Bool) : Statement (.andW d a l b m) := by
  refine of_long (below 8 2 <| below 1 m.toNat <| below 5 b.toNat <| below 1 l.toNat <| below 5 a.toNat <| below 5 d.toNat <| below 6 1 1) rfl ?_ fun hc => ?_
  · show 0x82000002 + d.toNat * 1048576 + a.toNat * 32768 + l.toNat * 16384 + b.toNat * 512 + m.toNat * 256 = _
    simp only [below]
    omega
  · rw [decodeFields32_01 (by simp)]
    simp [decodeMajor01]

theorem orW (d : BitVec 5) (a : BitVec 5) (l : Bool) (b : BitVec 5) (m : Bool) : Statement (.orW d a l b m) := by
  refine of_long (below 8 3 <| below 1 m.toNat <| below 5 b.toNat <| below 1 l.toNat <| below 5 a.toNat <| below 5 d.toNat <| below 6 1 1) rfl ?_ fun hc => ?_
  · show 0x82000003 + d.toNat * 1048576 + a.toNat * 32768 + l.toNat * 16384 + b.toNat * 512 + m.toNat * 256 = _
    simp only [below]
    omega
  · rw [decodeFields32_01 (by simp)]
    simp [decodeMajor01]

theorem xorW (d : BitVec 5) (a : BitVec 5) (l : Bool) (b : BitVec 5) (m : Bool) : Statement (.xorW d a l b m) := by
  refine of_long (below 8 4 <| below 1 m.toNat <| below 5 b.toNat <| below 1 l.toNat <| below 5 a.toNat <| below 5 d.toNat <| below 6 1 1) rfl ?_ fun hc => ?_
  · show 0x82000004 + d.toNat * 1048576 + a.toNat * 32768 + l.toNat * 16384 + b.toNat * 512 + m.toNat * 256 = _
    simp only [below]
    omega
  · rw [decodeFields32_01 (by simp)]
    simp [decodeMajor01]

theorem andnW (d : BitVec 5) (a : BitVec 5) (l : Bool) (b : BitVec 5) (m : Bool) : Statement (.andnW d a l b m) := by
  refine of_long (below 8 5 <| below 1 m.toNat <| below 5 b.toNat <| below 1 l.toNat <| below 5 a.toNat <| below 5 d.toNat <| below 6 1 1) rfl ?_ fun hc => ?_
  · show 0x82000005 + d.toNat * 1048576 + a.toNat * 32768 + l.toNat * 16384 + b.toNat * 512 + m.toNat * 256 = _
    simp only [below]
    omega
  · rw [decodeFields32_01 (by simp)]
    simp [decodeMajor01]

theorem shlW (d : BitVec 5) (a : BitVec 5) (l : Bool) (b : BitVec 5) (m : Bool) : Statement (.shlW d a l b m) := by
  refine of_long (below 8 6 <| below 1 m.toNat <| below 5 b.toNat <| below 1 l.toNat <| below 5 a.toNat <| below 5 d.toNat <| below 6 1 1) rfl ?_ fun hc => ?_
  · show 0x82000006 + d.toNat * 1048576 + a.toNat * 32768 + l.toNat * 16384 + b.toNat * 512 + m.toNat * 256 = _
    simp only [below]
    omega
  · rw [decodeFields32_01 (by simp)]
    simp [decodeMajor01]

theorem shrW (d : BitVec 5) (a : BitVec 5) (l : Bool) (b : BitVec 5) (m : Bool) : Statement (.shrW d a l b m) := by
  refine of_long (below 8 7 <| below 1 m.toNat <| below 5 b.toNat <| below 1 l.toNat <| below 5 a.toNat <| below 5 d.toNat <| below 6 1 1) rfl ?_ fun hc => ?_
  · show 0x82000007 + d.toNat * 1048576 + a.toNat * 32768 + l.toNat * 16384 + b.toNat * 512 + m.toNat * 256 = _
    simp only [below]
    omega
  · rw [decodeFields32_01 (by simp)]
    simp [decodeMajor01]

theorem sarW (d : BitVec 5) (a : BitVec 5) (l : Bool) (b : BitVec 5) (m : Bool) : Statement (.sarW d a l b m) := by
  refine of_long (below 8 8 <| below 1 m.toNat <| below 5 b.toNat <| below 1 l.toNat <| below 5 a.toNat <| below 5 d.toNat <| below 6 1 1) rfl ?_ fun hc => ?_
  · show 0x82000008 + d.toNat * 1048576 + a.toNat * 32768 + l.toNat * 16384 + b.toNat * 512 + m.toNat * 256 = _
    simp only [below]
    omega
  · rw [decodeFields32_01 (by simp)]
    simp [decodeMajor01]

theorem rotW (d : BitVec 5) (a : BitVec 5) (l : Bool) (b : BitVec 5) (m : Bool) : Statement (.rotW d a l b m) := by
  refine of_long (below 8 9 <| below 1 m.toNat <| below 5 b.toNat <| below 1 l.toNat <| below 5 a.toNat <| below 5 d.toNat <| below 6 1 1) rfl ?_ fun hc => ?_
  · show 0x82000009 + d.toNat * 1048576 + a.toNat * 32768 + l.toNat * 16384 + b.toNat * 512 + m.toNat * 256 = _
    simp only [below]
    omega
  · rw [decodeFields32_01 (by simp)]
    simp [decodeMajor01]

theorem minW (d : BitVec 5) (a : BitVec 5) (l : Bool) (b : BitVec 5) (m : Bool) : Statement (.minW d a l b m) := by
  refine of_long (below 8 10 <| below 1 m.toNat <| below 5 b.toNat <| below 1 l.toNat <| below 5 a.toNat <| below 5 d.toNat <| below 6 1 1) rfl ?_ fun hc => ?_
  · show 0x8200000A + d.toNat * 1048576 + a.toNat * 32768 + l.toNat * 16384 + b.toNat * 512 + m.toNat * 256 = _
    simp only [below]
    omega
  · rw [decodeFields32_01 (by simp)]
    simp [decodeMajor01]

theorem maxW (d : BitVec 5) (a : BitVec 5) (l : Bool) (b : BitVec 5) (m : Bool) : Statement (.maxW d a l b m) := by
  refine of_long (below 8 11 <| below 1 m.toNat <| below 5 b.toNat <| below 1 l.toNat <| below 5 a.toNat <| below 5 d.toNat <| below 6 1 1) rfl ?_ fun hc => ?_
  · show 0x8200000B + d.toNat * 1048576 + a.toNat * 32768 + l.toNat * 16384 + b.toNat * 512 + m.toNat * 256 = _
    simp only [below]
    omega
  · rw [decodeFields32_01 (by simp)]
    simp [decodeMajor01]

theorem minuW (d : BitVec 5) (a : BitVec 5) (l : Bool) (b : BitVec 5) (m : Bool) : Statement (.minuW d a l b m) := by
  refine of_long (below 8 12 <| below 1 m.toNat <| below 5 b.toNat <| below 1 l.toNat <| below 5 a.toNat <| below 5 d.toNat <| below 6 1 1) rfl ?_ fun hc => ?_
  · show 0x8200000C + d.toNat * 1048576 + a.toNat * 32768 + l.toNat * 16384 + b.toNat * 512 + m.toNat * 256 = _
    simp only [below]
    omega
  · rw [decodeFields32_01 (by simp)]
    simp [decodeMajor01]

theorem maxuW (d : BitVec 5) (a : BitVec 5) (l : Bool) (b : BitVec 5) (m : Bool) : Statement (.maxuW d a l b m) := by
  refine of_long (below 8 13 <| below 1 m.toNat <| below 5 b.toNat <| below 1 l.toNat <| below 5 a.toNat <| below 5 d.toNat <| below 6 1 1) rfl ?_ fun hc => ?_
  · show 0x8200000D + d.toNat * 1048576 + a.toNat * 32768 + l.toNat * 16384 + b.toNat * 512 + m.toNat * 256 = _
    simp only [below]
    omega
  · rw [decodeFields32_01 (by simp)]
    simp [decodeMajor01]

theorem sltW (d : BitVec 5) (a : BitVec 5) (l : Bool) (b : BitVec 5) (m : Bool) : Statement (.sltW d a l b m) := by
  refine of_long (below 8 14 <| below 1 m.toNat <| below 5 b.toNat <| below 1 l.toNat <| below 5 a.toNat <| below 5 d.toNat <| below 6 1 1) rfl ?_ fun hc => ?_
  · show 0x8200000E + d.toNat * 1048576 + a.toNat * 32768 + l.toNat * 16384 + b.toNat * 512 + m.toNat * 256 = _
    simp only [below]
    omega
  · rw [decodeFields32_01 (by simp)]
    simp [decodeMajor01]

theorem sltuW (d : BitVec 5) (a : BitVec 5) (l : Bool) (b : BitVec 5) (m : Bool) : Statement (.sltuW d a l b m) := by
  refine of_long (below 8 15 <| below 1 m.toNat <| below 5 b.toNat <| below 1 l.toNat <| below 5 a.toNat <| below 5 d.toNat <| below 6 1 1) rfl ?_ fun hc => ?_
  · show 0x8200000F + d.toNat * 1048576 + a.toNat * 32768 + l.toNat * 16384 + b.toNat * 512 + m.toNat * 256 = _
    simp only [below]
    omega
  · rw [decodeFields32_01 (by simp)]
    simp [decodeMajor01]

theorem clzW (d : BitVec 5) (a : BitVec 5) (l : Bool) : Statement (.clzW d a l) := by
  refine of_long (below 8 32 <| below 6 0 <| below 1 l.toNat <| below 5 a.toNat <| below 5 d.toNat <| below 6 1 1) rfl ?_ fun hc => ?_
  · show 0x82000020 + d.toNat * 1048576 + a.toNat * 32768 + l.toNat * 16384 = _
    simp only [below]
    omega
  · rw [decodeFields32_01 (by simp)]
    simp [decodeMajor01]

theorem ctzW (d : BitVec 5) (a : BitVec 5) (l : Bool) : Statement (.ctzW d a l) := by
  refine of_long (below 8 33 <| below 6 0 <| below 1 l.toNat <| below 5 a.toNat <| below 5 d.toNat <| below 6 1 1) rfl ?_ fun hc => ?_
  · show 0x82000021 + d.toNat * 1048576 + a.toNat * 32768 + l.toNat * 16384 = _
    simp only [below]
    omega
  · rw [decodeFields32_01 (by simp)]
    simp [decodeMajor01]

theorem popcW (d : BitVec 5) (a : BitVec 5) (l : Bool) : Statement (.popcW d a l) := by
  refine of_long (below 8 34 <| below 6 0 <| below 1 l.toNat <| below 5 a.toNat <| below 5 d.toNat <| below 6 1 1) rfl ?_ fun hc => ?_
  · show 0x82000022 + d.toNat * 1048576 + a.toNat * 32768 + l.toNat * 16384 = _
    simp only [below]
    omega
  · rw [decodeFields32_01 (by simp)]
    simp [decodeMajor01]

theorem addImm (d : BitVec 5) (a : BitVec 5) (l : Bool) (i : BitVec 10) : Statement (.addImm d a l i) := by
  refine of_long (below 10 i.toNat <| below 4 0 <| below 1 l.toNat <| below 5 a.toNat <| below 5 d.toNat <| below 6 2 1) rfl ?_ fun hc => ?_
  · show 0x84000000 + d.toNat * 1048576 + a.toNat * 32768 + l.toNat * 16384 + i.toNat = _
    simp only [below]
    omega
  · rw [decodeFields32_02 (by simp)]
    simp [decodeMajor02]

theorem andImm (d : BitVec 5) (a : BitVec 5) (l : Bool) (i : BitVec 10) : Statement (.andImm d a l i) := by
  refine of_long (below 10 i.toNat <| below 4 1 <| below 1 l.toNat <| below 5 a.toNat <| below 5 d.toNat <| below 6 2 1) rfl ?_ fun hc => ?_
  · show 0x84000400 + d.toNat * 1048576 + a.toNat * 32768 + l.toNat * 16384 + i.toNat = _
    simp only [below]
    omega
  · rw [decodeFields32_02 (by simp)]
    simp [decodeMajor02]

theorem orImm (d : BitVec 5) (a : BitVec 5) (l : Bool) (i : BitVec 10) : Statement (.orImm d a l i) := by
  refine of_long (below 10 i.toNat <| below 4 2 <| below 1 l.toNat <| below 5 a.toNat <| below 5 d.toNat <| below 6 2 1) rfl ?_ fun hc => ?_
  · show 0x84000800 + d.toNat * 1048576 + a.toNat * 32768 + l.toNat * 16384 + i.toNat = _
    simp only [below]
    omega
  · rw [decodeFields32_02 (by simp)]
    simp [decodeMajor02]

theorem xorImm (d : BitVec 5) (a : BitVec 5) (l : Bool) (i : BitVec 10) : Statement (.xorImm d a l i) := by
  refine of_long (below 10 i.toNat <| below 4 3 <| below 1 l.toNat <| below 5 a.toNat <| below 5 d.toNat <| below 6 2 1) rfl ?_ fun hc => ?_
  · show 0x84000C00 + d.toNat * 1048576 + a.toNat * 32768 + l.toNat * 16384 + i.toNat = _
    simp only [below]
    omega
  · rw [decodeFields32_02 (by simp)]
    simp [decodeMajor02]

theorem shlImm (d : BitVec 5) (a : BitVec 5) (l : Bool) (c : BitVec 6) : Statement (.shlImm d a l c) := by
  refine of_long (below 6 c.toNat <| below 4 0 <| below 4 4 <| below 1 l.toNat <| below 5 a.toNat <| below 5 d.toNat <| below 6 2 1) rfl ?_ fun hc => ?_
  · show 0x84001000 + d.toNat * 1048576 + a.toNat * 32768 + l.toNat * 16384 + c.toNat = _
    simp only [below]
    omega
  · rw [decodeFields32_02 (by simp)]
    simp [decodeMajor02]

theorem shrImm (d : BitVec 5) (a : BitVec 5) (l : Bool) (c : BitVec 6) : Statement (.shrImm d a l c) := by
  refine of_long (below 6 c.toNat <| below 4 0 <| below 4 5 <| below 1 l.toNat <| below 5 a.toNat <| below 5 d.toNat <| below 6 2 1) rfl ?_ fun hc => ?_
  · show 0x84001400 + d.toNat * 1048576 + a.toNat * 32768 + l.toNat * 16384 + c.toNat = _
    simp only [below]
    omega
  · rw [decodeFields32_02 (by simp)]
    simp [decodeMajor02]

theorem sarImm (d : BitVec 5) (a : BitVec 5) (l : Bool) (c : BitVec 6) : Statement (.sarImm d a l c) := by
  refine of_long (below 6 c.toNat <| below 4 0 <| below 4 6 <| below 1 l.toNat <| below 5 a.toNat <| below 5 d.toNat <| below 6 2 1) rfl ?_ fun hc => ?_
  · show 0x84001800 + d.toNat * 1048576 + a.toNat * 32768 + l.toNat * 16384 + c.toNat = _
    simp only [below]
    omega
  · rw [decodeFields32_02 (by simp)]
    simp [decodeMajor02]

theorem rotImm (d : BitVec 5) (a : BitVec 5) (l : Bool) (c : BitVec 6) : Statement (.rotImm d a l c) := by
  refine of_long (below 6 c.toNat <| below 4 0 <| below 4 7 <| below 1 l.toNat <| below 5 a.toNat <| below 5 d.toNat <| below 6 2 1) rfl ?_ fun hc => ?_
  · show 0x84001C00 + d.toNat * 1048576 + a.toNat * 32768 + l.toNat * 16384 + c.toNat = _
    simp only [below]
    omega
  · rw [decodeFields32_02 (by simp)]
    simp [decodeMajor02]

theorem sltImm (d : BitVec 5) (a : BitVec 5) (l : Bool) (i : BitVec 10) : Statement (.sltImm d a l i) := by
  refine of_long (below 10 i.toNat <| below 4 8 <| below 1 l.toNat <| below 5 a.toNat <| below 5 d.toNat <| below 6 2 1) rfl ?_ fun hc => ?_
  · show 0x84002000 + d.toNat * 1048576 + a.toNat * 32768 + l.toNat * 16384 + i.toNat = _
    simp only [below]
    omega
  · rw [decodeFields32_02 (by simp)]
    simp [decodeMajor02]

theorem sltuImm (d : BitVec 5) (a : BitVec 5) (l : Bool) (i : BitVec 10) : Statement (.sltuImm d a l i) := by
  refine of_long (below 10 i.toNat <| below 4 9 <| below 1 l.toNat <| below 5 a.toNat <| below 5 d.toNat <| below 6 2 1) rfl ?_ fun hc => ?_
  · show 0x84002400 + d.toNat * 1048576 + a.toNat * 32768 + l.toNat * 16384 + i.toNat = _
    simp only [below]
    omega
  · rw [decodeFields32_02 (by simp)]
    simp [decodeMajor02]

theorem minImm (d : BitVec 5) (a : BitVec 5) (l : Bool) (i : BitVec 10) : Statement (.minImm d a l i) := by
  refine of_long (below 10 i.toNat <| below 4 10 <| below 1 l.toNat <| below 5 a.toNat <| below 5 d.toNat <| below 6 2 1) rfl ?_ fun hc => ?_
  · show 0x84002800 + d.toNat * 1048576 + a.toNat * 32768 + l.toNat * 16384 + i.toNat = _
    simp only [below]
    omega
  · rw [decodeFields32_02 (by simp)]
    simp [decodeMajor02]

theorem maxImm (d : BitVec 5) (a : BitVec 5) (l : Bool) (i : BitVec 10) : Statement (.maxImm d a l i) := by
  refine of_long (below 10 i.toNat <| below 4 11 <| below 1 l.toNat <| below 5 a.toNat <| below 5 d.toNat <| below 6 2 1) rfl ?_ fun hc => ?_
  · show 0x84002C00 + d.toNat * 1048576 + a.toNat * 32768 + l.toNat * 16384 + i.toNat = _
    simp only [below]
    omega
  · rw [decodeFields32_02 (by simp)]
    simp [decodeMajor02]

theorem addWImm (d : BitVec 5) (a : BitVec 5) (l : Bool) (i : BitVec 10) : Statement (.addWImm d a l i) := by
  refine of_long (below 10 i.toNat <| below 4 12 <| below 1 l.toNat <| below 5 a.toNat <| below 5 d.toNat <| below 6 2 1) rfl ?_ fun hc => ?_
  · show 0x84003000 + d.toNat * 1048576 + a.toNat * 32768 + l.toNat * 16384 + i.toNat = _
    simp only [below]
    omega
  · rw [decodeFields32_02 (by simp)]
    simp [decodeMajor02]

theorem li (d : BitVec 5) (i : BitVec 19) : Statement (.li d i) := by
  refine of_long (below 19 i.toNat <| below 1 0 <| below 5 d.toNat <| below 6 3 1) rfl ?_ fun hc => ?_
  · show 0x86000000 + d.toNat * 1048576 + i.toNat = _
    simp only [below]
    omega
  · rw [decodeFields32_03 (by simp)]
    simp [decodeMajor03]

theorem lih (d : BitVec 5) (h : BitVec 2) (i : BitVec 16) : Statement (.lih d h i) := by
  refine of_long (below 1 0 <| below 16 i.toNat <| below 2 h.toNat <| below 1 1 <| below 5 d.toNat <| below 6 3 1) rfl ?_ fun hc => ?_
  · show 0x86080000 + d.toNat * 1048576 + h.toNat * 131072 + i.toNat * 2 = _
    simp only [below]
    omega
  · rw [decodeFields32_03 (by simp)]
    simp [decodeMajor03]

theorem bfx (d : BitVec 5) (a : BitVec 5) (l : Bool) (o : BitVec 6) (w : BitVec 7) : Statement (.bfx d a l o w) := by
  refine of_long (below 7 w.toNat <| below 6 o.toNat <| below 1 0 <| below 1 l.toNat <| below 5 a.toNat <| below 5 d.toNat <| below 6 4 1) rfl ?_ fun hc => ?_
  · show 0x88000000 + d.toNat * 1048576 + a.toNat * 32768 + l.toNat * 16384 + o.toNat * 128 + w.toNat = _
    simp only [below]
    omega
  · rw [decodeFields32_04 (by simp)]
    have hwidth : w.toNat ≤ 64 := Nat.not_lt.1 (of_decide_eq_false (none_of_check (none_of_check hc).2).1)
    simp [decodeMajor04, hwidth]

theorem bfxs (d : BitVec 5) (a : BitVec 5) (l : Bool) (o : BitVec 6) (w : BitVec 7) : Statement (.bfxs d a l o w) := by
  refine of_long (below 7 w.toNat <| below 6 o.toNat <| below 1 0 <| below 1 l.toNat <| below 5 a.toNat <| below 5 d.toNat <| below 6 4 1) rfl ?_ fun hc => ?_
  · show 0x88000000 + d.toNat * 1048576 + a.toNat * 32768 + l.toNat * 16384 + o.toNat * 128 + w.toNat = _
    simp only [below]
    omega
  · rw [decodeFields32_04 (by simp)]
    have hwidth : 64 < w.toNat := Nat.not_lt.1 (of_decide_eq_false (none_of_check (none_of_check hc).2).1)
    simp [decodeMajor04, Nat.not_le.2 hwidth]

theorem bfxs64 (d : BitVec 5) (a : BitVec 5) (l : Bool) (o : BitVec 6) : Statement (.bfxs64 d a l o) := by
  refine of_long (below 7 124 <| below 6 o.toNat <| below 1 1 <| below 1 l.toNat <| below 5 a.toNat <| below 5 d.toNat <| below 6 4 1) rfl ?_ fun hc => ?_
  · show 0x8800207C + d.toNat * 1048576 + a.toNat * 32768 + l.toNat * 16384 + o.toNat * 128 = _
    simp only [below]
    omega
  · rw [decodeFields32_04 (by simp)]
    simp [decodeMajor04]

theorem bfi (d : BitVec 5) (a : BitVec 5) (l : Bool) (o : BitVec 6) (w : BitVec 7) : Statement (.bfi d a l o w) := by
  refine of_long (below 7 w.toNat <| below 6 o.toNat <| below 1 1 <| below 1 l.toNat <| below 5 a.toNat <| below 5 d.toNat <| below 6 4 1) rfl ?_ fun hc => ?_
  · show 0x88002000 + d.toNat * 1048576 + a.toNat * 32768 + l.toNat * 16384 + o.toNat * 128 + w.toNat = _
    simp only [below]
    omega
  · rw [decodeFields32_04 (by simp)]
    have hwidth : w.toNat ≤ 64 := Nat.not_lt.1 (of_decide_eq_false (none_of_check (none_of_check hc).2).1)
    simp [decodeMajor04, hwidth]

theorem bfxReg (d : BitVec 5) (a : BitVec 5) (l : Bool) (b : BitVec 5) (m : Bool) : Statement (.bfxReg d a l b m) := by
  refine of_long (below 7 125 <| below 1 m.toNat <| below 5 b.toNat <| below 1 1 <| below 1 l.toNat <| below 5 a.toNat <| below 5 d.toNat <| below 6 4 1) rfl ?_ fun hc => ?_
  · show 0x8800207D + d.toNat * 1048576 + a.toNat * 32768 + l.toNat * 16384 + b.toNat * 256 + m.toNat * 128 = _
    simp only [below]
    omega
  · rw [decodeFields32_04 (by simp)]
    simp [decodeMajor04]

theorem bfxsReg (d : BitVec 5) (a : BitVec 5) (l : Bool) (b : BitVec 5) (m : Bool) : Statement (.bfxsReg d a l b m) := by
  refine of_long (below 7 126 <| below 1 m.toNat <| below 5 b.toNat <| below 1 1 <| below 1 l.toNat <| below 5 a.toNat <| below 5 d.toNat <| below 6 4 1) rfl ?_ fun hc => ?_
  · show 0x8800207E + d.toNat * 1048576 + a.toNat * 32768 + l.toNat * 16384 + b.toNat * 256 + m.toNat * 128 = _
    simp only [below]
    omega
  · rw [decodeFields32_04 (by simp)]
    simp [decodeMajor04]

theorem bfiReg (d : BitVec 5) (a : BitVec 5) (l : Bool) (b : BitVec 5) (m : Bool) : Statement (.bfiReg d a l b m) := by
  refine of_long (below 7 127 <| below 1 m.toNat <| below 5 b.toNat <| below 1 1 <| below 1 l.toNat <| below 5 a.toNat <| below 5 d.toNat <| below 6 4 1) rfl ?_ fun hc => ?_
  · show 0x8800207F + d.toNat * 1048576 + a.toNat * 32768 + l.toNat * 16384 + b.toNat * 256 + m.toNat * 128 = _
    simp only [below]
    omega
  · rw [decodeFields32_04 (by simp)]
    simp [decodeMajor04]

theorem mul (d : BitVec 5) (a : BitVec 5) (l : Bool) (b : BitVec 5) (m : Bool) : Statement (.mul d a l b m) := by
  refine of_long (below 8 0 <| below 1 m.toNat <| below 5 b.toNat <| below 1 l.toNat <| below 5 a.toNat <| below 5 d.toNat <| below 6 5 1) rfl ?_ fun hc => ?_
  · show 0x8A000000 + d.toNat * 1048576 + a.toNat * 32768 + l.toNat * 16384 + b.toNat * 512 + m.toNat * 256 = _
    simp only [below]
    omega
  · rw [decodeFields32_05 (by simp)]
    simp [decodeMajor05]

theorem mulh (d : BitVec 5) (a : BitVec 5) (l : Bool) (b : BitVec 5) (m : Bool) : Statement (.mulh d a l b m) := by
  refine of_long (below 8 1 <| below 1 m.toNat <| below 5 b.toNat <| below 1 l.toNat <| below 5 a.toNat <| below 5 d.toNat <| below 6 5 1) rfl ?_ fun hc => ?_
  · show 0x8A000001 + d.toNat * 1048576 + a.toNat * 32768 + l.toNat * 16384 + b.toNat * 512 + m.toNat * 256 = _
    simp only [below]
    omega
  · rw [decodeFields32_05 (by simp)]
    simp [decodeMajor05]

theorem mulhu (d : BitVec 5) (a : BitVec 5) (l : Bool) (b : BitVec 5) (m : Bool) : Statement (.mulhu d a l b m) := by
  refine of_long (below 8 2 <| below 1 m.toNat <| below 5 b.toNat <| below 1 l.toNat <| below 5 a.toNat <| below 5 d.toNat <| below 6 5 1) rfl ?_ fun hc => ?_
  · show 0x8A000002 + d.toNat * 1048576 + a.toNat * 32768 + l.toNat * 16384 + b.toNat * 512 + m.toNat * 256 = _
    simp only [below]
    omega
  · rw [decodeFields32_05 (by simp)]
    simp [decodeMajor05]

theorem div (d : BitVec 5) (a : BitVec 5) (l : Bool) (b : BitVec 5) (m : Bool) : Statement (.div d a l b m) := by
  refine of_long (below 8 3 <| below 1 m.toNat <| below 5 b.toNat <| below 1 l.toNat <| below 5 a.toNat <| below 5 d.toNat <| below 6 5 1) rfl ?_ fun hc => ?_
  · show 0x8A000003 + d.toNat * 1048576 + a.toNat * 32768 + l.toNat * 16384 + b.toNat * 512 + m.toNat * 256 = _
    simp only [below]
    omega
  · rw [decodeFields32_05 (by simp)]
    simp [decodeMajor05]

theorem divu (d : BitVec 5) (a : BitVec 5) (l : Bool) (b : BitVec 5) (m : Bool) : Statement (.divu d a l b m) := by
  refine of_long (below 8 4 <| below 1 m.toNat <| below 5 b.toNat <| below 1 l.toNat <| below 5 a.toNat <| below 5 d.toNat <| below 6 5 1) rfl ?_ fun hc => ?_
  · show 0x8A000004 + d.toNat * 1048576 + a.toNat * 32768 + l.toNat * 16384 + b.toNat * 512 + m.toNat * 256 = _
    simp only [below]
    omega
  · rw [decodeFields32_05 (by simp)]
    simp [decodeMajor05]

theorem rem (d : BitVec 5) (a : BitVec 5) (l : Bool) (b : BitVec 5) (m : Bool) : Statement (.rem d a l b m) := by
  refine of_long (below 8 5 <| below 1 m.toNat <| below 5 b.toNat <| below 1 l.toNat <| below 5 a.toNat <| below 5 d.toNat <| below 6 5 1) rfl ?_ fun hc => ?_
  · show 0x8A000005 + d.toNat * 1048576 + a.toNat * 32768 + l.toNat * 16384 + b.toNat * 512 + m.toNat * 256 = _
    simp only [below]
    omega
  · rw [decodeFields32_05 (by simp)]
    simp [decodeMajor05]

theorem remu (d : BitVec 5) (a : BitVec 5) (l : Bool) (b : BitVec 5) (m : Bool) : Statement (.remu d a l b m) := by
  refine of_long (below 8 6 <| below 1 m.toNat <| below 5 b.toNat <| below 1 l.toNat <| below 5 a.toNat <| below 5 d.toNat <| below 6 5 1) rfl ?_ fun hc => ?_
  · show 0x8A000006 + d.toNat * 1048576 + a.toNat * 32768 + l.toNat * 16384 + b.toNat * 512 + m.toNat * 256 = _
    simp only [below]
    omega
  · rw [decodeFields32_05 (by simp)]
    simp [decodeMajor05]

theorem mulW (d : BitVec 5) (a : BitVec 5) (l : Bool) (b : BitVec 5) (m : Bool) : Statement (.mulW d a l b m) := by
  refine of_long (below 8 16 <| below 1 m.toNat <| below 5 b.toNat <| below 1 l.toNat <| below 5 a.toNat <| below 5 d.toNat <| below 6 5 1) rfl ?_ fun hc => ?_
  · show 0x8A000010 + d.toNat * 1048576 + a.toNat * 32768 + l.toNat * 16384 + b.toNat * 512 + m.toNat * 256 = _
    simp only [below]
    omega
  · rw [decodeFields32_05 (by simp)]
    simp [decodeMajor05]

theorem mulhW (d : BitVec 5) (a : BitVec 5) (l : Bool) (b : BitVec 5) (m : Bool) : Statement (.mulhW d a l b m) := by
  refine of_long (below 8 17 <| below 1 m.toNat <| below 5 b.toNat <| below 1 l.toNat <| below 5 a.toNat <| below 5 d.toNat <| below 6 5 1) rfl ?_ fun hc => ?_
  · show 0x8A000011 + d.toNat * 1048576 + a.toNat * 32768 + l.toNat * 16384 + b.toNat * 512 + m.toNat * 256 = _
    simp only [below]
    omega
  · rw [decodeFields32_05 (by simp)]
    simp [decodeMajor05]

theorem mulhuW (d : BitVec 5) (a : BitVec 5) (l : Bool) (b : BitVec 5) (m : Bool) : Statement (.mulhuW d a l b m) := by
  refine of_long (below 8 18 <| below 1 m.toNat <| below 5 b.toNat <| below 1 l.toNat <| below 5 a.toNat <| below 5 d.toNat <| below 6 5 1) rfl ?_ fun hc => ?_
  · show 0x8A000012 + d.toNat * 1048576 + a.toNat * 32768 + l.toNat * 16384 + b.toNat * 512 + m.toNat * 256 = _
    simp only [below]
    omega
  · rw [decodeFields32_05 (by simp)]
    simp [decodeMajor05]

theorem divW (d : BitVec 5) (a : BitVec 5) (l : Bool) (b : BitVec 5) (m : Bool) : Statement (.divW d a l b m) := by
  refine of_long (below 8 19 <| below 1 m.toNat <| below 5 b.toNat <| below 1 l.toNat <| below 5 a.toNat <| below 5 d.toNat <| below 6 5 1) rfl ?_ fun hc => ?_
  · show 0x8A000013 + d.toNat * 1048576 + a.toNat * 32768 + l.toNat * 16384 + b.toNat * 512 + m.toNat * 256 = _
    simp only [below]
    omega
  · rw [decodeFields32_05 (by simp)]
    simp [decodeMajor05]

theorem divuW (d : BitVec 5) (a : BitVec 5) (l : Bool) (b : BitVec 5) (m : Bool) : Statement (.divuW d a l b m) := by
  refine of_long (below 8 20 <| below 1 m.toNat <| below 5 b.toNat <| below 1 l.toNat <| below 5 a.toNat <| below 5 d.toNat <| below 6 5 1) rfl ?_ fun hc => ?_
  · show 0x8A000014 + d.toNat * 1048576 + a.toNat * 32768 + l.toNat * 16384 + b.toNat * 512 + m.toNat * 256 = _
    simp only [below]
    omega
  · rw [decodeFields32_05 (by simp)]
    simp [decodeMajor05]

theorem remW (d : BitVec 5) (a : BitVec 5) (l : Bool) (b : BitVec 5) (m : Bool) : Statement (.remW d a l b m) := by
  refine of_long (below 8 21 <| below 1 m.toNat <| below 5 b.toNat <| below 1 l.toNat <| below 5 a.toNat <| below 5 d.toNat <| below 6 5 1) rfl ?_ fun hc => ?_
  · show 0x8A000015 + d.toNat * 1048576 + a.toNat * 32768 + l.toNat * 16384 + b.toNat * 512 + m.toNat * 256 = _
    simp only [below]
    omega
  · rw [decodeFields32_05 (by simp)]
    simp [decodeMajor05]

theorem remuW (d : BitVec 5) (a : BitVec 5) (l : Bool) (b : BitVec 5) (m : Bool) : Statement (.remuW d a l b m) := by
  refine of_long (below 8 22 <| below 1 m.toNat <| below 5 b.toNat <| below 1 l.toNat <| below 5 a.toNat <| below 5 d.toNat <| below 6 5 1) rfl ?_ fun hc => ?_
  · show 0x8A000016 + d.toNat * 1048576 + a.toNat * 32768 + l.toNat * 16384 + b.toNat * 512 + m.toNat * 256 = _
    simp only [below]
    omega
  · rw [decodeFields32_05 (by simp)]
    simp [decodeMajor05]

theorem cAdd (d : BitVec 5) (b : BitVec 5) (l : Bool) : Statement (.cAdd d b l) := by
  refine of_compact (below 1 l.toNat <| below 5 b.toNat <| below 5 d.toNat <| below 4 1 0) rfl ?_ fun hc => ?_
  · show 0x0800 + d.toNat * 64 + b.toNat * 2 + l.toNat = _
    simp only [below]
    omega
  · rw [decodeFields16_01 (by simp)]
    simp [decodeCompact01]

theorem cAddi (d : BitVec 5) (i : BitVec 6) : Statement (.cAddi d i) := by
  refine of_compact (below 6 i.toNat <| below 5 d.toNat <| below 4 2 0) rfl ?_ fun hc => ?_
  · show 0x1000 + d.toNat * 64 + i.toNat = _
    simp only [below]
    omega
  · rw [decodeFields16_02 (by simp)]
    simp [decodeCompact02]

theorem cMov (d : BitVec 5) (b : BitVec 5) (l : Bool) : Statement (.cMov d b l) := by
  refine of_compact (below 1 l.toNat <| below 5 b.toNat <| below 5 d.toNat <| below 4 3 0) rfl ?_ fun hc => ?_
  · show 0x1800 + d.toNat * 64 + b.toNat * 2 + l.toNat = _
    simp only [below]
    omega
  · rw [decodeFields16_03 (by simp)]
    simp [decodeCompact03]

theorem cLi (d : BitVec 5) (i : BitVec 6) : Statement (.cLi d i) := by
  refine of_compact (below 6 i.toNat <| below 5 d.toNat <| below 4 4 0) rfl ?_ fun hc => ?_
  · show 0x2000 + d.toNat * 64 + i.toNat = _
    simp only [below]
    omega
  · rw [decodeFields16_04 (by simp)]
    simp [decodeCompact04]

theorem cLd (d : BitVec 3) (a : BitVec 3) (l : Bool) (i : BitVec 4) : Statement (.cLd d a l i) := by
  refine of_compact (below 4 i.toNat <| below 1 l.toNat <| below 3 a.toNat <| below 3 d.toNat <| below 4 5 0) rfl ?_ fun hc => ?_
  · show 0x2800 + d.toNat * 256 + a.toNat * 32 + l.toNat * 16 + i.toNat = _
    simp only [below]
    omega
  · rw [decodeFields16_05 (by simp)]
    simp [decodeCompact05]

theorem cSt (b : BitVec 3) (m : Bool) (a : BitVec 3) (l : Bool) (i : BitVec 3) : Statement (.cSt b m a l i) := by
  refine of_compact (below 3 i.toNat <| below 1 l.toNat <| below 3 a.toNat <| below 1 m.toNat <| below 3 b.toNat <| below 4 6 0) rfl ?_ fun hc => ?_
  · show 0x3000 + b.toNat * 256 + m.toNat * 128 + a.toNat * 16 + l.toNat * 8 + i.toNat = _
    simp only [below]
    omega
  · rw [decodeFields16_06 (by simp)]
    simp [decodeCompact06]

theorem cBz (a : BitVec 3) (l : Bool) (o : BitVec 6) : Statement (.cBz a l o) := by
  refine of_compact (below 6 o.toNat <| below 1 l.toNat <| below 3 a.toNat <| below 1 0 <| below 4 7 0) rfl ?_ fun hc => ?_
  · show 0x3800 + a.toNat * 128 + l.toNat * 64 + o.toNat = _
    simp only [below]
    omega
  · rw [decodeFields16_07 (by simp)]
    simp [decodeCompact07]

theorem cBnz (a : BitVec 3) (l : Bool) (o : BitVec 6) : Statement (.cBnz a l o) := by
  refine of_compact (below 6 o.toNat <| below 1 l.toNat <| below 3 a.toNat <| below 1 1 <| below 4 7 0) rfl ?_ fun hc => ?_
  · show 0x3C00 + a.toNat * 128 + l.toNat * 64 + o.toNat = _
    simp only [below]
    omega
  · rw [decodeFields16_07 (by simp)]
    simp [decodeCompact07]

theorem cJ (o : BitVec 11) : Statement (.cJ o) := by
  refine of_compact (below 11 o.toNat <| below 4 8 0) rfl ?_ fun hc => ?_
  · show 0x4000 + o.toNat = _
    simp only [below]
    omega
  · rw [decodeFields16_08 (by simp)]
    simp [decodeCompact08]

theorem cSub (d : BitVec 3) (a : BitVec 3) (l : Bool) : Statement (.cSub d a l) := by
  refine of_compact (below 1 0 <| below 1 l.toNat <| below 3 a.toNat <| below 3 d.toNat <| below 3 0 <| below 4 9 0) rfl ?_ fun hc => ?_
  · show 0x4800 + d.toNat * 32 + a.toNat * 4 + l.toNat * 2 = _
    simp only [below]
    omega
  · rw [decodeFields16_09 (by simp)]
    simp [decodeCompact09]

theorem cAnd (d : BitVec 3) (a : BitVec 3) (l : Bool) : Statement (.cAnd d a l) := by
  refine of_compact (below 1 0 <| below 1 l.toNat <| below 3 a.toNat <| below 3 d.toNat <| below 3 1 <| below 4 9 0) rfl ?_ fun hc => ?_
  · show 0x4900 + d.toNat * 32 + a.toNat * 4 + l.toNat * 2 = _
    simp only [below]
    omega
  · rw [decodeFields16_09 (by simp)]
    simp [decodeCompact09]

theorem cOr (d : BitVec 3) (a : BitVec 3) (l : Bool) : Statement (.cOr d a l) := by
  refine of_compact (below 1 0 <| below 1 l.toNat <| below 3 a.toNat <| below 3 d.toNat <| below 3 2 <| below 4 9 0) rfl ?_ fun hc => ?_
  · show 0x4A00 + d.toNat * 32 + a.toNat * 4 + l.toNat * 2 = _
    simp only [below]
    omega
  · rw [decodeFields16_09 (by simp)]
    simp [decodeCompact09]

theorem cXor (d : BitVec 3) (a : BitVec 3) (l : Bool) : Statement (.cXor d a l) := by
  refine of_compact (below 1 0 <| below 1 l.toNat <| below 3 a.toNat <| below 3 d.toNat <| below 3 3 <| below 4 9 0) rfl ?_ fun hc => ?_
  · show 0x4B00 + d.toNat * 32 + a.toNat * 4 + l.toNat * 2 = _
    simp only [below]
    omega
  · rw [decodeFields16_09 (by simp)]
    simp [decodeCompact09]

theorem cShl (d : BitVec 3) (a : BitVec 3) (l : Bool) : Statement (.cShl d a l) := by
  refine of_compact (below 1 0 <| below 1 l.toNat <| below 3 a.toNat <| below 3 d.toNat <| below 3 4 <| below 4 9 0) rfl ?_ fun hc => ?_
  · show 0x4C00 + d.toNat * 32 + a.toNat * 4 + l.toNat * 2 = _
    simp only [below]
    omega
  · rw [decodeFields16_09 (by simp)]
    simp [decodeCompact09]

theorem cShr (d : BitVec 3) (a : BitVec 3) (l : Bool) : Statement (.cShr d a l) := by
  refine of_compact (below 1 0 <| below 1 l.toNat <| below 3 a.toNat <| below 3 d.toNat <| below 3 5 <| below 4 9 0) rfl ?_ fun hc => ?_
  · show 0x4D00 + d.toNat * 32 + a.toNat * 4 + l.toNat * 2 = _
    simp only [below]
    omega
  · rw [decodeFields16_09 (by simp)]
    simp [decodeCompact09]

theorem cWait (m : BitVec 4) : Statement (.cWait m) := by
  refine of_compact (below 4 m.toNat <| below 7 0 <| below 4 10 0) rfl ?_ fun hc => ?_
  · show 0x5000 + m.toNat = _
    simp only [below]
    omega
  · rw [decodeFields16_0A (by simp)]
    simp [decodeCompact0A]

theorem cRecv (d : BitVec 5) : Statement (.cRecv d) := by
  refine of_compact (below 6 0 <| below 5 d.toNat <| below 4 11 0) rfl ?_ fun hc => ?_
  · show 0x5800 + d.toNat * 64 = _
    simp only [below]
    omega
  · rw [decodeFields16_0B (by simp)]
    simp [decodeCompact0B]

theorem cJr (a : BitVec 5) (l : Bool) : Statement (.cJr a l) := by
  refine of_compact (below 5 0 <| below 1 l.toNat <| below 5 a.toNat <| below 4 12 0) rfl ?_ fun hc => ?_
  · show 0x6000 + a.toNat * 64 + l.toNat * 32 = _
    simp only [below]
    omega
  · rw [decodeFields16_0C (by simp)]
    simp [decodeCompact0C]

theorem cPadd (d : BitVec 5) (b : BitVec 5) (l : Bool) : Statement (.cPadd d b l) := by
  refine of_compact (below 1 l.toNat <| below 5 b.toNat <| below 5 d.toNat <| below 4 13 0) rfl ?_ fun hc => ?_
  · show 0x6800 + d.toNat * 64 + b.toNat * 2 + l.toNat = _
    simp only [below]
    omega
  · rw [decodeFields16_0D (by simp)]
    simp [decodeCompact0D]

theorem cNop : Statement (.cNop) := by
  refine of_compact (below 11 0 <| below 4 14 0) rfl ?_ fun hc => ?_
  · show 0x7000 = _
    simp only [below]
    omega
  · rw [decodeFields16_0E (by simp)]
    simp [decodeCompact0E]

theorem cYield : Statement (.cYield) := by
  refine of_compact (below 11 256 <| below 4 14 0) rfl ?_ fun hc => ?_
  · show 0x7100 = _
    simp only [below]
    omega
  · rw [decodeFields16_0E (by simp)]
    simp [decodeCompact0E]

theorem cHhalt : Statement (.cHhalt) := by
  refine of_compact (below 11 512 <| below 4 14 0) rfl ?_ fun hc => ?_
  · show 0x7200 = _
    simp only [below]
    omega
  · rw [decodeFields16_0E (by simp)]
    simp [decodeCompact0E]


end Sys2Proof.Laws.Decoding

namespace Sys2Proof.Laws

/-- What the decoder reads of an encoding of the right length, it gives back with nothing left over. -/
theorem decode_encode_of_fields {i : Instr} (he : Encoding.Statement i) (hd : Decoding.Statement i) (h0 : i.length ≠ 0)
    (hc : i.check = none) : decode (encode i) = .ok (i, []) := by
  obtain ⟨hlen, hfits, hlong, hshort⟩ := he
  specialize hd hc
  rcases Decidable.em (i.length = 4) with h4 | h4
  · rw [h4, decodeFields, if_pos rfl] at hd
    rw [h4] at hfits
    have hword : i.encodeNat ≠ 0xFFFFFFFF := by
      intro h
      rw [h, decodeFields32_forever] at hd
      exact nomatch hd
    simp only [encode, h4, decode_long (hlong h4) hfits, decode32, if_neg hword, hd, checked_ok hc]
    rfl
  · rcases Decidable.em (i.length = 2) with h2 | h2
    · rw [h2, decodeFields, if_neg (by decide)] at hd
      simp only [encode, h2, decode_compact (hshort h2), decode16, hd, checked_ok hc]
      rfl
    · have hnil : encode i = [] := by
        unfold encode
        split
        · exact absurd ‹_› h2
        · exact absurd ‹_› h4
        · rfl
      rw [hnil] at hlen
      exact absurd hlen.symm h0

/-- Settles O57: every field of a word is read back, instruction by instruction, and the halfwords give the word back. -/
theorem decodeEncode : Obligations.DecodeEncode := by
  unfold Obligations.DecodeEncode
  intro i hc h0
  cases i with
  | padd d a l b m => exact decode_encode_of_fields (Encoding.padd d a l b m) (Decoding.padd d a l b m) h0 hc
  | pidx d a l b m => exact decode_encode_of_fields (Encoding.pidx d a l b m) (Decoding.pidx d a l b m) h0 hc
  | pset d a l b m f => exact decode_encode_of_fields (Encoding.pset d a l b m f) (Decoding.pset d a l b m f) h0 hc
  | pget d a l f => exact decode_encode_of_fields (Encoding.pget d a l f) (Decoding.pget d a l f) h0 hc
  | pcore d a l b m => exact decode_encode_of_fields (Encoding.pcore d a l b m) (Decoding.pcore d a l b m) h0 hc
  | pshrd d a l b m => exact decode_encode_of_fields (Encoding.pshrd d a l b m) (Decoding.pshrd d a l b m) h0 hc
  | ext d a l b m => exact decode_encode_of_fields (Encoding.ext d a l b m) (Decoding.ext d a l b m) h0 hc
  | bc a l b m c o => exact decode_encode_of_fields (Encoding.bc a l b m c o) (Decoding.bc a l b m c o) h0 hc
  | j o => exact decode_encode_of_fields (Encoding.j o) (Decoding.j o) h0 hc
  | jal o => exact decode_encode_of_fields (Encoding.jal o) (Decoding.jal o) h0 hc
  | jr d a l i => exact decode_encode_of_fields (Encoding.jr d a l i) (Decoding.jr d a l i) h0 hc
  | loop d i => exact decode_encode_of_fields (Encoding.loop d i) (Decoding.loop d i) h0 hc
  | ld d a l s z h i => exact decode_encode_of_fields (Encoding.ld d a l s z h i) (Decoding.ld d a l s z h i) h0 hc
  | ldFut d a l h i => exact decode_encode_of_fields (Encoding.ldFut d a l h i) (Decoding.ldFut d a l h i) h0 hc
  | ldTake d a l h i => exact decode_encode_of_fields (Encoding.ldTake d a l h i) (Decoding.ldTake d a l h i) h0 hc
  | st d a l e z h i => exact decode_encode_of_fields (Encoding.st d a l e z h i) (Decoding.st d a l e z h i) h0 hc
  | stFill d a l e h i => exact decode_encode_of_fields (Encoding.stFill d a l e h i) (Decoding.stFill d a l e h i) h0 hc
  | stGive d a l e h i => exact decode_encode_of_fields (Encoding.stGive d a l e h i) (Decoding.stGive d a l e h i) h0 hc
  | ldx d a l b m s z h x => exact decode_encode_of_fields (Encoding.ldx d a l b m s z h x) (Decoding.ldx d a l b m s z h x) h0 hc
  | stx d a l b m e z h x => exact decode_encode_of_fields (Encoding.stx d a l b m e z h x) (Decoding.stx d a l b m e z h x) h0 hc
  | ldtVeq d a l b m h => exact decode_encode_of_fields (Encoding.ldtVeq d a l b m h) (Decoding.ldtVeq d a l b m h) h0 hc
  | ldtVge d a l b m h => exact decode_encode_of_fields (Encoding.ldtVge d a l b m h) (Decoding.ldtVge d a l b m h) h0 hc
  | sttVnx d a l e h => exact decode_encode_of_fields (Encoding.sttVnx d a l e h) (Decoding.sttVnx d a l e h) h0 hc
  | sttVset d a l b m e h => exact decode_encode_of_fields (Encoding.sttVset d a l b m e h) (Decoding.sttVset d a l b m e h) h0 hc
  | lds d a l b m s z h => exact decode_encode_of_fields (Encoding.lds d a l b m s z h) (Decoding.lds d a l b m s z h) h0 hc
  | sts d a l b m e z h => exact decode_encode_of_fields (Encoding.sts d a l b m e z h) (Decoding.sts d a l b m e z h) h0 hc
  | amoSwap d a l b m z h => exact decode_encode_of_fields (Encoding.amoSwap d a l b m z h) (Decoding.amoSwap d a l b m z h) h0 hc
  | amoAdd d a l b m z h => exact decode_encode_of_fields (Encoding.amoAdd d a l b m z h) (Decoding.amoAdd d a l b m z h) h0 hc
  | amoAnd d a l b m z h => exact decode_encode_of_fields (Encoding.amoAnd d a l b m z h) (Decoding.amoAnd d a l b m z h) h0 hc
  | amoOr d a l b m z h => exact decode_encode_of_fields (Encoding.amoOr d a l b m z h) (Decoding.amoOr d a l b m z h) h0 hc
  | amoXor d a l b m z h => exact decode_encode_of_fields (Encoding.amoXor d a l b m z h) (Decoding.amoXor d a l b m z h) h0 hc
  | amoMin d a l b m z h => exact decode_encode_of_fields (Encoding.amoMin d a l b m z h) (Decoding.amoMin d a l b m z h) h0 hc
  | amoMax d a l b m z h => exact decode_encode_of_fields (Encoding.amoMax d a l b m z h) (Decoding.amoMax d a l b m z h) h0 hc
  | amoMinu d a l b m z h => exact decode_encode_of_fields (Encoding.amoMinu d a l b m z h) (Decoding.amoMinu d a l b m z h) h0 hc
  | amoMaxu d a l b m z h => exact decode_encode_of_fields (Encoding.amoMaxu d a l b m z h) (Decoding.amoMaxu d a l b m z h) h0 hc
  | cas d a l b m z h => exact decode_encode_of_fields (Encoding.cas d a l b m z h) (Decoding.cas d a l b m z h) h0 hc
  | redo d a l b m f => exact decode_encode_of_fields (Encoding.redo d a l b m f) (Decoding.redo d a l b m f) h0 hc
  | reda a l b m f => exact decode_encode_of_fields (Encoding.reda a l b m f) (Decoding.reda a l b m f) h0 hc
  | redr d a l f => exact decode_encode_of_fields (Encoding.redr d a l f) (Decoding.redr d a l f) h0 hc
  | redc d a l f => exact decode_encode_of_fields (Encoding.redc d a l f) (Decoding.redc d a l f) h0 hc
  | jinit d a l b m => exact decode_encode_of_fields (Encoding.jinit d a l b m) (Decoding.jinit d a l b m) h0 hc
  | join d a l b m => exact decode_encode_of_fields (Encoding.join d a l b m) (Decoding.join d a l b m) h0 hc
  | fence d a l => exact decode_encode_of_fields (Encoding.fence d a l) (Decoding.fence d a l) h0 hc
  | flush a l b m => exact decode_encode_of_fields (Encoding.flush a l b m) (Decoding.flush a l b m) h0 hc
  | cinv a l b m => exact decode_encode_of_fields (Encoding.cinv a l b m) (Decoding.cinv a l b m) h0 hc
  | wait a b c d => exact decode_encode_of_fields (Encoding.wait a b c d) (Decoding.wait a b c d) h0 hc
  | pref h a l b m => exact decode_encode_of_fields (Encoding.pref h a l b m) (Decoding.pref h a l b m) h0 hc
  | vrecl a l b m => exact decode_encode_of_fields (Encoding.vrecl a l b m) (Decoding.vrecl a l b m) h0 hc
  | tagr d a l => exact decode_encode_of_fields (Encoding.tagr d a l) (Decoding.tagr d a l) h0 hc
  | tagw a l b m => exact decode_encode_of_fields (Encoding.tagw a l b m) (Decoding.tagw a l b m) h0 hc
  | mcast d a l b m => exact decode_encode_of_fields (Encoding.mcast d a l b m) (Decoding.mcast d a l b m) h0 hc
  | spawn a l b m => exact decode_encode_of_fields (Encoding.spawn a l b m) (Decoding.spawn a l b m) h0 hc
  | launch d a l => exact decode_encode_of_fields (Encoding.launch d a l) (Decoding.launch d a l) h0 hc
  | yield => exact decode_encode_of_fields (Encoding.yield) (Decoding.yield) h0 hc
  | prio d a l => exact decode_encode_of_fields (Encoding.prio d a l) (Decoding.prio d a l) h0 hc
  | sendm a l b m => exact decode_encode_of_fields (Encoding.sendm a l b m) (Decoding.sendm a l b m) h0 hc
  | recv d a l => exact decode_encode_of_fields (Encoding.recv d a l) (Decoding.recv d a l) h0 hc
  | peek d => exact decode_encode_of_fields (Encoding.peek d) (Decoding.peek d) h0 hc
  | reply a l => exact decode_encode_of_fields (Encoding.reply a l) (Decoding.reply a l) h0 hc
  | hstart d a l b m => exact decode_encode_of_fields (Encoding.hstart d a l b m) (Decoding.hstart d a l b m) h0 hc
  | hhalt a l => exact decode_encode_of_fields (Encoding.hhalt a l) (Decoding.hhalt a l) h0 hc
  | hhaltRetain a l b m => exact decode_encode_of_fields (Encoding.hhaltRetain a l b m) (Decoding.hhaltRetain a l b m) h0 hc
  | hwait d a l => exact decode_encode_of_fields (Encoding.hwait d a l) (Decoding.hwait d a l) h0 hc
  | crew a l b m => exact decode_encode_of_fields (Encoding.crew a l b m) (Decoding.crew a l b m) h0 hc
  | crewx d => exact decode_encode_of_fields (Encoding.crewx d) (Decoding.crewx d) h0 hc
  | bar d a l n => exact decode_encode_of_fields (Encoding.bar d a l n) (Decoding.bar d a l n) h0 hc
  | qbind a l b m q => exact decode_encode_of_fields (Encoding.qbind a l b m q) (Decoding.qbind a l b m q) h0 hc
  | qfree q => exact decode_encode_of_fields (Encoding.qfree q) (Decoding.qfree q) h0 hc
  | qctlPop d q => exact decode_encode_of_fields (Encoding.qctlPop d q) (Decoding.qctlPop d q) h0 hc
  | qctlPush a l q => exact decode_encode_of_fields (Encoding.qctlPush a l q) (Decoding.qctlPush a l q) h0 hc
  | qctlPushc a l q => exact decode_encode_of_fields (Encoding.qctlPushc a l q) (Decoding.qctlPushc a l q) h0 hc
  | qctlFlush q => exact decode_encode_of_fields (Encoding.qctlFlush q) (Decoding.qctlFlush q) h0 hc
  | qstat d q => exact decode_encode_of_fields (Encoding.qstat d q) (Decoding.qstat d q) h0 hc
  | qhnd a l => exact decode_encode_of_fields (Encoding.qhnd a l) (Decoding.qhnd a l) h0 hc
  | qret => exact decode_encode_of_fields (Encoding.qret) (Decoding.qret) h0 hc
  | vclaim d a l => exact decode_encode_of_fields (Encoding.vclaim d a l) (Decoding.vclaim d a l) h0 hc
  | vreneg d a l => exact decode_encode_of_fields (Encoding.vreneg d a l) (Decoding.vreneg d a l) h0 hc
  | vrel => exact decode_encode_of_fields (Encoding.vrel) (Decoding.vrel) h0 hc
  | pcnt d k => exact decode_encode_of_fields (Encoding.pcnt d k) (Decoding.pcnt d k) h0 hc
  | pwhile d a l b m k => exact decode_encode_of_fields (Encoding.pwhile d a l b m k) (Decoding.pwhile d a l b m k) h0 hc
  | pmin a l k kb => exact decode_encode_of_fields (Encoding.pmin a l k kb) (Decoding.pmin a l k kb) h0 hc
  | vld d a l k h => exact decode_encode_of_fields (Encoding.vld d a l k h) (Decoding.vld d a l k h) h0 hc
  | vst d a l k h => exact decode_encode_of_fields (Encoding.vst d a l k h) (Decoding.vst d a l k h) h0 hc
  | vldf d a l k h => exact decode_encode_of_fields (Encoding.vldf d a l k h) (Decoding.vldf d a l k h) h0 hc
  | vlds d a l b m k h => exact decode_encode_of_fields (Encoding.vlds d a l b m k h) (Decoding.vlds d a l b m k h) h0 hc
  | vsts d a l b m k h => exact decode_encode_of_fields (Encoding.vsts d a l b m k h) (Decoding.vsts d a l b m k h) h0 hc
  | vgth d a l w k h => exact decode_encode_of_fields (Encoding.vgth d a l w k h) (Decoding.vgth d a l w k h) h0 hc
  | vsct d a l w k h => exact decode_encode_of_fields (Encoding.vsct d a l w k h) (Decoding.vsct d a l w k h) h0 hc
  | vadd d a b k t x => exact decode_encode_of_fields (Encoding.vadd d a b k t x) (Decoding.vadd d a b k t x) h0 hc
  | vsub d a b k t x => exact decode_encode_of_fields (Encoding.vsub d a b k t x) (Decoding.vsub d a b k t x) h0 hc
  | vmul d a b k t x => exact decode_encode_of_fields (Encoding.vmul d a b k t x) (Decoding.vmul d a b k t x) h0 hc
  | vdiv d a b k t x => exact decode_encode_of_fields (Encoding.vdiv d a b k t x) (Decoding.vdiv d a b k t x) h0 hc
  | vmin d a b k t x => exact decode_encode_of_fields (Encoding.vmin d a b k t x) (Decoding.vmin d a b k t x) h0 hc
  | vmax d a b k t x => exact decode_encode_of_fields (Encoding.vmax d a b k t x) (Decoding.vmax d a b k t x) h0 hc
  | vabsd d a b k t x => exact decode_encode_of_fields (Encoding.vabsd d a b k t x) (Decoding.vabsd d a b k t x) h0 hc
  | vmulh d a b k t x => exact decode_encode_of_fields (Encoding.vmulh d a b k t x) (Decoding.vmulh d a b k t x) h0 hc
  | vfma d a b k t x => exact decode_encode_of_fields (Encoding.vfma d a b k t x) (Decoding.vfma d a b k t x) h0 hc
  | vfms d a b k t x => exact decode_encode_of_fields (Encoding.vfms d a b k t x) (Decoding.vfms d a b k t x) h0 hc
  | vcvt d a s k t x => exact decode_encode_of_fields (Encoding.vcvt d a s k t x) (Decoding.vcvt d a s k t x) h0 hc
  | vabs d a k t x => exact decode_encode_of_fields (Encoding.vabs d a k t x) (Decoding.vabs d a k t x) h0 hc
  | vneg d a k t x => exact decode_encode_of_fields (Encoding.vneg d a k t x) (Decoding.vneg d a k t x) h0 hc
  | vsqrt d a k t x => exact decode_encode_of_fields (Encoding.vsqrt d a k t x) (Decoding.vsqrt d a k t x) h0 hc
  | vrcp d a k t x => exact decode_encode_of_fields (Encoding.vrcp d a k t x) (Decoding.vrcp d a k t x) h0 hc
  | vrsq d a k t x => exact decode_encode_of_fields (Encoding.vrsq d a k t x) (Decoding.vrsq d a k t x) h0 hc
  | vexp d a k t x => exact decode_encode_of_fields (Encoding.vexp d a k t x) (Decoding.vexp d a k t x) h0 hc
  | vlog d a k t x => exact decode_encode_of_fields (Encoding.vlog d a k t x) (Decoding.vlog d a k t x) h0 hc
  | vsin d a k t x => exact decode_encode_of_fields (Encoding.vsin d a k t x) (Decoding.vsin d a k t x) h0 hc
  | vcos d a k t x => exact decode_encode_of_fields (Encoding.vcos d a k t x) (Decoding.vcos d a k t x) h0 hc
  | vtanh d a k t x => exact decode_encode_of_fields (Encoding.vtanh d a k t x) (Decoding.vtanh d a k t x) h0 hc
  | vand d a b k t x => exact decode_encode_of_fields (Encoding.vand d a b k t x) (Decoding.vand d a b k t x) h0 hc
  | vor d a b k t x => exact decode_encode_of_fields (Encoding.vor d a b k t x) (Decoding.vor d a b k t x) h0 hc
  | vxor d a b k t x => exact decode_encode_of_fields (Encoding.vxor d a b k t x) (Decoding.vxor d a b k t x) h0 hc
  | vandn d a b k t x => exact decode_encode_of_fields (Encoding.vandn d a b k t x) (Decoding.vandn d a b k t x) h0 hc
  | vshl d a b k t x => exact decode_encode_of_fields (Encoding.vshl d a b k t x) (Decoding.vshl d a b k t x) h0 hc
  | vshr d a b k t x => exact decode_encode_of_fields (Encoding.vshr d a b k t x) (Decoding.vshr d a b k t x) h0 hc
  | vsar d a b k t x => exact decode_encode_of_fields (Encoding.vsar d a b k t x) (Decoding.vsar d a b k t x) h0 hc
  | vcmp d a b k t c => exact decode_encode_of_fields (Encoding.vcmp d a b k t c) (Decoding.vcmp d a b k t c) h0 hc
  | vsel d a b k t x => exact decode_encode_of_fields (Encoding.vsel d a b k t x) (Decoding.vsel d a b k t x) h0 hc
  | vsum a g k t x => exact decode_encode_of_fields (Encoding.vsum a g k t x) (Decoding.vsum a g k t x) h0 hc
  | vrmax a g k t x => exact decode_encode_of_fields (Encoding.vrmax a g k t x) (Decoding.vrmax a g k t x) h0 hc
  | vrmin a g k t x => exact decode_encode_of_fields (Encoding.vrmin a g k t x) (Decoding.vrmin a g k t x) h0 hc
  | vscan d a k t x => exact decode_encode_of_fields (Encoding.vscan d a k t x) (Decoding.vscan d a k t x) h0 hc
  | vperm d a b k t x => exact decode_encode_of_fields (Encoding.vperm d a b k t x) (Decoding.vperm d a b k t x) h0 hc
  | vbc d g l k t x => exact decode_encode_of_fields (Encoding.vbc d g l k t x) (Decoding.vbc d g l k t x) h0 hc
  | vext a g k t x => exact decode_encode_of_fields (Encoding.vext a g k t x) (Decoding.vext a g k t x) h0 hc
  | vins d g l k t x => exact decode_encode_of_fields (Encoding.vins d g l k t x) (Decoding.vins d g l k t x) h0 hc
  | viota d k t x => exact decode_encode_of_fields (Encoding.viota d k t x) (Decoding.viota d k t x) h0 hc
  | vmov d a k t x => exact decode_encode_of_fields (Encoding.vmov d a k t x) (Decoding.vmov d a k t x) h0 hc
  | vqmovPop d q k t x => exact decode_encode_of_fields (Encoding.vqmovPop d q k t x) (Decoding.vqmovPop d q k t x) h0 hc
  | vqmovPush q a k t x => exact decode_encode_of_fields (Encoding.vqmovPush q a k t x) (Decoding.vqmovPush q a k t x) h0 hc
  | vmrg d a b k t x => exact decode_encode_of_fields (Encoding.vmrg d a b k t x) (Decoding.vmrg d a b k t x) h0 hc
  | mma d a l p => exact decode_encode_of_fields (Encoding.mma d a l p) (Decoding.mma d a l p) h0 hc
  | mmaz d a l p => exact decode_encode_of_fields (Encoding.mmaz d a l p) (Decoding.mmaz d a l p) h0 hc
  | mbs d a l p => exact decode_encode_of_fields (Encoding.mbs d a l p) (Decoding.mbs d a l p) h0 hc
  | mbsz d a l p => exact decode_encode_of_fields (Encoding.mbsz d a l p) (Decoding.mbsz d a l p) h0 hc
  | msp d a l p => exact decode_encode_of_fields (Encoding.msp d a l p) (Decoding.msp d a l p) h0 hc
  | mpre d a l => exact decode_encode_of_fields (Encoding.mpre d a l) (Decoding.mpre d a l) h0 hc
  | mpinv a l => exact decode_encode_of_fields (Encoding.mpinv a l) (Decoding.mpinv a l) h0 hc
  | mld d a l b m p => exact decode_encode_of_fields (Encoding.mld d a l b m p) (Decoding.mld d a l b m p) h0 hc
  | mst d a l b m p => exact decode_encode_of_fields (Encoding.mst d a l b m p) (Decoding.mst d a l b m p) h0 hc
  | mzero p => exact decode_encode_of_fields (Encoding.mzero p) (Decoding.mzero p) h0 hc
  | mrd d a l p => exact decode_encode_of_fields (Encoding.mrd d a l p) (Decoding.mrd d a l p) h0 hc
  | mstFill d a l b m p => exact decode_encode_of_fields (Encoding.mstFill d a l b m p) (Decoding.mstFill d a l b m p) h0 hc
  | mstVnx d a l b m p => exact decode_encode_of_fields (Encoding.mstVnx d a l b m p) (Decoding.mstVnx d a l b m p) h0 hc
  | mstVset d a l b m p => exact decode_encode_of_fields (Encoding.mstVset d a l b m p) (Decoding.mstVset d a l b m p) h0 hc
  | mcmd d a l b m => exact decode_encode_of_fields (Encoding.mcmd d a l b m) (Decoding.mcmd d a l b m) h0 hc
  | mqry d a l => exact decode_encode_of_fields (Encoding.mqry d a l) (Decoding.mqry d a l) h0 hc
  | hacc d a l b m => exact decode_encode_of_fields (Encoding.hacc d a l b m) (Decoding.hacc d a l b m) h0 hc
  | hdrn d a l b m => exact decode_encode_of_fields (Encoding.hdrn d a l b m) (Decoding.hdrn d a l b m) h0 hc
  | sbnd a l b m => exact decode_encode_of_fields (Encoding.sbnd a l b m) (Decoding.sbnd a l b m) h0 hc
  | carry d a l b m => exact decode_encode_of_fields (Encoding.carry d a l b m) (Decoding.carry d a l b m) h0 hc
  | survBind d a l b m => exact decode_encode_of_fields (Encoding.survBind d a l b m) (Decoding.survBind d a l b m) h0 hc
  | survUnbind a l => exact decode_encode_of_fields (Encoding.survUnbind a l) (Decoding.survUnbind a l) h0 hc
  | survStart a l => exact decode_encode_of_fields (Encoding.survStart a l) (Decoding.survStart a l) h0 hc
  | survStop a l => exact decode_encode_of_fields (Encoding.survStop a l) (Decoding.survStop a l) h0 hc
  | tmld a l p => exact decode_encode_of_fields (Encoding.tmld a l p) (Decoding.tmld a l p) h0 hc
  | tmset a l n p => exact decode_encode_of_fields (Encoding.tmset a l n p) (Decoding.tmset a l n p) h0 hc
  | tmget d n p => exact decode_encode_of_fields (Encoding.tmget d n p) (Decoding.tmget d n p) h0 hc
  | cpy d s p => exact decode_encode_of_fields (Encoding.cpy d s p) (Decoding.cpy d s p) h0 hc
  | cpyg d a l s p => exact decode_encode_of_fields (Encoding.cpyg d a l s p) (Decoding.cpyg d a l s p) h0 hc
  | cpys d a l s p => exact decode_encode_of_fields (Encoding.cpys d a l s p) (Decoding.cpys d a l s p) h0 hc
  | cpyq d q p => exact decode_encode_of_fields (Encoding.cpyq d q p) (Decoding.cpyq d q p) h0 hc
  | cpyf d a l b m p => exact decode_encode_of_fields (Encoding.cpyf d a l b m p) (Decoding.cpyf d a l b m p) h0 hc
  | srd g n => exact decode_encode_of_fields (Encoding.srd g n) (Decoding.srd g n) h0 hc
  | swr g l n => exact decode_encode_of_fields (Encoding.swr g l n) (Decoding.swr g l n) h0 hc
  | trap n => exact decode_encode_of_fields (Encoding.trap n) (Decoding.trap n) h0 hc
  | capMint => exact decode_encode_of_fields (Encoding.capMint) (Decoding.capMint) h0 hc
  | capNewGeneration => exact decode_encode_of_fields (Encoding.capNewGeneration) (Decoding.capNewGeneration) h0 hc
  | xret => exact decode_encode_of_fields (Encoding.xret) (Decoding.xret) h0 hc
  | brk n => exact decode_encode_of_fields (Encoding.brk n) (Decoding.brk n) h0 hc
  | nop => exact decode_encode_of_fields (Encoding.nop) (Decoding.nop) h0 hc
  | synci => exact decode_encode_of_fields (Encoding.synci) (Decoding.synci) h0 hc
  | ptinv a l b m => exact decode_encode_of_fields (Encoding.ptinv a l b m) (Decoding.ptinv a l b m) h0 hc
  | atset a l b m => exact decode_encode_of_fields (Encoding.atset a l b m) (Decoding.atset a l b m) h0 hc
  | atsync d => exact decode_encode_of_fields (Encoding.atsync d) (Decoding.atsync d) h0 hc
  | migr d a l b m => exact decode_encode_of_fields (Encoding.migr d a l b m) (Decoding.migr d a l b m) h0 hc
  | gstop d a l => exact decode_encode_of_fields (Encoding.gstop d a l) (Decoding.gstop d a l) h0 hc
  | svFetch a b i => exact decode_encode_of_fields (Encoding.svFetch a b i) (Decoding.svFetch a b i) h0 hc
  | svEmit a b i => exact decode_encode_of_fields (Encoding.svEmit a b i) (Decoding.svEmit a b i) h0 hc
  | add d a l b m => exact decode_encode_of_fields (Encoding.add d a l b m) (Decoding.add d a l b m) h0 hc
  | sub d a l b m => exact decode_encode_of_fields (Encoding.sub d a l b m) (Decoding.sub d a l b m) h0 hc
  | and d a l b m => exact decode_encode_of_fields (Encoding.and d a l b m) (Decoding.and d a l b m) h0 hc
  | or d a l b m => exact decode_encode_of_fields (Encoding.or d a l b m) (Decoding.or d a l b m) h0 hc
  | xor d a l b m => exact decode_encode_of_fields (Encoding.xor d a l b m) (Decoding.xor d a l b m) h0 hc
  | andn d a l b m => exact decode_encode_of_fields (Encoding.andn d a l b m) (Decoding.andn d a l b m) h0 hc
  | shl d a l b m => exact decode_encode_of_fields (Encoding.shl d a l b m) (Decoding.shl d a l b m) h0 hc
  | shr d a l b m => exact decode_encode_of_fields (Encoding.shr d a l b m) (Decoding.shr d a l b m) h0 hc
  | sar d a l b m => exact decode_encode_of_fields (Encoding.sar d a l b m) (Decoding.sar d a l b m) h0 hc
  | rot d a l b m => exact decode_encode_of_fields (Encoding.rot d a l b m) (Decoding.rot d a l b m) h0 hc
  | min d a l b m => exact decode_encode_of_fields (Encoding.min d a l b m) (Decoding.min d a l b m) h0 hc
  | max d a l b m => exact decode_encode_of_fields (Encoding.max d a l b m) (Decoding.max d a l b m) h0 hc
  | minu d a l b m => exact decode_encode_of_fields (Encoding.minu d a l b m) (Decoding.minu d a l b m) h0 hc
  | maxu d a l b m => exact decode_encode_of_fields (Encoding.maxu d a l b m) (Decoding.maxu d a l b m) h0 hc
  | slt d a l b m => exact decode_encode_of_fields (Encoding.slt d a l b m) (Decoding.slt d a l b m) h0 hc
  | sltu d a l b m => exact decode_encode_of_fields (Encoding.sltu d a l b m) (Decoding.sltu d a l b m) h0 hc
  | sel d a l b m => exact decode_encode_of_fields (Encoding.sel d a l b m) (Decoding.sel d a l b m) h0 hc
  | mov d a l => exact decode_encode_of_fields (Encoding.mov d a l) (Decoding.mov d a l) h0 hc
  | clz d a l => exact decode_encode_of_fields (Encoding.clz d a l) (Decoding.clz d a l) h0 hc
  | ctz d a l => exact decode_encode_of_fields (Encoding.ctz d a l) (Decoding.ctz d a l) h0 hc
  | popc d a l => exact decode_encode_of_fields (Encoding.popc d a l) (Decoding.popc d a l) h0 hc
  | brev d a l => exact decode_encode_of_fields (Encoding.brev d a l) (Decoding.brev d a l) h0 hc
  | bswp d a l => exact decode_encode_of_fields (Encoding.bswp d a l) (Decoding.bswp d a l) h0 hc
  | addW d a l b m => exact decode_encode_of_fields (Encoding.addW d a l b m) (Decoding.addW d a l b m) h0 hc
  | subW d a l b m => exact decode_encode_of_fields (Encoding.subW d a l b m) (Decoding.subW d a l b m) h0 hc
  | andW d a l b m => exact decode_encode_of_fields (Encoding.andW d a l b m) (Decoding.andW d a l b m) h0 hc
  | orW d a l b m => exact decode_encode_of_fields (Encoding.orW d a l b m) (Decoding.orW d a l b m) h0 hc
  | xorW d a l b m => exact decode_encode_of_fields (Encoding.xorW d a l b m) (Decoding.xorW d a l b m) h0 hc
  | andnW d a l b m => exact decode_encode_of_fields (Encoding.andnW d a l b m) (Decoding.andnW d a l b m) h0 hc
  | shlW d a l b m => exact decode_encode_of_fields (Encoding.shlW d a l b m) (Decoding.shlW d a l b m) h0 hc
  | shrW d a l b m => exact decode_encode_of_fields (Encoding.shrW d a l b m) (Decoding.shrW d a l b m) h0 hc
  | sarW d a l b m => exact decode_encode_of_fields (Encoding.sarW d a l b m) (Decoding.sarW d a l b m) h0 hc
  | rotW d a l b m => exact decode_encode_of_fields (Encoding.rotW d a l b m) (Decoding.rotW d a l b m) h0 hc
  | minW d a l b m => exact decode_encode_of_fields (Encoding.minW d a l b m) (Decoding.minW d a l b m) h0 hc
  | maxW d a l b m => exact decode_encode_of_fields (Encoding.maxW d a l b m) (Decoding.maxW d a l b m) h0 hc
  | minuW d a l b m => exact decode_encode_of_fields (Encoding.minuW d a l b m) (Decoding.minuW d a l b m) h0 hc
  | maxuW d a l b m => exact decode_encode_of_fields (Encoding.maxuW d a l b m) (Decoding.maxuW d a l b m) h0 hc
  | sltW d a l b m => exact decode_encode_of_fields (Encoding.sltW d a l b m) (Decoding.sltW d a l b m) h0 hc
  | sltuW d a l b m => exact decode_encode_of_fields (Encoding.sltuW d a l b m) (Decoding.sltuW d a l b m) h0 hc
  | clzW d a l => exact decode_encode_of_fields (Encoding.clzW d a l) (Decoding.clzW d a l) h0 hc
  | ctzW d a l => exact decode_encode_of_fields (Encoding.ctzW d a l) (Decoding.ctzW d a l) h0 hc
  | popcW d a l => exact decode_encode_of_fields (Encoding.popcW d a l) (Decoding.popcW d a l) h0 hc
  | addImm d a l i => exact decode_encode_of_fields (Encoding.addImm d a l i) (Decoding.addImm d a l i) h0 hc
  | andImm d a l i => exact decode_encode_of_fields (Encoding.andImm d a l i) (Decoding.andImm d a l i) h0 hc
  | orImm d a l i => exact decode_encode_of_fields (Encoding.orImm d a l i) (Decoding.orImm d a l i) h0 hc
  | xorImm d a l i => exact decode_encode_of_fields (Encoding.xorImm d a l i) (Decoding.xorImm d a l i) h0 hc
  | shlImm d a l c => exact decode_encode_of_fields (Encoding.shlImm d a l c) (Decoding.shlImm d a l c) h0 hc
  | shrImm d a l c => exact decode_encode_of_fields (Encoding.shrImm d a l c) (Decoding.shrImm d a l c) h0 hc
  | sarImm d a l c => exact decode_encode_of_fields (Encoding.sarImm d a l c) (Decoding.sarImm d a l c) h0 hc
  | rotImm d a l c => exact decode_encode_of_fields (Encoding.rotImm d a l c) (Decoding.rotImm d a l c) h0 hc
  | sltImm d a l i => exact decode_encode_of_fields (Encoding.sltImm d a l i) (Decoding.sltImm d a l i) h0 hc
  | sltuImm d a l i => exact decode_encode_of_fields (Encoding.sltuImm d a l i) (Decoding.sltuImm d a l i) h0 hc
  | minImm d a l i => exact decode_encode_of_fields (Encoding.minImm d a l i) (Decoding.minImm d a l i) h0 hc
  | maxImm d a l i => exact decode_encode_of_fields (Encoding.maxImm d a l i) (Decoding.maxImm d a l i) h0 hc
  | addWImm d a l i => exact decode_encode_of_fields (Encoding.addWImm d a l i) (Decoding.addWImm d a l i) h0 hc
  | li d i => exact decode_encode_of_fields (Encoding.li d i) (Decoding.li d i) h0 hc
  | lih d h i => exact decode_encode_of_fields (Encoding.lih d h i) (Decoding.lih d h i) h0 hc
  | bfx d a l o w => exact decode_encode_of_fields (Encoding.bfx d a l o w) (Decoding.bfx d a l o w) h0 hc
  | bfxs d a l o w => exact decode_encode_of_fields (Encoding.bfxs d a l o w) (Decoding.bfxs d a l o w) h0 hc
  | bfxs64 d a l o => exact decode_encode_of_fields (Encoding.bfxs64 d a l o) (Decoding.bfxs64 d a l o) h0 hc
  | bfi d a l o w => exact decode_encode_of_fields (Encoding.bfi d a l o w) (Decoding.bfi d a l o w) h0 hc
  | bfxReg d a l b m => exact decode_encode_of_fields (Encoding.bfxReg d a l b m) (Decoding.bfxReg d a l b m) h0 hc
  | bfxsReg d a l b m => exact decode_encode_of_fields (Encoding.bfxsReg d a l b m) (Decoding.bfxsReg d a l b m) h0 hc
  | bfiReg d a l b m => exact decode_encode_of_fields (Encoding.bfiReg d a l b m) (Decoding.bfiReg d a l b m) h0 hc
  | mul d a l b m => exact decode_encode_of_fields (Encoding.mul d a l b m) (Decoding.mul d a l b m) h0 hc
  | mulh d a l b m => exact decode_encode_of_fields (Encoding.mulh d a l b m) (Decoding.mulh d a l b m) h0 hc
  | mulhu d a l b m => exact decode_encode_of_fields (Encoding.mulhu d a l b m) (Decoding.mulhu d a l b m) h0 hc
  | div d a l b m => exact decode_encode_of_fields (Encoding.div d a l b m) (Decoding.div d a l b m) h0 hc
  | divu d a l b m => exact decode_encode_of_fields (Encoding.divu d a l b m) (Decoding.divu d a l b m) h0 hc
  | rem d a l b m => exact decode_encode_of_fields (Encoding.rem d a l b m) (Decoding.rem d a l b m) h0 hc
  | remu d a l b m => exact decode_encode_of_fields (Encoding.remu d a l b m) (Decoding.remu d a l b m) h0 hc
  | mulW d a l b m => exact decode_encode_of_fields (Encoding.mulW d a l b m) (Decoding.mulW d a l b m) h0 hc
  | mulhW d a l b m => exact decode_encode_of_fields (Encoding.mulhW d a l b m) (Decoding.mulhW d a l b m) h0 hc
  | mulhuW d a l b m => exact decode_encode_of_fields (Encoding.mulhuW d a l b m) (Decoding.mulhuW d a l b m) h0 hc
  | divW d a l b m => exact decode_encode_of_fields (Encoding.divW d a l b m) (Decoding.divW d a l b m) h0 hc
  | divuW d a l b m => exact decode_encode_of_fields (Encoding.divuW d a l b m) (Decoding.divuW d a l b m) h0 hc
  | remW d a l b m => exact decode_encode_of_fields (Encoding.remW d a l b m) (Decoding.remW d a l b m) h0 hc
  | remuW d a l b m => exact decode_encode_of_fields (Encoding.remuW d a l b m) (Decoding.remuW d a l b m) h0 hc
  | cAdd d b l => exact decode_encode_of_fields (Encoding.cAdd d b l) (Decoding.cAdd d b l) h0 hc
  | cAddi d i => exact decode_encode_of_fields (Encoding.cAddi d i) (Decoding.cAddi d i) h0 hc
  | cMov d b l => exact decode_encode_of_fields (Encoding.cMov d b l) (Decoding.cMov d b l) h0 hc
  | cLi d i => exact decode_encode_of_fields (Encoding.cLi d i) (Decoding.cLi d i) h0 hc
  | cLd d a l i => exact decode_encode_of_fields (Encoding.cLd d a l i) (Decoding.cLd d a l i) h0 hc
  | cSt b m a l i => exact decode_encode_of_fields (Encoding.cSt b m a l i) (Decoding.cSt b m a l i) h0 hc
  | cBz a l o => exact decode_encode_of_fields (Encoding.cBz a l o) (Decoding.cBz a l o) h0 hc
  | cBnz a l o => exact decode_encode_of_fields (Encoding.cBnz a l o) (Decoding.cBnz a l o) h0 hc
  | cJ o => exact decode_encode_of_fields (Encoding.cJ o) (Decoding.cJ o) h0 hc
  | cSub d a l => exact decode_encode_of_fields (Encoding.cSub d a l) (Decoding.cSub d a l) h0 hc
  | cAnd d a l => exact decode_encode_of_fields (Encoding.cAnd d a l) (Decoding.cAnd d a l) h0 hc
  | cOr d a l => exact decode_encode_of_fields (Encoding.cOr d a l) (Decoding.cOr d a l) h0 hc
  | cXor d a l => exact decode_encode_of_fields (Encoding.cXor d a l) (Decoding.cXor d a l) h0 hc
  | cShl d a l => exact decode_encode_of_fields (Encoding.cShl d a l) (Decoding.cShl d a l) h0 hc
  | cShr d a l => exact decode_encode_of_fields (Encoding.cShr d a l) (Decoding.cShr d a l) h0 hc
  | cWait m => exact decode_encode_of_fields (Encoding.cWait m) (Decoding.cWait m) h0 hc
  | cRecv d => exact decode_encode_of_fields (Encoding.cRecv d) (Decoding.cRecv d) h0 hc
  | cJr a l => exact decode_encode_of_fields (Encoding.cJr a l) (Decoding.cJr a l) h0 hc
  | cPadd d b l => exact decode_encode_of_fields (Encoding.cPadd d b l) (Decoding.cPadd d b l) h0 hc
  | cNop => exact decode_encode_of_fields (Encoding.cNop) (Decoding.cNop) h0 hc
  | cYield => exact decode_encode_of_fields (Encoding.cYield) (Decoding.cYield) h0 hc
  | cHhalt => exact decode_encode_of_fields (Encoding.cHhalt) (Decoding.cHhalt) h0 hc
  | claimGrant => exact absurd rfl h0
  | lsplitWrite => exact absurd rfl h0
  | vgroupWrite => exact absurd rfl h0
  | homeAccept => exact absurd rfl h0
  | retryReplay => exact absurd rfl h0
  | loadDataReturn => exact absurd rfl h0
  | storeAck => exact absurd rfl h0
  | releaseSend => exact absurd rfl h0
  | barComplete => exact absurd rfl h0
  | messageArrival => exact absurd rfl h0
  | messageReplay => exact absurd rfl h0
  | handlerStart => exact absurd rfl h0
  | resumeMessage => exact absurd rfl h0
  | stopMessage => exact absurd rfl h0
  | forwardRequest => exact absurd rfl h0
  | forwardExpire => exact absurd rfl h0
  | registerPreempt => exact absurd rfl h0
  | registerGrant => exact absurd rfl h0
  | engineCommandAccept => exact absurd rfl h0
  | engineCommandStart => exact absurd rfl h0
  | engineCommandComplete => exact absurd rfl h0
  | engineCommandMigrate => exact absurd rfl h0
  | engraveStart => exact absurd rfl h0
  | engraveComplete => exact absurd rfl h0
  | copyStart => exact absurd rfl h0
  | copyComplete => exact absurd rfl h0
  | copyqResume => exact absurd rfl h0
  | surveyorRun => exact absurd rfl h0
  | surveyorGatherReturn => exact absurd rfl h0
  | memoryStreamRead => exact absurd rfl h0
  | launchDistribute => exact absurd rfl h0
  | launchEntryPlace => exact absurd rfl h0
  | dispatch => exact absurd rfl h0
  | placementDecision => exact absurd rfl h0
  | heldTaskResume => exact absurd rfl h0
  | spillRefill => exact absurd rfl h0
  | spillOfferRetry => exact absurd rfl h0
  | queueAgeing => exact absurd rfl h0
  | pressureSample => exact absurd rfl h0
  | contourStep => exact absurd rfl h0
  | crewGrant => exact absurd rfl h0
  | crewTarget => exact absurd rfl h0
  | crewSwap => exact absurd rfl h0
  | crewRestore => exact absurd rfl h0
  | heatSweep => exact absurd rfl h0
  | memoryDoubleUpset => exact absurd rfl h0
  | dieLost => exact absurd rfl h0
  | routerCycle => exact absurd rfl h0
  | linkDead => exact absurd rfl h0
  | drainWrite => exact absurd rfl h0
  | fabricTimedReplay => exact absurd rfl h0
  | fabricTransit => exact absurd rfl h0
  | lossPacket => exact absurd rfl h0
  | timeExchange => exact absurd rfl h0
  | flitArrival => exact absurd rfl h0
  | linkNakResend => exact absurd rfl h0
  | sendWindowDoubleUpset => exact absurd rfl h0
  | replayNotice => exact absurd rfl h0
  | portDown => exact absurd rfl h0
  | orteWrite => exact absurd rfl h0
  | oparkWrite => exact absurd rfl h0
  | oheatWrite => exact absurd rfl h0
  | oasgnWrite => exact absurd rfl h0
  | opticalWakeTrigger => exact absurd rfl h0
  | ringSettleDone => exact absurd rfl h0
  | ringLocked => exact absurd rfl h0
  | ringLockTimeout => exact absurd rfl h0
  | ringDeskewDone => exact absurd rfl h0
  | stripeWiden => exact absurd rfl h0
  | monitorSample => exact absurd rfl h0
  | parkFlit => exact absurd rfl h0
  | wakeFlit => exact absurd rfl h0
  | lockReport => exact absurd rfl h0
  | hostLaunchWrite => exact absurd rfl h0
  | hostCommandWrite => exact absurd rfl h0
  | hostQueueDeliver => exact absurd rfl h0
  | hqsizeWrite => exact absurd rfl h0
  | hqheadWrite => exact absurd rfl h0
  | hqbaseWrite => exact absurd rfl h0
  | powerGood => exact absurd rfl h0
  | thermalThrottle => exact absurd rfl h0
  | thermalTrip => exact absurd rfl h0
  | d3hotRequest => exact absurd rfl h0
  | getVersion => exact absurd rfl h0
  | getCapabilities => exact absurd rfl h0
  | negotiateAlgorithms => exact absurd rfl h0
  | getDigests => exact absurd rfl h0
  | getCertificate => exact absurd rfl h0
  | challenge => exact absurd rfl h0
  | getMeasurements => exact absurd rfl h0
  | keyExchange => exact absurd rfl h0
  | finish => exact absurd rfl h0
  | create => exact absurd rfl h0
  | destroy => exact absurd rfl h0
  | setKey => exact absurd rfl h0
  | setPkg => exact absurd rfl h0
  | log => exact absurd rfl h0
  | route => exact absurd rfl h0
  | packageLoss => exact absurd rfl h0
  | illegalEncoding => exact absurd rfl h0
  | fetchFault => exact absurd rfl h0
  | vendorDefinedRequest => exact absurd rfl h0

end Sys2Proof.Laws

/-! The integer ALU (04_scalar.md R98 to R101): its functions are those of the statements, and what the bit counts count. -/

namespace Sys2Proof.Machine

/-! ### Comparisons -/

theorem aluMin_eq {n : Nat} (x y : BitVec n) : aluMin x y = if x.toInt ≤ y.toInt then x else y := by
  rw [aluMin, BitVec.slt]
  split_ifs with hlt hle hle
  · rfl
  · exact absurd (Int.le_of_lt (of_decide_eq_true hlt)) hle
  · exact (BitVec.eq_of_toInt_eq (Int.le_antisymm hle (Int.not_lt.1 fun h => hlt (decide_eq_true h)))).symm
  · rfl

theorem aluMax_eq {n : Nat} (x y : BitVec n) : aluMax x y = if x.toInt ≤ y.toInt then y else x := by
  rw [aluMax, BitVec.slt]
  split_ifs with hlt hle hle
  · rfl
  · exact absurd (Int.le_of_lt (of_decide_eq_true hlt)) hle
  · exact BitVec.eq_of_toInt_eq (Int.le_antisymm hle (Int.not_lt.1 fun h => hlt (decide_eq_true h)))
  · rfl

theorem aluMinu_eq {n : Nat} (x y : BitVec n) : aluMinu x y = if x.toNat ≤ y.toNat then x else y := by
  simp only [aluMinu, BitVec.lt_def]
  split_ifs with hlt hle hle
  · rfl
  · exact absurd (Nat.le_of_lt hlt) hle
  · exact (BitVec.eq_of_toNat_eq (Nat.le_antisymm hle (Nat.not_lt.1 hlt))).symm
  · rfl

theorem aluMaxu_eq {n : Nat} (x y : BitVec n) : aluMaxu x y = if x.toNat ≤ y.toNat then y else x := by
  simp only [aluMaxu, BitVec.lt_def]
  split_ifs with hlt hle hle
  · rfl
  · exact absurd (Nat.le_of_lt hlt) hle
  · exact BitVec.eq_of_toNat_eq (Nat.le_antisymm hle (Nat.not_lt.1 hlt))
  · rfl

theorem aluSlt_eq {n : Nat} (x y : BitVec n) : aluSlt x y = if x.toInt < y.toInt then 1 else 0 := by
  simp only [aluSlt, BitVec.slt, decide_eq_true_eq]

theorem aluSltu_eq {n : Nat} (x y : BitVec n) : aluSltu x y = if x.toNat < y.toNat then 1 else 0 := by
  simp only [aluSltu, BitVec.lt_def]

theorem aluSel_eq (z x y : Word) : aluSel z x y = if z ≠ 0 then x else y := by rw [aluSel, ite_not]

theorem narrow1_eq {f : BitVec 32 → BitVec 32} (x : Word) : narrow1 f x = (f (x.setWidth 32)).signExtend 64 := rfl

/-! ### Counts of bits -/

/-- How many of the first bits are 0. -/
def zerosFirst (p : Nat → Bool) (n : Nat) : Nat := (((List.range n).map p).takeWhile (! ·)).length

theorem zerosFirst_eq (p : Nat → Bool) (n : Nat) : zerosFirst p n = ((List.range n).map p).findIdx id := by
  have hlen : ((List.range n).map p).findIdx id ≤ ((List.range n).map p).length := List.findIdx_le_length
  rw [zerosFirst, List.takeWhile_eq_take_findIdx_not, List.length_take]
  simp only [Bool.not_not]
  exact Nat.min_eq_left hlen

theorem zerosFirst_le (p : Nat → Bool) (n : Nat) : zerosFirst p n ≤ n := by
  rw [zerosFirst_eq]
  exact List.findIdx_le_length.trans (by simp)

theorem eq_false_of_lt_zerosFirst {p : Nat → Bool} {n i : Nat} (h : i < zerosFirst p n) : p i = false := by
  rw [zerosFirst_eq] at h
  simpa using List.not_of_lt_findIdx h

theorem eq_true_at_zerosFirst {p : Nat → Bool} {n : Nat} (h : zerosFirst p n < n) : p (zerosFirst p n) = true := by
  have hlt : ((List.range n).map p).findIdx id < ((List.range n).map p).length := by
    rw [← zerosFirst_eq]
    simpa using h
  have hat := List.findIdx_getElem (w := hlt)
  simpa [zerosFirst_eq] using hat

theorem toNat_ofNat_zerosFirst (p : Nat → Bool) : (BitVec.ofNat 64 (zerosFirst p 64)).toNat = zerosFirst p 64 := by
  have := zerosFirst_le p 64
  rw [BitVec.toNat_ofNat]
  omega

/-- A count of leading or trailing zeros: as many zeros as it says, then a 1. -/
theorem zerosFirst_spec (p : Nat → Bool) :
    (BitVec.ofNat 64 (zerosFirst p 64)).toNat ≤ 64 ∧ (∀ i < (BitVec.ofNat 64 (zerosFirst p 64)).toNat, p i = false)
      ∧ ((BitVec.ofNat 64 (zerosFirst p 64)).toNat < 64 → p (BitVec.ofNat 64 (zerosFirst p 64)).toNat = true) := by
  rw [toNat_ofNat_zerosFirst]
  exact ⟨zerosFirst_le p 64, fun i h => eq_false_of_lt_zerosFirst h, eq_true_at_zerosFirst⟩

theorem length_filter_eq_sum {α : Type} (p : α → Bool) (l : List α) : (l.filter p).length = (l.map fun a => (p a).toNat).sum := by
  induction l with
  | nil => rfl
  | cons a l ih => cases h : p a <;> simp [h, ih, Nat.add_comm]

theorem toNat_aluPopc (x : Word) : (aluPopc x).toNat = ((List.range 64).map (fun i => (x.getLsbD i).toNat)).sum := by
  have hlen : ((List.range 64).filter (fun i => x.getLsbD i)).length ≤ 64 :=
    (List.length_filter_le _ _).trans (by simp)
  rw [aluPopc, BitVec.toNat_ofNat, Nat.mod_eq_of_lt (by omega), length_filter_eq_sum]

theorem getLsbD_aluBrev (x : Word) {i : Nat} (h : i < 64) : (aluBrev x).getLsbD i = x.getLsbD (63 - i) := by
  rw [aluBrev, BitVec.getLsbD_reverse, BitVec.getMsbD_eq_getLsbD, decide_eq_true h, Bool.true_and]

theorem getLsbD_aluBswp (x : Word) {i j : Nat} (hi : i < 8) (hj : j < 8) :
    (aluBswp x).getLsbD (8 * i + j) = x.getLsbD (8 * (7 - i) + j) := by
  unfold aluBswp
  iterate 7 rw [BitVec.getLsbD_append]
  simp only [BitVec.getLsbD_extractLsb']
  interval_cases i <;> interval_cases j <;> rfl

/-! ### The statements -/

/-- Settles O1: each operation is a register shape of its function; the counts are those of the first bits that are 0. -/
theorem alu64Results : Obligations.Alu64Results := by
  unfold Obligations.Alu64Results
  refine ⟨⟨Binary_of _ ?_ fun _ _ => rfl, Binary_of _ ?_ fun _ _ => rfl, Binary_of _ ?_ fun _ _ => rfl, Binary_of _ ?_ fun _ _ => rfl,
    Binary_of _ ?_ fun _ _ => rfl, Binary_of _ ?_ fun _ _ => rfl, Binary_of aluShl ?_ fun _ _ => rfl, Binary_of aluShr ?_ fun _ _ => rfl,
    Binary_of aluSar ?_ fun _ _ => rfl, Binary_of aluRot ?_ fun _ _ => rfl, Binary_of aluMin ?_ aluMin_eq, Binary_of aluMax ?_ aluMax_eq,
    Binary_of aluMinu ?_ aluMinu_eq, Binary_of aluMaxu ?_ aluMaxu_eq, Binary_of aluSlt ?_ aluSlt_eq, Binary_of aluSltu ?_ aluSltu_eq,
    Ternary_of aluSel ?_ aluSel_eq, Unary_of id ?_ fun _ => rfl, Unary_of _ ?_ fun _ => rfl, Unary_of _ ?_ fun _ => rfl,
    Unary_of _ ?_ fun _ => rfl, Unary_of _ ?_ fun _ => rfl, Unary_of _ ?_ fun _ => rfl⟩,
    fun x => ⟨zerosFirst_spec fun i => x.getLsbD (63 - i), zerosFirst_spec fun i => x.getLsbD i, toNat_aluPopc x,
      fun i h => getLsbD_aluBrev x h, fun i hi j hj => getLsbD_aluBswp x hi hj⟩⟩
  all_goals
    intros
    rfl

/-- Settles O2: the same functions on the low halves. -/
theorem alu32Results : Obligations.Alu32Results := by
  unfold Obligations.Alu32Results
  refine ⟨Binary_of (narrow _) ?_ (narrow_eq_low32 fun _ _ => rfl), Binary_of (narrow _) ?_ (narrow_eq_low32 fun _ _ => rfl),
    Binary_of (narrow _) ?_ (narrow_eq_low32 fun _ _ => rfl), Binary_of (narrow _) ?_ (narrow_eq_low32 fun _ _ => rfl),
    Binary_of (narrow _) ?_ (narrow_eq_low32 fun _ _ => rfl), Binary_of (narrow _) ?_ (narrow_eq_low32 fun _ _ => rfl),
    Binary_of (narrow aluShl) ?_ (narrow_eq_low32 fun _ _ => rfl), Binary_of (narrow aluShr) ?_ (narrow_eq_low32 fun _ _ => rfl),
    Binary_of (narrow aluSar) ?_ (narrow_eq_low32 fun _ _ => rfl), Binary_of (narrow aluRot) ?_ (narrow_eq_low32 fun _ _ => rfl),
    Binary_of (narrow aluMin) ?_ (narrow_eq_low32 aluMin_eq), Binary_of (narrow aluMax) ?_ (narrow_eq_low32 aluMax_eq),
    Binary_of (narrow aluMinu) ?_ (narrow_eq_low32 aluMinu_eq), Binary_of (narrow aluMaxu) ?_ (narrow_eq_low32 aluMaxu_eq),
    Binary_of (narrow aluSlt) ?_ (narrow_eq_low32 aluSlt_eq), Binary_of (narrow aluSltu) ?_ (narrow_eq_low32 aluSltu_eq),
    Unary_of (narrow1 aluClz) ?_ fun _ => rfl, Unary_of (narrow1 aluCtz) ?_ fun _ => rfl, Unary_of (narrow1 aluPopc) ?_ fun _ => rfl⟩
  all_goals
    intros
    rfl

/-! ### Immediates (R100, R101) -/

theorem count_immCount (c : BitVec 6) : count (immCount c) = c.toNat := by
  have := c.isLt
  simp only [count, immCount, BitVec.toNat_setWidth]
  omega

theorem getLsbD_putHalf (z : Word) (h : BitVec 2) (i : BitVec 16) (k : Nat) :
    (putHalf z h i).getLsbD k = if k / 16 = h.toNat then i.getLsbD (k % 16) else z.getLsbD k := by
  have := h.isLt
  rw [putHalf, getLsbD_setBits _ _ (by omega) (by omega)]
  by_cases hin : 16 * h.toNat ≤ k ∧ k ≤ 16 * h.toNat + 15
  · rw [if_pos hin, if_pos (by omega), BitVec.testBit_toNat, show k - 16 * h.toNat = k % 16 by omega]
  · rw [if_neg hin, if_neg (by omega)]

theorem exec_lih (s : State) (d : Reg) (h : BitVec 2) (i : BitVec 16) :
    exec (.lih d h i) s = unary s 4 d d false (fun z => putHalf z h i) := rfl

/-- Settles O3: each immediate is the second value of an operation of `alu64Results`; LIH replaces a field. -/
theorem immediateResults : Obligations.ImmediateResults := by
  unfold Obligations.ImmediateResults
  refine ⟨UnaryImm_of (fun x i => x + imm10 i) ?_ fun _ _ => rfl, UnaryImm_of (fun x i => x &&& imm10 i) ?_ fun _ _ => rfl,
    UnaryImm_of (fun x i => x ||| imm10 i) ?_ fun _ _ => rfl, UnaryImm_of (fun x i => x ^^^ imm10 i) ?_ fun _ _ => rfl,
    UnaryImm_of (fun x c => aluShl x (immCount c)) ?_ fun x c => by rw [aluShl, count_immCount],
    UnaryImm_of (fun x c => aluShr x (immCount c)) ?_ fun x c => by rw [aluShr, count_immCount],
    UnaryImm_of (fun x c => aluSar x (immCount c)) ?_ fun x c => by rw [aluSar, count_immCount],
    UnaryImm_of (fun x c => aluRot x (immCount c)) ?_ fun x c => by rw [aluRot, count_immCount],
    UnaryImm_of (fun x i => aluSlt x (imm10 i)) ?_ fun x i => aluSlt_eq x _,
    UnaryImm_of (fun x i => aluSltu x (imm10 i)) ?_ fun x i => aluSltu_eq x _,
    UnaryImm_of (fun x i => aluMin x (imm10 i)) ?_ fun x i => aluMin_eq x _,
    UnaryImm_of (fun x i => aluMax x (imm10 i)) ?_ fun x i => aluMax_eq x _,
    UnaryImm_of (fun x i => narrow (· + ·) x (imm10 i)) ?_ fun _ _ => rfl,
    fun s d i hr => constant_next hr, ?lih⟩
  case lih =>
    intro s d h i z v hz hbits hr
    obtain rfl : v = putHalf z h i :=
      BitVec.eq_of_getLsbD_eq fun k hk => (hbits k hk).trans (getLsbD_putHalf z h i k).symm
    rw [Completes, exec_lih]
    exact unary_next hz hr
  all_goals exact fun _ _ _ _ _ => rfl

/-! ### Control flow (R112 to R114) -/

theorem bitAt_zero (x : Word) : bitAt x 0 = x.getLsbD 0 := rfl

theorem conclude_transfer {s : State} {target : Word} {dies : List Reg} {writes : List (Reg × Word)}
    (ht : target.getLsbD 0 = false) (h : s.mayRetire dies writes = true) :
    conclude s (s.transfer target dies writes) = .next (s.landedAt target dies writes) := by
  rw [State.transfer, bitAt_zero, ht, if_neg Bool.false_ne_true, retireTo_ok h]
  rfl

theorem conclude_transfer_odd {s : State} {target : Word} {dies : List Reg} {writes : List (Reg × Word)}
    (ht : target.getLsbD 0 = true) :
    conclude s (s.transfer target dies writes) = .next (s.takeTrap { cause := .address, faddr := target }) := by
  rw [State.transfer, bitAt_zero, ht, if_pos rfl]
  rfl

theorem exec_bc {s : State} {a b : Reg} {l m : Bool} {c : BitVec 3} {o : BitVec 10} {x y : Word} (hx : Reads s a x) (hy : Reads s b y) :
    exec (.bc a l b m c o) s
      = conclude s (branch s 4 (condHolds c x y) (s.me.pc + o.signExtend 64 * 2) (used l a ++ used m b)) := by
  rw [Reads] at hx hy
  change execBc a l b m c o s = _
  simp only [execBc, hx, hy, bind, Except.bind]
  rfl

theorem exec_jr {s : State} {d a : Reg} {l : Bool} {i : BitVec 10} {x : Word} (hx : Reads s a x) :
    exec (.jr d a l i) s = conclude s (s.transfer (x + i.signExtend 64) (used l a) [(d, s.me.pc + 4)]) := by
  rw [Reads] at hx
  change execJr d a l i s = _
  simp only [execJr, hx, bind, Except.bind]
  rfl

theorem exec_loop {s : State} {d : Reg} {i : BitVec 10} {x : Word} (hx : Reads s d x) :
    exec (.loop d i) s = conclude s (if x = 0 then s.retire 4 [] [] else if x = 1 then s.retire 4 [] [(d, 0)]
      else s.transfer (s.me.pc + i.signExtend 64 * 2) [] [(d, x - 1)]) := by
  rw [Reads] at hx
  change execLoop d i s = _
  simp only [execLoop, hx, bind, Except.bind]
  rfl

theorem sle_eq_not_slt {n : Nat} (x y : BitVec n) : decide (y.toInt ≤ x.toInt) = !x.slt y := by
  rw [BitVec.slt, ← decide_not]
  simp only [Int.not_lt]

theorem ule_eq_not_ult {n : Nat} (x y : BitVec n) : decide (y.toNat ≤ x.toNat) = !decide (x < y) := by
  rw [← decide_not]
  simp only [BitVec.lt_def, Nat.not_lt]

/-- Settles O9: a branch splits on its condition and its target, a jump on its target, LOOP on its count. -/
theorem controlFlow : Obligations.ControlFlow := by
  unfold Obligations.ControlFlow
  refine ⟨?bc, fun s o ht => ⟨fun hr => conclude_transfer ht hr, fun hr => conclude_transfer ht hr⟩,
    ?jumpOdd, ?jrOdd, ?jr, ?loop⟩
  case bc =>
    intro s a l b m c o x y hx hy dies taken target
    have htaken : taken = condHolds c x y := by
      simp only [taken, condHolds, sle_eq_not_slt, ule_eq_not_ult]
      rfl
    rw [htaken]
    simp only [Completes, exec_bc hx hy]
    refine ⟨fun hc hr => ?_, fun hc ht hr => ?_, fun hc ht => ?_⟩
    · rw [branch, hc, if_neg Bool.false_ne_true, conclude_retire hr]
    · rw [branch, hc, if_pos rfl, conclude_transfer ht hr]
    · rw [branch, hc, if_pos rfl, conclude_transfer_odd ht]
  case jumpOdd =>
    intro s o target ht
    exact ⟨conclude_transfer_odd ht, conclude_transfer_odd ht⟩
  case jrOdd =>
    intro s d a l i x hx ht
    rw [Completes, exec_jr hx, conclude_transfer_odd ht]
  case jr =>
    intro s d a l i x hx ht hr
    rw [Completes, exec_jr hx, conclude_transfer ht hr]
  case loop =>
    intro s d i x hx target
    simp only [Completes, exec_loop hx]
    refine ⟨fun h0 hr => ?_, fun h1 hr => ?_, fun h0 h1 ht hr => ?_, fun h0 h1 ht => ?_⟩
    · rw [if_pos h0, conclude_retire hr]
    · rw [if_neg (by rw [h1]; decide), if_pos h1, conclude_retire hr]
    · rw [if_neg h0, if_neg h1, conclude_transfer ht hr]
    · rw [if_neg h0, if_neg h1, conclude_transfer_odd ht]

end Sys2Proof.Machine

/-! Memory (00_scope.md R5): a byte written is read back, and a store of n bytes writes those n bytes. -/

namespace Sys2Proof.Machine

/-- Below its first key a list holds nothing. -/
theorem readByte_of_lt {m : List Host.Cell} {a : Nat} (h : ∀ c ∈ m, a < c.1) : readByte m a = blankByte := by
  induction m with
  | nil => rfl
  | cons e m ih =>
    obtain ⟨k, v⟩ := e
    have hk : k ≠ a := Nat.ne_of_gt (h (k, v) List.mem_cons_self)
    rw [readByte, if_neg hk, ih fun c hc => h c (List.mem_cons_of_mem _ hc)]

theorem readByte_writeByte_self {m : List Host.Cell} (a : Nat) (b : Byte) (h : Memory.wf m = true) :
    readByte (writeByte m a b) a = b := by
  induction m with
  | nil =>
    rw [writeByte]
    split
    · exact (‹b = blankByte›).symm
    · simp [readByte]
  | cons e m ih =>
    obtain ⟨k, v⟩ := e
    obtain ⟨-, hkeys, hrest⟩ := wf_cons.1 h
    rw [writeByte]
    split_ifs with hlt hb heq hb
    · rw [hb]
      exact readByte_of_lt fun c hc => (List.mem_cons.1 hc).elim (fun e => e ▸ hlt) fun hc => Nat.lt_trans hlt (hkeys c hc)
    · simp [readByte]
    · subst heq
      rw [hb]
      exact readByte_of_lt hkeys
    · simp [readByte]
    · rw [readByte, if_neg (Ne.symm heq), ih hrest]

theorem readByte_writeByte_other {m : List Host.Cell} {a c : Nat} (b : Byte) (h : c ≠ a) :
    readByte (writeByte m a b) c = readByte m c := by
  induction m with
  | nil =>
    rw [writeByte]
    split
    · rfl
    · simp [readByte, h.symm]
  | cons e m ih =>
    obtain ⟨k, v⟩ := e
    rw [writeByte]
    split_ifs with hlt hb heq hb
    · rfl
    · rw [readByte, if_neg h.symm]
    · rw [readByte, if_neg (heq ▸ h.symm)]
    · rw [readByte, readByte, if_neg h.symm, if_neg (heq ▸ h.symm)]
    · rw [readByte, readByte, ih]

theorem readByte_writeBytes_outside {m : List Host.Cell} {a n c : Nat} (v : Nat) (h : c < a ∨ a + n ≤ c) :
    readByte (writeBytes m a n v) c = readByte m c := by
  induction n generalizing m a v with
  | zero => rfl
  | succ n ih => rw [writeBytes, ih _ (by omega), readByte_writeByte_other _ (by omega)]

theorem readByte_writeBytes_inside {m : List Host.Cell} (a : Nat) {n i : Nat} (v : Nat) (hw : Memory.wf m = true) (h : i < n) :
    readByte (writeBytes m a n v) (a + i) = BitVec.ofNat 8 (v / 256 ^ i) := by
  induction n generalizing m a v i with
  | zero => omega
  | succ n ih =>
    rw [writeBytes]
    cases i with
    | zero =>
      change readByte _ a = _
      rw [readByte_writeBytes_outside _ (by omega), readByte_writeByte_self a _ hw, Nat.pow_zero, Nat.div_one]
    | succ i =>
      rw [Nat.add_comm i, ← Nat.add_assoc, ih (a + 1) (v / 256) (writeByte_wf _ _ hw) (by omega), Nat.div_div_eq_div_mul, Nat.pow_add,
        Nat.pow_one]

/-- Settles O18: a byte by the recursion on the list of cells, a store by the recursion on its bytes. -/
theorem storesAreReadBack : Obligations.StoresAreReadBack := by
  unfold Obligations.StoresAreReadBack
  exact ⟨fun m a b hw => ⟨readByte_writeByte_self a b hw, fun c h => readByte_writeByte_other b h⟩,
    fun s key n v hw => ⟨fun a h => readByte_writeBytes_outside v h, fun i h => readByte_writeBytes_inside key v hw h⟩⟩

/-! ### Fields of a word after one of them was replaced -/

theorem bitsOf_setBits_self (x : Word) (n : Nat) {hi lo : Nat} (hl : lo ≤ hi) (hh : hi < 64) :
    bitsOf (setBits x hi lo n) hi lo = n % 2 ^ (hi + 1 - lo) := by
  refine Nat.eq_of_testBit_eq fun i => ?_
  rw [testBit_bitsOf, getLsbD_setBits x n hl hh, Nat.testBit_mod_two_pow]
  by_cases hi' : i < hi + 1 - lo
  · rw [if_pos (by omega), Nat.add_sub_cancel_left]
  · simp [hi']

theorem bitsOf_setBits_other (x : Word) (n : Nat) {hi lo hi' lo' : Nat} (hl : lo ≤ hi) (hh : hi < 64) (h : hi' < lo ∨ hi < lo') :
    bitsOf (setBits x hi lo n) hi' lo' = bitsOf x hi' lo' := by
  refine Nat.eq_of_testBit_eq fun i => ?_
  rw [testBit_bitsOf, testBit_bitsOf, getLsbD_setBits x n hl hh]
  by_cases hin : i < hi' + 1 - lo'
  · rw [if_neg (by omega)]
  · simp [hin]

theorem bitsOf_lt (x : Word) (hi lo : Nat) : bitsOf x hi lo < 2 ^ (hi + 1 - lo) := Nat.mod_lt _ (Nat.two_pow_pos _)

/-- A field copied from another word. -/
theorem bitsOf_setBits_copied (x v : Word) {hi lo : Nat} (hl : lo ≤ hi) (hh : hi < 64) :
    bitsOf (setBits x hi lo (bitsOf v hi lo)) hi lo = bitsOf v hi lo := by
  rw [bitsOf_setBits_self x _ hl hh, Nat.mod_eq_of_lt (bitsOf_lt v hi lo)]

theorem bitAt_setBits_other (x : Word) (n : Nat) {hi lo i : Nat} (hl : lo ≤ hi) (hh : hi < 64) (h : i < lo ∨ hi < i) :
    bitAt (setBits x hi lo n) i = bitAt x i := by
  rw [bitAt, getLsbD_setBits x n hl hh, if_neg (by omega), bitAt]

theorem bitAt_setBits_copied (x v : Word) {i : Nat} (hh : i < 64) : bitAt (setBits x i i (bitsOf v i i)) i = bitAt v i := by
  rw [bitAt, getLsbD_setBits x _ (Nat.le_refl i) hh, if_pos ⟨Nat.le_refl i, Nat.le_refl i⟩, testBit_bitsOf]
  simp [bitAt]

/-! ### The state registers (10_system_instr.md R267, R270, R274) -/

/-- What a write of STATUS leaves of its fields. -/
structure StatusWrite (old v new : Word) (level : Nat) : Prop where
  pl : bitsOf new 13 12 = bitsOf old 13 12
  xh : bitAt new 11 = bitAt old 11
  lutSat8 : bitsOf new 8 7 = bitsOf v 8 7
  rm : bitsOf new 2 0 = if bitsOf v 2 0 < 5 then bitsOf v 2 0 else bitsOf old 2 0
  step : bitAt new 9 = if level = 0 then bitAt old 9 else bitAt v 9
  xpl : bitsOf new 15 14 = if level = 0 ∨ level < bitsOf v 15 14 then bitsOf old 15 14 else bitsOf v 15 14

theorem statusWritten_fields (old v : Word) (level : Nat) : StatusWrite old v (statusWritten old v level) level := by
  constructor <;> simp only [statusWritten] <;> split_ifs <;>
    simp_all [bitsOf_setBits_other, bitsOf_setBits_copied, bitAt_setBits_other, bitAt_setBits_copied]
  all_goals omega

theorem and_and_self (v m : Word) : v &&& m &&& m = v &&& m := by rw [BitVec.and_assoc, BitVec.and_self]

/-- A register of a partition reads as it was written, cut to its width; the ageing time refuses 0. -/
theorem partRegs_read_write (r : PartRegs) {n : Nat} (v : Word) (h0 : 0x200 ≤ n) (h1 : n ≤ 0x20B) :
    (∀ m, 0x200 ≤ m → m ≤ 0x20B → m ≠ n → (r.write n v).read m = r.read m)
    ∧ (n = 0x206 → (r.write n v).read n = if v &&& 0xFFFF = 0 then r.read n else v &&& 0xFFFF)
    ∧ (n ≠ 0x206 → (r.write n v).read n = v &&&
        (if n = 0x202 then 0xF else if n = 0x204 ∨ n = 0x205 then 0xFF else if n = 0x208 then 0xFFFFFFFF
         else if n < 0x209 then 0xFFFF else -1)) := by
  have hall : v &&& -1#64 = v := by rw [BitVec.neg_one_eq_allOnes, BitVec.and_allOnes]
  refine ⟨fun m g0 g1 hm => ?other, fun h => ?ageus, fun h => ?same⟩
  case other =>
    interval_cases n <;> interval_cases m <;> first | exact absurd rfl hm | rfl | skip
    all_goals
      rw [PartRegs.write]
      split <;> rfl
  case ageus =>
    subst h
    rw [PartRegs.write]
    split <;> rfl
  case same => interval_cases n <;> first | exact absurd rfl h | rfl | exact hall.symm

/-- Settles O37: the fields of STATUS one by one; every other register by its number. -/
theorem stateRegisterFields : Obligations.StateRegisterFields := by
  unfold Obligations.StateRegisterFields
  refine ⟨fun c v => ?_, fun r n v h0 h1 => partRegs_read_write r v h0 h1⟩
  obtain ⟨hpl, hxh, hlut, hrm, hstep, hxpl⟩ := statusWritten_fields c.status v c.level
  exact ⟨rfl, rfl, rfl, rfl, rfl, rfl, rfl, and_and_self v _, and_and_self v _, and_and_self v _, hpl, hxh, hlut, hrm, hstep, hxpl⟩

/-! ### Elements of a vector register (07_vector_instr.md R179) -/

/-- The lane of a narrow element in canonical form. -/
def narrowLane (f : Fmt) (x : Nat) : Lane :=
  if f.isSigned then BitVec.ofInt 32 (intValue true f.width x) else BitVec.ofNat 32 (x % 2 ^ f.width)

theorem putElement_narrow (v : List Lane) {f : Fmt} (i x : Nat) (hw : f.width ≠ 64) :
    putElement v f i x = v.set i (narrowLane f x) := by
  simp only [putElement, canonical, narrowLane, if_neg hw]

/-- The lane of an integer gives its value back. -/
theorem toNat_narrowLane_int {sgn : Bool} {w : Nat} (x : Nat) (hw : w = 8 ∨ w = 16 ∨ w = 32) :
    (narrowLane (.int sgn w) x).toNat % 2 ^ w = x % 2 ^ w := by
  rcases hw with rfl | rfl | rfl <;> cases sgn <;>
    simp only [narrowLane, Fmt.isSigned, Fmt.width, intValue, BitVec.toNat_ofInt, BitVec.toNat_ofNat, if_true, if_false,
      Bool.false_eq_true] <;>
    (try split) <;> omega

theorem element_set {v : List Lane} {w : Nat} (hw : w ≠ 64) {i : Nat} (hi : i < v.length) (lane : Lane) (j : Nat) :
    element (v.set i lane) w j = if j = i then lane.toNat % 2 ^ w else element v w j := by
  rw [element, element, if_neg hw, if_neg hw, List.getD_eq_getElem?_getD, List.getD_eq_getElem?_getD, List.getElem?_set]
  by_cases h : j = i
  · subst h
    simp [hi]
  · rw [if_neg (Ne.symm h), if_neg h]

theorem element_putElements {sgn : Bool} {w : Nat} (hw : w = 8 ∨ w = 16 ∨ w = 32) (v : List Lane) (first : Nat) (xs : List Nat) (j : Nat)
    (hfit : first + xs.length ≤ v.length) :
    element (putElements v (.int sgn w) first xs) w j
      = if first ≤ j ∧ j < first + xs.length then xs.getD (j - first) 0 % 2 ^ w else element v w j := by
  have hne : w ≠ 64 := by omega
  induction xs generalizing v first with
  | nil => rw [putElements, if_neg (by simp)]
  | cons x xs ih =>
    rw [List.length_cons] at hfit ⊢
    rw [putElements, putElement_narrow v (f := .int sgn w) first x hne, ih _ _ (by rw [List.length_set]; omega), element_set hne (by omega)]
    by_cases hin : first + 1 ≤ j ∧ j < first + 1 + xs.length
    · rw [if_pos hin, if_pos (by omega), show j - first = j - (first + 1) + 1 by omega, List.getD_cons_succ]
    · rw [if_neg hin]
      by_cases hj : j = first
      · subst hj
        rw [if_pos rfl, if_pos (by omega), Nat.sub_self, List.getD_cons_zero, toNat_narrowLane_int x hw]
      · rw [if_neg hj, if_neg (by omega)]

/-- Settles O31, by the recursion on the elements written. -/
theorem vectorElementsWritten : Obligations.VectorElementsWritten := by
  unfold Obligations.VectorElementsWritten
  rintro v f first xs j ⟨sgn, w, rfl, hw⟩ hfit
  exact element_putElements hw v first xs j hfit

end Sys2Proof.Machine

/-! What a retirement and a trap leave alone (01_assembly.md R25, R28; 10_system_instr.md R276). -/

namespace Sys2Proof.Machine

/-! ### Registers written and killed -/

/-- Nothing of a context differs but its registers: their values, which of them are live, and the earlier contents. -/
def SameButRegisters (c d : Ctx) : Prop :=
  d = { c with regs := d.regs, live := d.live, past := d.past, trapShadow := d.trapShadow, lightShadow := d.lightShadow }

theorem SameButRegisters.refl (c : Ctx) : SameButRegisters c c := rfl

theorem SameButRegisters.trans {a b c : Ctx} (h : SameButRegisters a b) (g : SameButRegisters b c) : SameButRegisters a c := by
  rw [SameButRegisters, g, h]

theorem place_of_sameButRegisters {c d : Ctx} (h : SameButRegisters c d) (r : Reg) : d.place r = c.place r := by
  rw [h]
  rfl

theorem kill_sameButRegisters (c : Ctx) (r : Reg) : SameButRegisters c (c.kill r) := by
  rw [Ctx.kill]
  split <;> rfl

theorem write_sameButRegisters (c : Ctx) (p : Nat) (v : Word) : SameButRegisters c (c.write p v) := by
  unfold Ctx.write
  split
  · rfl
  · split <;> rfl

theorem setReg_sameButRegisters (c : Ctx) (r : Reg) (v : Word) : SameButRegisters c (c.setReg r v) := by
  rw [Ctx.setReg]
  split
  · rfl
  · exact write_sameButRegisters _ _ _

theorem kills_sameButRegisters (dies : List Reg) (c : Ctx) : SameButRegisters c (dies.foldl Ctx.kill c) := by
  induction dies generalizing c with
  | nil => exact .refl c
  | cons r dies ih => exact (kill_sameButRegisters c r).trans (ih _)

theorem writes_sameButRegisters (writes : List (Reg × Word)) (c : Ctx) :
    SameButRegisters c (writes.foldl (fun c x => c.setReg x.1 x.2) c) := by
  induction writes generalizing c with
  | nil => exact .refl c
  | cons x writes ih => exact (setReg_sameButRegisters c x.1 x.2).trans (ih _)

/-! ### Places -/

theorem getD_setIfInBounds {n : Nat} (v : Vector Word n) (q p : Nat) (x : Word) :
    (v.setIfInBounds q x).toList.getD p 0 = if p = q ∧ q < n then x else v.toList.getD p 0 := by
  rw [Vector.toList_setIfInBounds, List.getD_eq_getElem?_getD, List.getD_eq_getElem?_getD, List.getElem?_set]
  by_cases h : q = p
  · subst h
    by_cases hq : q < n
    · simp [hq]
    · simp [hq]
  · simp [h, Ne.symm h]

theorem place_lt (c : Ctx) (r : Reg) : c.place r < 40 := by
  have := r.isLt
  unfold Ctx.place
  split_ifs <;> omega

theorem at_write_other (c : Ctx) {p q : Nat} (v : Word) (h : p ≠ q) : (c.write q v).at_ p = c.at_ p := by
  unfold Ctx.write
  split_ifs <;> simp only [Ctx.at_] <;> split_ifs <;> try rfl
  all_goals
    rw [getD_setIfInBounds, if_neg (by omega)]

theorem at_write_self (c : Ctx) {p : Nat} (v : Word) (h : p < 40) : (c.write p v).at_ p = v := by
  unfold Ctx.write
  split_ifs <;> simp only [Ctx.at_] <;> split_ifs
  all_goals rw [getD_setIfInBounds, if_pos (by omega)]

theorem getLsbD_bit (q p : Nat) (hp : p < 32) : ((1 : BitVec 32) <<< q).getLsbD p = decide (p = q) := by
  rw [show (1 : BitVec 32) = 1#32 from rfl, BitVec.getLsbD_shiftLeft, BitVec.getLsbD_one, decide_eq_true hp]
  by_cases h : p = q
  · simp [h]
  · by_cases hlt : p < q
    · simp [h, hlt]
    · simp [h, hlt, show ¬ p - q = 0 by omega]

theorem live_write_other (c : Ctx) {p q : Nat} (v : Word) (hp : p < 32) (h : p ≠ q) :
    (c.write q v).live.getLsbD p = c.live.getLsbD p := by
  unfold Ctx.write
  split_ifs
  · rw [BitVec.getLsbD_or, getLsbD_bit q p hp, decide_eq_false h, Bool.or_false]
  · rfl
  · rfl

theorem live_write_self (c : Ctx) {p : Nat} (v : Word) (hp : p < 32) : (c.write p v).live.getLsbD p = true := by
  rw [Ctx.write, if_pos hp]
  change (c.live ||| _).getLsbD p = true
  rw [BitVec.getLsbD_or, getLsbD_bit p p hp, decide_eq_true rfl, Bool.or_true]

theorem live_kill_other (c : Ctx) {p : Nat} {r : Reg} (hp : p < 32) (h : p ≠ c.place r) :
    (c.kill r).live.getLsbD p = c.live.getLsbD p := by
  rw [Ctx.kill]
  split
  · rw [BitVec.getLsbD_and, BitVec.getLsbD_not, getLsbD_bit _ p hp, decide_eq_false h, decide_eq_true hp]
    simp
  · rfl

theorem at_kill (c : Ctx) (r : Reg) (p : Nat) : (c.kill r).at_ p = c.at_ p := by
  rw [Ctx.kill]
  split <;> rfl

theorem at_setReg_other (c : Ctx) {p : Nat} {r : Reg} (v : Word) (h : r = 0 ∨ p ≠ c.place r) : (c.setReg r v).at_ p = c.at_ p := by
  rw [Ctx.setReg]
  split
  · rfl
  · exact at_write_other c v (h.resolve_left ‹_›)

theorem live_setReg_other (c : Ctx) {p : Nat} {r : Reg} (v : Word) (hp : p < 32) (h : r = 0 ∨ p ≠ c.place r) :
    (c.setReg r v).live.getLsbD p = c.live.getLsbD p := by
  rw [Ctx.setReg]
  split
  · rfl
  · exact live_write_other c v hp (h.resolve_left ‹_›)

theorem at_kills (dies : List Reg) (c : Ctx) (p : Nat) : (dies.foldl Ctx.kill c).at_ p = c.at_ p := by
  induction dies generalizing c with
  | nil => rfl
  | cons r dies ih => rw [List.foldl_cons, ih, at_kill]

theorem live_kills_other (dies : List Reg) (c : Ctx) {p : Nat} (hp : p < 32) (h : ∀ r ∈ dies, p ≠ c.place r) :
    (dies.foldl Ctx.kill c).live.getLsbD p = c.live.getLsbD p := by
  induction dies generalizing c with
  | nil => rfl
  | cons r dies ih =>
    have hplace := place_of_sameButRegisters (kill_sameButRegisters c r)
    rw [List.foldl_cons, ih _ fun x hx => hplace x ▸ h x (List.mem_cons_of_mem _ hx), live_kill_other c hp (h r List.mem_cons_self)]

theorem at_writes_other (writes : List (Reg × Word)) (c : Ctx) {p : Nat} (h : ∀ w ∈ writes, w.1 = 0 ∨ p ≠ c.place w.1) :
    (writes.foldl (fun c x => c.setReg x.1 x.2) c).at_ p = c.at_ p := by
  induction writes generalizing c with
  | nil => rfl
  | cons x writes ih =>
    have hplace := place_of_sameButRegisters (setReg_sameButRegisters c x.1 x.2)
    rw [List.foldl_cons, ih _ fun w hw => hplace w.1 ▸ h w (List.mem_cons_of_mem _ hw), at_setReg_other c _ (h x List.mem_cons_self)]

theorem live_writes_other (writes : List (Reg × Word)) (c : Ctx) {p : Nat} (hp : p < 32)
    (h : ∀ w ∈ writes, w.1 = 0 ∨ p ≠ c.place w.1) :
    (writes.foldl (fun c x => c.setReg x.1 x.2) c).live.getLsbD p = c.live.getLsbD p := by
  induction writes generalizing c with
  | nil => rfl
  | cons x writes ih =>
    have hplace := place_of_sameButRegisters (setReg_sameButRegisters c x.1 x.2)
    rw [List.foldl_cons, ih _ fun w hw => hplace w.1 ▸ h w (List.mem_cons_of_mem _ hw), live_setReg_other c _ hp (h x List.mem_cons_self)]

/-! ### A retired context -/

/-- The context before its pc, its wait and its lost loads are written: the registers killed and written. -/
def Ctx.wrote (c : Ctx) (dies : List Reg) (writes : List (Reg × Word)) : Ctx :=
  writes.foldl (fun c x => c.setReg x.1 x.2) (dies.foldl Ctx.kill c)

theorem wrote_sameButRegisters (c : Ctx) (dies : List Reg) (writes : List (Reg × Word)) : SameButRegisters c (c.wrote dies writes) :=
  (kills_sameButRegisters dies c).trans (writes_sameButRegisters writes _)

theorem place_kills (dies : List Reg) (c : Ctx) (r : Reg) : (dies.foldl Ctx.kill c).place r = c.place r :=
  place_of_sameButRegisters (kills_sameButRegisters dies c) r

theorem at_wrote_other (c : Ctx) (dies : List Reg) {writes : List (Reg × Word)} {p : Nat}
    (h : ∀ w ∈ writes, w.1 = 0 ∨ p ≠ c.place w.1) : (c.wrote dies writes).at_ p = c.at_ p := by
  rw [Ctx.wrote, at_writes_other writes _ fun w hw => place_kills dies c w.1 ▸ h w hw, at_kills]

theorem live_wrote_other (c : Ctx) {dies : List Reg} {writes : List (Reg × Word)} {p : Nat} (hp : p < 32)
    (hw : ∀ w ∈ writes, w.1 = 0 ∨ p ≠ c.place w.1) (hd : ∀ r ∈ dies, p ≠ c.place r) :
    (c.wrote dies writes).live.getLsbD p = c.live.getLsbD p := by
  rw [Ctx.wrote, live_writes_other writes _ hp fun w hw' => place_kills dies c w.1 ▸ hw w hw', live_kills_other dies c hp hd]

/-- A single register written holds its value, and is live where it stands in the pool. -/
theorem wrote_single (c : Ctx) (dies : List Reg) {d : Reg} (v : Word) (hd : d ≠ 0) :
    (c.wrote dies [(d, v)]).at_ (c.place d) = v
      ∧ (c.place d < 32 → (c.wrote dies [(d, v)]).live.getLsbD (c.place d) = true) := by
  have hwrote : c.wrote dies [(d, v)] = (dies.foldl Ctx.kill c).write (c.place d) v := by
    rw [Ctx.wrote, List.foldl_cons, List.foldl_nil, Ctx.setReg, if_neg hd, place_kills]
  rw [hwrote]
  exact ⟨at_write_self _ v (place_lt c d), fun hp => live_write_self _ v hp⟩

theorem discards_of_none_lost {s : State} (writes : List (Reg × Word)) (h : s.me.lostLoads = []) : s.discards writes = s := by
  unfold State.discards
  induction writes with
  | nil => rfl
  | cons x writes ih =>
    rw [List.foldl_cons, h]
    exact ih

/-- The state of a retirement: the context is the retired one, and its core no longer has it wait for registers. -/
theorem advanced_eq {s : State} (len : Nat) (dies : List Reg) (writes : List (Reg × Word)) (hstep : s.me.stepping = false)
    (hlost : s.me.lostLoads = []) :
    s.advanced len dies writes = s.setMine { s.mine.setCtx s.cur.2 (s.me.retired (s.me.pc + wordOf len) dies writes) with
      waiters := s.mine.waiters.filter (fun w => w.ctx ≠ s.cur.2) } := by
  rw [State.advanced, State.afterStep, hstep, if_neg (by simp), State.retiredTo, discards_of_none_lost writes hlost]

theorem me_advanced {s : State} (len : Nat) (dies : List Reg) (writes : List (Reg × Word)) (hstep : s.me.stepping = false)
    (hlost : s.me.lostLoads = []) : (s.advanced len dies writes).me = s.me.retired (s.me.pc + wordOf len) dies writes := by
  rw [advanced_eq len dies writes hstep hlost]
  simp [State.me, State.setMine, State.ctx, Core.ctx, Core.setCtx]

/-- Settles O59: a retirement writes the issuing context alone, whose registers are the only thing of it that the writes touch. -/
theorem registerFrame : Obligations.RegisterFrame := by
  unfold Obligations.RegisterFrame
  intro s len dies writes hstep hlost t c
  have ht : t = _ := advanced_eq len dies writes hstep hlost
  have hme : t.me = c.retired (c.pc + wordOf len) dies writes := me_advanced len dies writes hstep hlost
  have hmine : t.mine = _ := (congrArg State.mine ht).trans (mine_setMine _ _)
  have hsame : SameButRegisters c (c.wrote dies writes) := wrote_sameButRegisters c dies writes
  have hcores : ∀ n, n ≠ s.cur.1 → t.core n = s.core n := fun n hn => ht ▸ core_setCore_other s _ hn
  have hctxs : ∀ x, x ≠ s.cur.2 → t.ctx s.cur.1 x = s.ctx s.cur.1 x := fun x hx => by
    rw [State.ctx, ht, State.setMine, core_setCore_self]
    exact get_put_other _ _ _ hx
  rw [hme, hmine]
  clear_value t
  subst ht
  refine ⟨fun _ => rfl, rfl, rfl, rfl, rfl, rfl, rfl, rfl, rfl, rfl, rfl, rfl, rfl, rfl, rfl, rfl, rfl, rfl, rfl, rfl, hcores, hctxs,
    rfl, rfl, rfl, rfl, rfl, rfl, rfl, rfl, rfl, ?_⟩
  exact ⟨(congrArg Ctx.status hsame :), (congrArg Ctx.cause hsame :), (congrArg Ctx.faddr hsame :), (congrArg Ctx.xpc hsame :),
    (congrArg Ctx.fpflags hsame :), (congrArg Ctx.dext hsame :), (congrArg Ctx.taskix hsame :), (congrArg Ctx.launchix hsame :),
    (congrArg Ctx.hprog hsame :), (congrArg Ctx.mrgst hsame :), (congrArg Ctx.ctlw hsame :), (congrArg Ctx.prio hsame :), (congrArg Ctx.claim hsame :),
    (congrArg Ctx.channels hsame :), (congrArg Ctx.maps hsame :), (congrArg Ctx.outstanding hsame :), (congrArg Ctx.acks hsame :),
    (congrArg Ctx.lost hsame :),
    fun p hw => at_wrote_other c dies hw, fun p hp hw hd => live_wrote_other c hp hw hd, fun d v hw hd => hw ▸ wrote_single c dies v hd⟩

/-! ### Taking a trap (10_system_instr.md R276) -/

theorem stopped_cases (c : Ctx) (n : Nat) :
    ∃ order merge, c.stopped n = { c with stopOrder := order, stopMerge := merge } := by
  rw [Ctx.stopped]
  split
  · exact ⟨c.stopOrder, c.stopMerge, rfl⟩
  · exact ⟨_, _, rfl⟩

theorem trapLevel_stopped (c : Ctx) (n : Nat) (t : TrapInfo) : (c.stopped n).trapLevel t = c.trapLevel t := by
  obtain ⟨order, merge, h⟩ := stopped_cases c n
  rw [h]
  rfl

/-- A trap that is no page fault of a program enters its handler where there is one. -/
theorem takeTrap_enters {s : State} {t : TrapInfo} (hpage : t.cause = .page → s.me.level = 2) (hx : s.me.inTrap = false)
    (hv : s.vector (s.me.trapLevel t) ≠ 0) :
    s.takeTrap t = { s.setMe ((s.me.stopped s.nextOrder).enter t (s.vector (s.me.trapLevel t))) with nextOrder := s.nextOrder + 1 } := by
  have hlow : ¬ (t.cause = .page ∧ s.me.level < 2) := fun h => absurd (hpage h.1) (by omega)
  rw [State.takeTrap, if_neg hlow, if_neg (not_or.2 ⟨hx ▸ Bool.false_ne_true, hv⟩)]

/-- The double trap of a core of no partition is reported to the host. -/
theorem takeTrap_double {s : State} {t : TrapInfo} (hpage : t.cause = .page → s.me.level = 2)
    (hd : s.me.inTrap = true ∨ s.vector (s.me.trapLevel t) = 0) (hp : s.myPart = none) :
    s.takeTrap t = { s.setMe (s.me.fault s.nextOrder) with nextOrder := s.nextOrder + 1, reports := (1, s.cur.1) :: s.reports } := by
  have hlow : ¬ (t.cause = .page ∧ s.me.level < 2) := fun h => absurd (hpage h.1) (by omega)
  rw [State.takeTrap, if_neg hlow, if_pos hd, hp]
  rfl

theorem level_enter (c : Ctx) (t : TrapInfo) (vec : Word) : (c.enter t vec).level = c.trapLevel t := by
  have hlt : c.trapLevel t < 4 := by
    unfold Ctx.trapLevel
    split <;> omega
  rw [Ctx.enter, Ctx.level, bitsOf_setBits_other _ _ (by decide) (by decide) (by decide),
    bitsOf_setBits_self _ _ (by decide) (by decide)]
  exact Nat.mod_eq_of_lt hlt

theorem xpl_enter (c : Ctx) (t : TrapInfo) (vec : Word) : (c.enter t vec).xpl = c.level := by
  rw [Ctx.enter, Ctx.xpl, bitsOf_setBits_other _ _ (by decide) (by decide) (by decide),
    bitsOf_setBits_other _ _ (by decide) (by decide) (by decide), bitsOf_setBits_self _ _ (by decide) (by decide)]
  exact Nat.mod_eq_of_lt (bitsOf_lt c.status 13 12)

theorem inTrap_enter (c : Ctx) (t : TrapInfo) (vec : Word) : (c.enter t vec).inTrap = true := by
  rw [Ctx.enter, Ctx.inTrap, bitAt, getLsbD_setBits _ _ (by decide) (by decide), if_pos (by decide)]
  rfl

theorem lowStatus_enter (c : Ctx) (t : TrapInfo) (vec : Word) : bitsOf (c.enter t vec).status 10 0 = bitsOf c.status 10 0 := by
  rw [Ctx.enter, bitsOf_setBits_other _ _ (by decide) (by decide) (by decide), bitsOf_setBits_other _ _ (by decide) (by decide) (by decide),
    bitsOf_setBits_other _ _ (by decide) (by decide) (by decide)]

/-- Settles O38: the handler is entered with the fields of STATUS replaced, or the context is FAULTED where it stands. -/
theorem trapEntryAndDoubleTrap : Obligations.TrapEntryAndDoubleTrap := by
  unfold Obligations.TrapEntryAndDoubleTrap
  refine ⟨?entry, ?double⟩
  case entry =>
    intro s t hpage hx level vec hv c
    have htake := takeTrap_enters hpage hx hv
    obtain ⟨order, merge, hstop⟩ := stopped_cases s.me s.nextOrder
    have hc : c = (s.me.stopped s.nextOrder).enter t vec := (congrArg State.me htake).trans (me_setMe s _)
    rw [htake, hc]
    refine ⟨rfl, (level_enter _ t vec).trans (trapLevel_stopped _ _ t), (xpl_enter _ t vec).trans ?_, inTrap_enter _ t vec, ?_⟩ <;>
      rw [hstop]
    · rfl
    · exact ⟨rfl, rfl, rfl, rfl, rfl, rfl, rfl, rfl, rfl, lowStatus_enter _ t vec, rfl, rfl, rfl⟩
  case double =>
    intro s t hpage hd hp c
    have htake := takeTrap_double hpage hd hp
    obtain ⟨order, merge, hstop⟩ := stopped_cases s.me s.nextOrder
    have hc : c = s.me.fault s.nextOrder := (congrArg State.me htake).trans (me_setMe s _)
    rw [htake, hc, Ctx.fault, hstop]
    exact ⟨rfl, rfl, rfl, rfl, rfl, rfl, rfl⟩

end Sys2Proof.Machine
namespace Sys2Proof.Machine

/-! ## What a home does with a request (05_memory_instr.md R122 to R143) -/

section
variable {s t : State} {r : Request} {v : Word}

/-- An operation that a home does, where no request waits: what it leaves and its answer. -/
theorem apply_done (h : (s.atSlice r).applyCore r = .done t v) (ht : t.requests = []) :
    s.apply r = .done ((s.atSlice r).performed t r) v := by
  obtain ⟨c, x, hp⟩ := performed_only (s.atSlice r) t r
  have hr : ((s.atSlice r).performed t r).requests = [] := by rw [hp]; exact ht
  simp only [State.apply, State.perform, h, hr, if_true]

theorem apply_unmet (h : (s.atSlice r).applyCore r = .unmet) : s.apply r = .unmet := by
  simp only [State.apply, State.perform, h]

theorem apply_trap {k : TrapInfo} (h : (s.atSlice r).applyCore r = .trap k) : s.apply r = .trap k := by
  simp only [State.apply, State.perform, h]

@[simp] theorem storeBytes_requests (s : State) (k n v : Nat) : (s.storeBytes k n v).requests = s.requests := rfl
@[simp] theorem setTag_requests (s : State) (k : Nat) (b : Byte) : (s.setTag k b).requests = s.requests := rfl

theorem dword_eq_read (s : State) (k : Nat) : wordOf (readBytes s.mem k 8) = s.dword k := rfl

theorem bitsOf_all_word (x : Word) : bitsOf x (8 * 8 - 1) 0 = x.toNat := by
  have := x.isLt
  simp only [bitsOf]
  omega

/-- What a load of 8 bytes answers is the doubleword read, whether it extends a sign or zeros. -/
theorem extended_eight (sgn : Bool) (n : Nat) : extended 8 sgn n = wordOf n := by
  unfold extended intValue wordOfInt wordOf
  apply BitVec.eq_of_toNat_eq
  cases sgn with
  | false => rfl
  | true =>
    simp only [if_true, BitVec.toNat_ofInt, BitVec.toNat_ofNat, true_and, Nat.reduceMul, Nat.reduceSub, Nat.reducePow]
    split <;> omega

/-- A plain read through no line, of bytes that no V-copy holds, is of memory. -/
theorem requestRead_memory {size : Nat} (hs : r.sealSlot = none) (hl : r.line = none)
    (ha : s.aliasValues none r.key size = []) (hp : s.poisoned r.key size = false) :
    s.requestRead r size = some (readBytes s.mem r.key size) := by
  simp only [State.requestRead, State.plainRead, hs, hl, ha, hp, State.copyOf, Bool.false_eq_true, if_false]

/-- A home that compares and swaps, or computes and stores, writes a doubleword that is the new one where it differs. -/
theorem applyCore_amo8 {op : AmoOp} (hop : r.op = .amo op 8) (hp : s.poisoned r.key 8 = false) :
    s.applyCore r = .done (if amoValue op (s.dword r.key) r.data ≠ s.dword r.key ∨ op = .swap then
      s.storeBytes r.key 8 (amoValue op (s.dword r.key) r.data).toNat else s) (s.dword r.key) := by
  simp only [State.applyCore, hop, hp, Bool.false_eq_true, if_false, Nat.reduceEqDiff]

theorem amoValue_max {old x : Word} (h : old.toInt < x.toInt) : amoValue .max old x = x := if_pos (by simpa [BitVec.slt_iff_toInt_lt] using h)

theorem amoValue_max_kept {old x : Word} (h : x.toInt ≤ old.toInt) : amoValue .max old x = old :=
  if_neg (by simpa [BitVec.slt_iff_toInt_lt] using h)

theorem amoValue_minu {old x : Word} (h : x.toNat < old.toNat) : amoValue .minu old x = x := if_pos h

/-- An atomic that changes its doubleword stores the new one. -/
theorem applyCore_amo8_changed {op : AmoOp} {x : Word} (hop : r.op = .amo op 8) (hp : s.poisoned r.key 8 = false)
    (hv : amoValue op (s.dword r.key) r.data = x) (hx : x ≠ s.dword r.key) :
    s.applyCore r = .done (s.storeBytes r.key 8 x.toNat) (s.dword r.key) := by
  rw [applyCore_amo8 hop hp, hv, if_pos (Or.inl hx)]

theorem applyCore_amo8_kept {op : AmoOp} (hop : r.op = .amo op 8) (hp : s.poisoned r.key 8 = false) (hswap : op ≠ .swap)
    (hv : amoValue op (s.dword r.key) r.data = s.dword r.key) : s.applyCore r = .done s (s.dword r.key) := by
  rw [applyCore_amo8 hop hp, hv, if_neg (by simp [hswap])]

theorem applyCore_cas8 (hop : r.op = .cas 8) (hp : s.poisoned r.key 8 = false) :
    s.applyCore r = .done (if (if s.dword r.key = r.expected then r.data else s.dword r.key) ≠ s.dword r.key then
      s.storeBytes r.key 8 (if s.dword r.key = r.expected then r.data else s.dword r.key).toNat else s) (s.dword r.key) := by
  simp only [State.applyCore, hop, hp, Bool.false_eq_true, if_false, Nat.reduceEqDiff]

end

/-- A join that leaves its record armed: COUNT one less, LAST the joining core, and the counter of word 2 one more. -/
theorem joinStep_armed (s : State) (part home : Nat) {key last : Nat} (ecore : Nat)
    (ha : bitAt (s.dword key) 32 = true) (h2 : 2 ≤ bitsOf (s.dword key) 31 0) :
    s.joinStep part home key last ecore 0
      = ((s.storeBytes key 8 (setBits (setBits (setBits (s.dword key) 31 0 (bitsOf (s.dword key) 31 0 - 1)) 59 48 last) 32 32 1).toNat).storeBytes
          (key + 16) 8 (setBits (s.dword (key + 16)) 31 0 (bitsOf (s.dword (key + 16)) 31 0 + 1)).toNat,
        wordOf (bitsOf (s.dword key) 31 0 - 1)) := by
  have hlt : bitsOf (s.dword key) 31 0 < 2 ^ 32 := bitsOf_lt _ 31 0
  have hcount : (bitsOf (s.dword key) 31 0 + 2 ^ 32 - 1) % 2 ^ 32 = bitsOf (s.dword key) 31 0 - 1 := by omega
  have hne : bitsOf (s.dword key) 31 0 - 1 ≠ 0 := by omega
  simp only [State.joinStep, ha, hcount, hne, Bool.not_true, Bool.false_eq_true, if_false, ne_eq, not_true_eq_false, false_and,
    not_false_eq_true, if_true]

theorem joinStep_unarmed (s : State) (part home : Nat) {key : Nat} (last ecore code : Nat) (ha : bitAt (s.dword key) 32 = false) :
    s.joinStep part home key last ecore code = (s, BitVec.allOnes 64) := by
  simp only [State.joinStep, ha, Bool.not_false, if_true]

/-- Settles O16: each clause names what `State.applyCore` does with the operation, and performing it leaves the rest as it was. -/
theorem homesPerform : Obligations.HomesPerform := by
  unfold Obligations.HomesPerform
  refine ⟨⟨fun s r h0 hp => ?_, fun u x r => ?_⟩, fun s part home key last ecore _ => ⟨joinStep_unarmed _ _ _ _ _ _, fun ha h2 => ?_⟩⟩
  case refine_2 =>
    obtain ⟨c, t, h⟩ := performed_only u x r
    rw [h]
    exact ⟨rfl, rfl, rfl, rfl, rfl, rfl⟩
  case refine_3 =>
    rw [joinStep_armed s part home ecore ha h2]
    exact ⟨rfl, rfl⟩
  intro u old t stored did
  refine ⟨fun h => ?_, fun h => ?_, fun h => ?_, fun h => ?_, fun v h => ?_, fun v h => ?_, fun h => ?_, fun v h => ?_, fun h => ?_,
    fun b h => ?_, fun h => ?_, fun h hne => ?_, fun h hlt => ?_, fun h hle => ?_, fun h hlt => ?_, fun h he hne => ?_,
    fun h hne => ?_, fun sgn h hs hl ha => ?_, fun h hl => ?_⟩
  case refine_1 | refine_2 | refine_6 =>
    split
    · next hc => exact apply_done (by simp only [State.applyCore, h, hp]; rw [if_pos hc]; rfl) h0
    · next hc => exact apply_unmet (by simp only [State.applyCore, h, hp]; rw [if_neg hc]; rfl)
  case refine_4 =>
    split
    · next hc => exact apply_unmet (by simp only [State.applyCore, h]; rw [if_pos hc])
    · next hc => exact apply_done (by simp only [State.applyCore, h]; rw [if_neg hc]) h0
  case refine_5 =>
    split
    · next hc => exact apply_done (by simp only [State.applyCore, h, hp]; rw [if_pos hc]; rfl) h0
    · next hc =>
      split
      · next hd => exact apply_trap (by simp only [State.applyCore, h, hp]; rw [if_neg hc, if_pos hd]; rfl)
      · next hd => exact apply_unmet (by simp only [State.applyCore, h, hp]; rw [if_neg hc, if_neg hd]; rfl)
  case refine_3 | refine_7 | refine_8 | refine_10 => exact apply_done (by simp only [State.applyCore, h]; rfl) h0
  case refine_9 => exact apply_done (by simp only [State.applyCore, h, hp]; rfl) h0
  case refine_11 => exact apply_done (by rw [applyCore_amo8 h hp, if_pos (Or.inr rfl)]; rfl) h0
  case refine_12 => exact apply_done (applyCore_amo8_changed h hp rfl fun e => hne (add_eq_left.1 e)) h0
  case refine_13 => exact apply_done (applyCore_amo8_changed h hp (amoValue_max hlt) (fun e => hlt.ne' (congrArg BitVec.toInt e))) h0
  case refine_15 => exact apply_done (applyCore_amo8_changed h hp (amoValue_minu hlt) (fun e => hlt.ne (congrArg BitVec.toNat e))) h0
  case refine_14 => exact apply_done (applyCore_amo8_kept h hp (by decide) (amoValue_max_kept hle)) h0
  case refine_16 => exact apply_done (by rw [applyCore_cas8 h hp, if_pos he, if_pos hne]) h0
  case refine_17 => exact apply_done (by rw [applyCore_cas8 h hp, if_neg hne, if_neg (not_not.2 rfl)]) h0
  case refine_18 =>
    refine apply_done (t := u) ?_ h0
    have hr : (s.atSlice r).requestRead r 8 = some (readBytes u.mem r.key 8) := requestRead_memory hs hl ha hp
    simp only [State.applyCore, h, hr, extended_eight, State.loaded, hl]
    rfl
  case refine_19 =>
    refine apply_done (t := stored) ?_ h0
    simp only [State.applyCore, h, bitsOf_all_word, State.stored, hl]
    rfl

end Sys2Proof.Machine
namespace Sys2Proof.Machine

/-! ## Lines that L2 and the cores hold (15_memory_map.md R338, R348) -/

/-- What performing a plain request leaves where no request waits. -/
theorem apply_plain {s t : State} {r : Request} {v : Word} (hr : isPlain r.op = true) (h : s.applyCore r = .done t v)
    (ht : t.requests = []) : s.apply r = .done (s.performed t r) v := by
  have hs : s.atSlice r = s := by
    unfold State.atSlice
    split
    · rfl
    · rw [if_pos hr]
  have := apply_done (s := s) (r := r) (t := t) (v := v) (by rw [hs]; exact h) ht
  rwa [hs] at this

/-- A line's copy is held through a line. -/
theorem copyOf_line {s : State} {line : Option (Nat × Nat)} {key : Nat} {c : VCopy} (h : s.copyOf line key = some c) :
    ∃ l, line = some l ∧ c ∈ s.vcopies ∧ c.part = l.1 ∧ c.line = l.2 := by
  unfold State.copyOf at h
  split at h
  · cases h
  · next l =>
    have hp := List.find?_some h
    simp only [Bool.and_eq_true, beq_iff_eq] at hp
    exact ⟨l, rfl, List.mem_of_find?_eq_some h, hp.1.1, hp.1.2⟩

/-- A plain load through a line that is held answers the bytes of its copy. -/
theorem applyCore_load_copy {s : State} {r : Request} {c : VCopy} {size : Nat} {sgn : Bool} (hop : r.op = .load size sgn)
    (hc : s.copyOf r.line r.key = some c) (hp : s.poisoned r.key size = false) (ha : s.aliasValues r.line r.key size = []) :
    s.applyCore r = .done (s.loaded r) (extended size sgn (lineBytes c.data (r.key % 128) size)) := by
  have hr : s.requestRead r size = some (lineBytes c.data (r.key % 128) size) := by
    simp only [State.requestRead, State.plainRead, hc, hp, ha, Bool.false_eq_true, if_false]
  simp only [State.applyCore, hop, hr]

/-- A load of a held line changes what the cores hold and the hints of the copies. -/
theorem loaded_copy {s : State} {r : Request} {c : VCopy} (hc : s.copyOf r.line r.key = some c) :
    ∃ v k, s.loaded r = { s with vcopies := v, cores := k } ∧ v.map bare = s.vcopies.map bare := by
  obtain ⟨l, hl, -⟩ := copyOf_line hc
  obtain ⟨v, hf, hv⟩ := fill_ho (slot := r.sealSlot) (h := r.hint) (r := true) hc
  simp only [State.loaded, hl] at hf ⊢
  rw [hf]
  split
  · obtain ⟨k, hk⟩ := fillNear_co { s with vcopies := v } r.core l.2 r.hint (State.copyOf { s with vcopies := v } (some l) r.key)
    exact ⟨v, k, hk, hv⟩
  · exact ⟨v, s.cores, rfl, hv⟩

/-- The copy that a store of n bytes at offset `o` leaves: those bytes, and marked modified. -/
def VCopy.stored (c : VCopy) (o n v : Nat) : VCopy :=
  { c with data := setLineBytes c.data o n v, dirty := c.dirty ||| BitVec.ofNat 128 ((2 ^ n - 1) * 2 ^ o) }

/-- Copies that differ in their hints alone are of one line. -/
theorem line_of_bare {c d : VCopy} (h : bare d = bare c) : d.part = c.part ∧ d.line = c.line :=
  ⟨(congrArg VCopy.part h : (bare d).part = (bare c).part), (congrArg VCopy.line h : (bare d).line = (bare c).line)⟩

/-- Copies that differ in their hints alone differ in them alone after a store. -/
theorem stored_bare {c d : VCopy} (h : bare d = bare c) (o n v : Nat) :
    d.stored o n v = { c.stored o n v with hint := d.hint } := by
  cases c
  cases d
  simp only [bare, VCopy.mk.injEq] at h
  simp only [VCopy.stored, VCopy.mk.injEq]
  simp_all

/-- A store through a line that is held changes its copy, what the cores hold and the hints of the copies. -/
theorem stored_copy {s : State} {r : Request} {c : VCopy} {n : Nat} (v : Nat) (hc : s.copyOf r.line r.key = some c) :
    ∃ (w : List VCopy) (d : VCopy), d ∈ w ∧ bare d = bare c ∧ w.map bare = s.vcopies.map bare ∧ (s.stored r n v).mem = s.mem
      ∧ (s.stored r n v).requests = s.requests
      ∧ (s.stored r n v).vcopies = w.map (fun x => if x = d then d.stored (r.key % 128) n v else x) := by
  obtain ⟨l, hl, -⟩ := copyOf_line hc
  obtain ⟨w, hf, hw⟩ := fill_ho (slot := r.sealSlot) (h := r.hint) (r := false) hc
  obtain ⟨d, hd, hb⟩ := copyOf_bare (t := { s with vcopies := w }) hw.symm hc
  obtain ⟨-, -, hm, -⟩ := copyOf_line hd
  rw [hl] at hd hf
  refine ⟨w, d, hm, hb, hw, ?_⟩
  simp only [State.stored, hl]
  rw [hf]
  simp only [State.putBytes, hd]
  split
  · obtain ⟨k, hk⟩ := storeNear_co
      { State.storeBytes { s with vcopies := w } r.key n v with
        mem := s.mem, vcopies := w.map (fun x => if x = d then d.stored (r.key % 128) n v else x) } r.core l.2 (r.key % 128) n v
    refine (?_ : _ ∧ _ ∧ _)
    erw [hk]
    exact ⟨rfl, rfl, rfl⟩
  · exact ⟨rfl, rfl, rfl⟩

/-- Every copy is still there, but for its hint. -/
theorem exists_hint_of_map_bare {w z : List VCopy} (h : w.map bare = z.map bare) {v : VCopy} (hv : v ∈ z) :
    ∃ x ∈ w, x = { v with hint := x.hint } := by
  have hb : bare v ∈ w.map bare := h ▸ List.mem_map_of_mem hv
  obtain ⟨x, hx, hxv⟩ := List.mem_map.1 hb
  refine ⟨x, hx, ?_⟩
  cases x
  cases v
  simp only [bare, VCopy.mk.injEq] at hxv ⊢
  simp_all

/-- The bytes of a copy that are modified, written to their addresses, of those that a list names. -/
theorem readByte_write_modified (v : VCopy) (a : Nat) (l : List Nat) {m : List Host.Cell} (h : Memory.wf m = true) :
    readByte (l.foldl (fun m i => if v.dirty.getLsbD i then
        writeByte m (v.frame * 128 + i) (BitVec.ofNat 8 (lineBytes v.data i 1)) else m) m) a
      = if v.frame * 128 ≤ a ∧ a - v.frame * 128 ∈ l ∧ v.dirty.getLsbD (a - v.frame * 128) = true then
          BitVec.ofNat 8 (lineBytes v.data (a - v.frame * 128) 1) else readByte m a := by
  induction l generalizing m with
  | nil => simp
  | cons i l ih =>
    rw [List.foldl_cons]
    by_cases hd : v.dirty.getLsbD i = true
    · rw [if_pos hd, ih (writeByte_wf _ _ h)]
      by_cases ha : a = v.frame * 128 + i
      · have hi : a - v.frame * 128 = i := by omega
        rw [ha, readByte_writeByte_self _ _ h, ← ha, hi]
        exact (ite_self _).trans (if_pos ⟨by omega, List.mem_cons_self, hd⟩).symm
      · rw [readByte_writeByte_other _ ha]
        have : v.frame * 128 ≤ a → a - v.frame * 128 ≠ i := by omega
        simp only [List.mem_cons]
        refine if_congr ?_ rfl rfl
        tauto
    · rw [if_neg hd, ih h]
      refine if_congr ?_ rfl rfl
      simp only [List.mem_cons]
      constructor
      · tauto
      · rintro ⟨hl, rfl | hm, hb⟩
        · exact absurd hb hd
        · exact ⟨hl, hm, hb⟩

/-- The bytes that a slice writes back: the modified ones of the copy, at the addresses of its frame. -/
theorem readByte_writtenTo (v : VCopy) {m : List Host.Cell} (h : Memory.wf m = true) (a : Nat) :
    readByte (v.writtenTo m) a
      = if a / 128 = v.frame ∧ v.dirty.getLsbD (a % 128) = true then BitVec.ofNat 8 (lineBytes v.data (a % 128) 1) else readByte m a := by
  refine (readByte_write_modified v a (List.range 128) h).trans ?_
  by_cases hf : a / 128 = v.frame
  · have ho : a - v.frame * 128 = a % 128 := by omega
    have hl : a % 128 ∈ List.range 128 := List.mem_range.2 (by omega)
    have hle : v.frame * 128 ≤ a := by omega
    simp only [ho, hl, hle, hf, true_and]
  · rw [if_neg, if_neg (fun h => hf h.1)]
    rintro ⟨hle, hm, -⟩
    have := List.mem_range.1 hm
    omega

theorem dropLines_of_kept {s : State} {hit : VCopy → Bool} (ha : s.vcopies.any hit = true)
    (hl : s.vcopies.filter (fun v => hit v && v.dirty != 0 && s.dieLost (linearDie (v.frame * 128))) = []) :
    s.dropLines hit = { (s.vcopies.filter hit).foldl State.writeBack s with vcopies := s.vcopies.filter (fun v => !hit v) } := by
  simp only [State.dropLines, ha, hl, Bool.not_true, Bool.false_eq_true, if_false]

/-- Dropping the first copy that is held, on a die that is there, writes it back. -/
theorem dropLine_first {s : State} {v : VCopy} {rest : List VCopy} (hs : s.vcopies = v :: rest)
    (hr : ∀ x ∈ rest, ¬ (x.part = v.part ∧ x.line = v.line)) (hd : s.dieLost (linearDie (v.frame * 128)) = false) :
    s.dropLine v.part v.line = { s.writeBack v with vcopies := rest } := by
  have hself : (v.part == v.part && v.line == v.line) = true := by simp
  have hother {x : VCopy} (hx : x ∈ rest) : (x.part == v.part && x.line == v.line) = false := by
    rw [Bool.eq_false_iff]
    simpa only [ne_eq, Bool.and_eq_true, beq_iff_eq] using hr x hx
  have hnone : rest.filter (fun x => x.part == v.part && x.line == v.line) = [] :=
    List.filter_eq_nil_iff.2 fun x hx => by simp only [hother hx, Bool.false_eq_true, not_false_eq_true]
  have hall : rest.filter (fun x => !(x.part == v.part && x.line == v.line)) = rest :=
    List.filter_eq_self.2 fun x hx => by rw [hother hx]; rfl
  rw [State.dropLine, dropLines_of_kept]
  · rw [hs, List.filter_cons_of_pos (by exact hself), hnone, List.filter_cons_of_neg (by rw [hself]; decide), hall]
    rfl
  · rw [hs, List.any_cons, hself, Bool.true_or]
  · rw [hs]
    refine List.filter_eq_nil_iff.2 fun x hx => ?_
    rcases List.mem_cons.1 hx with rfl | hx
    · rw [hd, Bool.and_false]; decide
    · rw [hother hx, Bool.false_and, Bool.false_and]; decide

/-- What dropping the first copy leaves in memory: its modified bytes. -/
theorem readByte_writeBack {s : State} (v : VCopy) (h : Memory.wf s.mem = true)
    (hd : s.dieLost (linearDie (v.frame * 128)) = false) (a : Nat) :
    readByte (s.writeBack v).mem a
      = if a / 128 = v.frame ∧ v.dirty.getLsbD (a % 128) = true then BitVec.ofNat 8 (lineBytes v.data (a % 128) 1)
        else readByte s.mem a := by
  unfold State.writeBack
  split
  · next hc =>
    rw [hd] at hc
    simp only [Bool.false_eq_true, or_false] at hc
    rw [hc, if_neg (by simp)]
  · rw [countHeat_mem]
    exact readByte_writtenTo v h a

/-- An acquire keeps the passed lines of its core alone, and leaves the other cores, memory and the copies of L2 as they were. -/
theorem acquire_keeps (s : State) (n : Nat) :
    ((s.acquire n).core n).lines = (s.core n).lines.filter (fun e => e.epoch.isSome)
    ∧ (∀ m, m ≠ n → (s.acquire n).core m = s.core m) ∧ (s.acquire n).mem = s.mem ∧ (s.acquire n).vcopies = s.vcopies := by
  unfold State.acquire
  dsimp only
  split
  · exact ⟨by rw [core_setCore_self], fun m h => core_setCore_other _ _ h, rfl, rfl⟩
  · split
    · next hl => exact ⟨by rw [hl]; rfl, fun _ _ => rfl, rfl, rfl⟩
    · exact ⟨by rw [core_setCore_self], fun m h => core_setCore_other _ _ h, rfl, rfl⟩

/-- A core whose lines have all passed holds none of its own. -/
theorem ownLine_none {k : Core} (h : ∀ e ∈ k.lines, e.epoch.isSome = true) (line : Nat) : k.ownLine line = none := by
  refine List.find?_eq_none.2 fun e he => ?_
  have := h e he
  simp only [Bool.and_eq_true, not_and, Option.isNone_iff_eq_none, ← Option.not_isSome_iff_eq_none]
  exact fun _ => by simp [this]

/-- Settles O19: a plain access of a held line is of its copy, and a slice writes back what the copy marks modified. -/
theorem cachedLines : Obligations.CachedLines := by
  unfold Obligations.CachedLines
  refine ⟨fun s r c size sgn h0 hop _ hc hp ha => ?_, fun s r c size h0 hop _ hc => ?_, fun s v rest hm hs hr hd => ?_,
    fun s n m line => ?_⟩
  · obtain ⟨v, k, hl, hv⟩ := loaded_copy hc
    have hdone := apply_plain (by rw [hop]; rfl) (applyCore_load_copy (sgn := sgn) hop hc hp ha) (by rw [hl]; exact h0)
    obtain ⟨k', x, hperf⟩ := performed_only s (s.loaded r) r
    exact ⟨_, hdone, by rw [hperf, hl], by rw [hperf, hl]; exact hv⟩
  · obtain ⟨w, d, hdw, hb, hw, hmem, hreq, hvc⟩ := stored_copy (n := size) (bitsOf r.data (8 * size - 1) 0) hc
    have hdone := apply_plain (by rw [hop]; rfl) (show s.applyCore r = .done (s.stored r size (bitsOf r.data (8 * size - 1) 0)) 0 by
      simp only [State.applyCore, hop]) (by rw [hreq]; exact h0)
    obtain ⟨k', x, hperf⟩ := performed_only s (s.stored r size (bitsOf r.data (8 * size - 1) 0)) r
    refine ⟨_, hdone, by rw [hperf]; exact hmem, fun v hv hne => ?_, d.hint, ?_⟩
    · obtain ⟨y, hy, he⟩ := exists_hint_of_map_bare hw hv
      have hyd : y ≠ d := by
        rintro rfl
        refine hne ⟨?_, ?_⟩
        · exact (congrArg VCopy.part he).symm.trans (line_of_bare hb).1
        · exact (congrArg VCopy.line he).symm.trans (line_of_bare hb).2
      refine ⟨y.hint, ?_⟩
      rw [hperf, ← he]
      exact hvc ▸ List.mem_map.2 ⟨y, hy, if_neg hyd⟩
    · rw [hperf]
      exact hvc ▸ List.mem_map.2 ⟨d, hdw, (if_pos rfl).trans (stored_bare hb _ _ _)⟩
  · rw [dropLine_first hs hr hd]
    exact ⟨rfl, readByte_writeBack v hm hd⟩
  · obtain ⟨hl, hother, hmem, hvc⟩ := acquire_keeps s n
    refine ⟨ownLine_none (fun e he => ?_) line, hother m, hmem, hvc⟩
    rw [hl] at he
    exact (List.mem_filter.1 he).2

end Sys2Proof.Machine
namespace Sys2Proof.Machine

/-! ## Plain loads and stores (05_memory_instr.md R122, R123, R132) -/

theorem advanceOr_some {b p : Word} {x : Int} (h : advance b x = some p) : advanceOr b x = .ok p := by
  simp only [advanceOr, h]

theorem advanceOr_none {b : Word} {x : Int} (h : advance b x = none) :
    advanceOr b x = .error (.trap { cause := .ptrovf, faddr := b }) := by
  simp only [advanceOr, h, trapWith]

theorem loadAt_placed {s : State} {p : Word} {n : Nat} {pl : Place} (h : s.placeOf p n Need.load false = .ok pl)
    (len : Nat) (sg : Bool) (d : Reg) (dies : List Reg) (hint : BitVec 2) :
    loadAt s len p n sg d dies hint = s.sendLoad p pl n (.load n sg) 0 0 d len dies hint := by
  simp only [loadAt, h, bind, Except.bind]

theorem storeAt_placed {s : State} {p : Word} {n : Nat} {pl : Place} (h : s.placeOf p n Need.store false = .ok pl)
    (len : Nat) (v : Word) (dies : List Reg) (hint : BitVec 2) :
    storeAt s len p n v dies hint = s.sendStore p pl n (.store n) v 0 len dies hint := by
  simp only [storeAt, h, bind, Except.bind]

/-- Settles O10: each form reads its operands, finds its place and ends as `State.sendLoad` does; a remote LDS as `State.atHome`. -/
theorem plainLoads : Obligations.PlainLoads := by
  unfold Obligations.PlainLoads
  refine ⟨fun s d a l sg z h i b p pl hb ha hp => ?_, fun s d a l b m sg z h x q y p pl hq hy ha hp => ?_,
    fun s d a l b m sg z h q y p pl u hsv hq hy hsp ha hns hp => ⟨fun hr => ?_, fun hr hu => ?_⟩, fun s d a l i b p pl hb ha hp => ?_⟩
  · rw [Reads] at hb
    apply LoadGives_of
    change execLd d a l sg z h i s = _
    simp only [execLd, hb, advanceOr_some ha, loadAt_placed hp, bind, Except.bind]
    rfl
  · rw [Reads] at hq hy
    apply LoadGives_of
    change execLdx d a l b m sg z h x s = _
    simp only [execLdx, hq, hy, advanceOr_some ha, loadAt_placed hp, bind, Except.bind]
    rfl
  · rw [Reads] at hq hy
    apply LoadGives_of
    change execLds d a l b m sg z h s = _
    simp only [execLds, State.readTwo, State.notService, sharded, hq, hy, hsv, hsp, advanceOr_some ha, hns, hp, hr, bind, Except.bind,
      pure, Except.pure, if_true, Option.isSome_none, Bool.false_eq_true, if_false]
    rfl
  · rw [Reads] at hq hy
    apply HomeGives_of hu (ready := fun _ => .ok ()) rfl
    change execLds d a l b m sg z h s = _
    simp only [execLds, State.readTwo, State.notService, sharded, hq, hy, hsv, hsp, advanceOr_some ha, hns, hp,
      Option.isSome_iff_ne_none.2 hr, bind, Except.bind, pure, Except.pure, if_true, Option.isSome_none, Bool.false_eq_true, if_false]
    rfl
  · rw [Reads] at hb
    apply LoadGives_of
    change execCLd d a l i s = _
    simp only [execCLd, hb, advanceOr_some ha, loadAt_placed hp, bind, Except.bind]
    rfl

/-- Settles O11: each form reads its operands and its data, finds its place and ends as `State.sendStore` does; a remote STS as
`State.atHome`. -/
theorem plainStores : Obligations.PlainStores := by
  unfold Obligations.PlainStores
  refine ⟨fun s d a l e z h i b p v pl hb hv ha hp => ?_, fun s d a l b m e z h x q y p v pl hq hy hv ha hp => ?_,
    fun s d a l b m e z h q y p v pl u hsv hq hy hv hsp ha hns hp => ⟨fun hr => ?_, fun hr hu => ?_⟩,
    fun s b m a l i q p v pl hq hv ha hp => ?_⟩
  · rw [Reads] at hb hv
    apply StoreGives_of
    change execSt d a l e z h i s = _
    simp only [execSt, hb, hv, advanceOr_some ha, storeAt_placed hp, bind, Except.bind]
    rfl
  · rw [Reads] at hq hy hv
    apply StoreGives_of
    change execStx d a l b m e z h x s = _
    simp only [execStx, hq, hy, hv, advanceOr_some ha, storeAt_placed hp, bind, Except.bind]
    rfl
  · rw [Reads] at hq hy hv
    apply StoreGives_of
    change execSts d a l b m e z h s = _
    simp only [execSts, State.readTwo, State.notService, sharded, hq, hy, hv, hsv, hsp, advanceOr_some ha, hns, hp, hr, bind, Except.bind,
      pure, Except.pure, if_true, Option.isSome_none, Bool.false_eq_true, if_false]
    rfl
  · rw [Reads] at hq hy hv
    apply HomeGives_of hu (ready := fun _ => .ok ()) rfl
    change execSts d a l b m e z h s = _
    simp only [execSts, State.readTwo, State.notService, sharded, hq, hy, hv, hsv, hsp, advanceOr_some ha, hns, hp,
      Option.isSome_iff_ne_none.2 hr, bind, Except.bind, pure, Except.pure, if_true, Option.isSome_none, Bool.false_eq_true, if_false]
    rfl
  · rw [Reads] at hq hv
    apply StoreGives_of
    change execCSt b m a l i s = _
    simp only [execCSt, hq, hv, advanceOr_some ha, storeAt_placed hp, bind, Except.bind]
    rfl

/-! ### Where LD and ST trap -/

/-- A run that traps is a trap, with no encoding to add where its cause is neither ILLEGAL_ENCODING nor PRIV. -/
theorem concludeAs_trap {t : TrapInfo} (h1 : t.cause ≠ .illegal) (h2 : t.cause ≠ .priv) (e : Word) (s : State) :
    concludeAs e s (.error (.trap t)) = .next (s.takeTrap t) := by
  simp only [concludeAs, conclude, encoded_other h1 h2]

section
variable {s : State} {a d : Reg} {b v p : Word} {t : TrapInfo} {z : BitVec 2} {i : BitVec 7}

theorem ld_overflows (hb : Reads s a b) (h : advance b (i.toInt * 2 ^ z.toNat) = none) (l sg : Bool) (hint : BitVec 2) :
    Completes (.ld d a l sg z hint i) s (s.takeTrap { cause := .ptrovf, faddr := b }) := by
  rw [Reads] at hb
  change execLd d a l sg z hint i s = _
  simp only [execLd, hb, advanceOr_none h, bind, Except.bind]
  exact concludeAs_trap (by simp) (by simp) _ _

theorem st_overflows (hb : Reads s a b) (hv : Reads s d v) (h : advance b (i.toInt * 2 ^ z.toNat) = none) (l e : Bool) (hint : BitVec 2) :
    Completes (.st d a l e z hint i) s (s.takeTrap { cause := .ptrovf, faddr := b }) := by
  rw [Reads] at hb hv
  change execSt d a l e z hint i s = _
  simp only [execSt, hb, hv, advanceOr_none h, bind, Except.bind]
  exact concludeAs_trap (by simp) (by simp) _ _

/-- LD takes the trap of its place. -/
theorem ld_traps (hb : Reads s a b) (ha : advance b (i.toInt * 2 ^ z.toNat) = some p) (h1 : t.cause ≠ .illegal) (h2 : t.cause ≠ .priv)
    (h : s.placeOf p (2 ^ z.toNat) Need.load false = .error (.trap t)) (l sg : Bool) (hint : BitVec 2) :
    Completes (.ld d a l sg z hint i) s (s.takeTrap t) := by
  rw [Reads] at hb
  change execLd d a l sg z hint i s = _
  simp only [execLd, loadAt, hb, advanceOr_some ha, h, bind, Except.bind]
  exact concludeAs_trap h1 h2 _ _

/-- ST takes the trap of its place. -/
theorem st_traps (hb : Reads s a b) (hv : Reads s d v) (ha : advance b (i.toInt * 2 ^ z.toNat) = some p) (h1 : t.cause ≠ .illegal)
    (h2 : t.cause ≠ .priv) (h : s.placeOf p (2 ^ z.toNat) Need.store false = .error (.trap t)) (l e : Bool) (hint : BitVec 2) :
    Completes (.st d a l e z hint i) s (s.takeTrap t) := by
  rw [Reads] at hb hv
  change execSt d a l e z hint i s = _
  simp only [execSt, storeAt, hb, hv, advanceOr_some ha, h, bind, Except.bind]
  exact concludeAs_trap h1 h2 _ _
end

theorem placeOf_misaligned {s : State} {p : Word} {n : Nat} (hf : fmtReserved (ptrFmt p) = false) (hsp : ptrSpace p = 0)
    (hm : s.myPart ≠ none) (ha : ptrAddr p % n ≠ 0) (need : Need) (sync bonded : Bool) :
    s.placeOf p n need sync bonded = .error (.trap { cause := .address, faddr := p }) := by
  obtain ⟨k, hk⟩ := Option.ne_none_iff_exists'.1 hm
  simp only [State.placeOf, hf, hsp, hk, ha, Bool.false_eq_true, if_false, if_true, ne_eq, not_false_eq_true, trapWith]

theorem placeOf_unmapped {s : State} {p : Word} {n k r : Nat} {need : Need} (hf : fmtReserved (ptrFmt p) = false) (hsp : ptrSpace p = 0)
    (hm : s.myPart = some k) (ha : ptrAddr p % n = 0) (ht : s.translate k s.me.level need (ptrAddr p) = .error r) (sync bonded : Bool) :
    s.placeOf p n need sync bonded = .error (.trap { cause := .page, faddr := p, reason := r }) := by
  simp only [State.placeOf, hf, hsp, hm, ha, ht, Bool.false_eq_true, if_false, if_true, ne_eq, not_true_eq_false, pageTrap]

/-- Settles O12: LD and ST take the trap of their effective address, and then that of their place. -/
theorem plainAccessTraps : Obligations.PlainAccessTraps := by
  unfold Obligations.PlainAccessTraps
  refine fun s d a l sg e z h i b v hb hv => ⟨fun ho => ⟨ld_overflows hb ho l sg h, st_overflows hb hv ho l e h⟩, fun p ha hsp hf hm hn => ?_,
    fun p n r ha hsp hf hm hn => ⟨fun ht => ?_, fun ht => ?_⟩⟩
  · exact ⟨ld_traps hb ha (by simp) (by simp) (placeOf_misaligned hf hsp hm hn _ _ _) l sg h,
      st_traps hb hv ha (by simp) (by simp) (placeOf_misaligned hf hsp hm hn _ _ _) l e h⟩
  · exact ld_traps hb ha (by simp) (by simp) (placeOf_unmapped hf hsp hm hn ht _ _) l sg h
  · exact st_traps hb hv ha (by simp) (by simp) (placeOf_unmapped hf hsp hm hn ht _ _) l e h

end Sys2Proof.Machine
namespace Sys2Proof.Machine

/-! ## Waiting loads, releasing stores and tag operations (05_memory_instr.md R124 to R131) -/

theorem spaces_ok {p : Word} {ok : List Nat} (hf : fmtReserved (ptrFmt p) = false) (hs : ptrSpace p ∈ ok) : spaces p ok = .ok () := by
  simp only [spaces, hf, Bool.false_eq_true, if_false, List.contains_eq_mem, hs, decide_true, if_true]

theorem spaces_pair {p : Word} {x y : Nat} (hf : fmtReserved (ptrFmt p) = false) (hs : ptrSpace p = x ∨ ptrSpace p = y) :
    spaces p [x, y] = .ok () :=
  spaces_ok hf (by simpa using hs)

theorem waitingLoad_placed {s : State} {a : Reg} {q p : Word} {delta : Int} {need : Need} {pl : Place} (hq : Reads s a q)
    (ha : advance q delta = some p) (hp : s.placeOf p 8 need true = .ok pl) (d : Reg) (dies : List Reg) (v : BitVec 7) (op : MemOp) :
    waitingLoad s d a dies delta need v op = s.blocking 0 false d dies op (.ok (p, pl, v.setWidth 64)) := by
  rw [Reads] at hq
  simp only [waitingLoad, hq, advanceOr_some ha, hp, bind, Except.bind, pure, Except.pure]

theorem releasingStore_placed {s : State} {p : Word} {pl : Place} (hp : s.placeOf p 8 Need.store true = .ok pl) (v : Word) (op : MemOp)
    (dies : List Reg) : releasingStore s p v op dies = s.sendRelease p pl 8 op v 0 4 dies := by
  simp only [releasingStore, hp, bind, Except.bind]

/-- VRECL of no bytes ends as it retires. -/
theorem exec_vrecl_empty {s : State} {a b : Reg} {p y : Word} (hp : Reads s a p) (hy : Reads s b y) (hf : fmtReserved (ptrFmt p) = false)
    (hs : ptrSpace p = 0 ∨ ptrSpace p = 3) (ha : ptrAddr p % 8 = 0) (hn : bitsOf y 39 0 = 0) (l m : Bool) :
    exec (.vrecl a l b m) s = concludeAs (Instr.vrecl a l b m).encoding s (s.retire 4 (used l a ++ used m b) []) := by
  rw [Reads] at hp hy
  change execVrecl a l b m s = _
  simp only [execVrecl, hp, hy, spaces_pair hf hs, ha, hn, bind, Except.bind, ne_eq, Nat.zero_mod, not_true_eq_false, or_self, if_false,
    if_true]

/-- VRECL of a range ends, once its place is known, as its page says. -/
theorem exec_vrecl {s : State} {a b : Reg} {p y : Word} {pl : Place} {page : Nat} (hp : Reads s a p) (hy : Reads s b y)
    (hf : fmtReserved (ptrFmt p) = false) (hs : ptrSpace p = 0 ∨ ptrSpace p = 3) (ha : ptrAddr p % 8 = 0) (hn : bitsOf y 39 0 % 8 = 0)
    (h0 : bitsOf y 39 0 ≠ 0) (hpl : s.placeOf p 8 Need.store true false = .ok pl)
    (hpage : page = (match pl.seen with
      | some t => t.size
      | none => 4096)) (l m : Bool) :
    exec (.vrecl a l b m) s = concludeAs (Instr.vrecl a l b m).encoding s
      (if ptrAddr p / page ≠ (ptrAddr p + bitsOf y 39 0 - 1) / page then trapWith .address p
       else s.sendRelease p pl (bitsOf y 39 0) (.retire (BitVec.ofNat 7 (bitsOf y 63 57)) (bitsOf y 39 0 / 8)) 0 0 4
         (used l a ++ used m b)) := by
  subst hpage
  rw [Reads] at hp hy
  change execVrecl a l b m s = _
  simp only [execVrecl, hp, hy, spaces_pair hf hs, ha, hn, h0, hpl, bind, Except.bind, ne_eq, not_true_eq_false, or_self, if_false]
  rfl

/-- Settles O13: each form ends as `State.blocking`, `State.sendRelease` or `State.sendLoad` does with its operands. -/
theorem synchronisingAccesses : Obligations.SynchronisingAccesses := by
  unfold Obligations.SynchronisingAccesses
  refine ⟨fun s d a l h i q p pl hq ha => ⟨fun hp => ?_, fun hp => ?_⟩, fun s d a l b m h q y pl hq hy ha hp => ⟨?_, ?_⟩,
    fun s d a l e h i q p v pl hq hv ha hp => ⟨?_, ?_⟩, fun s d a l e h p v pl hp hv hpl => ?_,
    fun s d a l b m e h p y v pl hp hy hv hpl => ?_, fun s a l b m p y pl hp hy hf hsp ha hn => ⟨fun h0 hr => ?_, fun h0 hpl page hpage => ⟨fun hin => ?_, fun hout => ?_⟩⟩,
    fun s d a l p pl hp hpl => ?_, fun s a l b m p y pl hp hy hpl => ?_⟩
  · apply BlockingGives_of
    change execLdFut d a l h i s = _
    rw [execLdFut, waitingLoad_placed hq ha hp]
    rfl
  · apply BlockingGives_of
    change execLdTake d a l h i s = _
    rw [execLdTake, waitingLoad_placed hq ha hp]
    rfl
  · have hqa := hq
    rw [Reads] at hq hy
    apply BlockingGives_of
    change execLdtVeq d a l b m h s = _
    simp only [execLdtVeq, hq, hy, bind, Except.bind, waitingLoad_placed hqa ha hp]
    rfl
  · have hqa := hq
    rw [Reads] at hq hy
    apply BlockingGives_of
    change execLdtVge d a l b m h s = _
    simp only [execLdtVge, hq, hy, bind, Except.bind, waitingLoad_placed hqa ha hp]
    rfl
  · rw [Reads] at hq hv
    apply ReleaseGives_of
    change execStFill d a l e h i s = _
    simp only [execStFill, hq, hv, advanceOr_some ha, releasingStore_placed hp, bind, Except.bind]
    rfl
  · rw [Reads] at hq hv
    apply BlockingGives_of
    change execStGive d a l e h i s = _
    simp only [execStGive, hq, hv, advanceOr_some ha, hp, bind, Except.bind, pure, Except.pure]
    rfl
  · rw [Reads] at hp hv
    apply ReleaseGives_of
    change execSttVnx d a l e h s = _
    simp only [execSttVnx, hp, hv, releasingStore_placed hpl, bind, Except.bind]
    rfl
  · rw [Reads] at hp hy hv
    apply ReleaseGives_of
    change execSttVset d a l b m e h s = _
    simp only [execSttVset, hp, hy, hv, releasingStore_placed hpl, bind, Except.bind]
    rfl
  · rw [Completes, exec_vrecl_empty hp hy hf hsp ha h0, retire_ok hr]
    rfl
  · apply ReleaseGives_of
    rw [exec_vrecl hp hy hf hsp ha hn h0 hpl hpage, if_neg (not_not.2 hin)]
  · rw [Completes, exec_vrecl hp hy hf hsp ha hn h0 hpl hpage, if_pos hout]
    exact concludeAs_trap (t := { cause := .address, faddr := p }) (by simp) (by simp) _ _
  · rw [Reads] at hp
    apply LoadGives_of
    change execTagr d a l s = _
    simp only [execTagr, hp, hpl, bind, Except.bind]
    rfl
  · rw [Reads] at hp hy
    apply ReleaseGives_of
    change execTagw a l b m s = _
    simp only [execTagw, hp, hy, hpl, bind, Except.bind]
    rfl

/-! ## Atomics, home reductions and joins (05_memory_instr.md R137, R140, R143) -/

section
variable {s : State} {d a b : Reg} {l m : Bool} {z : BitVec 1} {p y : Word} {pl : Place} {i : Instr} {op : Nat → MemOp} {x : Word}

/-- An instruction that ends as `atomic` does is a load where it has a result, and a store where it has none. -/
theorem atomic_gives (hp : Reads s a p) (hy : Reads s b y) (hpl : s.placeOf p (if z = 0 then 4 else 8) Need.both true = .ok pl)
    {e : Word} (h : exec i s = concludeAs e s (atomic s d a l b m z op x)) :
    (d ≠ 0 → LoadGives i s s p pl (if z = 0 then 4 else 8) (op (if z = 0 then 4 else 8)) y x d 4 (used l a ++ used m b))
    ∧ (d = 0 → StoreGives i s s p pl (if z = 0 then 4 else 8) (op (if z = 0 then 4 else 8)) y x 4 (used l a ++ used m b)) := by
  rw [Reads] at hp hy
  refine ⟨fun hd => LoadGives_of (e := e) ?_, fun hd => StoreGives_of (e := e) ?_⟩
  · simp only [h, atomic, hp, hy, hpl, bind, Except.bind, hd, if_false]
  · simp only [h, atomic, hp, hy, hpl, bind, Except.bind, hd, if_true]
end

/-- Settles O14: every form ends as `atomic` does. -/
theorem atomicsSent : Obligations.AtomicsSent := by
  unfold Obligations.AtomicsSent
  refine ⟨fun mk op hmk s d a l b m z h p y pl hp hy hpl => ?_, fun s d a l b m z h x p y pl hx hp hy hpl => ?_⟩
  · simp only [List.mem_cons, Prod.mk.injEq, List.not_mem_nil, or_false] at hmk
    refine atomic_gives (e := (mk d a l b m z h).encoding) (op := .amo op) hp hy hpl ?_
    rcases hmk with ⟨rfl, rfl⟩ | ⟨rfl, rfl⟩ | ⟨rfl, rfl⟩ | ⟨rfl, rfl⟩ | ⟨rfl, rfl⟩ | ⟨rfl, rfl⟩ | ⟨rfl, rfl⟩ | ⟨rfl, rfl⟩ | ⟨rfl, rfl⟩ <;>
      rfl
  · have hpa := hp
    have hyb := hy
    rw [Reads] at hx hp hy
    refine atomic_gives (e := (Instr.cas d a l b m z h).encoding) (op := .cas) hpa hyb hpl ?_
    change execCas d a l b m z h s = _
    simp only [execCas, hx, hp, hy, bind, Except.bind]

/-- A reduction of a line that is not open at its home is refused. -/
theorem apply_reduce_closed {s : State} {r : Request} {f : Nat} (h : r.op = .reduceAdd f ∨ r.op = .reduceRead f ∨ r.op = .reduceClose f)
    (ha : (s.atSlice r).accumulator r.part r.key = none) : s.apply r = .trap { cause := .address, faddr := r.pointer } := by
  refine apply_trap ?_
  rcases h with h | h | h <;> simp only [State.applyCore, h, ha]

theorem isFloatCode_range {f : BitVec 6} (h1 : 0x10 ≤ f.toNat) (h2 : f.toNat ≤ 0x15) : isFloatCode f.toNat = true := by
  simp only [isFloatCode, h1, h2, decide_true, Bool.and_self]

theorem intValue_twelve (y : Word) : intValue true 12 y.toNat = (y.setWidth 12).toInt := by
  have := y.isLt
  simp only [intValue, BitVec.toInt_eq_toNat_cond, BitVec.toNat_setWidth, true_and]
  split <;> split <;> omega

theorem reductionPlace_placed {s : State} {p : Word} {need : Need} {pl : Place} (hf : fmtReserved (ptrFmt p) = false)
    (hs : ptrSpace p = 0 ∨ ptrSpace p = 3) (h : s.placeOf p 64 need true = .ok pl) : reductionPlace s p need = .ok pl := by
  simp only [reductionPlace, spaces_pair hf hs, h, bind, Except.bind]

theorem recordPlace_placed {s : State} {p : Word} {pl : Place} (hf : fmtReserved (ptrFmt p) = false)
    (hs : ptrSpace p = 0 ∨ ptrSpace p = 3) (h : s.placeOf p 32 Need.both true = .ok pl) : recordPlace s p = .ok pl := by
  simp only [recordPlace, spaces_pair hf hs, h, bind, Except.bind]

/-- JOIN ends as a release at its record does. -/
theorem exec_join {s : State} {a b : Reg} {p y : Word} {pl : Place} (hp : Reads s a p) (hy : Reads s b y)
    (hpl : recordPlace s p = .ok pl) (d : Reg) (l m : Bool) :
    exec (.join d a l b m) s = concludeAs (Instr.join d a l b m).encoding s (s.sendRelease p pl 32 .join y d 4 (used l a ++ used m b)) := by
  rw [Reads] at hp hy
  change execJoin d a l b m s = _
  simp only [execJoin, hp, hy, hpl, bind, Except.bind]

/-- Settles O15: each form passes its checks and ends as `State.sendLoad`, `State.sendStore`, `State.atHome` or `State.sendRelease`. -/
theorem reductionsAndJoins : Obligations.ReductionsAndJoins := by
  unfold Obligations.ReductionsAndJoins
  refine ⟨fun s d a l b m f p y pl hp hy hf1 hf2 hf hsp hpl => ⟨fun hne => ?_, fun e he hv h1 h2 => ?_⟩,
    fun s d a l b m f p y pl hp hy hn hf hsp hs => ⟨fun hpl => ?_, fun hpl => ⟨?_, ?_⟩, fun r hr ha => apply_reduce_closed hr ha⟩,
    fun s d a l b m p y pl hp hy hf hsp hpl => ⟨fun hd => ?_, fun hd => ?_, fun hd => ?_, fun hd mask hmask => ⟨fun hdr => ?_, fun hdr hq hr => ?_⟩⟩⟩
  · rw [Reads] at hp hy
    apply LoadGives_of
    change execRedo d a l b m f s = _
    simp only [execRedo, hp, hy, isFloatCode_range hf1 hf2, hne, reductionPlace_placed hf hsp hpl, bind, Except.bind, Bool.not_true,
      Bool.false_eq_true, if_false]
    rfl
  · rw [Reads] at hp hy
    apply LoadGives_of
    change execRedo d a l b m f s = _
    have hbad : ¬ (e < -1074 ∨ 1023 < e) := by omega
    simp only [execRedo, hp, hy, he, intValue_twelve, ← hv, hbad, reductionPlace_placed hf hsp hpl, bind, Except.bind, if_false, if_true]
    rfl
  · rw [Reads] at hp hy
    apply HomeGives_of hs (ready := fun _ => .ok ()) rfl
    change execReda a l b m f s = _
    simp only [execReda, hp, hy, hn, reductionPlace_placed hf hsp hpl, bind, Except.bind, pure, Except.pure, Bool.not_true,
      Bool.false_eq_true, if_false]
    rfl
  · rw [Reads] at hp
    apply HomeGives_of hs (ready := fun _ => .ok ()) rfl
    change execRedr d a l f s = _
    simp only [execRedr, reduceRead, hp, hn, reductionPlace_placed hf hsp hpl, bind, Except.bind, pure, Except.pure, Bool.not_true,
      Bool.false_eq_true, if_false]
    rfl
  · rw [Reads] at hp
    apply HomeGives_of hs (ready := fun _ => .ok ()) rfl
    change execRedc d a l f s = _
    simp only [execRedc, reduceRead, hp, hn, reductionPlace_placed hf hsp hpl, bind, Except.bind, pure, Except.pure, Bool.not_true,
      Bool.false_eq_true, if_false]
    rfl
  · rw [Reads] at hp hy
    apply LoadGives_of
    change execJinit d a l b m s = _
    simp only [execJinit, hp, hy, recordPlace_placed hf hsp hpl, hd, bind, Except.bind, if_false]
    rfl
  · rw [Reads] at hp hy
    apply StoreGives_of
    change execJinit d a l b m s = _
    simp only [execJinit, hp, hy, recordPlace_placed hf hsp hpl, hd, bind, Except.bind, if_true]
    rfl
  · subst hd
    exact ReleaseGives_of (exec_join hp hy (recordPlace_placed hf hsp hpl) _ _ _)
  · intro ho
    refine LoadGives_of (e := (Instr.join d a l b m).encoding) ?_ ho
    rw [exec_join hp hy (recordPlace_placed hf hsp hpl)]
    simp only [State.sendRelease, hd, ho, hmask, hdr, bind, Except.bind, if_false, if_true]
  · rw [Completes, exec_join hp hy (recordPlace_placed hf hsp hpl)]
    simp only [State.sendRelease, hd, hq, hmask, hdr, bind, Except.bind, if_false, Bool.false_eq_true, retirePending_ok hr, pure, Except.pure]
    rfl

end Sys2Proof.Machine
namespace Sys2Proof.Machine

/-! ## Fences, flushes, prefetches and waits (05_memory_instr.md R134 to R136) -/

theorem exec_fence {s : State} {a : Reg} {e : Word} {mask : BitVec 4} (he : Reads s a e) (hm : s.extent e e = .ok mask) (d : Reg) (l : Bool) :
    exec (.fence d a l) s = conclude s (if s.drainedNow mask = true then
      ((s.setMe { s.me with lost := s.me.lost &&& ~~~mask }).acquire s.cur.1).retire 4 (used l a) [(d, lostStatus s.me.lost mask)]
      else stall .retry) := by
  rw [Reads] at he
  change execFence d a l s = _
  simp only [execFence, he, hm, bind, Except.bind]
  cases s.drainedNow mask <;> rfl

/-- FLUSH of a valid range ends as its range says. -/
theorem exec_flush {s : State} {a b : Reg} {p n : Word} (hp : Reads s a p) (hn : Reads s b n) (hr : s.rangeOf p n [0, 3] = .ok ())
    (l m : Bool) :
    exec (.flush a l b m) s = concludeAs (Instr.flush a l b m).encoding s
      (if n = 0 ∨ ptrSpace p = 3 then s.retire 4 (used l a ++ used m b) []
       else if s.linesPending p n.toNat then stall .retry
       else s.sendStore p { key := 0, home := s.sliceOf (s.myPart.getD 0) (ptrAddr p / 4096), counter := 0, part := s.myPart.getD 0 } 0
         (.flush n.toNat) 0 0 4 (used l a ++ used m b)) := by
  rw [Reads] at hp hn
  change execFlush a l b m s = _
  simp only [execFlush, hp, hn, hr, bind, Except.bind]

/-- A wait ends where no class is above its limit, and is executed again otherwise. -/
theorem conclude_waitFor {s : State} {n : Nat} {limits : List (BitVec 4)} :
    (s.me.within limits = true → s.mayRetire [] [] = true → conclude s (waitFor s n limits) = .next (s.advanced n [] []))
    ∧ (s.me.within limits = false → conclude s (waitFor s n limits) = .next (s.block .retry)) := by
  refine ⟨fun h hr => ?_, fun h => ?_⟩
  · rw [waitFor, if_pos h, conclude_retire hr]
  · rw [waitFor, if_neg (by rw [h]; decide)]
    rfl

theorem within_iff (c : Ctx) (limits : List (BitVec 4)) :
    c.within limits = true ↔ ∀ i < 4, limits.getD i 15 = 15 ∨ c.outstanding.get i ≤ (limits.getD i 15).toNat := by
  simp only [Ctx.within, List.all_eq_true, List.mem_range, Bool.or_eq_true, decide_eq_true_eq]

theorem within_four (c : Ctx) (x y z w : BitVec 4) :
    c.within [x, y, z, w] = true ↔ (x = 15 ∨ c.outstanding.c0 ≤ x.toNat) ∧ (y = 15 ∨ c.outstanding.c1 ≤ y.toNat)
      ∧ (z = 15 ∨ c.outstanding.c2 ≤ z.toNat) ∧ (w = 15 ∨ c.outstanding.c3 ≤ w.toNat) := by
  rw [within_iff]
  refine ⟨fun h => ⟨h 0 (by decide), h 1 (by decide), h 2 (by decide), h 3 (by decide)⟩, fun ⟨h0, h1, h2, h3⟩ i hi => ?_⟩
  match i, hi with
  | 0, _ => exact h0
  | 1, _ => exact h1
  | 2, _ => exact h2
  | 3, _ => exact h3

/-- A limit of 0 for a class that is named, and none for another. -/
theorem zero_limit_iff (b : Bool) (n : Nat) :
    ((if b then (0 : BitVec 4) else 15) = 15 ∨ n ≤ (if b then (0 : BitVec 4) else 15).toNat) ↔ (b = true → n = 0) := by
  cases b <;> simp

theorem within_named (c : Ctx) (m : BitVec 4) :
    c.within ((List.range 4).map (fun i => if m.getLsbD i then 0 else 15)) = true
      ↔ (m.getLsbD 0 = true → c.outstanding.c0 = 0) ∧ (m.getLsbD 1 = true → c.outstanding.c1 = 0)
        ∧ (m.getLsbD 2 = true → c.outstanding.c2 = 0) ∧ (m.getLsbD 3 = true → c.outstanding.c3 = 0) := by
  rw [← zero_limit_iff, ← zero_limit_iff, ← zero_limit_iff, ← zero_limit_iff]
  exact within_four c _ _ _ _

/-- Settles O17: each form passes its checks, and ends as the request, the wait or the cache change that it asks for. -/
theorem fencesAndWaits : Obligations.FencesAndWaits := by
  unfold Obligations.FencesAndWaits
  refine ⟨fun s d a l e mask he hm => ⟨?_, fun hd => ?_⟩, ?_, ?_, ?_⟩
  · intro hd u v hr
    rw [Completes, exec_fence he hm, if_pos hd]
    exact (congrArg (conclude s) (retire_ok hr)).trans rfl
  · rw [Completes, exec_fence he hm, if_neg (by rw [hd]; decide)]
    rfl
  · intro s a l b m p n hp hn dies
    refine ⟨fun hok => ⟨fun h0 hr => ?_, fun h0 h3 => ⟨fun hl => ?_, ?_⟩⟩, fun hok => ⟨?_, ?_⟩⟩
    · rw [Completes, exec_flush hp hn hok, if_pos h0, retire_ok hr]
      rfl
    · rw [Completes, exec_flush hp hn hok, if_neg (not_or.2 ⟨h0, h3⟩), if_pos hl]
      rfl
    · intro hl pl
      apply StoreGives_of
      rw [exec_flush hp hn hok, if_neg (not_or.2 ⟨h0, h3⟩), if_neg (by rw [hl]; decide)]
    · intro u hr
      rw [Reads] at hp hn
      change execCinv a l b m s = _
      simp only [execCinv, hp, hn, hok, bind, Except.bind]
      exact (congrArg (concludeAs _ s) (retire_ok hr)).trans rfl
    · intro h u hr
      rw [Reads] at hp hn
      change execPref h a l b m s = _
      simp only [execPref, hp, hn, hok, bind, Except.bind]
      exact (congrArg (concludeAs _ s) (retire_ok hr)).trans rfl
  · intro s x y z w met
    exact ⟨fun h hr => conclude_waitFor.1 ((within_four _ _ _ _ _).2 h) hr,
      fun h => conclude_waitFor.2 (Bool.eq_false_iff.2 (mt (within_four _ _ _ _ _).1 h))⟩
  · intro s m met
    exact ⟨fun h hr => conclude_waitFor.1 ((within_named _ _).2 h) hr,
      fun h => conclude_waitFor.2 (Bool.eq_false_iff.2 (mt (within_named _ _).1 h))⟩

end Sys2Proof.Machine
namespace Sys2Proof.Machine

/-! ## The compact arithmetic and control forms (03_encoding.md R92) -/

section
variable {s : State} {d a : Reg} {l : Bool} {x y : Word}

/-- A compact form whose rd is its first source dies with its second source alone. -/
theorem binary_compact (f : Word → Word → Word) (hx : Reads s d x) (hy : Reads s a y)
    (hr : s.mayRetire (used l a) [(d, f x y)] = true) :
    binary s 2 d d false a l f = .next (s.advanced 2 (used l a) [(d, f x y)]) :=
  binary_next (l := false) hx hy hr

/-- A compact branch on its register and a condition. -/
theorem conclude_branch {target : Word} {dies : List Reg} {n : Nat} :
    (s.mayRetire dies [] = true → conclude s (branch s n false target dies) = .next (s.advanced n dies []))
    ∧ (target.getLsbD 0 = false → s.mayRetire dies [] = true →
      conclude s (branch s n true target dies) = .next (s.landedAt target dies []))
    ∧ (target.getLsbD 0 = true →
      conclude s (branch s n true target dies) = .next (s.takeTrap { cause := .address, faddr := target })) :=
  ⟨fun hr => conclude_retire hr, fun ht hr => conclude_transfer ht hr, fun ht => conclude_transfer_odd ht⟩

theorem exec_cBz {a' : BitVec 3} {o : BitVec 6} (hx : Reads s (compactReg a') x) :
    exec (.cBz a' l o) s = conclude s (branch s 2 (x == 0) (s.me.pc + o.signExtend 64 * 2) (used l (compactReg a'))) := by
  rw [Reads] at hx
  change execCBz a' l o s = _
  simp only [execCBz, hx, bind, Except.bind]
  rfl

theorem exec_cBnz {a' : BitVec 3} {o : BitVec 6} (hx : Reads s (compactReg a') x) :
    exec (.cBnz a' l o) s = conclude s (branch s 2 (x != 0) (s.me.pc + o.signExtend 64 * 2) (used l (compactReg a'))) := by
  rw [Reads] at hx
  change execCBnz a' l o s = _
  simp only [execCBnz, hx, bind, Except.bind]
  rfl

theorem exec_cJr (hx : Reads s a x) : exec (.cJr a l) s = conclude s (s.transfer x (used l a) []) := by
  rw [Reads] at hx
  change execCJr a l s = _
  simp only [execCJr, hx, bind, Except.bind]

theorem exec_cPadd (hx : Reads s d x) (hy : Reads s a y) :
    exec (.cPadd d a l) s = conclude s (advanceOr x y.toInt >>= fun q => s.retire 2 (used l a) [(d, q)]) := by
  rw [Reads] at hx hy
  change execCPadd d a l s = _
  simp only [execCPadd, padd, hx, hy, bind, Except.bind]
  rfl
end

/-- Settles O43: each form is its 32-bit form's function with length 2, its branch, its transfer or its advance. -/
theorem compactForms : Obligations.CompactForms := by
  unfold Obligations.CompactForms
  refine ⟨fun s d a l x y hx hy hr => binary_compact (· + ·) hx hy hr,
    fun s d i x hx hr => unary_next (l := false) (f := (· + i.signExtend 64)) hx hr,
    fun s d a l x hx hr => unary_next (f := fun x => x) hx hr, fun s d i hr => constant_next hr, ?alu, ?branches,
    fun s o ht hr => conclude_transfer ht hr, fun s a l x hx => ?jr, ?padd⟩
  case alu =>
    intro s d' a' l x y hx hy d dies gives
    exact ⟨binary_compact (· - ·) hx hy, binary_compact (· &&& ·) hx hy, binary_compact (· ||| ·) hx hy, binary_compact (· ^^^ ·) hx hy,
      binary_compact aluShl hx hy, binary_compact aluShr hx hy⟩
  case branches =>
    intro s a' l o x hx dies target
    simp only [Completes, exec_cBz hx, exec_cBnz hx]
    obtain ⟨next, lands, odd⟩ := conclude_branch (s := s) (target := target) (dies := dies) (n := 2)
    have h0 (h : x = 0) : (x == 0) = true ∧ (x != 0) = false := by simp [h]
    have h1 (h : x ≠ 0) : (x == 0) = false ∧ (x != 0) = true := by simpa using h
    refine ⟨fun hr => ⟨fun h => ?_, fun h => ?_, fun ht => ⟨fun h => ?_, fun h => ?_⟩⟩, fun ht => ⟨fun h => ?_, fun h => ?_⟩⟩
    · rw [(h1 h).1]; exact next hr
    · rw [(h0 h).2]; exact next hr
    · rw [(h0 h).1]; exact lands ht hr
    · rw [(h1 h).2]; exact lands ht hr
    · rw [(h0 h).1]; exact odd ht
    · rw [(h1 h).2]; exact odd ht
  case jr =>
    simp only [Completes, exec_cJr hx]
    exact ⟨fun ht hr => conclude_transfer ht hr, fun ht => conclude_transfer_odd ht⟩
  case padd =>
    intro s d b l p y hp hy top sum q
    simp only [Completes, exec_cPadd hp hy]
    exact ⟨fun ⟨h0, h1, hr⟩ => conclude_advance_inField h0 h1 hr, fun h => conclude_advance_outOfField _ h⟩

end Sys2Proof.Machine
namespace Sys2Proof.Machine

/-! ## Tasks and launches (06_task_instr.md R153 to R158) -/

theorem concludeAs_retire {s t : State} {n : Nat} {dies : List Reg} {writes : List (Reg × Word)} (h : t.mayRetire dies writes = true)
    (e : Word) : concludeAs e s (t.retire n dies writes) = .next (s.after t n dies writes) := by
  rw [retire_ok h]
  rfl

theorem conclude_retire_from {s t : State} {n : Nat} {dies : List Reg} {writes : List (Reg × Word)} (h : t.mayRetire dies writes = true) :
    conclude s (t.retire n dies writes) = .next (s.after t n dies writes) := by
  rw [retire_ok h]
  rfl

theorem packetOk_of {img : List Word} (h1 : bitsOf (img.getD 0 0) 44 42 = 0) (h2 : bitsOf (img.getD 4 0) 63 8 = 0)
    (h3 : ∀ i < 11, img.getD (5 + i) 0 = 0) : packetOk img = true := by
  simp only [packetOk, h1, h2, decide_true, Bool.and_self, Bool.true_and, List.all_eq_true, List.mem_range, decide_eq_true_eq]
  exact h3

/-- Settles O20: each instruction passes its checks, retires, and hands over what it built. -/
theorem taskInstructions : Obligations.TaskInstructions := by
  unfold Obligations.TaskInstructions
  refine ⟨?spawn, ?launch, fun s hr => ⟨?yield, ?cyield⟩, ?prio⟩
  case spawn =>
    intro s a l b m p y entry img hp hy himg hfull hr u w t
    rw [Reads] at hp hy
    have run (drained : Bool) (hd : s.drainedNow 15 = drained) : exec (.spawn a l b m) s
        = .next (s.afterStep (if drained = true then w.enterRelief (coreTile s.cur.1) t else w.hold s.nextId 15 (.task (coreTile s.cur.1) t))) := by
      change execSpawn a l b m s = _
      simp only [execSpawn, hp, hy, himg, hfull, retire_ok hr, bind, Except.bind, pure, Except.pure, allCounters, hd, Bool.false_eq_true,
        if_false]
      rfl
    exact ⟨run true, run false⟩
  case launch =>
    intro s d a l p entry img hp hsp hal himg h1 h2 h3 hpart hent hfull v u hr w0 w req
    rw [Reads] at hp
    have run (drained : Bool) (hd : s.drainedNow 15 = drained) : exec (.launch d a l) s
        = .next (s.afterStep (if drained = true then { w with launchQueue := w.launchQueue ++ [req] } else w.hold s.nextId 15 (.launch req))) := by
      have hn : s.takeNumber = (s.me.opNumber, u) := rfl
      have hret : u.retire 4 (used l a) [(d, s.me.opNumber.setWidth 64)] = .ok w0 := retire_ok hr
      change execLaunch d a l s = _
      simp only [execLaunch, hp, hsp, hal, himg, packetOk_of h1 h2 h3, hpart, hent, hfull, hn, hret, bind, Except.bind, pure,
        Except.pure, allCounters, hd, Bool.false_eq_true, if_false, Bool.not_true, ne_eq, not_true_eq_false]
      rfl
    exact ⟨run true, run false⟩
  case yield =>
    change yielding s 4 = _
    simp only [yielding, retire_ok hr, bind, Except.bind]
    rfl
  case cyield =>
    change yielding s 2 = _
    simp only [yielding, retire_ok hr, bind, Except.bind]
    rfl
  case prio =>
    intro s d a l x hx hr u
    rw [Reads] at hx
    change execPrio d a l s = _
    simp only [execPrio, hx, retire_ok hr, bind, Except.bind]
    rfl

end Sys2Proof.Machine
namespace Sys2Proof.Machine

/-! ## Messages and multicasts (05_memory_instr.md R145, R146; 06_task_instr.md R149, R162, R165) -/

/-- A message that nothing stalls leaves as its instruction retires, or is held while the counters of DEXT have not drained. -/
theorem sendFrom_ok {s : State} {counter : Nat} {faddr : Word} {mask : BitVec 4} {dies : List Reg} (hc : s.classFull 1 = false)
    (hf : s.retryFull = false) (hp : counter = 3 → s.replayFull = false) (hm : s.extent s.me.dext faddr = .ok mask)
    (hr : s.mayRetire dies [] = true) (dest : Dest) (g : Message) :
    let f : Flight :=
      { id := s.nextId, dest := dest, source := s.cur.1, part := s.myPart.getD 0, gtc := s.gtc
        issuer := some (s.cur.1, s.cur.2, counter), msg := g }
    let u := s.retiredTo (s.me.pc + 4) dies []
    let w := { u with nextId := u.nextId + 1 }.beginOp s.cur.1 s.cur.2 1 (some counter)
    s.sendFrom dest counter g faddr dies = .ok (if s.drainedNow mask then w.sendMessage f else w.hold f.id mask (.message f)) := by
  intro f u w
  have hstall : ¬ (s.classFull 1 = true ∨ s.retryFull = true ∨ counter = 3 ∧ s.replayFull = true) := by
    rw [hc, hf]
    rintro (h | h | ⟨h, h'⟩)
    · cases h
    · cases h
    · rw [hp h] at h'; cases h'
  simp only [State.sendFrom, hstall, hm, retire_ok hr, bind, Except.bind, pure, Except.pure, if_false]
  rfl

theorem mayClass_ok {s : State} {cls : Nat} (h : 8 ≤ cls ∨ (1 ≤ s.me.level ∧ (cls = 2 ∨ cls = 3 ∨ cls = 5))) (p : Word) :
    s.mayClass cls p = .ok () := by
  rcases h with h | ⟨hl, h⟩
  · exact if_pos h
  · rw [State.mayClass, if_neg (by omega), if_pos h, if_neg (by omega)]

theorem destinationOf_core {s : State} {y : Word} {core : Nat} (hf : fmtReserved (ptrFmt y) = false) (hsp : ptrSpace y = 1)
    (hp : ptrPkg y ≠ 0xFE) (hc : s.coreNamed y = some (.inl core)) (hm : s.mayName core = true)
    (hd : s.dieLost (coreDie core) = false) : s.destinationOf y = .ok (.core core, s.coreCounter core) := by
  simp only [State.destinationOf, spaces_ok hf (show ptrSpace y ∈ [1] by simp [hsp]), hp, hc, hm, hd, bind, Except.bind, pure, Except.pure,
    if_false, Bool.not_true, Bool.false_eq_true]

/-- What MCAST checks of its list finds nothing wrong with one whose pointers are valid. -/
theorem mcast_list_valid {dests : List Word}
    (h : ∀ p ∈ dests, fmtReserved (ptrFmt p) = false ∧ (ptrSpace p = 0 ∨ ptrSpace p = 1) ∧ ptrAddr p % 8 = 0) :
    dests.find? (fun p => fmtReserved (ptrFmt p) || !(ptrSpace p == 0 || ptrSpace p == 1) || decide (ptrAddr p % 8 ≠ 0)) = none := by
  refine List.find?_eq_none.2 fun p hp => ?_
  obtain ⟨hf, hs, ha⟩ := h p hp
  simpa [hf, ha, or_iff_not_imp_left] using hs

theorem exec_sendm {s : State} {a b : Reg} {p y : Word} {img : List Word} {dest : Dest} {counter : Nat} (hp : Reads s a p)
    (hy : Reads s b y) (himg : s.messageImage p = .ok img) (hdest : s.destinationOf y = .ok (dest, counter))
    (hcls : s.mayClass (bitsOf (img.getD 0 0) 4 0) p = .ok ()) (l m : Bool) :
    exec (.sendm a l b m) s = concludeAs (Instr.sendm a l b m).encoding s
      (s.sendFrom dest counter (s.messageOf img (bitsOf (img.getD 0 0) 39 36)) y (used l a ++ used m b)) := by
  rw [Reads] at hp hy
  change execSendm a l b m s = _
  simp only [execSendm, hp, hy, himg, hdest, hcls, bind, Except.bind]

theorem exec_reply {s : State} {a : Reg} {p : Word} {img : List Word} {pkg core ctx counter : Nat} {dest : Dest} (hp : Reads s a p)
    (hto : s.me.replyTo = some (pkg, core, ctx)) (himg : s.messageImage p = .ok img)
    {y : Word} (hy : y = replyTarget pkg core) (hdest : s.destinationOf y = .ok (dest, counter))
    (hcls : s.mayClass (bitsOf (img.getD 0 0) 4 0) p = .ok ()) (l : Bool) :
    exec (.reply a l) s = concludeAs (Instr.reply a l).encoding s
      (s.sendFrom dest counter (s.messageOf img (if pkg = 0xFE then 0 else ctx)) p (used l a)) := by
  rw [Reads] at hp
  change execReply a l s = _
  simp only [execReply, hp, hto]
  rw [← hy]
  simp only [himg, hdest, hcls, bind, Except.bind]

/-- Settles O21: each instruction passes its checks and sends what it read. -/
theorem multicastsAndMessagesSent : Obligations.MulticastsAndMessagesSent := by
  unfold Obligations.MulticastsAndMessagesSent
  refine ⟨⟨?sendm, fun s y core hf hsp hp hc hm hd => destinationOf_core hf hsp hp hc hm hd, ?reply⟩, ?mcast⟩
  case sendm =>
    intro s a l b m p y img dest counter mask hp hy himg hdest hcls hfull hretry hreplay hm hr f u w
    have hsend : s.sendFrom dest counter (s.messageOf img (bitsOf (img.getD 0 0) 39 36)) y (used l a ++ used m b)
        = .ok (if s.drainedNow mask then w.sendMessage f else w.hold f.id mask (.message f)) :=
      sendFrom_ok hfull hretry hreplay hm hr _ _
    rw [Completes, Completes, exec_sendm hp hy himg hdest (mayClass_ok hcls p), hsend, concludeAs_ok]
    exact ⟨fun h => by rw [if_pos h], fun h => by rw [if_neg (by rw [h]; decide)]⟩
  case reply =>
    intro s a l p img pkg core ctx counter dest mask hp hto himg hdest hcls hfull hretry hreplay hm hr f u w
    have hsend : s.sendFrom dest counter (s.messageOf img (if pkg = 0xFE then 0 else ctx)) p (used l a)
        = .ok (if s.drainedNow mask then w.sendMessage f else w.hold f.id mask (.message f)) :=
      sendFrom_ok hfull hretry hreplay hm hr _ _
    rw [Completes, Completes, exec_reply hp hto himg rfl hdest (mayClass_ok (Or.inl hcls) p), hsend, concludeAs_ok]
    exact ⟨fun h => by rw [if_pos h], fun h => by rw [if_neg (by rw [h]; decide)]⟩
  case mcast =>
    intro s d a l b m src lst h dests data t lost w mask hsrc hlst hs1 hs2 ha1 ha2 hfull hm hd hw hh b1 b2 b3 b4 b5 b6 b7 hdests hall hdata
      hblk hrun
    subst hh
    rw [Reads] at hsrc hlst
    have hbits : ¬ (bitsOf (wordOf w) 63 21 ≠ 0 ∨ bitAt (wordOf w) 7 = true ∨ bitsOf (wordOf w) 19 8 % 8 ≠ 0 ∨ bitsOf (wordOf w) 19 8 < 8
        ∨ 2048 < bitsOf (wordOf w) 19 8 ∨ bitsOf (wordOf w) 6 0 < 1 ∨ 64 < bitsOf (wordOf w) 6 0) := by
      rw [b1, b2, b3]
      simp only [ne_eq, not_true_eq_false, Bool.false_eq_true, false_or, not_or, not_lt]
      exact ⟨b4, b5, b6, b7⟩
    have run : exec (.mcast d a l b m) s = concludeAs (Instr.mcast d a l b m).encoding s
        (State.retire (if t.requests.any (fun r => r.grp == s.nextId) then
            { t with requests := t.requests.map (fun r => if r.grp = s.nextId then { r with groupLost := r.groupLost || lost } else r) }
          else t.complete s.cur.1 s.cur.2 (s.myPart.getD 0) s.me.opNumber (some 1) (if lost then 1 else 0) [])
          4 (used l a ++ used m b) [(d, s.me.opNumber.setWidth 64)]) := by
      change execMcast d a l b m s = _
      rw [State.takeNumber] at hrun
      simp only [execMcast, hsrc, hlst, hs1, hs2, ha1, ha2, hfull, hm, hd, hw, hbits, hdests, mcast_list_valid hall, hdata, hblk, State.takeNumber, hrun,
        bind, Except.bind, ne_eq, not_true_eq_false, if_false, Bool.false_eq_true, Bool.not_true]
    refine ⟨?_, ?_⟩
    · intro hg u hr
      rw [Completes, run, if_neg (by rw [hg]; decide)]
      exact concludeAs_retire hr _
    · intro hg u hr
      rw [Completes, run, if_pos hg]
      exact concludeAs_retire hr _

end Sys2Proof.Machine
namespace Sys2Proof.Machine

/-! ## Helpers and the light handler (06_task_instr.md R166 to R168, R177) -/

theorem needLevel_ok {s : State} {n : Nat} (h : n ≤ s.me.level) : s.needLevel n = .ok () := if_neg (Nat.not_lt.2 h)

theorem controlOnly_ok {s : State} (h : s.cur.2 = 0) : s.controlOnly = .ok () := if_neg (not_not.2 h)

/-- How HSTART ends where it may be executed: with the helper it starts, or with 0. -/
theorem exec_hstart {s : State} {a b : Reg} {x y : Word} {free : Option Nat} (hl : 1 ≤ s.me.level) (hc : s.cur.2 = 0) (hx : Reads s a x)
    (hy : Reads s b y) (hfree : (if isService s.cur.1 = true ∨ bitAt x 0 = true then none else s.mine.freeHelpers.head?) = free)
    {d : Reg} {l m : Bool} (hr : s.mayRetire (used l a ++ used m b) [(d, wordOf (free.getD 0))] = true) :
    let r := s.retiredTo (s.me.pc + 4) (used l a ++ used m b) [(d, wordOf (free.getD 0))]
    exec (.hstart d a l b m) s = .next (s.afterStep (match free with
      | none => r
      | some h =>
        let t := r.setCtx s.cur.1 h (Ctx.start x 0 .hstart (startArgs [y]))
        if t.gangStopping s.cur.1 then t.layAndSave s.cur.1 h .gangStopped false false else t)) := by
  rw [Reads] at hx hy
  change execHstart d a l b m s = _
  simp only [execHstart, needLevel_ok hl, hx, hy, controlOnly_ok hc, hfree, retire_ok hr, bind, Except.bind]
  cases free <;> rfl

/-- A helper that ends: once it is quiet it is freed with its code, and otherwise it executes again. -/
theorem halt_ends {s : State} {a : Reg} {x : Word} (hx : Reads s a x) (hc : s.cur.2 ≠ 0) :
    let u := s.unbindStreams s.cur.1 s.cur.2
    halt s a = if u.quiet then .ok ((u.powerDown u.cur.1 u.cur.2).freeHelper u.cur.1 u.cur.2 (haltCode u.me (bitsOf x 15 0)))
      else .error (.waitIn u .retry) := by
  intro u
  rw [Reads] at hx
  simp only [halt, hx, hc, bind, Except.bind, pure, Except.pure, if_false]
  change (if (!u.quiet) = true then _ else _) = _
  cases u.quiet <;> rfl

/-- The lowest helper of a mask that is not live. -/
theorem find_helper {k : Core} {x : Word} {h : Nat} (h1 : 1 ≤ h) (h2 : h ≤ 10) (hb : bitAt x h = true) (hd : (k.ctx h).isLive = false)
    (hlow : ∀ i, 1 ≤ i → i < h → bitAt x i = true → (k.ctx i).isLive = true) :
    (List.range 11).find? (fun h => decide (1 ≤ h) && bitAt x h && !(k.ctx h).isLive) = some h := by
  rw [List.find?_range_eq_some]
  refine ⟨by simp [h1, hb, hd], by simp; omega, fun i hi => ?_⟩
  by_cases h1 : 1 ≤ i
  · cases hbi : bitAt x i
    · simp
    · simp [hlow i h1 hi hbi]
  · simp [h1]

theorem find_helper_none {k : Core} {x : Word} (hall : ∀ i, 1 ≤ i → i ≤ 10 → bitAt x i = true → (k.ctx i).isLive = true) :
    (List.range 11).find? (fun h => decide (1 ≤ h) && bitAt x h && !(k.ctx h).isLive) = none := by
  refine List.find?_eq_none.2 fun i hi => ?_
  have := List.mem_range.1 hi
  simp only [Bool.and_eq_true, decide_eq_true_eq, not_and, and_imp, Bool.not_eq_true', Bool.not_eq_false]
  exact fun h1 hb => hall i h1 (by omega) hb

theorem exec_hwait {s : State} {a : Reg} {x : Word} (hl : 1 ≤ s.me.level) (hc : s.cur.2 = 0) (hx : Reads s a x) (d : Reg) (l : Bool) :
    exec (.hwait d a l) s = concludeAs (Instr.hwait d a l).encoding s
      (match (List.range 11).find? (fun h => decide (1 ≤ h) && bitAt x h && !(s.mine.ctx h).isLive) with
      | some h => s.retire 4 (used l a) [(d, wordOf h)]
      | none => if (s.nextMessage s.cur.1 0).isSome then s.retire 4 (used l a) [(d, 0)] else stall .retry) := by
  rw [Reads] at hx
  change execHwait d a l s = _
  simp only [execHwait, needLevel_ok hl, hx, controlOnly_ok hc, bind, Except.bind] <;> rfl

theorem exec_qhnd {s : State} {a : Reg} {x : Word} (hx : Reads s a x) (l : Bool) :
    exec (.qhnd a l) s = conclude s (if bitAt x 0 = true then trapWith .address x else do
      let r ← s.retire 4 (used l a) []
      pure (r.setMe { r.me with lightAddr := x })) := by
  rw [Reads] at hx
  change execQhnd a l s = _
  simp only [execQhnd, hx, bind, Except.bind]
  rfl

/-- HHALT.retain once its helper is quiet: its task goes back to the head of the queue of its tile, with its banks. -/
theorem exec_hhaltRetain {s : State} {a b : Reg} {p y entry : Word} {img : List Word} (hp : Reads s a p) (hy : Reads s b y)
    (hc : s.cur.2 ≠ 0) (himg : s.taskImage p = .ok (img, entry)) (hq : (s.unbindStreams s.cur.1 s.cur.2).quiet = true) (l m : Bool) :
    let u := s.unbindStreams s.cur.1 s.cur.2
    let banks := u.mine.allotment u.cur.2
    let t := { s.newTask img entry none with issuer := none, pinned := some (u.cur.1, banks) }
    let w := (u.setMine { u.mine with banks := banks.foldl (fun b n => Table.put b n 16) u.mine.banks }).freeHelper u.cur.1 u.cur.2
      (haltCode u.me (bitsOf y 15 0))
    let tile := w.tile (coreTile w.cur.1)
    let e : QEntry := { kind := .task t, level := t.prio.toNat, resident := true, joined := w.gtc }
    exec (.hhaltRetain a l b m) s
      = .next (s.afterStep (w.setTile (coreTile w.cur.1) { tile with queue := queueHead tile.queue e })) := by
  intro u banks t w tile e
  rw [Reads] at hp hy
  change execHhaltRetain a l b m s = _
  simp only [execHhaltRetain, hp, hy, hc, himg, hq, bind, Except.bind, pure, Except.pure, if_false, Bool.not_true, Bool.false_eq_true]
  rfl

/-- Settles O23: each instruction passes its checks and ends as its case says. -/
theorem helpersAndHandlers : Obligations.HelpersAndHandlers := by
  unfold Obligations.HelpersAndHandlers
  refine ⟨⟨?start, ?noHelper, ?halt, ?compactHalt, ?retain, ?wait⟩, ?qhnd, ?qret, ?qretOutside⟩
  case start =>
    intro s d a l b m x y h hl hc hsv hx hy h0 hfree hr t
    have hf : (if isService s.cur.1 = true ∨ bitAt x 0 = true then none else s.mine.freeHelpers.head?) = some h := by
      rw [hsv, h0, if_neg (by decide), hfree]
    have run := exec_hstart (d := d) hl hc hx hy hf hr
    rw [Completes, Completes, run]
    exact ⟨fun hg => congrArg (fun u : State => Host.Outcome.next (s.afterStep u)) (if_neg (ne_true_of_eq_false hg)),
      fun hg => congrArg (fun u : State => Host.Outcome.next (s.afterStep u)) (if_pos hg)⟩
  case noHelper =>
    intro s d a l b m x y hl hc hsv hx hy hfree hr
    have hf : (if isService s.cur.1 = true ∨ bitAt x 0 = true then none else s.mine.freeHelpers.head?) = none := by
      rw [hfree]
      exact ite_self _
    exact exec_hstart (d := d) hl hc hx hy hf hr
  case halt =>
    intro s a l x hx hc u
    have run : exec (.hhalt a l) s = concludeAs (Instr.hhalt a l).encoding s (halt s a) := rfl
    rw [Completes, Completes, run, halt_ends hx hc]
    exact ⟨fun hq => congrArg (concludeAs _ s) (if_pos hq), fun hq => congrArg (concludeAs _ s) (if_neg (by rw [hq]; decide))⟩
  case compactHalt =>
    intro s hc u hq
    have run : exec .cHhalt s = concludeAs (halfword 14 512) s (halt s 0) := rfl
    rw [Completes, run, halt_ends (readReg_zero s) hc]
    exact congrArg (concludeAs _ s) (if_pos hq)
  case retain =>
    intro s a l b m p y entry img hp hy hc himg u hq
    exact exec_hhaltRetain hp hy hc himg hq l m
  case wait =>
    intro s d a l x hl hc hx
    refine ⟨fun h h1 h2 hb hd hlow hr => ?_, fun hall => ⟨fun hm hr => ?_, fun hm => ?_⟩⟩
    · rw [Completes, exec_hwait hl hc hx, find_helper h1 h2 hb hd hlow]
      exact concludeAs_retire hr _
    · rw [Completes, exec_hwait hl hc hx, find_helper_none hall]
      simp only [hm, if_true]
      exact concludeAs_retire hr _
    · rw [Completes, exec_hwait hl hc hx, find_helper_none hall]
      simp only [hm, Option.isSome_none, Bool.false_eq_true, if_false]
      rfl
  case qhnd =>
    intro s a l x hx
    refine ⟨fun h0 => ?_, fun h0 hr => ?_⟩
    · rw [Completes, exec_qhnd hx, if_pos h0]
      rfl
    · intro u
      rw [Completes, exec_qhnd hx, if_neg (by rw [h0]; decide), retire_ok hr]
      rfl
  case qret =>
    intro s hl hr u
    change execQret s = _
    simp only [execQret, hl, retireTo_ok hr, bind, Except.bind, Bool.not_true, Bool.false_eq_true, if_false]
    rfl
  case qretOutside =>
    intro s hl
    change execQret s = _
    simp only [execQret, hl, bind, Except.bind, Bool.not_false, if_true]
    rfl

end Sys2Proof.Machine
namespace Sys2Proof.Machine

/-! ## Crews and barriers (06_task_instr.md R169 to R171) -/

/-- A core's first arrival at a barrier that nobody has reached. -/
theorem arrive_first (e : Word) (cores : List Nat) (part core n : Nat) :
    Barrier.arrive { extent := e, cores := cores, part := part } core n
      = some (0, { extent := e, cores := cores, part := part, counts := [(core, 0, 1, n)] }) := rfl

theorem mayBegin_ok {s : State} {dies : List Reg} {d : Reg} (h : s.mayRetire dies [(d, 0)] = true) : s.mayBegin dies d = .ok () :=
  if_pos h

theorem exec_crewx_in {s : State} {c : Crew} (hc : s.crewOf s.cur.1 s.cur.2 = some c) (d : Reg) :
    exec (.crewx d) s = conclude s
      (s.retire 4 [] [(d, wordOf (0xFD * 2 ^ 56 + 0xFD * 2 ^ 48 + (c.rect.w - 1) * 2 ^ 29 + (c.rect.h - 1) * 2 ^ 24))]) := by
  change execCrewx d s = _
  simp only [execCrewx, hc]

theorem exec_crewx_outside {s : State} (hc : s.crewOf s.cur.1 s.cur.2 = none) (d : Reg) :
    exec (.crewx d) s = .next (s.takeTrap { cause := .address, faddr := 0 }) := by
  change execCrewx d s = _
  simp only [execCrewx, hc]
  rfl

/-- BAR at an extent that names other cores than those of the crew. -/
theorem exec_bar_outside {s : State} {a : Reg} {e : Word} (he : Reads s a e)
    (hmine : s.barriers.find? (fun b => b.arrivals.any s.isMine) = none) (hc : s.barrierCores e = none) (d : Reg) (l : Bool) (n : BitVec 5) :
    exec (.bar d a l n) s = .next (s.takeTrap { cause := .address, faddr := e }) := by
  rw [Reads] at he
  change execBar d a l n s = _
  simp only [execBar, he, hmine, hc, bind, Except.bind]
  rfl

/-- BAR as the first arrival at its barrier: it leaves at once where it completes the epoch, and waits otherwise. -/
theorem exec_bar_first {s : State} {a d : Reg} {e : Word} {cores : List Nat} {mask : BitVec 4} {l : Bool} (he : Reads s a e)
    (hmine : s.barriers.find? (fun b => b.arrivals.any s.isMine) = none) (hc : s.barrierCores e = some cores)
    (hm : s.extent e e = .ok mask) (hd : s.drainedNow mask = true)
    (hnew : s.barriers.find? (fun b => b.extent == e && b.cores == cores && b.part == s.myPart.getD 0) = none)
    (hroom : (s.barriers.filter (fun b => b.cores.any (fun c => superGroupOf c == superGroupOf s.cur.1))).length < 8)
    (hr : s.mayRetire (used l a) [(d, 0)] = true) (n : BitVec 5) :
    let x : Arrival :=
      { core := s.cur.1, ctx := s.cur.2, epoch := 0, rd := d, status := lostStatus s.me.lost mask, dies := used l a }
    let b : Barrier :=
      { extent := e, cores := cores, part := s.myPart.getD 0, counts := [(s.cur.1, 0, 1, n.toNat)], arrivals := [x] }
    let v := s.setAside (used l a) d
    let u := v.setMe { v.me with lost := s.me.lost &&& ~~~mask }
    let others := s.barriers.filter (fun y => !(y.extent == e && y.cores == cores && y.part == s.myPart.getD 0))
    let w := { u with barriers := others ++ [b] }
    exec (.bar d a l n) s = conclude s (if b.full 0 then w.leaveBarrier b x (used l a) else .error (.waitIn w .barrier)) := by
  intro x b v u others w
  rw [Reads] at he
  change execBar d a l n s = _
  simp only [execBar, he, hmine, hc, hm, hd, hnew, Option.getD_none, arrive_first, Nat.not_le.2 hroom, and_false, mayBegin_ok hr, bind, Except.bind, if_false,
    Bool.not_true, Bool.false_eq_true]
  rfl

/-- Settles O24: CREW's request arrives or is held, CREWX reads its crew, and BAR leaves its barrier or waits at it. -/
theorem crewsAndBarriers : Obligations.CrewsAndBarriers := by
  unfold Obligations.CrewsAndBarriers
  refine ⟨⟨?crew, ?crewx, fun s d hc => exec_crewx_outside hc d⟩, fun s d a l n e he hmine => ⟨fun hc => exec_bar_outside he hmine hc d l n, ?bar⟩⟩
  case crew =>
    intro s a l b m p y entry img hp hy himg hfull hr t req sg u w
    rw [Reads] at hp hy
    have run : exec (.crew a l b m) s = .next (s.afterStep
        (match if s.drainedNow 15 then w.crewArrive sg req else none with
        | some v => v
        | none => w.hold s.nextId 15 (.crew sg req))) := by
      change execCrew a l b m s = _
      simp only [execCrew, hp, hy, himg, hfull, retire_ok hr, bind, Except.bind, pure, Except.pure, Bool.false_eq_true, if_false]
      change concludeAs _ s (match if s.drainedNow 15 then w.crewArrive sg req else none with
        | some t => .ok t
        | none => .ok (w.hold s.nextId 15 (.crew sg req))) = _
      cases (if s.drainedNow 15 then w.crewArrive sg req else none) <;> rfl
    refine ⟨fun v hd hv => ?_, fun hnot => ?_⟩
    · rw [Completes, run, if_pos hd, hv]
    · have hnone : (if s.drainedNow 15 = true then w.crewArrive sg req else none) = none := by
        rcases hnot with hd | hv
        · exact if_neg (ne_true_of_eq_false hd)
        · rw [hv]
          exact ite_self _
      rw [Completes, run, hnone]
  case crewx =>
    intro s d c hc v hr
    rw [Completes, exec_crewx_in hc]
    exact conclude_retire hr
  case bar =>
    intro cores mask hc hm hd hnew hroom hr x b v u others w
    rw [Completes, exec_bar_first he hmine hc hm hd hnew hroom hr n]
    refine ⟨fun hb => ?_, fun t hb ht => ?_⟩
    · exact congrArg (conclude s) (if_neg (ne_true_of_eq_false hb))
    · rw [Completes, exec_bar_first he hmine hc hm hd hnew hroom hr n]
      exact (congrArg (conclude s) ((if_pos hb).trans ht)).trans rfl

end Sys2Proof.Machine
namespace Sys2Proof.Machine

/-! ## The channel registers (06_task_instr.md R172 to R176) -/

theorem setWidth_three (x : Word) : x.setWidth 3 = BitVec.ofNat 3 (bitsOf x 2 0) := by
  apply BitVec.eq_of_toNat_eq
  simp only [bitsOf, BitVec.toNat_setWidth, BitVec.toNat_ofNat]
  omega

theorem dir_toNat (x : Word) : (BitVec.ofNat 2 (bitsOf x 5 4)).toNat = bitsOf x 5 4 :=
  Nat.mod_eq_of_lt (bitsOf_lt x 5 4)

section
variable {s : State} {x y : Word}

theorem binding_copy (h : bitsOf x 2 0 = 0) (s : State) (y : Word) :
    s.binding x y = .ok { kind := 0, dir := BitVec.ofNat 2 (bitsOf x 5 4), operand := y } := by
  simp only [State.binding, setWidth_three, h]
  rfl

theorem binding_neighbour (h : bitsOf x 2 0 = 2 ∨ bitsOf x 2 0 = 3) (hp : s.myPart ≠ none)
    (hn : s.partOf (neighbour s.cur.1 (bitsOf x 5 4)) = s.myPart)
    (hb : s.mine.neighbourBound (x.setWidth 3) (BitVec.ofNat 2 (bitsOf x 5 4)) = false) (y : Word) :
    s.binding x y = .ok { kind := x.setWidth 3, dir := BitVec.ofNat 2 (bitsOf x 5 4), operand := y } := by
  have hk : x.setWidth 3 = 2 ∨ x.setWidth 3 = 3 := by
    rw [setWidth_three]
    rcases h with h | h <;> rw [h]
    · exact Or.inl rfl
    · exact Or.inr rfl
  have h0 : x.setWidth 3 ≠ 0 := by rcases hk with h | h <;> rw [h] <;> decide
  have h1 : x.setWidth 3 ≠ 1 := by rcases hk with h | h <;> rw [h] <;> decide
  simp only [State.binding, h0, h1, hk, dir_toNat, hp, hn, hb, if_false, if_true, ne_eq, not_true_eq_false, or_self, Bool.false_eq_true]
  rfl

theorem binding_memory {y8 : Word} {p n : Nat} (h : bitsOf x 2 0 = 4) (hp : s.fetchData y 8 = .ok p) (hy : advanceOr y 8 = .ok y8)
    (hn : s.fetchData y8 8 = .ok n) (hal : p % 8 = 0) :
    s.binding x y
      = .ok { kind := 4, dir := BitVec.ofNat 2 (bitsOf x 5 4), operand := y, pointer := wordOf p, count := n % 2 ^ 40 } := by
  simp only [State.binding, setWidth_three, h, hp, hy, hn, hal, bind, Except.bind]
  rfl

theorem binding_other (h : 4 < bitsOf x 2 0) (s : State) (y : Word) : s.binding x y = trapWith .address x := by
  have hk : ∀ k : Nat, k ≤ 4 → x.setWidth 3 ≠ BitVec.ofNat 3 k := by
    intro k hk e
    have := congrArg BitVec.toNat e
    have hlt := bitsOf_lt x 2 0
    rw [setWidth_three, BitVec.toNat_ofNat, BitVec.toNat_ofNat] at this
    omega
  simp only [State.binding, show x.setWidth 3 ≠ 0 from hk 0 (by decide), show x.setWidth 3 ≠ 1 from hk 1 (by decide),
    show x.setWidth 3 ≠ 2 from hk 2 (by decide), show x.setWidth 3 ≠ 3 from hk 3 (by decide),
    show x.setWidth 3 ≠ 4 from hk 4 (by decide), or_self, if_false]

end

section
variable {s : State} {q : BitVec 3} {h : Channel}

theorem openChannel_ok {reads : Bool} (hb : s.bound q = some h) (hr : h.readable = reads) : s.openChannel q reads = .ok h := by
  simp only [State.openChannel, hb, hr, if_true]

theorem exec_qbind {a b : Reg} {x y : Word} (hx : Reads s a x) (hy : Reads s b y) (l m : Bool) (q : BitVec 3) :
    exec (.qbind a l b m q) s = concludeAs (Instr.qbind a l b m q).encoding s
      (if (s.bound q).isSome then trapWith .address x else do
        let h ← s.binding x y
        let r ← s.retire 4 (used l a ++ used m b) []
        pure (r.setChannel s.cur.1 s.cur.2 q.toNat h)) := by
  rw [Reads] at hx hy
  change execQbind a l b m q s = _
  simp only [execQbind, hx, hy, bind, Except.bind]
  cases (s.bound q).isSome <;> rfl

/-- A push: an entry at the end of the channel, or a wait where the channel is full. -/
theorem push_ends {a : Reg} {x : Word} (hx : Reads s a x) (hb : s.bound q = some h) (hw : h.readable = false) (l c : Bool) :
    push s a l q c = if 16 ≤ (s.entriesOf s.cur.1 h).length then stall .retry else (do
      let r ← s.retire 4 (used l a) []
      pure (r.setEntries s.cur.1 s.cur.2 q.toNat h (s.entriesOf s.cur.1 h ++ [{ control := c, data := x }]))) := by
  rw [Reads] at hx
  simp only [push, hx, openChannel_ok hb hw, bind, Except.bind]
  rfl

/-- A pop takes the entry at the head: into rd, or to the light handler where it is a control value. -/
theorem exec_qctlPop {e : Entry} (hb : s.bound q = some h) (hr : h.readable = true) (he : headEntry (s.entriesOf s.cur.1 h) = some e)
    (d : Reg) :
    exec (.qctlPop d q) s = concludeAs (Instr.qctlPop d q).encoding s
      (if e.control then (s.setEntries s.cur.1 s.cur.2 q.toNat h (s.entriesOf s.cur.1 h).tail).lightEntry e.data else do
        let r ← s.retire 4 [] [(d, e.data)]
        pure (r.setEntries s.cur.1 s.cur.2 q.toNat h (s.entriesOf s.cur.1 h).tail)) := by
  change execQctlPop d q s = _
  simp only [execQctlPop, openChannel_ok hb hr, he, bind, Except.bind]

theorem lightEntry_enters {w : Word} (ha : s.me.lightAddr ≠ 0) (hl : s.me.inLight = false) :
    s.lightEntry w = .error (.waitIn (s.setMe { s.me with
      ctlw := w, lightKept := s.me.pc, inLight := true, lightNested := s.me.inTrap, pc := s.me.lightAddr }) .none) := by
  simp only [State.lightEntry, ha, hl, Bool.false_eq_true, or_self, if_false]

end

/-- Settles O25: a channel register is bound to what `State.binding` finds, and each form moves its entry, waits, traps or enters the light
handler. -/
theorem channelInstructions : Obligations.ChannelInstructions := by
  unfold Obligations.ChannelInstructions
  refine ⟨fun s a l b m q x y h hx hy hb hk hr => ?bind, fun s a l b m q x y h hx hy hb => ?bound, fun s x y h => binding_copy h s y,
    fun s x y h hp hn hb => binding_neighbour h hp hn hb y, fun s x y y8 p n h hp hy hn hal => binding_memory h hp hy hn hal,
    fun s x y h => binding_other h s y, ?free, fun s d q h e hb hrd he => ⟨fun hc hr => ?pop, ?control⟩,
    fun s a l q h x hx hb hw => ⟨?push, fun hfull => ?full⟩, fun s d q => ⟨fun hb hr => ?stat0, fun h hb hr => ?stat⟩⟩
  case bind =>
    rw [Completes, exec_qbind hx hy, hb, hk]
    simp only [Option.isSome_none, Bool.false_eq_true, if_false, retire_ok hr, bind, Except.bind]
    rfl
  case bound =>
    rw [Completes, exec_qbind hx hy, hb]
    rfl
  case free =>
    intro s q hr u
    refine ⟨fun hb => ?_, ?_, fun h hb => ?_⟩
    · change execQfree q s = _
      simp only [execQfree, hb]
      exact concludeAs_retire hr _
    · intro h hb hfill w
      have hidle : ¬ (h.kind = 0 ∧ s.filling q.toNat = true) := fun ⟨hk, hf⟩ => by
        rw [hfill hk] at hf
        cases hf
      change execQfree q s = _
      simp only [execQfree, hb, hidle, retire_ok hr, bind, Except.bind, if_false]
      rfl
    · change execQctlFlush q s = _
      simp only [execQctlFlush, hb, retire_ok hr, bind, Except.bind]
      rfl
  case pop =>
    rw [Completes, exec_qctlPop hb hrd he, if_neg (ne_true_of_eq_false hc), retire_ok hr]
    rfl
  case control =>
    intro hc u ha hl
    rw [Completes, exec_qctlPop hb hrd he, if_pos hc, lightEntry_enters ha hl]
    rfl
  case push =>
    intro hroom hr u put
    have run (c : Bool) : push s a l q c = .ok (put c) := by
      rw [push_ends hx hb hw, if_neg (Nat.not_le.2 hroom), retire_ok hr]
      rfl
    exact ⟨congrArg (concludeAs _ s) (run false), congrArg (concludeAs _ s) (run true)⟩
  case full =>
    have run (c : Bool) : push s a l q c = stall .retry := by
      rw [push_ends hx hb hw, if_pos hfull]
    exact ⟨congrArg (concludeAs _ s) (run false), congrArg (concludeAs _ s) (run true)⟩
  case stat0 =>
    change execQstat d q s = _
    simp only [execQstat, hb]
    exact conclude_retire hr
  case stat =>
    change execQstat d q s = _
    simp only [execQstat, hb]
    exact conclude_retire hr

end Sys2Proof.Machine
namespace Sys2Proof.Machine

/-! ## Lane claims (07_vector_instr.md R182 to R187) -/

/-- As many groups are picked as are asked for, all of them open. -/
theorem pickFrom_picks (choice : Nat → Nat) {n : Nat} {l : List Nat} (h : n ≤ l.length) :
    (pickFrom choice n l).length = n ∧ ∀ j ∈ pickFrom choice n l, j ∈ l := by
  induction n generalizing l with
  | zero => exact ⟨rfl, nofun⟩
  | succ n ih =>
    have hlt : choice n % l.length < l.length := Nat.mod_lt _ (by omega)
    have hmem : l[choice n % l.length] ∈ l := List.getElem_mem hlt
    have hlen : n ≤ (l.erase l[choice n % l.length]).length := by
      rw [List.length_erase_of_mem hmem]
      omega
    obtain ⟨h1, h2⟩ := ih hlen
    simp only [pickFrom, List.getElem?_eq_getElem hlt]
    refine ⟨by rw [List.length_cons, h1], fun j hj => ?_⟩
    rcases List.mem_cons.1 hj with rfl | hj
    · exact hmem
    · exact List.mem_of_mem_erase (h2 j hj)

theorem pickGroups_picks (s : State) {n : Nat} {open_ : List Nat} (h : n ≤ open_.length) :
    (s.pickGroups n open_).length = n ∧ ∀ j ∈ s.pickGroups n open_, j ∈ open_ := pickFrom_picks _ h

/-- A request is of whole lane-groups. -/
theorem claimReq_dvd (x : Word) : 16 ∣ claimReq x := by
  unfold claimReq
  omega

/-- The lanes of a fresh claim: what was asked for, or what the open groups allow. -/
theorem fresh_g (s : State) (x : Word) (tile m : Nat) :
    (Claim.fresh (s.pickGroups (min (claimReq x) (16 * s.freeGroups tile) / 16) (s.openGroups tile)) (claimReq x) m).g
      = min (claimReq x) (16 * s.freeGroups tile) := by
  have hdvd : 16 ∣ min (claimReq x) (16 * s.freeGroups tile) := by
    have := claimReq_dvd x
    omega
  have hle : min (claimReq x) (16 * s.freeGroups tile) / 16 ≤ (s.openGroups tile).length := by
    rw [State.freeGroups]
    omega
  rw [Claim.fresh]
  simp only [(pickGroups_picks s hle).1]
  omega

section
variable {s : State} {d a : Reg} {l : Bool} {x : Word}

/-- A grant retires with its lanes in rd, and leaves the queue of the tile. -/
theorem granted_ok {v : Nat} (h : s.mayRetire (used l a) [(d, wordOf v)] = true) (c : Option Claim) :
    let u := (s.retiredTo (s.me.pc + 4) (used l a) [(d, wordOf v)]).leaveClaims (coreTile s.cur.1)
    s.granted d a l v c = .ok (u.setMe { u.me with claim := c }) := by
  intro u
  simp only [State.granted, retire_ok h, bind, Except.bind]
  rfl

theorem grantedNew_ok {c : Claim} (h : s.mayRetire (used l a) [(d, wordOf c.g)] = true) :
    let u := (s.retiredTo (s.me.pc + 4) (used l a) [(d, wordOf c.g)]).leaveClaims (coreTile s.cur.1)
    let w := u.setMe { u.me with claim := some c }
    s.grantedNew d a l c = .ok (w.setMe { w.me with stopOrder := 0, stopMerge := 0 }) := by
  intro u w
  rw [State.grantedNew, granted_ok h]
  rfl

theorem exec_vclaim_fresh (hsv : isService s.cur.1 = false) (hx : Reads s a x) (hc : s.me.claim = none) :
    exec (.vclaim d a l) s = concludeAs (Instr.vclaim d a l).encoding s
      (if claimReq x = 0 then s.granted d a l 0 none
       else if s.mayGrant (coreTile s.cur.1) = true ∧ claimMin x ≤ 16 * s.freeGroups (coreTile s.cur.1) then
         s.grantedNew d a l (Claim.fresh (s.pickGroups (min (claimReq x) (16 * s.freeGroups (coreTile s.cur.1)) / 16)
           (s.openGroups (coreTile s.cur.1))) (claimReq x) (claimMin x))
       else if ¬ claimWaits x = true then s.granted d a l 0 none
       else s.joinClaims (coreTile s.cur.1) (claimReq x) (claimMin x)) := by
  rw [Reads] at hx
  change execVclaim d a l s = _
  simp only [execVclaim, hx, State.notService, hsv, hc, bind, Except.bind, Bool.false_eq_true, if_false]

theorem exec_vclaim_held {c : Claim} (hsv : isService s.cur.1 = false) (hx : Reads s a x) (hc : s.me.claim = some c) :
    exec (.vclaim d a l) s = concludeAs (Instr.vclaim d a l).encoding s (renegotiate s d a l c x) := by
  rw [Reads] at hx
  change execVclaim d a l s = _
  simp only [execVclaim, hx, State.notService, hsv, hc, bind, Except.bind, Bool.false_eq_true, if_false]

theorem needClaim_ok {c : Claim} (hc : s.me.claim = some c) : s.needClaim = .ok c := by
  simp only [State.needClaim, hc]

theorem exec_vreneg {c : Claim} (hx : Reads s a x) (hc : s.me.claim = some c) :
    exec (.vreneg d a l) s = concludeAs (Instr.vreneg d a l).encoding s (renegotiate s d a l c x) := by
  rw [Reads] at hx
  change execVreneg d a l s = _
  simp only [execVreneg, hx, needClaim_ok hc, bind, Except.bind]
end

/-- Settles O26: a claim, a renegotiation or a release ends in the branch of its request. -/
theorem laneClaims : Obligations.LaneClaims := by
  unfold Obligations.LaneClaims
  refine ⟨?fresh, ?held, ?release, ?none, fun s n open_ h => pickGroups_picks s h⟩
  case fresh =>
    intro s d a l x hsv hx hc tile lanes out fresh
    have refused (h : s.mayGrant tile = false ∨ lanes < claimMin x) : ¬ (s.mayGrant tile = true ∧ claimMin x ≤ lanes) := by
      rintro ⟨h1, h2⟩
      rcases h with h | h
      · rw [h1] at h; cases h
      · omega
    simp only [Completes, exec_vclaim_fresh hsv hx hc]
    refine ⟨fun h0 hr => ?_, fun h0 hg hm => ⟨fresh_g s x tile _, ?_⟩, fun h0 hg hw hr => ?_, ?_⟩
    · rw [if_pos h0, granted_ok hr]
      rfl
    · intro hr
      rw [if_neg h0, if_pos ⟨hg, hm⟩, grantedNew_ok hr]
      rfl
    · rw [if_neg h0, if_neg (refused hg), if_pos (by rw [hw]; decide), granted_ok hr]
      rfl
    · intro h0 hg hw hplace
      rw [if_neg h0, if_neg (refused hg), if_neg (by rw [hw]; decide), State.joinClaims]
      change concludeAs _ s (.error (.waitIn (s.setTile tile { s.tile tile with claimQueue := if (s.claimPlace tile).isSome then _ else _ })
        .claim)) = _
      rw [hplace]
      rfl
  case held =>
    intro s d a l x held hsv hx hc tile c grow both newer
    have gives {v : Nat} {c' : Claim} {isNew : Bool} (hg : isNew = true → c'.g = v)
        (hrun : renegotiate s d a l held x = if isNew then s.grantedNew d a l c' else s.granted d a l v (some c')) : both v c' isNew := by
      intro hr u w t
      have hok : renegotiate s d a l held x = .ok t := by
        cases isNew with
        | false => rw [hrun, if_neg (by decide), granted_ok hr]; rfl
        | true =>
          obtain rfl := hg rfl
          rw [hrun, if_pos rfl, grantedNew_ok hr]
          rfl
      exact ⟨by rw [Completes, exec_vclaim_held hsv hx hc, hok]; rfl, by rw [Completes, exec_vreneg hx hc, hok]; rfl⟩
    refine ⟨fun h0 => gives nofun ?_, fun h0 hle => gives (fun _ => rfl) ?_, fun hlt hg hm => gives (fun _ => rfl) ?_,
      fun hlt hno hw => gives (fun _ => rfl) ?_⟩
    · exact if_pos h0
    · exact (if_neg h0).trans (if_pos hle)
    · have h0 : claimReq x ≠ 0 := by omega
      exact (if_neg h0).trans ((if_neg (Nat.not_le.2 hlt)).trans (if_pos ⟨hg, hm⟩))
    · have h0 : claimReq x ≠ 0 := by omega
      have hno : ¬ (s.mayGrant tile = true ∧ claimMin x ≤ grow) := by
        rintro ⟨h1, h2⟩
        rcases hno with h | h
        · rw [h1] at h; cases h
        · omega
      exact (if_neg h0).trans ((if_neg (Nat.not_le.2 hlt)).trans ((if_neg hno).trans (if_pos (by rw [hw]; decide))))
  case release =>
    intro s c hc hr u w
    change execVrel s = _
    simp only [execVrel, needClaim_ok hc, retire_ok hr, bind, Except.bind]
    rfl
  case none =>
    intro s hc
    change execVrel s = _
    simp only [execVrel, State.needClaim, hc, bind, Except.bind]
    rfl

end Sys2Proof.Machine
namespace Sys2Proof.Machine

/-! ## Vector instructions (07_vector_instr.md R179 to R203) -/

theorem lostLoads_retiredTo (s : State) (pc' : Word) (dies : List Reg) : (s.retiredTo pc' dies []).me.lostLoads = s.me.lostLoads := by
  simp [State.retiredTo, State.discards, State.me, State.setMine, State.ctx, Core.ctx, Core.setCtx, Ctx.retired]

section
variable {s : State} {c : Claim} {t k : BitVec 4} {lo hi : Nat} {f : Fmt}

theorem typeIn_ok (h : s.VectorOf c t lo hi f) : typeIn t lo hi = .ok f := by
  obtain ⟨-, hlo, hhi, hf⟩ := h
  rw [typeIn, if_neg (by omega), hf]

theorem writableV_ok {d : BitVec 4} (h : s.FreeV d) : s.writableV d = .ok () := if_neg (ne_true_of_eq_false h.come)

/-- A vector instruction that writes a free register retires with its claim and flags. -/
theorem retireV_some {dies : List Reg} {d : BitVec 4} (hr : s.mayRetire dies [] = true)
    (hd : Table.look s.me.lostLoads (64 + d.toNat) = none) (c : Claim) (g : FpFlags) :
    s.retireV dies [] (some d) c g = .ok (((s.retiredTo (s.me.pc + 4) dies []).setClaim c).raise g) := by
  have hl : Table.look (s.retiredTo (s.me.pc + wordOf 4) dies []).me.lostLoads (64 + d.toNat) = none := by
    rw [lostLoads_retiredTo, hd]
  simp only [State.retireV, retire_ok hr, bind, Except.bind, hl]
  rfl

theorem retireV_none {dies : List Reg} {writes : List (Reg × Word)} (hr : s.mayRetire dies writes = true) (c : Claim) (g : FpFlags) :
    s.retireV dies writes none c g = .ok (((s.retiredTo (s.me.pc + 4) dies writes).setClaim c).raise g) := by
  simp only [State.retireV, retire_ok hr, bind, Except.bind]
  rfl

/-- A register that can be read has lost no load. -/
theorem lost_of_readV {v : BitVec 4} {ls : List Lane} (h : s.readV c v = .ok ls) : Table.look s.me.lostLoads (64 + v.toNat) = none := by
  unfold State.readV at h
  split at h
  · cases h
  · split at h
    · cases h
    · assumption

/-- How an instruction that writes a free vector register ends. -/
theorem conclude_retireV {d : BitVec 4} (h : s.FreeV d) (e : Word) (c : Claim) (g : FpFlags) :
    concludeAs e s (s.retireV [] [] (some d) c g) = .next (s.wroteV [] [] c g) := by
  rw [retireV_some h.fits h.kept]
  rfl
end

theorem Vector1_of {mk : BitVec 4 → BitVec 4 → BitVec 2 → BitVec 4 → BitVec 3 → Instr} {lo hi : Nat}
    {op : BitVec 4 → Fmt → Rounding → Nat → Result}
    (e : ∀ (s : State) d a k t x, exec (mk d a k t x) s = concludeAs (mk d a k t x).encoding s (vector1 s d a k t x lo hi (op t))) :
    Vector1 mk lo hi op := by
  intro s d a k t x c f va hv ha hd rs
  rw [Completes, e]
  simp only [vector1, needClaim_ok hv.claim, typeIn_ok hv, ha, writableV_ok hd, bind, Except.bind]
  exact conclude_retireV hd _ _ _

theorem Vector2_of {mk : BitVec 4 → BitVec 4 → BitVec 4 → BitVec 2 → BitVec 4 → BitVec 3 → Instr} {lo hi : Nat}
    {op : Fmt → Rounding → Nat → Nat → Result}
    (e : ∀ (s : State) d a b k t x, exec (mk d a b k t x) s = concludeAs (mk d a b k t x).encoding s (vector2 s d a b k t x lo hi op)) :
    Vector2 mk lo hi op := by
  intro s d a b k t x c f va vb hv ha hb hd rs
  rw [Completes, e]
  simp only [vector2, needClaim_ok hv.claim, typeIn_ok hv, ha, hb, writableV_ok hd, bind, Except.bind]
  exact conclude_retireV hd _ _ _

theorem Lanewise_of {mk : BitVec 4 → BitVec 4 → BitVec 4 → BitVec 2 → BitVec 4 → BitVec 3 → Instr} {op : Lane → Lane → Lane}
    (e : ∀ (s : State) d a b k t x, exec (mk d a b k t x) s = concludeAs (mk d a b k t x).encoding s (lanewise s d a b k t op)) :
    Lanewise mk op := by
  intro s d a b k t x c f va vb hv ha hb hd
  rw [Completes, e]
  simp only [lanewise, needClaim_ok hv.claim, typeIn_ok hv, ha, hb, writableV_ok hd, bind, Except.bind]
  exact conclude_retireV hd _ _ _

theorem Reduction_of {mk : BitVec 4 → BitVec 5 → BitVec 2 → BitVec 4 → BitVec 3 → Instr}
    {op : Fmt → Rounding → Nat → List Nat → Word × FpFlags}
    (e : ∀ (s : State) a g k t x, exec (mk a g k t x) s = concludeAs (mk a g k t x).encoding s (reduce s a g k t x op)) :
    Reduction mk op := by
  intro s a g k t x c f va hv ha r hr
  rw [Completes, e]
  simp only [reduce, needClaim_ok hv.claim, typeIn_ok hv, ha, bind, Except.bind]
  exact (congrArg (concludeAs _ s) (retireV_none hr c r.2)).trans rfl

/-- How VFMA and VFMS end: the third operand is the register that they write. -/
theorem vector3_ends {s : State} {d a b : BitVec 4} {k : BitVec 2} {t : BitVec 4} {c : Claim} {f : Fmt} {va vb vd : List Lane}
    (hv : s.VectorOf c t 0 11 f) (ha : s.readV c a = .ok va) (hb : s.readV c b = .ok vb) (hd : s.readV c d = .ok vd)
    (hr : s.mayRetire [] [] = true) (x : BitVec 3) (op : Fmt → Rounding → Nat → Nat → Nat → Result) (e : Word) :
    let rs := (List.range (active c k f.width)).map (fun i =>
      op f (s.me.mode x) (element va f.width i) (element vb f.width i) (element vd f.width i))
    concludeAs e s (vector3 s d a b k t x 0 11 op)
      = .next (s.wroteV [] [] (c.setReg d (putElements vd f 0 (rs.map (·.1)))) (orFlags (rs.map (·.2)))) := by
  intro rs
  simp only [vector3, needClaim_ok hv.claim, typeIn_ok hv, ha, hb, hd, bind, Except.bind]
  exact (congrArg (concludeAs _ s) (retireV_some hr (lost_of_readV hd) _ _)).trans rfl

/-- Settles O27: each operation is `vector1`, `vector2`, `vector3` or `lanewise` of its function, and the rest end as they write vd. -/
theorem vectorElementOperations : Obligations.VectorElementOperations := by
  unfold Obligations.VectorElementOperations
  refine ⟨⟨Vector2_of ?_, Vector2_of ?_, Vector2_of ?_, Vector2_of ?_, Vector2_of ?_, Vector2_of ?_, Vector2_of ?_, Vector2_of ?_, ?fma⟩,
    ⟨Vector1_of ?_, Vector1_of ?_, Vector1_of ?_, Vector1_of ?_, Vector1_of ?_, Vector1_of ?_, Vector1_of ?_, Vector1_of ?_,
      Vector1_of ?_, Vector1_of ?_, ?cvt⟩,
    Lanewise_of ?_, Lanewise_of ?_, Lanewise_of ?_, Lanewise_of ?_, Vector2_of ?_, Vector2_of ?_, Vector2_of ?_, ?cmp, ?sel⟩
  case fma =>
    intro s d a b k t x c f va vb vd hv ha hb hd hr
    exact ⟨vector3_ends hv ha hb hd hr x (fused false) _, vector3_ends hv ha hb hd hr x (fused true) _⟩
  case cvt =>
    intro s d a sg k t x c f g va hv hg ha hd rs
    change execVcvt d a sg k t x s = _
    simp only [execVcvt, needClaim_ok hv.claim, typeIn_ok hv, typeIn_ok hg, ha, writableV_ok hd, bind, Except.bind]
    exact conclude_retireV hd _ _ _
  case cmp =>
    intro s d a b k t cc c f va vb hv hcc ha hb hd rs mask
    have hlegal : ¬ (f.isInt = true ∧ 6 ≤ cc.toNat) := fun ⟨h1, h2⟩ => absurd (hcc h1) (Nat.not_lt.2 h2)
    change execVcmp d a b k t cc s = _
    simp only [execVcmp, needClaim_ok hv.claim, typeIn_ok hv, hlegal, ha, hb, writableV_ok hd, bind, Except.bind, if_false]
    exact conclude_retireV hd _ _ _
  case sel =>
    intro s d a b k t x c f va vb vd hv ha hb hd hr
    change execVsel d a b k t x s = _
    simp only [execVsel, needClaim_ok hv.claim, typeIn_ok hv, ha, hb, hd, bind, Except.bind]
    exact (congrArg (concludeAs _ s) (retireV_some hr (lost_of_readV hd) _ _)).trans rfl
  all_goals intros; rfl

end Sys2Proof.Machine
namespace Sys2Proof.Machine

/-! ## Reductions, moves and predicates (07_vector_instr.md R180, R189, R201 to R203) -/

/-- Settles O28: each operation ends as it writes vd, its scalar register or its predicate. -/
theorem vectorReductionsMovesPredicates : Obligations.VectorReductionsMovesPredicates := by
  unfold Obligations.VectorReductionsMovesPredicates
  refine ⟨⟨Reduction_of ?_, Reduction_of ?_, Reduction_of ?_, ?scan, ?permute, ?insert, ?extract, ?iota⟩, ?count, ?remain, ?least, ?fields⟩
  case scan =>
    intro s d a k t x c f va hv ha hd
    have run : exec (.vscan d a k t x) s = concludeAs (Instr.vscan d a k t x).encoding s (
        let r : List Lane × FpFlags := match (List.range (active c k f.width)).map (element va f.width) with
          | [] => (c.reg d, 0)
          | x0 :: xs =>
            let rs := scanFrom f (s.me.mode x) x0 xs
            (putElements (putElement (c.reg d) f 0 x0) f 1 (rs.map (·.1)), orFlags (rs.map (·.2)))
        s.retireV [] [] (some d) (c.setReg d r.1) r.2) := by
      change execVscan d a k t x s = _
      simp only [execVscan, needClaim_ok hv.claim, typeIn_ok hv, ha, writableV_ok hd, bind, Except.bind] <;> rfl
    refine ⟨fun h0 => ?_, fun hpos => ?_⟩
    · rw [Completes, run, h0]
      exact conclude_retireV hd _ _ _
    · intro rs
      obtain ⟨n, hn⟩ := Nat.exists_eq_succ_of_ne_zero (Nat.pos_iff_ne_zero.1 hpos)
      have hrs : rs = scanFrom f (s.me.mode x) (element va f.width 0) ((List.range n).map (fun i => element va f.width (i + 1))) := by
        simp only [rs, hn]
        rfl
      rw [Completes, run, hn, List.range_succ_eq_map, List.map_cons, List.map_map, hrs]
      exact conclude_retireV hd _ _ _
  case permute =>
    intro s d a b k t x c f va vb hv ha hb hd
    refine ⟨?_, ?_⟩
    · change execVperm d a b k t x s = _
      simp only [execVperm, needClaim_ok hv.claim, typeIn_ok hv, ha, hb, writableV_ok hd, bind, Except.bind]
      exact conclude_retireV hd _ _ _
    · change execVmov d a k t x s = _
      simp only [execVmov, needClaim_ok hv.claim, typeIn_ok hv, ha, writableV_ok hd, bind, Except.bind]
      exact conclude_retireV hd _ _ _
  case insert =>
    intro s d g l k t x c f y hv hy hd hr
    rw [Reads] at hy
    refine ⟨?_, ?_⟩
    · change execVbc d g l k t x s = _
      simp only [execVbc, hy, needClaim_ok hv.claim, typeIn_ok hv, writableV_ok hd, bind, Except.bind]
      exact (congrArg (concludeAs _ s) (retireV_some hr hd.kept _ _)).trans rfl
    · change execVins d g l k t x s = _
      simp only [execVins, hy, needClaim_ok hv.claim, typeIn_ok hv, writableV_ok hd, bind, Except.bind]
      exact (congrArg (concludeAs _ s) (retireV_some hr hd.kept _ _)).trans rfl
  case extract =>
    intro s a g k t x c f va v hv ha hval hr
    subst hval
    change execVext a g k t x s = _
    simp only [execVext, needClaim_ok hv.claim, typeIn_ok hv, ha, bind, Except.bind]
    exact (congrArg (concludeAs _ s) (retireV_none hr _ _)).trans rfl
  case iota =>
    intro s d k t x c f hv hd
    change execViota d k t x s = _
    simp only [execViota, needClaim_ok hv.claim, typeIn_ok hv, writableV_ok hd, bind, Except.bind]
    exact conclude_retireV hd _ _ _
  case count =>
    intro s d k c hc hr
    change execPcnt d k s = _
    simp only [execPcnt, needClaim_ok hc, bind, Except.bind]
    exact concludeAs_retire hr _
  case remain =>
    intro s d a l b m k c x y v hc hx hy hv hr
    subst hv
    rw [Reads] at hx hy
    change execPwhile d a l b m k s = _
    simp only [execPwhile, hx, hy, needClaim_ok hc, retire_ok hr, bind, Except.bind]
    rfl
  case least =>
    intro s a l k kb c x hc hx hr
    rw [Reads] at hx
    change execPmin a l k kb s = _
    simp only [execPmin, hx, needClaim_ok hc, retire_ok hr, bind, Except.bind]
    rfl
  case fields => exact fun c n => ⟨rfl, rfl, rfl, rfl, rfl, rfl, rfl, rfl⟩
  all_goals intros; rfl

end Sys2Proof.Machine
namespace Sys2Proof.Machine

/-! ## Vector memory and channels (07_vector_instr.md R204, R208 to R211) -/

section
variable {s : State} {size : Nat} {hint : BitVec 2}

/-- An element whose home is here and can be reached now is not read later. -/
theorem elementLater_here {pl : Place} (h : pl.Here) (hn : s.nowAt pl.key = true) : s.elementLater pl = false := by
  obtain ⟨h1, h2⟩ := h
  simp only [State.elementLater, h1, h2, hn]
  rfl

/-- Elements that are all at hand are read as they are. -/
theorem readElements_here {places : List (Word × Place)} (hh : ∀ e ∈ places, e.2.Here ∧ s.nowAt e.2.key = true) {vals : List Nat}
    (hv : places.map (fun e => s.ownRead e.1 e.2 size hint) = vals.map some) (old : List Nat) :
    s.readElements size old hint places = .ok vals := by
  induction places generalizing vals old with
  | nil =>
    obtain rfl := List.map_eq_nil_iff.1 hv.symm
    rfl
  | cons e places ih =>
    cases vals with
    | nil => cases hv
    | cons v vals =>
      rw [List.map_cons, List.map_cons, List.cons.injEq] at hv
      obtain ⟨hhere, hnow⟩ := hh e List.mem_cons_self
      have hrest := ih (fun x hx => hh x (List.mem_cons_of_mem _ hx)) hv.2 old.tail
      simp only [State.readElements, elementLater_here hhere hnow, hv.1, hrest, Bool.false_eq_true, and_false, if_false, bind, Except.bind,
        pure, Except.pure]

/-- Elements that all travel leave what the register holds. -/
theorem readElements_later {places : List (Word × Place)}
    (hl : ∀ e ∈ places, s.nearHit e.1 e.2 hint = none ∧ s.elementLater e.2 = true) {old : List Nat} (ho : old.length = places.length) :
    s.readElements size old hint places = .ok old := by
  induction places generalizing old with
  | nil =>
    obtain rfl := List.length_eq_zero_iff.1 ho
    rfl
  | cons e places ih =>
    cases old with
    | nil => cases ho
    | cons v old =>
      obtain ⟨hnear, hlater⟩ := hl e List.mem_cons_self
      have hrest := ih (fun x hx => hl x (List.mem_cons_of_mem _ hx)) (Nat.succ.inj ho)
      simp only [State.readElements, hnear, hlater, Option.isNone_none, and_self, if_true, List.headD_cons, List.tail_cons, hrest, bind,
        Except.bind, pure, Except.pure]
end

section
variable {i : Instr} {e : Word} {s : State} {c : Claim} {f : Fmt} {size : Nat} {d : BitVec 4} {places : List (Word × Place)}
  {dies : List Reg} {hint : BitVec 2}

/-- An instruction that ends as `vectorLoad` does everything that `VectorLoads` says. -/
theorem VectorLoads_of {code : Nat} (h : exec i s = concludeAs e s (vectorLoad s c f size d code places dies hint)) :
    VectorLoads i s c f size d code places dies hint := by
  intro hr
  refine ⟨fun h0 => ?_, fun h0 hg hd => ⟨fun vals hv hh => ?_, fun hl old hold u hu => ?_⟩⟩
  · rw [Completes, h, h0]
    exact (congrArg (concludeAs e s) (retireV_none hr c 0)).trans rfl
  · intro u
    have hne : places.isEmpty = false := by simpa using h0
    have hleft (g : Nat → Word × Place → Request × Bool) : ((List.range places.length).filterMap (fun j => (places[j]?).bind (fun e =>
        if (s.nearHit e.1 e.2 hint).isNone ∧ s.elementLater e.2 then some (g j e) else none))) = [] := by
      refine List.filterMap_eq_nil_iff.2 fun j _ => Option.bind_eq_none_iff.2 fun x hx => ?_
      obtain ⟨hhere, hnow⟩ := hh x (List.mem_of_getElem? hx)
      rw [elementLater_here hhere hnow, if_neg (by simp)]
    rw [Completes, h]
    simp only [vectorLoad, hne, hg, writableV_ok hd, readElements_here hh hv, retireV_some hr hd.kept, bind, Except.bind, Bool.false_eq_true,
      if_false, hleft (fun j e => _), if_true]
    rfl
  · intro rs
    have hne : places.isEmpty = false := by simpa using h0
    have hlen : old.length = places.length := by rw [hold, List.length_map, List.length_range]
    have hleft : ((List.range places.length).filterMap (fun j => (places[j]?).bind (fun e =>
        if (s.nearHit e.1 e.2 hint).isNone ∧ s.elementLater e.2 then
          some ({ s.requestOf e.1 e.2 (.load size false) 0 0 none (.element d.toNat j code) with id := 0, hint := hint }, e.2.lost)
        else none))) = rs := by
      refine List.filterMap_congr fun j _ => ?_
      cases hj : places[j]? with
      | none => rfl
      | some x =>
        obtain ⟨hnear, hlater⟩ := hl x (List.mem_of_getElem? hj)
        rw [Option.bind_some, hnear, hlater, if_pos (by simp)]
        rfl
    have hrs : rs ≠ [] := fun hnil => by
      have h1 := List.filterMap_eq_nil_iff.1 hnil 0 (List.mem_range.2 (List.length_pos_iff.2 h0))
      rw [List.getElem?_eq_getElem (List.length_pos_iff.2 h0)] at h1
      cases h1
    rw [Completes, h]
    simp only [vectorLoad, hne, hg, writableV_ok hd, ← hold, readElements_later hl hlen, retireV_some hr hd.kept, bind, Except.bind, Bool.false_eq_true,
      if_false, hleft, hrs, hu]
    rfl

/-- An instruction that ends as `vectorStore` does everything that `VectorStores` says. -/
theorem VectorStores_of (h : exec i s = concludeAs e s (vectorStore s c f size d places dies hint)) :
    VectorStores i s c f size d places dies hint := by
  intro hr
  refine ⟨fun h0 => ?_, fun v x rest hp hg hv => ?_⟩
  · rw [Completes, h, h0]
    exact concludeAs_retire hr e
  · subst hp
    intro u rs
    rw [Completes, h]
    simp only [vectorStore, List.isEmpty_cons, hg, hv, retire_ok hr, bind, Except.bind, Bool.false_eq_true, if_false]
    rfl
end

theorem vectorBase_ok {s : State} {a : Reg} {p : Word} {c : Claim} {f : Fmt} {size : Nat} (hp : Reads s a p) (hc : s.me.claim = some c)
    (hf : vectorFormat p = .ok (f, size)) : s.vectorBase a = .ok (p, c, f, size) := by
  rw [Reads] at hp
  simp only [State.vectorBase, hp, needClaim_ok hc, hf, bind, Except.bind, pure, Except.pure]

/-- The vector memory instructions: each finds its places and ends as `vectorLoad` or `vectorStore` does. -/
theorem exec_vldf {s : State} {d : BitVec 4} {a : Reg} {k : BitVec 2} {p : Word} {c : Claim} {f : Fmt} {size : Nat} (hk : k ≠ 0)
    (hb : s.vectorBase a = .ok (p, c, f, size)) (l : Bool) (h : BitVec 2) {places : List (Word × Place)} {fail : Option Stop}
    (hp : s.elementsUntil p size Need.load (strided (active c k f.width) size) = (places, fail)) :
    exec (.vldf d a l k h) s = concludeAs (Instr.vldf d a l k h).encoding s (match fail with
      | none => vectorLoad s c f size d (ptrFmt p) places (used l a) h
      | some e => if places = [] then .error e
        else vectorLoad s (c.setPred k (lanesOf f.width places.length)) f size d (ptrFmt p) places (used l a) h) := by
  change execVldf d a l k h s = _
  simp only [execVldf, hk, hb, hp, bind, Except.bind, if_false]
  cases fail <;> rfl

section
variable {s : State} {c : Claim} {f : Fmt} {q : BitVec 3} {k : BitVec 2} {t : BitVec 4} {h : Channel}

theorem exec_vqmovPop (hv : s.VectorOf c t 0 13 f) (hk : k ≠ 0) (hq : s.bound q = some h) (hr : h.readable = true) (d : BitVec 4)
    (x : BitVec 3) :
    exec (.vqmovPop d q k t x) s = concludeAs (Instr.vqmovPop d q k t x).encoding s
      (if active c k f.width = 0 then s.retireV [] [] none (c.setPred k 0) 0 else do
        s.writableV d
        match headEntry (s.entriesOf s.cur.1 h) with
        | none => s.awaitEntry h
        | some e =>
          if e.control then (s.setEntries s.cur.1 s.cur.2 q.toNat h (s.entriesOf s.cur.1 h).tail).lightEntry e.data
          else
            let taken := (dataEntries (s.entriesOf s.cur.1 h)).take (active c k f.width)
            let v := putElements (c.reg d) f 0 (taken.map (fun e => e.data.toNat % 2 ^ f.width))
            let r ← s.retireV [] [] (some d) ((c.setReg d v).setPred k (lanesOf f.width taken.length)) 0
            pure (r.setEntries s.cur.1 s.cur.2 q.toNat h ((s.entriesOf s.cur.1 h).drop taken.length))) := by
  change execVqmovPop d q k t x s = _
  simp only [execVqmovPop, hk, needClaim_ok hv.claim, typeIn_ok hv, openChannel_ok hq hr, bind, Except.bind, if_false] <;> rfl

theorem exec_vqmovPush (hv : s.VectorOf c t 0 13 f) (hk : k ≠ 0) (hq : s.bound q = some h) (hr : h.readable = false) (a : BitVec 4)
    (x : BitVec 3) :
    exec (.vqmovPush q a k t x) s = concludeAs (Instr.vqmovPush q a k t x).encoding s
      (if active c k f.width = 0 then s.retireV [] [] none (c.setPred k 0) 0
       else if 16 ≤ (s.entriesOf s.cur.1 h).length then stall .retry
       else do
        let va ← s.readV c a
        let j := min (active c k f.width) (16 - (s.entriesOf s.cur.1 h).length)
        let pushed := (List.range j).map (fun i => ({ data := extendElement f (element va f.width i) } : Entry))
        let r ← s.retireV [] [] none (c.setPred k (lanesOf f.width j)) 0
        pure (r.setEntries s.cur.1 s.cur.2 q.toNat h (s.entriesOf s.cur.1 h ++ pushed))) := by
  change execVqmovPush q a k t x s = _
  simp only [execVqmovPush, hk, needClaim_ok hv.claim, typeIn_ok hv, openChannel_ok hq hr, bind, Except.bind, if_false]
end

/-- Settles O29: the vector memory instructions end as `vectorLoad` and `vectorStore` do, VQMOV as its channel and its count say. -/
theorem vectorMemoryAndChannels : Obligations.VectorMemoryAndChannels := by
  unfold Obligations.VectorMemoryAndChannels
  refine ⟨?memory, ?pop, ?push⟩
  case memory =>
    intro s d w a l b m k h p y c f size x hp hy hc hf hx
    have hbase := vectorBase_ok hp hc hf
    rw [Reads] at hp hy
    refine ⟨fun places hpl => ?_, fun places hpl => ?_, fun places hpl => ?_, fun places hpl => ?_, fun places hpl => ?_,
      fun places hpl => ?_, fun places hk hpl => ?_, fun places e hk hne hpl => ?_⟩
    · apply VectorLoads_of
      change execVld d a l k h s = _
      simp only [execVld, hbase, strided, hpl, bind, Except.bind]
      rfl
    · apply VectorStores_of
      change execVst d a l k h s = _
      simp only [execVst, hbase, strided, hpl, bind, Except.bind]
      rfl
    · apply VectorLoads_of
      change execVlds d a l b m k h s = _
      simp only [execVlds, hp, hy, hbase, strided, hpl, bind, Except.bind]
      rfl
    · apply VectorStores_of
      change execVsts d a l b m k h s = _
      simp only [execVsts, hp, hy, hbase, strided, hpl, bind, Except.bind]
      rfl
    · apply VectorLoads_of
      change execVgth d a l w k h s = _
      simp only [execVgth, hbase, hx, hpl, bind, Except.bind]
      rfl
    · apply VectorStores_of
      change execVsct d a l w k h s = _
      simp only [execVsct, hbase, hx, hpl, bind, Except.bind]
      rfl
    · exact VectorLoads_of (exec_vldf hk hbase l h hpl)
    · exact VectorLoads_of ((exec_vldf hk hbase l h hpl).trans (congrArg (concludeAs _ s) (if_neg hne)))
  case pop =>
    intro s d q k t x c f h hv hk hq hrd hr
    have run := exec_vqmovPop hv hk hq hrd d x
    refine ⟨fun h0 => ?_, fun e hpos hw he hc => ?_, fun e hpos hd he hc => ?_⟩
    · rw [Completes, run, if_pos h0, retireV_none hr]
      rfl
    · intro u ha hl
      have hw : s.writableV d = .ok () := if_neg (ne_true_of_eq_false hw)
      rw [Completes, run, if_neg (Nat.pos_iff_ne_zero.1 hpos), hw, he]
      simp only [hc, bind, Except.bind, if_true]
      exact (congrArg (concludeAs _ s) (lightEntry_enters ha hl)).trans rfl
    · intro taken v u
      rw [Completes, run, if_neg (Nat.pos_iff_ne_zero.1 hpos), writableV_ok hd, he]
      simp only [hc, retireV_some hr hd.kept, bind, Except.bind, Bool.false_eq_true, if_false]
      rfl
  case push =>
    intro s q a k t x c f h va hv hk hq hrd hr
    have run := exec_vqmovPush hv hk hq hrd a x
    refine ⟨fun h0 => ?_, fun hpos ha hroom => ?_, fun hpos hfull => ?_⟩
    · rw [Completes, run, if_pos h0, retireV_none hr]
      rfl
    · intro j pushed u
      rw [Completes, run, if_neg (Nat.pos_iff_ne_zero.1 hpos), if_neg (Nat.not_le.2 hroom), ha]
      simp only [retireV_none hr, bind, Except.bind]
      rfl
    · rw [Completes, run, if_neg (Nat.pos_iff_ne_zero.1 hpos), if_pos hfull]
      rfl

end Sys2Proof.Machine
namespace Sys2Proof.Machine

/-! ## VMRG (07_vector_instr.md R205 to R207) -/

/-- Settles O30: with no merge in progress the position is 0; the merge ends, or waits with its elements kept. -/
theorem mergeCompletes : Obligations.MergeCompletes := by
  unfold Obligations.MergeCompletes
  intro s d a b k t x c f ha hb xs ys out ended hv hk hab hqa hra hqb hrb hd hfresh n turns ea eb hloop hout merged c'
  have hlegal : ¬ (k = 0 ∨ a = b) := not_or.2 ⟨hk, hab⟩
  have hpos : (if bitAt s.me.mrgst 63 = true then bitsOf s.me.mrgst 8 0 else 0) = 0 := if_neg (ne_true_of_eq_false hfresh)
  dsimp only [n, turns, ea, eb] at hloop
  refine ⟨?_, ?_⟩
  · intro hend u
    subst hend
    change execVmrg d a b k t x s = _
    simp only [execVmrg, hlegal, needClaim_ok hv.claim, typeIn_ok hv, openChannel_ok hqa hra, openChannel_ok hqb hrb, writableV_ok hd, hpos,
      Nat.sub_zero, Nat.zero_add, hloop, hout, retireV_some hd.fits hd.kept, bind, Except.bind, pure, Except.pure, if_false, if_true]
    rfl
  · intro hend u
    subst hend
    change execVmrg d a b k t x s = _
    simp only [execVmrg, hlegal, needClaim_ok hv.claim, typeIn_ok hv, openChannel_ok hqa hra, openChannel_ok hqb hrb, writableV_ok hd, hpos,
      Nat.sub_zero, Nat.zero_add, hloop, hout, bind, Except.bind, pure, Except.pure, if_false, false_and, Bool.false_eq_true]
    rfl

end Sys2Proof.Machine
namespace Sys2Proof.Machine

/-! ## The matrix instructions (08_matrix_instr.md R215 to R231) -/

section
variable {s : State} {q : Word}

theorem engineRoom_ok (h1 : s.mine.engine.accepted.length < 8) (h2 : s.classFull 3 = false) : s.engineRoom = .ok () := by
  refine if_neg ?_
  rw [h2]
  simpa using h1

theorem drainedDext_ok {mask : BitVec 4} (hm : s.extent s.me.dext q = .ok mask) (hd : s.drainedNow mask = true) :
    s.drainedDext q = .ok () := by
  simp only [State.drainedDext, hm, hd, bind, Except.bind]
  rfl

theorem notService_ok (h : isService s.cur.1 = false) : s.notService = .ok () := if_neg (ne_true_of_eq_false h)

/-- An instruction that ends as `queueCommand` does queues its command. -/
theorem QueuesCommand_of {i : Instr} {e : Word} {c : Command} {d : Reg} {dies : List Reg} (hk : c.kind ≠ .mzero)
    (h : exec i s = concludeAs e s (s.queueCommand c dies (some d))) : QueuesCommand i s c d dies := by
  intro hr u v w
  rw [Completes, h]
  simp only [State.queueCommand, retire_ok hr, hk, bind, Except.bind, if_false]
  rfl

/-- An engine command with a block ends as it is queued. -/
theorem issueBlock_queues {a : Reg} {b : Vector Word 8} {kind : CmdKind} {zero : Option Bool} {p : BitVec 4} {c : Command}
    (hsv : isService s.cur.1 = false) (hq : Reads s a q) (hs : spaces q [0, 1] = .ok ())
    (hcore : ptrSpace q = 1 → s.coreNamed q = some (.inl s.cur.1)) (hb : s.blockAt q = .ok b) (ho : s.EngineOpen q)
    (hc : c = (s.newCommand kind p.toNat).withBlock b (zero.getD (bitAt (b.toList.getD 0 0) 59)) p.toNat)
    (hok : s.checkBlock s.cur.1 c q = .ok ()) (d : Reg) (l : Bool) :
    issueBlock s d a l p kind zero = s.queueCommand c (used l a) (some d) := by
  obtain ⟨mask, hm, hd⟩ := ho.drained
  have hname : ¬ (ptrSpace q = 1 ∧ s.coreNamed q ≠ some (.inl s.cur.1)) := fun ⟨h1, h2⟩ => h2 (hcore h1)
  rw [Reads] at hq
  subst hc
  simp only [issueBlock, engineRoom_ok ho.room ho.few, hq, notService_ok hsv, hs, hname, hb, hok, drainedDext_ok hm hd, bind, Except.bind,
    if_false]

/-- An engine command with a pointer and a patch ends as it is queued. -/
theorem issuePatch_queues {a b : Reg} {y : Word} {kind : CmdKind} {effect : Nat} {p : BitVec 4} (hsv : isService s.cur.1 = false)
    (hq : Reads s a q) (hy : Reads s b y) (hs : s.engineSpace q [0, 1, 3] = .ok ()) (hp : s.patchOk s.cur.1 p.toNat = true)
    (hov : s.overlaps s.cur.1 p.toNat q (ptrFmt q) 32 (bitsOf y 39 0) 32 = false) (ho : s.EngineOpen q)
    (hf : (if kind = .mld then mldFormat (ptrFmt q) else mstFormat (ptrFmt q)) = true)
    (ht : effect ≠ 0 → tagAligned q (bitsOf y 39 0) = true) (d : Reg) (l m : Bool) :
    issuePatch s d a l b m p kind effect = s.queueCommand { s.newCommand kind p.toNat with
      pointer := q, stride := bitsOf y 39 0, tagEffect := effect, version := BitVec.ofNat 7 (bitsOf y 63 57) }
      (used l a ++ used m b) (some d) := by
  obtain ⟨mask, hm, hd⟩ := ho.drained
  have htag : ¬ (effect ≠ 0 ∧ ¬ tagAligned q (bitsOf y 39 0) = true) := fun ⟨h1, h2⟩ => h2 (ht h1)
  rw [Reads] at hq hy
  simp only [issuePatch, engineRoom_ok ho.room ho.few, hq, hy, notService_ok hsv, hf, hs, htag, hp, hov, drainedDext_ok hm hd, bind,
    Except.bind, if_false, Bool.not_true, Bool.false_eq_true, or_self]
end

/-- Settles O32: every form ends as `issueBlock`, `issuePatch` or `queueCommand` does. -/
theorem matrixCommandsQueued : Obligations.MatrixCommandsQueued := by
  unfold Obligations.MatrixCommandsQueued
  refine ⟨?block, ?patch, ?zero⟩
  case block =>
    intro s d a l p q b hsv hq hs hcore hb ho cmd
    have queues (k : CmdKind) (zero : Option Bool) {z : Bool} (hz : zero.getD (bitAt (b.toList.getD 0 0) 59) = z)
        (hok : s.checkBlock s.cur.1 (cmd k z) q = .ok ()) :
        issueBlock s d a l p k zero = s.queueCommand (cmd k z) (used l a) (some d) := by
      subst hz
      exact issueBlock_queues hsv hq hs hcore hb ho rfl hok d l
    refine ⟨fun hok => ?_, fun hok => ?_, fun hok => ?_, fun hok => ?_, fun z hz hok => ?_⟩
    · exact QueuesCommand_of nofun (congrArg (concludeAs _ s) (queues .mma (some false) rfl hok))
    · exact QueuesCommand_of nofun (congrArg (concludeAs _ s) (queues .mma (some true) rfl hok))
    · exact QueuesCommand_of nofun (congrArg (concludeAs _ s) (queues .mbs (some false) rfl hok))
    · exact QueuesCommand_of nofun (congrArg (concludeAs _ s) (queues .mbs (some true) rfl hok))
    · exact QueuesCommand_of nofun (congrArg (concludeAs _ s) (queues .msp none hz.symm hok))
  case patch =>
    intro s d a l b m p q y hsv hq hy hs hp hov ho cmd dies
    have queues (k : CmdKind) (effect : Nat) (hf : (if k = .mld then mldFormat (ptrFmt q) else mstFormat (ptrFmt q)) = true)
        (ht : effect ≠ 0 → tagAligned q (bitsOf y 39 0) = true) :
        issuePatch s d a l b m p k effect = s.queueCommand (cmd k effect) dies (some d) :=
      issuePatch_queues hsv hq hy hs hp hov ho hf ht d l m
    refine ⟨fun hf => ?_, fun hf => ?_, fun hf ht => ⟨?_, ?_, ?_⟩⟩
    · exact QueuesCommand_of nofun (congrArg (concludeAs _ s) (queues .mld 0 hf nofun))
    · exact QueuesCommand_of nofun (congrArg (concludeAs _ s) (queues .mst 0 hf nofun))
    · exact QueuesCommand_of nofun (congrArg (concludeAs _ s) (queues .mst 1 hf fun _ => ht))
    · exact QueuesCommand_of nofun (congrArg (concludeAs _ s) (queues .mst 2 hf fun _ => ht))
    · exact QueuesCommand_of nofun (congrArg (concludeAs _ s) (queues .mst 3 hf fun _ => ht))
  case zero =>
    intro s p hsv hp hroom hfew hr u
    change execMzero p s = _
    simp only [execMzero, engineRoom_ok hroom hfew, notService_ok hsv, hp, State.queueCommand, retire_ok hr, bind, Except.bind,
      Bool.not_true, Bool.false_eq_true, if_false]
    rfl

end Sys2Proof.Machine
namespace Sys2Proof.Machine

/-! ## Engine queries and the sparse tables (08_matrix_instr.md R215, R226 to R240) -/

theorem tilePointer_ok {p : Word} (hf : fmtReserved (ptrFmt p) = false) (hs : ptrSpace p = 0) (ha : ptrAddr p % 8 = 0) :
    tilePointer p = .ok () := by
  simp only [tilePointer, spaces_ok hf (show ptrSpace p ∈ [0] by simp [hs]), ha, bind, Except.bind]
  rfl

section
variable {s : State} {d a b : Reg} {l m : Bool}

theorem exec_mrd {x : Word} (hsv : isService s.cur.1 = false) (hx : Reads s a x) {p : BitVec 4} (hp : s.patchOk s.cur.1 p.toNat = true) :
    let off := 0x1000 * p.toNat + 128 * bitsOf x 9 5 + 4 * bitsOf x 4 0
    let key := sramKey s.cur.1 off
    exec (.mrd d a l p) s = concludeAs (Instr.mrd d a l p).encoding s (do
      if s.patchBusy key ∨ s.conflicts key 4 then stall .retry
      if s.poisoned key 4 then pageTrap (wordOf (2 ^ 52 + 0xFF * 2 ^ 44 + s.cur.1 * 2 ^ 32 + off / 8 * 8)) 5
      s.retire 4 (used l a) [(d, wordOf (readBytes s.mem key 4))]) := by
  intro off key
  rw [Reads] at hx
  change execMrd d a l p s = _
  simp only [execMrd, hx, notService_ok hsv, hp, bind, Except.bind, Bool.not_true, Bool.false_eq_true, if_false]
  rfl

/-- HACC ends as its loop does, and then retires with HPROG 0. -/
theorem exec_hacc {p y keys vals : Word} {t : HashTable} {n : Nat} (hp : Reads s a p) (hy : Reads s b y) (ht : s.hashTable p = .ok t)
    (hd : s.arrayDescriptor y = .ok (keys, vals, n)) (hk : ptrFmt keys = 0x03 ∨ ptrFmt keys = 0x04 ∨ ptrFmt keys = 0x07 ∨ ptrFmt keys = 0x08)
    (hv : haccValue (ptrFmt vals) = true) :
    let e := bitsOf s.me.hprog 39 0
    let turns := if s.eager then n - e else min (n - e) (1 + s.free 321 (n - e))
    exec (.hacc d a l b m) s = concludeAs (Instr.hacc d a l b m).encoding s (do
      let r ← s.haccFrom t keys vals (decide (turns < n - e)) turns e
      match (r.setHprog 0).retire 4 (used l a ++ used m b) [(d, wordOf n)] with
      | .ok z => pure z
      | .error x => .error (x.keeping r)) := by
  intro e turns
  have hkeys : [0x03, 0x04, 0x07, 0x08].contains (ptrFmt keys) = true := by simpa using hk
  rw [Reads] at hp hy
  change execHacc d a l b m s = _
  simp only [execHacc, hp, hy, ht, hd, hkeys, hv, bind, Except.bind, Bool.not_true, Bool.false_eq_true, if_false]
  rfl

theorem exec_carry {p y : Word} {pl : Place} (hp : Reads s a p) (hy : Reads s b y) (hs : spaces p [0, 3] = .ok ())
    (hpl : s.placeOf p 16 Need.both true = .ok pl) :
    exec (.carry d a l b m) s = concludeAs (Instr.carry d a l b m).encoding s
      (s.atHome 16 (if d = 0 then 1 else 0) d (used l a ++ used m b) .carry (.ok (p, pl, y)) (fun _ => .ok ())) := by
  rw [Reads] at hp hy
  change execCarry d a l b m s = _
  simp only [execCarry, hp, hy, hs, hpl, bind, Except.bind, pure, Except.pure]
end

/-- Settles O33: each instruction passes its checks and ends as its case says. -/
theorem engineQueriesAndSparseTables : Obligations.EngineQueriesAndSparseTables := by
  unfold Obligations.EngineQueriesAndSparseTables
  refine ⟨⟨?mrd, ?mqry, ?mcmd, fun s d a l p hsv hp hf hs ha => ⟨?mpre, ?mpinv⟩⟩, ?hacc, ?hdrn, ?sbnd,
    fun s d a l b m p y pl hp hy hs hpl hn => HomeGives_of hn (ready := fun _ => .ok ()) rfl (exec_carry hp hy hs hpl)⟩
  case mrd =>
    intro s d a l p x hsv hx hp key
    have run := exec_mrd (d := d) (l := l) hsv hx hp
    refine ⟨fun hbusy => ?_, fun h1 h2 h3 hr => ?_⟩
    · rw [Completes, run]
      exact (congrArg (concludeAs _ s) (if_pos hbusy)).trans rfl
    · rw [Completes, run]
      have hfree : ¬ (s.patchBusy key = true ∨ s.conflicts key 4 = true) := by rw [h1, h2]; simp
      refine (congrArg (concludeAs _ s) ((if_neg hfree).trans (if_neg (ne_true_of_eq_false h3)))).trans ?_
      exact concludeAs_retire hr _
  case mqry =>
    intro s d a l x v hsv hx hv hr
    subst hv
    rw [Reads] at hx
    change execMqry d a l s = _
    simp only [execMqry, hx, notService_ok hsv, bind, Except.bind]
    exact concludeAs_retire hr _
  case mcmd =>
    intro s d a l b m q y blk target mask hsv hq hy hs hb hs1 hn hm hd hfew hext hr w0 c c' u u' w
    rw [Reads] at hq hy
    have run (drained : Bool) (hdr : s.drainedNow mask = drained) : exec (.mcmd d a l b m) s = .next (s.afterStep
        (if drained = true then { w with commands := w.commands ++ [c'] } else w.hold s.nextId mask (.command c'))) := by
      change execMcmd d a l b m s = _
      simp only [execMcmd, State.newCommand, Command.withBlock, hq, hy, notService_ok hsv, hs, hb, hs1, hn, hm, hd, hfew, hext, hdr,
        retire_ok hr, bind, Except.bind, pure, Except.pure, Bool.not_true, Bool.false_eq_true, if_false]
      rfl
    exact ⟨run true, run false⟩
  case mpre =>
    intro hfew hr u u' w r
    rw [Reads] at hp
    change execMpre d a l s = _
    simp only [execMpre, State.newCommand, hp, notService_ok hsv, tilePointer_ok hf hs ha, hfew, retire_ok hr, bind, Except.bind, pure,
      Except.pure, Bool.false_eq_true, if_false]
    rfl
  case mpinv =>
    intro hr sg n u
    rw [Reads] at hp
    change execMpinv a l s = _
    simp only [execMpinv, hp, notService_ok hsv, tilePointer_ok hf hs ha, retire_ok hr, bind, Except.bind]
    rfl
  case hacc =>
    intro s d a l b m p y keys vals t n hp hy ht hd hk hv e turns
    have run := exec_hacc (d := d) (l := l) (m := m) hp hy ht hd hk hv
    refine ⟨fun u hu hr => ?_, fun u w hu => ?_, fun u x hu h1 h2 => ?_⟩
    · rw [Completes, run, hu]
      exact (congrArg (fun r : Run => concludeAs (Instr.hacc d a l b m).encoding s (match r with
        | .ok z => .ok z
        | .error x => .error (x.keeping u))) (retire_ok hr)).trans rfl
    · rw [Completes, run, hu]
      rfl
    · rw [Completes, run, hu]
      simp only [bind, Except.bind, concludeAs, conclude, encoded_other h1 h2]
  case hdrn =>
    intro s d a l b m p y keys vals t cap kps vps hp hy ht hd hk hv hcap huse hkp hvp hfew hr u u' w
    have hkeys : [0x04, 0x08].contains (ptrFmt keys) = true := by simpa using hk
    have hroom : ¬ 62 ≤ s.me.outstanding.get 1 := Nat.not_le.2 hfew
    rw [Reads] at hp hy
    change execHdrn d a l b m s = _
    simp only [execHdrn, hp, hy, ht, hd, hkeys, hv, huse, Nat.not_lt.2 hcap, hkp, hvp, hroom, retire_ok hr, bind, Except.bind, Bool.not_true,
      Bool.false_eq_true, if_false, ne_eq, not_true_eq_false]
    rfl
  case sbnd =>
    intro s a l b m p y t hp hy ht hr
    rw [Reads] at hp hy
    change execSbnd a l b m s = _
    simp only [execSbnd, hp, hy, ht, retire_ok hr, bind, Except.bind]
    rfl

end Sys2Proof.Machine
namespace Sys2Proof.Machine

/-! ## Surveyor, tensor maps and copies (08_matrix_instr.md R241, R242; 09_copy_instr.md R247 to R253) -/

section
variable {s : State} {a b : Reg} {p y : Word} {desc : List Word} {ks : List (BitVec 16)}

/-- A bind whose descriptor and kernel pass their checks takes the lowest free stream. -/
theorem survBind_ends (hsv : isService s.cur.1 = false) (hp : Reads s a p) (hy : Reads s b y) (hs : spaces p [0, 1] = .ok ())
    (ha : ptrAddr p % 8 = 0) (hd : s.fetchImage p 0 4 = .ok desc) (hs0 : spaces (desc.getD 0 0) [0] = .ok ())
    (ha0 : ptrAddr (desc.getD 0 0) % 64 = 0) (hr1 : bitsOf (desc.getD 1 0) 63 40 = 0) (hr3 : desc.getD 3 0 = 0) (hodd : bitAt y 0 = false)
    (hk : s.kernelFrom y 64 = .ok (some ks)) (he : kernelError ks = none) {d : Reg} {l m : Bool} {free : Option Nat}
    (hf : ([1, 2, 3, 4] : List Nat).find? (fun n => (Table.look s.mine.streams n).isNone) = free)
    (hr : s.mayRetire (used l a ++ used m b) [(d, wordOf (free.getD 0))] = true) :
    let u := s.retiredTo (s.me.pc + 4) (used l a ++ used m b) [(d, wordOf (free.getD 0))]
    exec (.survBind d a l b m) s = .next (s.afterStep (match free with
      | none => u
      | some n =>
        let t : Stream := { ctx := s.cur.2, kernel := ks, pointer := desc.getD 0 0, lines := bitsOf (desc.getD 1 0) 39 0,
                            base := desc.getD 2 0, level := s.me.level }
        u.setMine { u.mine with streams := Table.put u.mine.streams n t })) := by
  intro u
  have hdesc : ¬ (bitsOf (desc.getD 1 0) 63 40 ≠ 0 ∨ desc.getD 3 0 ≠ 0) := by simp only [hr1, hr3, ne_eq, not_true_eq_false, or_self, not_false_eq_true]
  rw [Reads] at hp hy
  change execSurvBind d a l b m s = _
  simp only [execSurvBind, survBind, hp, hy, notService_ok hsv, hs, ha, hd, hs0, ha0, hdesc, hodd, hk, he, hf, retire_ok hr, bind, Except.bind,
    ne_eq, not_true_eq_false, if_false, Bool.false_eq_true]
  cases free <;> rfl

theorem find_stream {streams : Table Stream} {n : Nat} (h1 : 1 ≤ n) (h4 : n ≤ 4)
    (hlow : ∀ k, 1 ≤ k → k < n → (Table.look streams k).isSome = true) (hn : Table.look streams n = none) :
    ([1, 2, 3, 4] : List Nat).find? (fun n => (Table.look streams n).isNone) = some n := by
  have taken {k : Nat} (hk1 : 1 ≤ k) (hkn : k < n) : (Table.look streams k).isNone = false := by
    rw [Option.isNone_eq_false_iff]
    exact hlow k hk1 hkn
  have free : (Table.look streams n).isNone = true := by rw [hn]; rfl
  obtain rfl | rfl | rfl | rfl : n = 1 ∨ n = 2 ∨ n = 3 ∨ n = 4 := by omega
  · simp only [List.find?_cons, free]
  · simp only [List.find?_cons, free, taken (k := 1) (by omega) (by omega)]
  · simp only [List.find?_cons, free, taken (k := 1) (by omega) (by omega), taken (k := 2) (by omega) (by omega)]
  · simp only [List.find?_cons, free, taken (k := 1) (by omega) (by omega), taken (k := 2) (by omega) (by omega),
      taken (k := 3) (by omega) (by omega)]

theorem find_stream_none {streams : Table Stream} (hall : ∀ k, 1 ≤ k → k ≤ 4 → (Table.look streams k).isSome = true) :
    ([1, 2, 3, 4] : List Nat).find? (fun n => (Table.look streams n).isNone) = none := by
  refine List.find?_eq_none.2 fun k hk => ?_
  have : 1 ≤ k ∧ k ≤ 4 := by simp at hk; omega
  simpa [Option.isSome_iff_ne_none] using hall k this.1 this.2

/-- An operation on a stream that its context bound retires with its effect. -/
theorem onStream_ok {x : Word} {t : Stream} {l : Bool} (hsv : isService s.cur.1 = false) (hx : Reads s a x)
    (ht : Table.look s.mine.streams (bitsOf x 2 0) = some t) (hc : t.ctx = s.cur.2) (hr : s.mayRetire (used l a) [] = true)
    (f : State → Nat → Stream → State) :
    onStream s a l f = .ok (f (s.retiredTo (s.me.pc + 4) (used l a) []) (bitsOf x 2 0) t) := by
  rw [Reads] at hx
  simp only [onStream, hx, notService_ok hsv, State.streamNamed, ht, hc, retire_ok hr, bind, Except.bind, pure, Except.pure, if_true]
  rfl
end

/-- Settles O34: a bind takes the lowest free stream, the other forms act on their stream, and the surveyor's own are ILLEGAL on a core. -/
theorem surveyorInstructions : Obligations.SurveyorInstructions := by
  unfold Obligations.SurveyorInstructions
  refine ⟨?bind, ?stream, fun s a b i => ⟨rfl, rfl⟩⟩
  case bind =>
    intro s d a l b m p y desc ks hsv hp hy hs ha hd hs0 ha0 hr1 hr3 hodd hk he
    refine ⟨?_, fun hall hr => ?_⟩
    · intro n h1 h4 hlow hn hr u t
      exact survBind_ends hsv hp hy hs ha hd hs0 ha0 hr1 hr3 hodd hk he (find_stream h1 h4 hlow hn) hr
    · exact survBind_ends hsv hp hy hs ha hd hs0 ha0 hr1 hr3 hodd hk he (find_stream_none hall) hr
  case stream =>
    intro s a l x t hsv hx ht hc hr u n
    exact ⟨congrArg (concludeAs _ s) (onStream_ok hsv hx ht hc hr _), congrArg (concludeAs _ s) (onStream_ok hsv hx ht hc hr _),
      congrArg (concludeAs _ s) (onStream_ok hsv hx ht hc hr _)⟩

theorem checkMap_ok {m : Vector Word 8} (h : mapError m = none) (x : Word) : checkMap m x = .ok () := by
  simp only [checkMap, h]

section
variable {s : State} {c : Copy} {d : Reg} {dies : List Reg}

/-- The state of a copy that has been issued: its operation begun and its number taken. -/
def State.copyIssued (s : State) (d : Reg) (dies : List Reg) : State :=
  let u := s.retiredTo (s.me.pc + 4) dies [(d, s.me.opNumber.setWidth 64)]
  let u := { u with nextId := u.nextId + 1 }
  (u.setMe { u.me with opNumber := u.me.opNumber + 1 }).beginOp s.cur.1 s.cur.2 2 none

/-- A copy of a map without elements ends as it is issued. -/
theorem issueCopy_null (hf : s.classFull 2 = false) (ho : c.opNumber = s.me.opNumber)
    (hr : s.mayRetire dies [(d, s.me.opNumber.setWidth 64)] = true) (hn : c.null = true) :
    issueCopy s c d dies = .ok ((s.copyIssued d dies).endCopy c 0 0 0 0 0) := by
  simp only [issueCopy, hn, hf, ho, retire_ok hr, bind, Except.bind, pure, Except.pure, Bool.not_true, Bool.false_eq_true, if_false, if_true,
    not_true_eq_false, false_and, or_self]
  rfl

/-- A copy that has passed its checks is queued or held. -/
theorem issueCopy_checked {mask : BitVec 4} (hf : s.classFull 2 = false) (ho : c.opNumber = s.me.opNumber)
    (hr : s.mayRetire dies [(d, s.me.opNumber.setWidth 64)] = true) (hn : c.null = false) (hk : s.checkCopy c = .ok ())
    (hm : s.extent s.me.dext (mapBase c.dst) = .ok mask) (hroom : s.drainedNow mask = true → (s.tile (coreTile s.cur.1)).copies.length < 16) :
    let u := s.copyIssued d dies
    let tile := coreTile s.cur.1
    issueCopy s c d dies = .ok (if s.drainedNow mask = true then
      u.setTile tile { u.tile tile with copies := (u.tile tile).copies ++ [c] } else u.hold c.id mask (.copy tile c)) := by
  intro u tile
  have hgo : ¬ (s.drainedNow mask = true ∧ 16 ≤ (s.tile (coreTile s.cur.1)).copies.length) := fun ⟨h1, h2⟩ =>
    absurd (hroom h1) (Nat.not_lt.2 h2)
  simp only [issueCopy, hn, hk, hm, hf, ho, hgo, retire_ok hr, bind, Except.bind, pure, Except.pure, Bool.not_false, Bool.false_eq_true, if_false,
    if_true, not_false_eq_true, true_and, or_self]
  cases s.drainedNow mask <;> rfl
end

/-- The copy instructions: each reads its operands and issues its copy. -/
theorem issueCopy_issues {s : State} {i : Instr} {c : Copy} {d : Reg} {dies : List Reg} {e : Word} (hf : s.classFull 2 = false)
    (ho : c.opNumber = s.me.opNumber) (h : exec i s = concludeAs e s (issueCopy s c d dies))
    (hr : s.mayRetire dies [(d, s.me.opNumber.setWidth 64)] = true) :
    let u := s.copyIssued d dies
    let tile := coreTile s.cur.1
    (∀ mask, c.null = false → s.checkCopy c = .ok () → s.extent s.me.dext (mapBase c.dst) = .ok mask → s.drainedNow mask = true →
      (s.tile tile).copies.length < 16 →
      Completes i s (s.afterStep (u.setTile tile { u.tile tile with copies := (u.tile tile).copies ++ [c] })))
    ∧ (∀ mask, c.null = false → s.checkCopy c = .ok () → s.extent s.me.dext (mapBase c.dst) = .ok mask → s.drainedNow mask = false →
      Completes i s (s.afterStep (u.hold c.id mask (.copy tile c))))
    ∧ (c.null = true → Completes i s (s.afterStep (u.endCopy c 0 0 0 0 0))) := by
  intro u tile
  simp only [Completes, h]
  refine ⟨fun mask hn hk hm hd hroom => ?_, fun mask hn hk hm hd => ?_, fun hn => ?_⟩
  · rw [issueCopy_checked hf ho hr hn hk hm fun _ => hroom]
    exact congrArg (fun r => concludeAs e s (.ok r)) (if_pos hd)
  · rw [issueCopy_checked hf ho hr hn hk hm fun hd' => by rw [hd] at hd'; cases hd']
    exact congrArg (fun r => concludeAs e s (.ok r)) (if_neg (ne_true_of_eq_false hd))
  · rw [issueCopy_null hf ho hr hn]
    rfl

/-- Settles O35: the map instructions retire with their register written or read, and every copy ends as `issueCopy` does. -/
theorem tensorMapsAndCopies : Obligations.TensorMapsAndCopies := by
  unfold Obligations.TensorMapsAndCopies
  refine ⟨⟨?load, ?set, ?get⟩, ?copies⟩
  case load =>
    intro s a l p q img hsv hq hs ha himg hmap hr u
    rw [Reads] at hq
    change execTmld a l p s = _
    simp only [execTmld, hq, notService_ok hsv, hs, ha, himg, checkMap_ok hmap, retire_ok hr, bind, Except.bind, ne_eq, not_true_eq_false,
      if_false]
    rfl
  case set =>
    intro s a l n p x hsv hx hmap hr u
    rw [Reads] at hx
    change execTmset a l n p s = _
    simp only [execTmset, hx, notService_ok hsv, checkMap_ok hmap, retire_ok hr, bind, Except.bind]
    rfl
  case get =>
    intro s d n p hsv hr
    change execTmget d n p s = _
    simp only [execTmget, notService_ok hsv, bind, Except.bind]
    exact concludeAs_retire hr _
  case copies =>
    intro s d a l b m q sg p x y hsv hx hy hf issues
    rw [Reads] at hx hy
    refine ⟨issueCopy_issues (e := (Instr.cpy d sg p).encoding) hf rfl ?_, issueCopy_issues (e := (Instr.cpyg d a l sg p).encoding) hf rfl ?_,
      issueCopy_issues (e := (Instr.cpys d a l sg p).encoding) hf rfl ?_, issueCopy_issues (e := (Instr.cpyq d q p).encoding) hf rfl ?_,
      issueCopy_issues (e := (Instr.cpyf d a l b m p).encoding) hf rfl ?_⟩
    · change execCpy d sg p s = _
      simp only [execCpy, notService_ok hsv, bind, Except.bind]
    · change execCpyg d a l sg p s = _
      simp only [execCpyg, hx, notService_ok hsv, bind, Except.bind]
    · change execCpys d a l sg p s = _
      simp only [execCpys, hx, notService_ok hsv, bind, Except.bind]
    · change execCpyq d q p s = _
      simp only [execCpyq, notService_ok hsv, bind, Except.bind]
    · change execCpyf d a l b m p s = _
      simp only [execCpyf, hx, hy, notService_ok hsv, bind, Except.bind]

end Sys2Proof.Machine
namespace Sys2Proof.Machine

/-! ## State registers, traps and returns (10_system_instr.md R265 to R281) -/

/-- What stops an instruction at a level too low. -/
theorem needLevel_low {s : State} {n : Nat} (h : s.me.level < n) : s.needLevel n = trapWith .priv 0 := if_pos h

/-- PRIV and ILLEGAL_ENCODING leave the encoding in FADDR (R275). -/
theorem concludeAs_priv (e f : Word) (s : State) : concludeAs e s (trapWith .priv f) = .next (s.takeTrap { cause := .priv, faddr := e }) := rfl

theorem concludeAs_illegal (e : Word) (s : State) : concludeAs e s illegal = .next (s.takeTrap { cause := .illegal, faddr := e }) := rfl

/-- An instruction that starts with a level check traps with PRIV below that level. -/
theorem concludeAs_needLevel {s : State} {n : Nat} (h : s.me.level < n) (e : Word) (k : Unit → Run) :
    concludeAs e s (s.needLevel n >>= k) = .next (s.takeTrap { cause := .priv, faddr := e }) := by
  rw [needLevel_low h]
  rfl

section
variable {s : State} {g : BitVec 5} {l : Bool} {n : BitVec 12} {rl wl : Nat}

theorem exec_srd_reads {w : Option Nat} (hn : regLevels s.cur.1 n.toNat = some (rl, w)) (hl : rl ≤ s.me.level)
    (hr : s.mayRetire [] [(g, s.readState n.toNat)] = true) :
    exec (.srd g n) s = .next (s.advanced 4 [] [(g, s.readState n.toNat)]) := by
  change execSrd g n s = _
  simp only [execSrd, hn, needLevel_ok hl, bind, Except.bind]
  exact concludeAs_retire hr _

theorem exec_srd_priv {w : Option Nat} (hn : regLevels s.cur.1 n.toNat = some (rl, w)) (hl : s.me.level < rl) :
    exec (.srd g n) s = .next (s.takeTrap { cause := .priv, faddr := (Instr.srd g n).encoding }) := by
  change execSrd g n s = _
  simp only [execSrd, hn]
  exact concludeAs_needLevel hl _ _

theorem exec_swr_writes (hn : regLevels s.cur.1 n.toNat = some (rl, some wl)) (hl : wl ≤ s.me.level) {v : Word} (hv : Reads s g v)
    (hbusy : n = 0x101 → s.anyPatchBusy s.cur.1 = false) (hr : s.mayRetire (used l g) [] = true) :
    exec (.swr g l n) s = .next (s.afterStep ((s.retiredTo (s.me.pc + 4) (used l g) []).writeState n.toNat v)) := by
  have free : ¬ (n = 0x101 ∧ ¬ isService s.cur.1 ∧ s.mine.lsplit ≠ v.setWidth 3 ∧ s.anyPatchBusy s.cur.1) := by
    intro ⟨h101, _, _, hb⟩
    exact ne_true_of_eq_false (hbusy h101) hb
  rw [Reads] at hv
  change execSwr g l n s = _
  simp only [execSwr, hn, needLevel_ok hl, hv, if_neg free, retire_ok hr, bind, Except.bind, pure, Except.pure]
  rfl

theorem exec_swr_priv (hn : regLevels s.cur.1 n.toNat = some (rl, some wl)) (hl : s.me.level < wl) :
    exec (.swr g l n) s = .next (s.takeTrap { cause := .priv, faddr := (Instr.swr g l n).encoding }) := by
  change execSwr g l n s = _
  simp only [execSwr, hn]
  exact concludeAs_needLevel hl _ _

theorem exec_swr_readOnly (hn : regLevels s.cur.1 n.toNat = some (rl, none)) :
    exec (.swr g l n) s = .next (s.takeTrap { cause := .priv, faddr := (Instr.swr g l n).encoding }) := by
  change execSwr g l n s = _
  simp only [execSwr, hn]
  rfl

theorem exec_srd_none (hn : regLevels s.cur.1 n.toNat = none) :
    exec (.srd g n) s = .next (s.takeTrap { cause := .illegal, faddr := (Instr.srd g n).encoding }) := by
  change execSrd g n s = _
  simp only [execSrd, hn]
  rfl

theorem exec_swr_none (hn : regLevels s.cur.1 n.toNat = none) :
    exec (.swr g l n) s = .next (s.takeTrap { cause := .illegal, faddr := (Instr.swr g l n).encoding }) := by
  change execSwr g l n s = _
  simp only [execSwr, hn]
  rfl
end

/-- Settles O36: SRD and SWR by the two levels that `regLevels` gives a register. -/
theorem stateRegisters : Obligations.StateRegisters := by
  unfold Obligations.StateRegisters
  refine ⟨fun s g n rl wl hn => ⟨exec_srd_reads hn, exec_srd_priv hn⟩, fun s g l n rl hn => exec_swr_readOnly hn,
    fun s g l n rl wl hn => ⟨fun hl v hv hbusy hr => exec_swr_writes hn hl hv hbusy hr, exec_swr_priv hn⟩,
    fun s g l n hn => ⟨exec_srd_none hn, exec_swr_none hn⟩⟩

section
variable {s : State}

theorem exec_trap {n : BitVec 12} (h : n.toNat < 2048 ∨ 1 ≤ s.me.level) :
    exec (.trap n) s = .next (s.takeTrap { cause := .trap, code := n.toNat, xpc := some (s.me.pc + 4) }) := by
  change execTrap n s = _
  by_cases hn : 2048 ≤ n.toNat
  · have hl : 1 ≤ s.me.level := h.resolve_left (Nat.not_lt.2 hn)
    simp only [execTrap, if_pos hn, needLevel_ok hl, bind, Except.bind]
    rfl
  · simp only [execTrap, if_neg hn]
    rfl

theorem exec_trap_priv {n : BitVec 12} (hn : 2048 ≤ n.toNat) (hl : s.me.level = 0) :
    exec (.trap n) s = .next (s.takeTrap { cause := .priv, faddr := (Instr.trap n).encoding }) := by
  change execTrap n s = _
  simp only [execTrap, if_pos hn]
  exact concludeAs_needLevel (by omega) _ _

theorem exec_xret_priv (hl : s.me.level = 0) : exec .xret s = .next (s.takeTrap { cause := .priv, faddr := Instr.xret.encoding }) :=
  concludeAs_needLevel (by omega) _ _

theorem exec_xret_illegal (hl : 1 ≤ s.me.level) (ht : s.me.inTrap = false) :
    exec .xret s = .next (s.takeTrap { cause := .illegal, faddr := Instr.xret.encoding }) := by
  change execXret s = _
  have hnot : ¬ s.me.inTrap = true := ne_true_of_eq_false ht
  simp only [execXret, State.xret, needLevel_ok hl, bind, Except.bind, if_pos hnot]
  rfl

theorem exec_xret_resumes (hl : 1 ≤ s.me.level) (ht : s.me.inTrap = true) (hpc : s.me.xpc.getLsbD 0 = false) :
    exec .xret s = .next (s.afterStep ((s.setMe s.me.leave).applyPending s.cur.1 s.cur.2)) := by
  change execXret s = _
  have hodd : ¬ bitAt s.me.xpc 0 = true := ne_true_of_eq_false hpc
  simp only [execXret, State.xret, needLevel_ok hl, bind, Except.bind, ht, not_true_eq_false, if_false, if_neg hodd]
  rfl

theorem exec_xret_odd (hl : 1 ≤ s.me.level) (ht : s.me.inTrap = true) (hpc : s.me.xpc.getLsbD 0 = true) :
    exec .xret s = .next ((s.setMe { s.me.leave with pc := s.me.pc }).takeTrap { cause := .address, faddr := s.me.xpc }) := by
  change execXret s = _
  have hodd : bitAt s.me.xpc 0 = true := hpc
  simp only [execXret, State.xret, needLevel_ok hl, bind, Except.bind, ht, not_true_eq_false, if_false, if_pos hodd]
  rfl
end

/-- Nothing that retires within a handler takes the STEP trap. -/
theorem afterStep_inTrap {s : State} (h : s.me.inTrap = true) (t : State) : s.afterStep t = t :=
  if_neg fun ⟨_, hnot, _⟩ => hnot h

/-- Settles O39: each system instruction by the checks that it makes, XRET by the leave of its handler. -/
theorem systemInstructions : Obligations.SystemInstructions := by
  unfold Obligations.SystemInstructions
  refine ⟨fun s n => ⟨exec_trap, exec_trap_priv, rfl⟩, fun s => ⟨exec_xret_priv, exec_xret_illegal, ?_⟩, fun s hr => ⟨concludeAs_retire hr _,
    conclude_retire hr, ?_⟩, ?_, fun s e => ⟨rfl, rfl⟩, fun s a r hr => ⟨?_, rfl⟩⟩
  · intro hl ht past c
    refine ⟨fun hpc => ?_, exec_xret_odd hl ht⟩
    rw [Completes, exec_xret_resumes hl ht hpc, afterStep_inTrap ht]
    rfl
  · intro hd u
    change execSynci s = _
    simp only [execSynci, hd, retire_ok hr, bind, Except.bind, pure, Except.pure, Bool.not_true, Bool.false_eq_true, if_false]
    rfl
  · intro s hd
    change execSynci s = _
    simp only [execSynci, hd, bind, Except.bind, Bool.not_false, if_true]
    rfl
  · have h16 : r ≠ 16 := by omega
    change execFetchFault a r s = _
    simp only [execFetchFault, if_neg h16]
    rfl

/-! ## Capability traps (25_package.md R470) -/

/-- A helper at level 1 with 17 live registers, g4 among them and g5 not, on a core where another helper waits for registers. -/
def Ctx.fullPool : Ctx := { run := .ready, status := 0x1000, live := 0x3FFDF, regs := Vector.replicate 32 0xFFF }

/-- A partition that holds super-group 0. -/
def Partition.first : Partition := { record := Vector.replicate 64 1 }

/-- The helper of `Ctx.fullPool` runs in the partition of `Partition.first`, with firmware. -/
def State.fullPool : State :=
  { cur := (0, 1), fwvec := 2, parts := [(1, Partition.first)],
    cores := [(0, { ctxs := [(1, Ctx.fullPool)], waiters := [{ ctx := 2, preempted := false, need := 1 }] })] }

/-- CAP_MINT would make g5 live, for which the pool has no register: the helper waits for one. -/
theorem exec_capMint_fullPool : exec .capMint State.fullPool = .next (State.fullPool.block .register) := by
  rfl

/-- Refutes O40: its hypothesis that the results of a capability trap fit the register pool is asked of the state that already holds
them, where it is always true; a helper whose pool has no register for a1 stalls instead of getting its answer. -/
theorem not_capabilityAndPrivilegeTraps : ¬ Obligations.CapabilityAndPrivilegeTraps := by
  unfold Obligations.CapabilityAndPrivilegeTraps
  intro ⟨⟨_, hmint⟩, _⟩
  have answered := ((hmint State.fullPool 1 Partition.first (by decide) (by decide) (by decide) (by decide) (by decide)).1 (by decide)
    4095 0 (by decide) (by decide)).1 (by decide) (by decide)
  rw [Completes, exec_capMint_fullPool] at answered
  have waits := congrArg (fun o => match o with | .next t => t.me.wait | _ => .none) answered
  exact absurd waits (by decide)

end Sys2Proof.Machine
namespace Sys2Proof.Machine

/-! ## Translations, migration and gang stops (10_system_instr.md R282 to R286) -/

theorem released_ok {s : State} (h : s.drainedNow allCounters = true) : s.released = .ok () := if_pos h

theorem released_stall {s : State} (h : s.drainedNow allCounters = false) : s.released = stall .retry := if_neg (ne_true_of_eq_false h)

section
variable {s : State} {a b d : Reg} {l m : Bool} {x y p n : Word}

theorem exec_ptinv {part : Nat} (hl : 1 ≤ s.me.level) (hp : Reads s a p) (hn : Reads s b n) (hs : spaces p [0] = .ok ()) (hpart : s.myPart = some part)
    (hd : s.drainedNow allCounters = true) (hr : s.mayRetire (used l a ++ used m b) [] = true) :
    exec (.ptinv a l b m) s
      = .next (s.afterStep ((s.retiredTo (s.me.pc + 4) (used l a ++ used m b) []).dropTranslations part (ptrAddr p) n.toNat)) := by
  rw [Reads] at hp hn
  change execPtinv a l b m s = _
  simp only [execPtinv, needLevel_ok hl, hp, hn, hs, hpart, released_ok hd, retire_ok hr, bind, Except.bind, pure, Except.pure]
  rfl

theorem exec_ptinv_waits {part : Nat} (hl : 1 ≤ s.me.level) (hp : Reads s a p) (hn : Reads s b n) (hs : spaces p [0] = .ok ())
    (hpart : s.myPart = some part) (hd : s.drainedNow allCounters = false) : exec (.ptinv a l b m) s = .next (s.block .retry) := by
  rw [Reads] at hp hn
  change execPtinv a l b m s = _
  simp only [execPtinv, needLevel_ok hl, hp, hn, hs, hpart, released_stall hd, bind, Except.bind]
  rfl

theorem exec_atset_waits (hl : 1 ≤ s.me.level) (hx : Reads s a x) (hp : Reads s b p) (hd : s.drainedNow allCounters = false) :
    exec (.atset a l b m) s = .next (s.block .retry) := by
  rw [Reads] at hx hp
  change execAtset a l b m s = _
  simp only [execAtset, needLevel_ok hl, hx, hp, released_stall hd, bind, Except.bind]
  rfl

/-- ATSET up to the generation check, which compares the image with the entry that it replaces. -/
theorem exec_atset {img : List Word} {t : Translation} {lin old : Nat} {pl : Place} (hl : 1 ≤ s.me.level) (hx : Reads s a x)
    (hp : Reads s b p) (hd : s.drainedNow allCounters = true) (hs : spaces p [0] = .ok ()) (himg : s.fetchImage p 0 8 = .ok img)
    (hacc : imageAccepted (Vector.ofFn (fun i : Fin 8 => img.getD i.val 0)) = true) (hbase : (s.partRegs s.myPart).atlas ≠ 0)
    (ht : s.translate (s.myPart.getD 0) s.me.level Need.both (ptrAddr (s.partRegs s.myPart).atlas + 64 * bitsOf x 11 0) = .ok (t, lin))
    (hpl : s.placeOf (wordOf (ptrAddr (s.partRegs s.myPart).atlas + 64 * bitsOf x 11 0)) 8 Need.both false = .ok pl) (hlost : pl.lost = false)
    (hold : s.plainRead pl 8 = some old) :
    exec (.atset a l b m) s = concludeAs (Instr.atset a l b m).encoding s
      (if bitsOf (wordOf old) 55 48 = bitsOf (img.getD 0 0) 55 48 then trapWith .address p
       else do
        let t ← ((s.note pl).fill pl.line pl.key pl.sealSlot 0 false).retire 4 (used l a ++ used m b) []
        pure ((t.writeEntry pl.line lin img).noteEntry lin img)) := by
  rw [Reads] at hx hp
  change execAtset a l b m s = _
  simp only [execAtset, needLevel_ok hl, hx, hp, released_ok hd, hs, himg, hacc, hbase, ht, hpl, hlost, hold, bind, Except.bind, pure,
    Except.pure, Bool.not_true, Bool.false_eq_true, or_self, if_false]
  rfl

theorem exec_atsync_again {h : Held} {epoch : Nat} (hl : 1 ≤ s.me.level) (hmine : s.mySync284 = some (h, epoch))
    (hold : s.myPart = none ∨ s.oldLookups (s.myPart.getD 0) epoch = false) (hr : s.mayRetire [] [(d, lostStatus h.mask 0xF)] = true) :
    let t := s.retiredTo (s.me.pc + 4) [] [(d, lostStatus h.mask 0xF)]
    exec (.atsync d) s = .next (s.afterStep { t with held := t.held.filter (fun x => x.id ≠ h.id) }) := by
  intro t
  have done : ¬ (s.myPart.isSome = true ∧ s.oldLookups (s.myPart.getD 0) epoch = true) := by
    rintro ⟨hsome, hlook⟩
    rcases hold with hnone | hno
    · rw [hnone] at hsome
      exact absurd hsome (by decide)
    · exact ne_true_of_eq_false hno hlook
  change execAtsync d s = _
  simp only [execAtsync, needLevel_ok hl, hmine, if_neg done, retire_ok hr, bind, Except.bind, pure, Except.pure]
  rfl

theorem exec_atsync_waits {h : Held} {epoch part : Nat} (hl : 1 ≤ s.me.level) (hmine : s.mySync284 = some (h, epoch))
    (hpart : s.myPart = some part) (hold : s.oldLookups part epoch = true) : exec (.atsync d) s = .next (s.block .retry) := by
  change execAtsync d s = _
  simp only [execAtsync, needLevel_ok hl, hmine, hpart, Option.getD_some, hold, Option.isSome_some, and_self, if_true, bind, Except.bind]
  rfl

theorem exec_atsync_first (hl : 1 ≤ s.me.level) (hmine : s.mySync284 = none) (hd : s.drainedNow allCounters = true) :
    let h : Held := { id := s.nextId, core := s.cur.1, ctx := s.cur.2, mask := 0, what := .admin s.nextOrder }
    let t := { s with nextOrder := s.nextOrder + 1, nextId := s.nextId + 1, held := s.held ++ [h] }
    exec (.atsync d) s = .next ((if s.myPart.isSome then t.invalidateAtlas (s.myPart.getD 0) s.nextOrder else t).block .retry) := by
  intro h t
  change execAtsync d s = _
  simp only [execAtsync, needLevel_ok hl, hmine, released_ok hd, bind, Except.bind]
  rfl

theorem exec_atsync_undrained (hl : 1 ≤ s.me.level) (hmine : s.mySync284 = none) (hd : s.drainedNow allCounters = false) :
    exec (.atsync d) s = .next (s.block .retry) := by
  change execAtsync d s = _
  simp only [execAtsync, needLevel_ok hl, hmine, released_stall hd, bind, Except.bind]
  rfl
end

/-- Settles O41: PTINV and ATSET by their checks, ATSYNC by its first execution and the later ones. -/
theorem translationInstructions : Obligations.TranslationInstructions := by
  unfold Obligations.TranslationInstructions
  refine ⟨fun s a l b m p n part hl hp hn hs hpart => ⟨exec_ptinv hl hp hn hs hpart, exec_ptinv_waits hl hp hn hs hpart⟩, ?_,
    fun s a l b m x p hl hx hp hd => exec_atset_waits hl hx hp hd, fun s d hl => ⟨exec_atsync_undrained hl, fun hmine hd => ⟨?_, ?_⟩,
      fun h epoch hmine => ⟨exec_atsync_again hl hmine, fun part => exec_atsync_waits hl hmine⟩⟩⟩
  · intro s a l b m x p img t lin old pl hl hx hp hd hs himg hacc hbase va ht hpl hlost hold
    have run := exec_atset (a := a) (b := b) (l := l) (m := m) hl hx hp hd hs himg hacc hbase ht hpl hlost hold
    refine ⟨?_, fun hgen => ?_⟩
    · intro hgen u hr
      rw [Completes, run, if_neg hgen, retire_ok hr]
      rfl
    · rw [Completes, run, if_pos hgen]
      rfl
  · intro part hpart
    rw [Completes, exec_atsync_first hl hmine hd, hpart]
    rfl
  · intro hpart
    rw [Completes, exec_atsync_first hl hmine hd, hpart]
    rfl

section
variable {s : State} {a b d : Reg} {l m : Bool} {x y : Word}

theorem exec_migr_helper (hl : 1 ≤ s.me.level) (hx : Reads s a x) (hy : Reads s b y) (hc : s.cur.2 ≠ 0) :
    exec (.migr d a l b m) s = .next (s.takeTrap { cause := .illegal, faddr := (Instr.migr d a l b m).encoding }) := by
  rw [Reads] at hx hy
  change execMigr d a l b m s = _
  simp only [execMigr, needLevel_ok hl, hx, hy, if_pos hc, bind, Except.bind]
  rfl

theorem exec_migr_number (hl : 1 ≤ s.me.level) (hx : Reads s a x) (hy : Reads s b y) (hc : s.cur.2 = 0) (hn : 10 < bitsOf x 3 0) :
    exec (.migr d a l b m) s = .next (s.takeTrap { cause := .address, faddr := x }) := by
  rw [Reads] at hx hy
  change execMigr d a l b m s = _
  simp only [execMigr, needLevel_ok hl, hx, hy, hc, ne_eq, not_true_eq_false, if_false, if_pos hn, bind, Except.bind]
  rfl

theorem exec_migr {dest : Nat} (hl : 1 ≤ s.me.level) (hx : Reads s a x) (hy : Reads s b y) (hc : s.cur.2 = 0) (hn : bitsOf x 3 0 ≤ 10)
    (hs : spaces y [1] = .ok ()) (hdest : s.coreNamed y = some (.inl dest)) (hd : s.drainedNow allCounters = true) :
    exec (.migr d a l b m) s = concludeAs (Instr.migr d a l b m).encoding s
      (if s.migrRefusal (bitsOf x 3 0) dest ≠ 0
       then (s.unmigrate (bitsOf x 3 0)).retire 4 (used l a ++ used m b) [(d, wordOf (s.migrRefusal (bitsOf x 3 0) dest))]
       else s.migrate (bitsOf x 3 0) dest (fun t => t.retire 4 (used l a ++ used m b) [(d, 0)])) := by
  rw [Reads] at hx hy
  change execMigr d a l b m s = _
  simp only [execMigr, needLevel_ok hl, hx, hy, hc, ne_eq, not_true_eq_false, if_false, if_neg (Nat.not_lt.2 hn), hs, hdest, released_ok hd,
    bind, Except.bind]
  rfl

/-- A migration whose helper is stopped, settled and quiet streams it. -/
theorem migrate_streams {h dest : Nat} {s0 : State} {done : State → Run}
    (hrun : ((s.ctx s.cur.1 h).run = .migrating ∧ s0 = s) ∨ ((s.ctx s.cur.1 h).run = .ready ∧ (s.ctx s.cur.1 h).engineQuiet = true
      ∧ (s.ctx s.cur.1 h).level ≠ 2 ∧ s0 = s.lay s.cur.1 h .migrating true)) :
    let t := ((s0.settleSync s.cur.1 h false).forgetAsked s.cur.1 h).withdrawClaim s.cur.1 h
    t.settled s.cur.1 h = true → (t.ctx s.cur.1 h).engineQuiet = true →
      ∃ quietly, s.migrate h dest done = t.stream h dest quietly done := by
  intro t hset hq
  refine ⟨(s.ctx s.cur.1 h).pendingStop = some .migrating, ?_⟩
  rcases hrun with ⟨hr, rfl⟩ | ⟨hr, hquiet, hlevel, rfl⟩
  · simp only [State.migrate, hr]
    exact if_pos ⟨hset, hq⟩
  · simp only [State.migrate, hr, hquiet, if_neg hlevel, not_true_eq_false, if_false]
    exact if_pos ⟨hset, hq⟩

/-- Streaming a helper that can be saved, reloaded and seated. -/
theorem stream_moves {t u v : State} {h dest newh : Nat} {rest : List Nat} {quietly : Bool} {done : State → Run} :
    let c := t.ctx t.cur.1 h
    let t' := t.setCtx t.cur.1 h { c with claim := c.claim.map (fun q => { q.settled with floor := c.claimFloor q }) }
    t'.mine.forwards.length < 16 → (t'.core dest).inbox.length + ((t'.core t.cur.1).messagesFor h).length ≤ 64 →
    t'.save t.cur.1 h true = .ok u → u.reload t.cur.1 h = .ok v → (v.core dest).freeHelpers = newh :: rest →
    t.stream h dest quietly done = done ((v.moveHelper h dest newh).acquire dest) := by
  intro c t' hf hroom hsave hreload hfree
  have open_ : ¬ (16 ≤ t'.mine.forwards.length ∨ ¬ (t'.core dest).inbox.length + ((t'.core t.cur.1).messagesFor h).length ≤ 64) := by omega
  have seat : (match (v.core dest).freeHelpers with
      | [] => .error (.waitIn v .retry)
      | newh :: _ => done ((v.moveHelper h dest newh).acquire dest)) = done ((v.moveHelper h dest newh).acquire dest) := by rw [hfree]
  unfold State.stream
  refine (if_neg open_).trans ?_
  change (match t'.save t.cur.1 h true with
    | .error va => _
    | .ok w => match w.reload t.cur.1 h with
      | .error va => _
      | .ok z => _) = _
  rw [hsave]
  change (match u.reload t.cur.1 h with
    | .error va => _
    | .ok z => _) = _
  rw [hreload]
  exact seat
end

section
variable {s : State} {a d : Reg} {l : Bool} {x : Word} {n : Nat} {p : Partition}

/-- What GSTOP does once its counters have drained: a stop in progress is its issuer's alone, and otherwise bit 0 tells a release from a
stop. -/
theorem exec_gstop (hl : 1 ≤ s.me.level) (hx : Reads s a x) (hd : s.drainedNow allCounters = true) (hpart : s.myPart = some n)
    (hp : s.part n = some p) (e : State → Word → Run) (he : e = fun t gtc => t.retire 4 (used l a) [(d, gtc)]) :
    exec (.gstop d a l) s = concludeAs (Instr.gstop d a l).encoding s
      (let stop : Run :=
        let t := s.gangStop n s.cur.1 s.cur.2
        let g : Gang := { entered := s.gtc, core := s.cur.1, ctx := s.cur.2 }
        if t.gangPending n ≠ [] then .error (.waitIn (t.setGang n (some g)) .retry)
        else e (t.setGang n (some { g with stopping := false })) s.gtc
       match p.gang with
       | none => if bitAt x 0 then e s s.gtc else stop
       | some g =>
        if g.stopping then
          if g.core = s.cur.1 ∧ g.ctx = s.cur.2 then
            let t := (s.gangPending n).foldl (fun (t : State) e =>
              if (t.ctx e.1 e.2).run = .faulted then t.retrySave e.1 e.2 else t) s
            if t.gangPending n ≠ [] then .error (.waitIn t .retry)
            else e (t.setGang n (some { g with stopping := false })) g.entered
          else stall .retry
        else if bitAt x 0 then e ((s.gangRelease n).setGang n none) s.gtc
        else stop) := by
  subst he
  rw [Reads] at hx
  change execGstop d a l s = _
  simp only [execGstop, needLevel_ok hl, hx, released_ok hd, hpart, Option.bind_some, hp, bind, Except.bind]
  cases p.gang <;> rfl

/-- A stop retires once no stop of the partition is still to come. -/
theorem exec_gstop_stop (hl : 1 ≤ s.me.level) (hx : Reads s a x) (hd : s.drainedNow allCounters = true) (hpart : s.myPart = some n)
    (hp : s.part n = some p) (hg : p.gang = none ∨ ∃ g, p.gang = some g ∧ g.stopping = false) (h0 : x.getLsbD 0 = false) :
    let t := s.gangStop n s.cur.1 s.cur.2
    exec (.gstop d a l) s = concludeAs (Instr.gstop d a l).encoding s
      (if t.gangPending n ≠ [] then .error (.waitIn (t.setGang n (some { entered := s.gtc, core := s.cur.1, ctx := s.cur.2 })) .retry)
       else (t.setGang n (some { entered := s.gtc, core := s.cur.1, ctx := s.cur.2, stopping := false })).retire 4 (used l a) [(d, s.gtc)]) := by
  intro t
  have hbit : ¬ bitAt x 0 = true := ne_true_of_eq_false h0
  rw [exec_gstop (d := d) (l := l) hl hx hd hpart hp _ rfl]
  rcases hg with hnone | ⟨g, hsome, hstop⟩
  · rw [hnone]
    exact congrArg (concludeAs _ s) (if_neg hbit)
  · rw [hsome]
    exact congrArg (concludeAs _ s) ((if_neg (ne_true_of_eq_false hstop)).trans (if_neg hbit))
end

/-- Settles O42: MIGR by its checks and the stream of a settled helper, GSTOP by the gang of its partition. -/
theorem migrationAndGangStops : Obligations.MigrationAndGangStops := by
  unfold Obligations.MigrationAndGangStops
  refine ⟨fun s d a l b m x y hl hx hy => ⟨exec_migr_helper hl hx hy, exec_migr_number hl hx hy, ?_⟩, ?_⟩
  · intro dest hc hn hs hdest hd h
    have run := exec_migr (a := a) (b := b) (d := d) (l := l) (m := m) hl hx hy hc hn hs hdest hd
    refine ⟨?_, ?_⟩
    · intro hcode t hr
      rw [Completes, run, if_pos hcode]
      exact concludeAs_retire hr _
    · intro s0 u v newh rest hcode hrun t hset hq c t' hf hroom hsave hreload hfree w hr
      obtain ⟨quietly, hstream⟩ := migrate_streams (dest := dest) (done := fun t => t.retire 4 (used l a ++ used m b) [(d, 0)]) hrun hset hq
      have hmoves := stream_moves (quietly := quietly) (done := fun t => t.retire 4 (used l a ++ used m b) [(d, 0)]) hf hroom hsave hreload hfree
      rw [Completes, run, if_neg (not_not.2 hcode)]
      exact (congrArg (concludeAs _ s) (hstream.trans hmoves)).trans (concludeAs_retire hr _)
  · intro s d a l x n p hl hx hd hpart hp
    have run := exec_gstop (a := a) (d := d) (l := l) hl hx hd hpart hp _ rfl
    refine ⟨?_, ?_, ?_, ?_, ?_⟩
    · intro hg h0 t
      have stop := exec_gstop_stop (a := a) (d := d) (l := l) hl hx hd hpart hp hg h0
      refine ⟨?_, ?_⟩
      · intro hdone u hr
        rw [Completes, stop, if_neg (not_not.2 hdone)]
        exact concludeAs_retire hr _
      · intro hmore
        rw [Completes, stop, if_pos hmore]
        rfl
    · intro g hgang hstop hcore hctx t
      rw [hgang] at run
      have turn : ∀ {r r' : Run}, (if g.stopping = true then (if g.core = s.cur.1 ∧ g.ctx = s.cur.2 then r else stall .retry) else r') = r :=
        fun {_ _} => (if_pos hstop).trans (if_pos ⟨hcore, hctx⟩)
      refine ⟨?_, ?_⟩
      · intro hdone u hr
        exact (run.trans (congrArg (concludeAs _ s) (turn.trans (if_neg (not_not.2 hdone))))).trans (concludeAs_retire hr _)
      · intro hmore
        exact run.trans (congrArg (concludeAs _ s) (turn.trans (if_pos hmore)))
    · intro g hgang hstop h1 u hr
      rw [hgang] at run
      exact (run.trans (congrArg (concludeAs _ s) ((if_neg (ne_true_of_eq_false hstop)).trans (if_pos h1)))).trans (concludeAs_retire hr _)
    · intro g hgang hstop hother
      rw [hgang] at run
      exact run.trans (congrArg (concludeAs _ s) ((if_pos hstop).trans (if_neg hother)))
    · intro hgang h1 hr
      rw [hgang] at run
      exact (run.trans (congrArg (concludeAs _ s) (if_pos h1))).trans (concludeAs_retire hr _)

end Sys2Proof.Machine
namespace Sys2Proof.Machine

/-! ## Steps of the memory system (05_memory_instr.md R118 to R128) -/

/-- A step of the package's own units ends in the state that the unit leaves. -/
theorem completes_unit {i : Instr} {s t u : State} (hrun : exec i s = .next u) (h : u = t) : Completes i s t := hrun.trans (congrArg _ h)

section
variable {s : State} {r : Request} {rid : Nat}

theorem homeAccept_waits (hf : s.requests.find? (fun q => q.id == rid) = some r)
    (h : s.overtakes r = true ∨ s.patchBusy r.key = true) : s.homeAccept rid = s := by
  simp only [State.homeAccept, hf]
  exact if_pos (Or.inr (Or.inr (h.imp_right Or.inl)))

theorem homeAccept_answers (hf : s.requests.find? (fun q => q.id == rid) = some r) (hstage : r.stage = .sent) (hremote : r.remote = none)
    (hover : s.overtakes r = false) (hbusy : s.patchBusy r.key = false) (hforward : s.forwardOf r = none) (horigin : r.origin = none) :
    s.homeAccept rid = if s.homeLost r then (s.atSlice r).loseRequest r 0 else s.answer r (s.apply r) := by
  have turn : ¬ (r.stage ≠ .sent ∨ r.remote.isSome = true ∨ s.overtakes r = true ∨ s.patchBusy r.key = true ∨ (s.forwardOf r).isSome = true) := by
    simp [hstage, hremote, hover, hbusy, hforward]
  simp only [State.homeAccept, hf, if_neg turn, horigin]

theorem answer_trap {x : TrapInfo} (horigin : r.origin = none) :
    s.answer r (.trap x) =
      if r.blocking then (s.putRequest { r with stage := .failed x.cause x.reason x.faddr x.detail5 }).wake r.core r.ctx
      else if isLoad r.op ∨ r.target ≠ .none then
        (s.finishCounts r).alterCtx r.core r.ctx (fun c => c.loseLoad r.target { address := x.faddr, page := x.reason })
      else s.loseRequest r 0 := by
  simp only [State.answer, horigin, Option.isSome_none, Bool.false_eq_true, if_false]

theorem write_run (c : Ctx) (p : Nat) (v : Word) : (c.write p v).run = c.run := by
  unfold Ctx.write
  split
  · rfl
  · split <;> rfl

theorem ctx_setCtx (s : State) (n k : Nat) (c : Ctx) : (s.setCtx n k c).ctx n k = c := by
  simp [State.ctx, State.setCtx, Core.ctx, Core.setCtx]

/-- Data that comes back to a context that runs goes into its register, and no save area holds it. -/
theorem deliverData_reg {p : Nat} (hctx : r.ctx < 16) (htarget : r.target = .reg p) (hrun : (s.ctx r.core r.ctx).run = .ready) (v : Word) :
    s.deliverData r v = s.setCtx r.core r.ctx ((s.ctx r.core r.ctx).write p v) := by
  have hnot : ¬ 16 ≤ r.ctx := by omega
  simp only [State.deliverData, if_neg hnot, htarget, State.alterCtx, if_pos hctx, State.saveReg, ctx_setCtx, write_run, hrun,
    Bool.false_eq_true, false_and, if_false]

/-- A request to another package that has no answer is sent again by a port chosen afresh. -/
theorem replay_abroad {pkg : Nat} (hf : s.requests.find? (fun q => q.id == rid) = some r) (hremote : r.remote = some pkg)
    (hstage : r.stage = .sent ∨ r.stage = .nacked) :
    let t := s.putRequest { r with stage := .sent }
    s.replay rid = match t.portFor r.part pkg r.core (homekeyOf r.home r.key) with
      | some port => t.queueFlits port (requestFlits r.op)
      | none => t.loseRequest r 2 := by
  intro t
  unfold State.replay
  split
  · next q hq =>
    obtain rfl : r = q := Option.some.inj (hf.symm.trans hq)
    split
    · next h _ => obtain rfl := Option.some.inj (hremote.symm.trans h); rfl
    · next h _ => obtain rfl := Option.some.inj (hremote.symm.trans h); rfl
    · next hs hn => exact hstage.elim (fun h => absurd h (hs pkg hremote)) (fun h => absurd h (hn pkg hremote))
  · next hq => exact absurd (hf.symm.trans hq) (by simp)

theorem retryReplay_abroad {pkg : Nat} (hf : s.requests.find? (fun q => q.id == rid) = some r) (hstage : r.stage = .nacked)
    (hremote : r.remote = some pkg) : s.retryReplay rid = s.replay rid := by
  simp [State.retryReplay, hf, hstage, hremote]

theorem dataReturn_returned {v data : Word} (hf : s.requests.find? (fun q => q.id == rid) = some r) (hblocking : r.blocking = false)
    (horigin : r.origin = none) (hstage : r.stage = .returned v) : s.dataReturn rid data = (s.deliverData r v).finishCounts r := by
  simp [State.dataReturn, hf, hstage, Request.abroad, hblocking, horigin]

theorem dataReturn_abroad {pkg : Nat} {data : Word} (hf : s.requests.find? (fun q => q.id == rid) = some r) (hblocking : r.blocking = false)
    (horigin : r.origin = none) (hremote : r.remote = some pkg) (hstage : r.stage = .sent) :
    s.dataReturn rid data = if r.verdict.1 = 0 then (s.deliverData r (answerWord r.op data)).finishCounts r
      else s.ownerFault r r.verdict.1 r.verdict.2 := by
  by_cases hv : r.verdict.1 = 0 <;> simp [State.dataReturn, hf, hstage, hremote, Request.abroad, hblocking, horigin, hv]

theorem storeAck_abroad (hf : s.requests.find? (fun q => q.id == rid) = some r) (horigin : r.origin = none) (habroad : r.abroad = true)
    (hop : isLoad r.op = false) (htarget : r.target = .none) :
    s.storeAck rid = if r.verdict.1 ≠ 0 then s.ownerFault r r.verdict.1 r.verdict.2
      else if r.blocking ∧ r.cls.isSome then (s.putRequest { r with stage := .returned 0 }).wake r.core r.ctx
      else s.finishCounts r := by
  have hstage : r.stage ≠ .acked := by
    intro h
    simp [Request.abroad, h] at habroad
  simp [State.storeAck, hf, horigin, hstage, habroad, hop, htarget]

/-- A held release goes out once its counters have drained. -/
theorem releaseSend_drained {hid : Nat} {h : Held} (hf : s.held.find? (fun x => x.id == hid) = some h)
    (hd : s.drained h.core h.ctx h.id h.mask = true) :
    let t := { s with held := s.held.filter (fun x => x.id ≠ hid) }
    s.releaseSend hid = match h.what with
      | .request r => t.sendCounted r (t.homeLost r)
      | .message f => t.sendMessage { f with gtc := s.gtc }
      | .task tile x => t.enterRelief tile { x with gtc := s.gtc }
      | .launch l => { t with launchQueue := s.launchQueue ++ [l] }
      | .crew sg c => (t.crewArrive sg c).getD s
      | .command c => { t with commands := s.commands ++ [c] }
      | .copy tile c =>
        if 16 ≤ (s.tile tile).copies.length then s
        else t.setTile tile { t.tile tile with copies := (t.tile tile).copies ++ [c] }
      | .admin _ => if 16 ≤ h.ctx then t else s := by
  intro t
  cases hw : h.what <;> simp [State.releaseSend, hf, hw, hd, t]
end

/-- Settles O44: each step by the branch that its request, its held release or its doubleword takes. -/
theorem homeEvents : Obligations.HomeEvents := by
  unfold Obligations.HomeEvents
  refine ⟨?accept, ?replay, ?data, ?ack, ?release, ?upset, ?sweep⟩
  case accept =>
    intro s rid r hf hstage hremote
    refine ⟨fun h => completes_unit rfl (homeAccept_waits hf h), fun hover hbusy hforward horigin => ?_⟩
    have answers := homeAccept_answers hf hstage hremote hover hbusy hforward horigin
    refine ⟨fun hlost => completes_unit rfl (answers.trans (if_pos hlost)), fun hlost => ?_⟩
    have answered := answers.trans (if_neg (ne_true_of_eq_false hlost))
    refine ⟨?_, fun h => completes_unit rfl (by rw [answered, h]; rfl), fun x h => ?_⟩
    · intro t v h u
      refine completes_unit rfl ?_
      rw [answered, h]
      simp [State.answer, u, or_assoc]
    · rw [h, answer_trap horigin] at answered
      refine ⟨fun hb => completes_unit rfl (answered.trans (if_pos hb)),
        fun hb hw => completes_unit rfl (answered.trans ((if_neg (ne_true_of_eq_false hb)).trans (if_pos hw))),
        fun hb hop htarget => completes_unit rfl (answered.trans ((if_neg (ne_true_of_eq_false hb)).trans (if_neg ?_)))⟩
      simp [hop, htarget]
  case replay =>
    intro s rid r hf hstage
    have replays {pkg : Nat} (hremote : r.remote = some pkg) :=
      (retryReplay_abroad hf hstage hremote).trans (replay_abroad hf hremote (Or.inr hstage))
    refine ⟨fun hremote => completes_unit rfl ?_, fun pkg port hremote hport => completes_unit rfl ?_,
      fun pkg hremote hport => completes_unit rfl ?_⟩
    · simp [State.retryReplay, hf, hstage, hremote]
    · rw [replays hremote, hport]
    · rw [replays hremote, hport]
  case data =>
    intro s rid data r p hf hblocking horigin hctx htarget hrun returned
    have delivers (v : Word) : (s.deliverData r v).finishCounts r = returned v := by rw [deliverData_reg hctx htarget hrun]
    refine ⟨fun v hstage => completes_unit rfl ?_, fun pkg hremote hstage => completes_unit rfl ?_⟩
    · rw [dataReturn_returned hf hblocking horigin hstage, delivers]
    · rw [dataReturn_abroad hf hblocking horigin hremote hstage, delivers]
  case ack =>
    intro s rid r hf
    refine ⟨fun horigin hstage => completes_unit rfl ?_, fun horigin hstage => completes_unit rfl ?_, fun horigin habroad hop htarget => ?_⟩
    · simp [State.storeAck, hf, horigin, hstage]
    · simp [State.storeAck, hf, Option.isSome_iff_ne_none.2 horigin, hstage]
    · have ends := storeAck_abroad hf horigin habroad hop htarget
      refine ⟨fun hblocking hcls => completes_unit rfl ?_, fun hblocking => completes_unit rfl ?_⟩
      · rw [ends, ite_not, if_pos (c := r.blocking = true ∧ r.cls.isSome = true) ⟨hblocking, Option.isSome_iff_ne_none.2 hcls⟩]
      · rw [ends, ite_not, if_neg (c := r.blocking = true ∧ r.cls.isSome = true) (fun h => ne_true_of_eq_false hblocking h.1)]
  case release =>
    intro s hid h hf t
    have sent (hd : s.drained h.core h.ctx h.id h.mask = true) := releaseSend_drained hf hd
    refine ⟨?_, ?_, ?_, ?_, ?_, ?_, ?_, ?_⟩
    · exact fun r hw hd => completes_unit rfl (by rw [sent hd, hw])
    · exact fun f hw hd => completes_unit rfl (by rw [sent hd, hw])
    · exact fun tile x hw hd => completes_unit rfl (by rw [sent hd, hw])
    · exact fun x hw hd => completes_unit rfl (by rw [sent hd, hw])
    · exact fun sg x u hw hd hu => completes_unit rfl (by rw [sent hd, hw]; exact congrArg (·.getD s) hu)
    · exact fun x hw hd => completes_unit rfl (by rw [sent hd, hw])
    · exact fun tile x hw hd hroom => completes_unit rfl (by rw [sent hd, hw]; exact if_neg (Nat.not_le.2 hroom))
    · exact fun r hw hd => completes_unit rfl (by simp [State.releaseSend, hf, hw, hd])
  case upset =>
    intro s a ha
    refine ⟨fun h => completes_unit rfl ?_, fun h => completes_unit rfl ?_⟩
    · exact if_pos ⟨Or.inl ha, ne_true_of_eq_false h⟩
    · exact if_neg (fun hn => hn.2 h)
  case sweep =>
    intro s n p hp
    refine ⟨fun h => completes_unit rfl ?_, fun root h hroot => completes_unit rfl ?_⟩
    · cases hroot : p.root <;> simp [State.heatSweep, hp, hroot, h]
    · simp only [State.heatSweep, hp, hroot, if_neg h]

end Sys2Proof.Machine
namespace Sys2Proof.Machine

/-! ## Steps of messages and contexts (06_task_instr.md R159 to R161, 01_assembly.md R30, R31) -/

section
variable {s : State} {f : Flight} {mid n : Nat}

/-- What becomes of a message to a core that no earlier one of its source holds back. -/
theorem messageArrival_core (hf : s.flights.find? (fun x => x.id == mid) = some f) (hdest : f.dest = .core n) (hnack : f.nacked = false)
    (hbehind : s.behind f = false) : s.messageArrival mid =
      if f.issuer.isSome ∧ n < 4096 ∧ s.dieLost (coreDie n) then s.loseFlight f 0 else s.arrive f := by
  simp [State.messageArrival, hf, hnack, State.atPort, hdest, hbehind]

/-- A message to a core of a die that is there. -/
theorem arrive_core (hdest : f.dest = .core n) (hbehind : s.behind f = false) (hdie : ¬ (n < 4096 ∧ s.dieLost (coreDie n) = true)) :
    s.arrive f =
      if f.msg.cls = 1 ∨ f.msg.cls = 4 then s.landed f
      else if f.msg.cls = 3 ∨ f.msg.cls = 5 ∨ ((s.core n).forwardOf f.msg).isSome then s
      else if f.msg.cls = 0 ∧ ¬ (s.ctx n f.msg.dctx).isLive then s.landed f
      else if inboxFull (s.core n).inbox f.msg then
        { s with flights := s.flights.map (fun g => if g.id = f.id then { g with nacked := true } else g) }
      else (s.setCore n { s.core n with
        inbox := enterInbox (s.core n).inbox { f.msg with came := s.gtc, sender := f.source }, received := (s.core n).received + 1 }).landed f := by
  simp only [State.arrive, hdest, hbehind, if_neg hdie, Bool.false_eq_true, if_false]

/-- A message of a class that a context reads, for no moved helper, enters the inbox, is refused by a full one, or is discarded. -/
theorem arrive_inbox (hdest : f.dest = .core n) (hbehind : s.behind f = false) (hdie : ¬ (n < 4096 ∧ s.dieLost (coreDie n) = true))
    (hcls : [1, 3, 4, 5].contains f.msg.cls = false) (hforward : (s.core n).forwardOf f.msg = none) :
    s.arrive f =
      if f.msg.cls = 0 ∧ ¬ (s.ctx n f.msg.dctx).isLive then s.landed f
      else if inboxFull (s.core n).inbox f.msg then
        { s with flights := s.flights.map (fun g => if g.id = f.id then { g with nacked := true } else g) }
      else (s.setCore n { s.core n with
        inbox := enterInbox (s.core n).inbox { f.msg with came := s.gtc, sender := f.source }, received := (s.core n).received + 1 }).landed f := by
  simp only [List.contains_cons, List.contains_nil, Bool.or_false, Bool.or_eq_false_iff, beq_eq_false_iff_ne] at hcls
  obtain ⟨h1, h3, h4, h5⟩ := hcls
  have kept : ¬ (f.msg.cls = 3 ∨ f.msg.cls = 5 ∨ ((s.core n).forwardOf f.msg).isSome = true) := by simp [h3, h5, hforward]
  rw [arrive_core hdest hbehind hdie, if_neg (by simp [h1, h4]), if_neg kept]

theorem resumeMessage_core (hf : s.flights.find? (fun x => x.id == mid) = some f) (hdest : f.dest = .core n) (hbehind : s.behind f = false)
    (hforward : (s.core n).forwardOf f.msg = none) (hcls : f.msg.cls = 3) :
    let t := s.landed f
    let m := f.msg
    s.resumeMessage mid =
      if (m.arg0 &&& ~~~1 ≠ 0 ∨ [m.arg1, m.arg2, m.arg3, m.arg4, m.arg5, m.arg6].any (· != 0)) ∨ (t.ctx n m.dctx).run ≠ .faulted then t
      else t.resume n m.dctx (bitAt m.arg0 0) := by
  have here : ¬ (f.msg.cls ≠ 3 ∨ s.behind f = true ∨ ((s.core n).forwardOf f.msg).isSome = true) := by simp [hcls, hbehind, hforward]
  simp only [State.resumeMessage, hf, hdest, if_neg here]

theorem stopMessage_core (hf : s.flights.find? (fun x => x.id == mid) = some f) (hdest : f.dest = .core n) (hbehind : s.behind f = false)
    (hforward : (s.core n).forwardOf f.msg = none) (hcls : f.msg.cls = 5) (hctx : f.msg.dctx ≠ 0)
    (hlive : ((s.landed f).ctx n f.msg.dctx).isLive = true) : s.stopMessage mid = (s.landed f).stopHelper n f.msg.dctx := by
  have here : ¬ (f.msg.cls ≠ 5 ∨ s.behind f = true ∨ ((s.core n).forwardOf f.msg).isSome = true) := by simp [hcls, hbehind, hforward]
  simp only [State.stopMessage, hf, hdest, if_neg here, hctx, hlive, not_true_eq_false, or_self, if_false]

theorem handlerStart_starts {core h : Nat} {m : Message} {pc : Word} (hs : isService core = false) (hg : s.gangStopping core = false)
    (hm : (s.core core).inbox.find? (s.startsHandler core) = some m) (hh : (s.core core).freeReserved = some h)
    (hpc : s.handlerOf core m.cls = some pc) :
    s.handlerStart core = (s.setCore core { (s.core core).setCtx h
      { Ctx.start pc 0 .handler (startArgs (m.header :: m.payload)) with replyTo := some m.source } with
        inbox := dropFirst (s.startsHandler core) (s.core core).inbox }).acquire core := by
  simp only [State.handlerStart, hs, hg, Bool.false_eq_true, or_self, if_false, hm, hh, hpc]
  rfl

theorem forwardOne_request {rid : Nat} {r : Request} {e : Forward} (hf : s.requests.find? (fun q => q.id == rid) = some r)
    (hstage : r.stage = .sent) (hforward : s.forwardOf r = some e) (hremote : r.remote = none) (hover : s.overtakes r = false) :
    s.forwardOne rid = (s.restartForward ((r.key - 2 ^ 45) / 2 ^ 18) e).putRequest
      { r with key := sramKey e.toCore (r.key % 2 ^ 18), home := e.toCore } := by
  have turn : ¬ (r.remote.isSome = true ∨ s.overtakes r = true) := by simp [hremote, hover]
  simp only [State.forwardOne, hf, hstage, hforward, if_neg turn]

theorem forwardExpire_ends {core i : Nat} {e : Forward} (he : (s.core core).forwards[i]? = some e)
    (hr : (s.requests.any (fun r => r.stage == .sent && r.remote.isNone && r.home == core && s.forwardOf r == some e)) = false)
    (hm : (s.flights.any (fun f => f.dest == .core core && (s.core core).forwardOf f.msg == some e)) = false)
    (hage : e.since + 2 ^ 20 ≤ s.cycle) :
    s.forwardExpire core i = s.setCore core { s.core core with forwards := (s.core core).forwards.eraseIdx i } := by
  simp only [State.forwardExpire, he, hr, hm, Bool.or_self, Bool.false_eq_true, Nat.not_lt.2 hage, or_self, if_false]

/-- A helper that has waited long enough for registers is stopped and saved. -/
theorem registerPreempt_saves {core h : Nat} (h0 : h ≠ 0) (hrun : ((s.core core).ctx h).run = .ready)
    (hwait : ((s.core core).ctx h).wait = .register) (hlevel : ((s.core core).ctx h).level ≠ 2)
    (hlong : ((s.core core).waiters.any (fun w => w.ctx == h && decide (w.since + 4096 < s.cycle))) = true) :
    s.registerPreempt core h = match (s.lay core h .preempted true).save core h false with
      | .ok t => t.setCore core { t.core core with waiters := (t.core core).waiters.map (fun w =>
          if w.ctx = h then { w with preempted := true, need := ((s.core core).ctx h).holds - 16 } else w) }
      | .error va => (s.saveFailed core h 1 va).setCore core { (s.saveFailed core h 1 va).core core with
          waiters := (s.core core).waiters.filter (fun w => w.ctx ≠ h) } := by
  simp only [State.registerPreempt, h0, hrun, hwait, hlevel, hlong, ne_eq, not_true_eq_false, or_self, if_false] <;> rfl

theorem registerGrant_ready {core : Nat} {w : Waiter} {rest : List Waiter} (hw : (s.core core).waiters = w :: rest)
    (hp : w.preempted = false) (hrun : ((s.core core).ctx w.ctx).run = .ready) (hused : (s.core core).sharedUsed < 64)
    (hwait : ((s.core core).ctx w.ctx).wait = .register) :
    s.registerGrant core = s.setCore core ((s.core core).setCtx w.ctx { (s.core core).ctx w.ctx with wait := .retry }) := by
  simp only [State.registerGrant, hw, hp, hrun, hused, hwait, ne_eq, not_true_eq_false, if_true, if_false, Bool.false_eq_true, reduceCtorEq]

theorem registerGrant_preempted {core : Nat} {w : Waiter} {rest : List Waiter} {t : State} (hw : (s.core core).waiters = w :: rest)
    (hp : w.preempted = true) (hneed : (s.core core).sharedUsed + w.need ≤ 64) (hrun : ((s.core core).ctx w.ctx).run = .preempted)
    (hpre : ((s.core core).ctx w.ctx).isPreempted = true) (hreload : s.reload core w.ctx = .ok t)
    (hroom : (s.core core).sharedUsed + ((t.ctx core w.ctx).holds - 16) ≤ 64) :
    let u := (t.lift core w.ctx).alterCtx core w.ctx (fun c =>
      { c with wait := if c.wait = .barrier ∨ c.wait = .claim then c.wait else .retry })
    s.registerGrant core = u.setCore core { u.core core with waiters := rest } := by
  intro u
  have hfit : ¬ (64 < (s.core core).sharedUsed + w.need ∨ ((s.core core).ctx w.ctx).run ≠ .preempted) := by
    simp only [hrun, ne_eq, not_true_eq_false, or_false]
    omega
  simp only [State.registerGrant, hw, hp, hpre, if_neg hfit, State.reloadOrFault, hreload, Nat.not_lt.2 hroom, not_true_eq_false, if_true,
    if_false]
  rfl
end

/-- Settles O45: each step by the branch that its message, its forwarding entry or its waiter takes. -/
theorem messageEvents : Obligations.MessageEvents := by
  unfold Obligations.MessageEvents
  refine ⟨?arrival, ?replay, ?handler, ?control, ?forward, ?expire, ?preempt, ?grant, ?claim, ?split, ?splitBusy, ?vgroup⟩
  case arrival =>
    intro s mid n f hf hdest hnack hbehind
    have comes := messageArrival_core hf hdest hnack hbehind
    refine ⟨fun hn hlost hissuer => completes_unit rfl (comes.trans (if_pos ⟨Option.isSome_iff_ne_none.2 hissuer, hn, hlost⟩)),
      fun hdie => ?_⟩
    have arrives : s.messageArrival mid = s.arrive f := comes.trans (if_neg fun h => hdie h.2)
    refine ⟨fun hcls => completes_unit rfl ?_, fun hcls hforward => ?_⟩
    · rw [arrives, arrive_core hdest hbehind hdie, if_pos hcls]
    · have enters := arrives.trans (arrive_inbox hdest hbehind hdie hcls hforward)
      refine ⟨fun h0 hlive => completes_unit rfl (enters.trans (if_pos ⟨h0, ne_true_of_eq_false hlive⟩)), fun hlive => ?_⟩
      have kept : ¬ (f.msg.cls = 0 ∧ ¬ (s.ctx n f.msg.dctx).isLive = true) := fun h => h.2 (hlive h.1)
      exact ⟨fun hfull => completes_unit rfl (enters.trans ((if_neg kept).trans (if_neg (ne_true_of_eq_false hfull)))),
        fun hfull => completes_unit rfl (enters.trans ((if_neg kept).trans (if_pos hfull)))⟩
  case replay =>
    intro s mid f hf hnack g
    exact completes_unit rfl (by simp only [State.messageReplay, hf, hnack, not_true_eq_false, if_false]; rfl)
  case handler =>
    intro s core h m pc hs hg hm hh hpc c
    exact completes_unit rfl (handlerStart_starts hs hg hm hh hpc)
  case control =>
    intro s mid n f hf hdest hbehind hforward t m
    refine ⟨fun hcls h0 hany => ⟨fun hrun => completes_unit rfl ?_, fun hrun => completes_unit rfl ?_⟩,
      fun hcls hbad => completes_unit rfl ?_, fun hcls hctx hlive => completes_unit rfl (stopMessage_core hf hdest hbehind hforward hcls hctx hlive)⟩
    · refine (resumeMessage_core hf hdest hbehind hforward hcls).trans (if_neg ?_)
      exact fun h => h.elim (fun h => h.elim (fun h => h h0) (ne_true_of_eq_false hany)) (fun h => h hrun)
    · exact (resumeMessage_core hf hdest hbehind hforward hcls).trans (if_pos (Or.inr hrun))
    · exact (resumeMessage_core hf hdest hbehind hforward hcls).trans (if_pos (Or.inl hbad))
  case forward =>
    intro s rid r f hf hstage hforward hremote hover
    exact completes_unit rfl (forwardOne_request hf hstage hforward hremote hover)
  case expire =>
    intro s core i e he hr hm hage
    exact completes_unit rfl (forwardExpire_ends he hr hm hage)
  case preempt =>
    intro s core h h0 hrun hwait hlevel hlong
    have saves := registerPreempt_saves h0 hrun hwait hlevel hlong
    refine ⟨fun t ht => completes_unit rfl (by rw [saves, ht]), ?_⟩
    intro va hva t
    exact completes_unit rfl (by rw [saves, hva])
  case grant =>
    intro s core w rest hw
    refine ⟨fun hp hrun hused hwait => completes_unit rfl (registerGrant_ready hw hp hrun hused hwait), ?_⟩
    intro t hp hneed hrun hpre hreload hroom u
    exact completes_unit rfl (registerGrant_preempted hw hp hneed hrun hpre hreload hroom)
  case claim =>
    intro s tile r rest hq hwait
    refine ⟨?_, ?_, ?_⟩
    · intro hres t lanes hfit
      refine completes_unit rfl ?_
      simp only [State.claimGrant, hq, hwait, ne_eq, not_true_eq_false, if_false, hres, if_true]
      exact if_pos hfit
    · intro hres hnone t hfit
      refine completes_unit rfl ?_
      simp only [State.claimGrant, hq, hwait, ne_eq, not_true_eq_false, if_false, hres, Bool.false_eq_true, hnone]
      exact if_pos (decide_eq_true hfit)
    · intro q hres hsome t hfit
      refine completes_unit rfl ?_
      simp only [State.claimGrant, hq, hwait, ne_eq, not_true_eq_false, if_false, hres, Bool.false_eq_true, hsome]
      exact if_pos (decide_eq_true hfit)
  case split => exact fun s core cw h => completes_unit rfl (if_neg (ne_true_of_eq_false h))
  case splitBusy => exact fun s core cw h => completes_unit rfl (if_pos h)
  case vgroup => exact fun s tile en => rfl

end Sys2Proof.Machine
namespace Sys2Proof.Machine

/-! ## Steps of launches, dispatch and the relief (06_task_instr.md R156, 12_execution.md R299 to R303, 13_relief.md R315 to R321) -/

section
variable {s : State} {tile part : Nat}

theorem handOff_task {e : QEntry} {core h : Nat} {rest : List Nat} {t : Task} (hh : (s.core core).freeHelpers = h :: rest)
    (hk : e.kind = .task t) :
    s.handOff tile e core = (s.setTile tile { s.tile tile with queue := (s.tile tile).queue.erase e }).startTask core h t .task 0 := by
  simp only [State.handOff, hh, hk]

theorem handOff_root {e : QEntry} {core h id i : Nat} {rest : List Nat} {l : Launch} (hh : (s.core core).freeHelpers = h :: rest)
    (hk : e.kind = .roots id i) (hl : s.launches.find? (fun l => l.id == id) = some l) :
    let q := if l.leftFrom i ≤ 1 then (s.tile tile).queue.erase e
      else (s.tile tile).queue.map (fun x => if x = e then { e with kind := .roots id (i + l.period) } else x)
    s.handOff tile e core = (s.setTile tile { s.tile tile with queue := q }).startRoot core h l i := by
  simp only [State.handOff, hh, hk, hl]

theorem dispatchTile_hands {e : QEntry} {core : Nat} (hd : s.dieLost (tileDie tile) = false) (he : s.dispatchable tile = some e)
    (hc : s.fewest (s.eligible tile e) = some core) : s.dispatchTile tile = s.handOff tile e core := by
  simp only [State.dispatchTile, hd, Bool.false_eq_true, if_false, he, hc]

/-- The highest level with a spilled entry is found first. -/
theorem find_spilled {q : List QEntry} {v : Nat} (hv : v < 8) (hs : hasSpilled q v = true)
    (hhigh : ∀ w, v < w → w < 8 → hasSpilled q w = false) :
    ([7, 6, 5, 4, 3, 2, 1, 0] : List Nat).find? (fun v => hasSpilled q v) = some v := by
  have none_at (w : Nat) (h : v < w ∧ w < 8) : hasSpilled q w = false := hhigh w h.1 h.2
  obtain rfl | rfl | rfl | rfl | rfl | rfl | rfl | rfl : v = 7 ∨ v = 6 ∨ v = 5 ∨ v = 4 ∨ v = 3 ∨ v = 2 ∨ v = 1 ∨ v = 0 := by omega
  all_goals simp [hs, none_at]

theorem rawPressure_lt (c b p : Nat) : rawPressure c b p < 2 ^ 16 := by
  unfold rawPressure
  omega

theorem launchDistribute_reply {r : LaunchRequest} {rest : List LaunchRequest} (hq : s.launchQueue = r :: rest)
    (hc : 2 ^ 32 < bitsOf (r.packet.toList.getD 0 0) 39 0) :
    s.launchDistribute = { s with launchQueue := rest }.launchReply r 3 [] := by
  simp only [State.launchDistribute, hq]
  exact if_pos hc
end

/-- Settles O46: each step by the entry, the launch or the task that it takes. -/
theorem launchEvents : Obligations.LaunchEvents := by
  unfold Obligations.LaunchEvents
  refine ⟨?launch, ?place, ?dispatch, ?refill, ?offer, ?age, ?pressure, ?contour, ?decide, ?resume⟩
  case launch =>
    intro s r rest hq t
    refine ⟨fun hc => completes_unit rfl (launchDistribute_reply hq hc), ?_⟩
    intro hc hd tiles l counts l' hcounts
    refine completes_unit rfl ?_
    simp only [State.launchDistribute, hq, State.distribute, if_neg (Nat.not_lt.2 hc), hd, if_true]
    exact congrArg (fun x : State => x.launchReply r 0 []) (if_neg hcounts)
  case place =>
    intro s die l t hl ht
    exact completes_unit rfl (by simp only [State.launchEntryPlace, hl, ht])
  case dispatch =>
    intro s tile e core h rest hd he hc hh
    have hands := dispatchTile_hands hd he hc
    refine ⟨fun t hk => completes_unit rfl (hands.trans (handOff_task hh hk)), ?_⟩
    intro id i l hk hl q
    exact completes_unit rfl (hands.trans (handOff_root hh hk hl))
  case refill =>
    intro s tile v hres hv hs hhigh
    refine completes_unit rfl ?_
    simp only [State.spillRefill, if_neg (Nat.not_lt.2 hres), find_spilled hv hs hhigh]
  case offer => exact fun s tile => rfl
  case age =>
    intro s tile part hp due
    refine completes_unit rfl ?_
    simp only [State.queueAgeing, hp]
    rfl
  case pressure =>
    intro s tile part hp hd u raw
    have hraw : (BitVec.ofNat 16 (rawPressure (s.queuedCost tile) (s.busyHelpers tile) (s.partRegs (some part)).pshift.toNat)).toNat = raw :=
      Nat.mod_eq_of_lt (rawPressure_lt _ _ _)
    refine completes_unit rfl ?_
    simp only [State.pressureSample, hp, hd, Bool.false_eq_true, if_false, hraw]
    rfl
  case contour =>
    intro s tile part hp hd hahead pair u t
    refine completes_unit rfl ?_
    simp only [State.contourStep, hp, hd, hahead, Bool.false_eq_true, or_self, if_false]
    rfl
  case decide =>
    intro s tile x hx t
    refine ⟨fun hstay => completes_unit rfl ?_, fun n hmove => ⟨fun hpaused => completes_unit rfl ?_, fun hpaused => completes_unit rfl ?_⟩⟩
    · simp only [State.placementDecision, hx]
      change (match t.placement tile (t.partRegs (some x.part)) x with | none => _ | some n => _) = _
      rw [hstay]
    · simp only [State.placementDecision, hx]
      change (match t.placement tile (t.partRegs (some x.part)) x with | none => _ | some n => _) = _
      rw [hmove]
      exact if_pos hpaused
    · simp only [State.placementDecision, hx]
      change (match t.placement tile (t.partRegs (some x.part)) x with | none => _ | some n => _) = _
      rw [hmove]
      exact if_neg (ne_true_of_eq_false hpaused)
  case resume =>
    exact fun s tile => ⟨fun h => completes_unit rfl (if_pos h), fun h => completes_unit rfl (if_neg (ne_true_of_eq_false h))⟩

end Sys2Proof.Machine
namespace Sys2Proof.Machine

/-! ## Steps of crews and barriers (12_execution.md R309 to R311, 22_faults.md R429, 06_task_instr.md R171) -/

/-- What the ageing of the queue of a super-group leaves, once its target has been named. -/
def State.crewAged (s : State) (sg part : Nat) (g : SuperGroup) : State :=
  let u := (g.dueRequests s.microsecond (s.partRegs (some part)).ageus.toNat).foldl
    (fun (u : State) r => u.ageRequest part sg s.microsecond r) (s.setSuperGroup sg g)
  u.setSuperGroup sg (refillRequests (u.superGroup sg))

/-- The super-group with a target named for its oldest request, where that has waited long enough and a rectangle can be named. -/
def State.crewNamed (s : State) (sg limit : Nat) : SuperGroup :=
  match (s.superGroup sg).target, (s.superGroup sg).ordered with
  | none, r :: _ =>
    if limit * 1000 ≤ s.gtc.toNat - r.joined.toNat then
      match s.bestTarget sg r.w r.h with
      | some t => { s.superGroup sg with
          target := some t
          requests := (s.superGroup sg).requests.map (fun x => if x = r then { r with targeted := some s.gtc } else x) }
      | none => s.superGroup sg
    else s.superGroup sg
  | _, _ => s.superGroup sg

section
variable {s : State} {sg part : Nat}

theorem crewTarget_eq (hp : s.partOfGroup sg = some part) :
    s.crewTarget sg = s.crewAged sg part (s.crewNamed sg (s.partRegs (some part)).ageus.toNat) := by
  simp only [State.crewTarget, hp]
  rfl

theorem crewNamed_same {limit : Nat} (h : (∃ t, (s.superGroup sg).target = some t) ∨ (s.superGroup sg).ordered = []) :
    s.crewNamed sg limit = s.superGroup sg := by
  unfold State.crewNamed
  split
  · next r rest ht ho =>
    rcases h with ⟨t, h⟩ | h
    · rw [ht] at h; cases h
    · rw [ho] at h; cases h
  · rfl

theorem crewNamed_early {limit : Nat} {r : CrewRequest} {rest : List CrewRequest} (ho : (s.superGroup sg).ordered = r :: rest)
    (h : s.gtc.toNat - r.joined.toNat < limit * 1000) : s.crewNamed sg limit = s.superGroup sg := by
  unfold State.crewNamed
  rw [ho]
  split
  · next r' rest' ht hr =>
    obtain ⟨rfl, -⟩ := List.cons.inj hr
    exact if_neg (Nat.not_le.2 h)
  · rfl

theorem crewNamed_names {limit : Nat} {r : CrewRequest} {rest : List CrewRequest} {t : Rect}
    (hnone : (s.superGroup sg).target = none) (ho : (s.superGroup sg).ordered = r :: rest)
    (h : limit * 1000 ≤ s.gtc.toNat - r.joined.toNat) (ht : s.bestTarget sg r.w r.h = some t) :
    s.crewNamed sg limit = { s.superGroup sg with
      target := some t
      requests := (s.superGroup sg).requests.map (fun x => if x = r then { r with targeted := some s.gtc } else x) } := by
  unfold State.crewNamed
  rw [ho, hnone]
  exact (if_pos h).trans (by rw [ht])

theorem swapOn_waits {c : Crew} (n slot base : Nat) (hq : s.crewQuiet c = false) : s.swapOn c n slot base = s.stopAgain c :=
  if_pos (ne_true_of_eq_false hq)

theorem swapOn_leaves {c : Crew} {n slot base : Nat} {u : State} (hq : s.crewQuiet c = true)
    (hu : ((c.living.foldl (fun (s : State) e => s.captureBarrier e.2) s).raiseFloors c).swapSave n base c.living = .ok u) :
    s.swapOn c n slot base = u.swapAway c slot := by
  simp only [State.swapOn, hq, not_true_eq_false, if_false, hu]

theorem crewSwap_goesOn {n : Nat} {p : Partition} {c : Crew} (hn : s.partOfGroup sg = some n) (hp : s.part n = some p)
    (hc : s.crews.find? (fun c => c.sg == sg && c.swapped.isSome && c.saved.isEmpty) = some c) :
    s.crewSwap sg = s.swapOn c n (c.swapped.getD 0) (p.slotBase (c.swapped.getD 0)) := by
  simp only [State.crewSwap, hn, hp, hc]

theorem crewSwap_begins {n k : Nat} {p : Partition} {c : Crew} {t : Rect} {r : CrewRequest} (hn : s.partOfGroup sg = some n)
    (hp : s.part n = some p) (hnone : s.crews.find? (fun c => c.sg == sg && c.swapped.isSome && c.saved.isEmpty) = none)
    (ht : (s.superGroup sg).target = some t) (hr : (s.superGroup sg).requests.find? (fun r => r.targeted.isSome) = some r)
    (hage : p.regs.ageus.toNat * 1000 ≤ s.gtc.toNat - (r.targeted.getD 0).toNat) (hgang : p.gang = none)
    (hv : s.victim r t = some c) (hk : s.freeSlot n p = some k) : s.crewSwap sg = s.swapBegin c n k (p.slotBase k) := by
  have old : ¬ (s.gtc.toNat - (r.targeted.getD 0).toNat < p.regs.ageus.toNat * 1000 ∨ p.gang.isSome = true) := by
    simp only [hgang, Option.isSome_none, Bool.false_eq_true, or_false]
    omega
  simp only [State.crewSwap, hn, hp, hnone, ht, hr, if_neg old, hv, hk]
end

/-- Settles O47: each step by the request, the crew or the barrier that it takes. -/
theorem crewEvents : Obligations.CrewEvents := by
  unfold Obligations.CrewEvents
  refine ⟨?choice, ?target, ?swap, ?barrier⟩
  case choice =>
    intro s sg r rect hchoice
    refine ⟨fun hr => completes_unit rfl ?_, fun c n p hc hn hp => completes_unit rfl ?_⟩
    · simp only [State.crewGrant, hchoice, hr, Option.isSome_none, Bool.false_eq_true, if_false]
    · simp only [State.crewRestore, hchoice, hc, hn, hp]
  case target =>
    intro s sg part hp g limit aged
    have ages {g' : SuperGroup} (h : s.crewNamed sg limit = g') : s.crewTarget sg = aged g' := by
      rw [crewTarget_eq hp, ← h]
      rfl
    exact ⟨fun h => completes_unit rfl (ages (crewNamed_same h)), fun r rest ho h => completes_unit rfl (ages (crewNamed_early ho h)),
      fun r rest t hnone ho h ht => completes_unit rfl (ages (crewNamed_names hnone ho h ht))⟩
  case swap =>
    intro s sg n p hn hp
    refine ⟨fun c hc => ?_, fun t r c k hnone ht hr hage hgang hv hk =>
      completes_unit rfl (crewSwap_begins hn hp hnone ht hr hage hgang hv hk)⟩
    have goes := crewSwap_goesOn hn hp hc
    refine ⟨fun hq => completes_unit rfl (goes.trans (swapOn_waits _ _ _ hq)), ?_⟩
    intro hq t u hu
    exact completes_unit rfl (goes.trans (swapOn_leaves hq hu))
  case barrier =>
    intro s core ctx hctx hwait hfull
    refine completes_unit rfl ((if_pos hfull).trans ((if_pos hctx).trans ?_))
    exact congrArg (s.setCtx core ctx) (if_pos hwait)

end Sys2Proof.Machine
namespace Sys2Proof.Machine

/-! ## Steps of the matrix engines and the engraver (08_matrix_instr.md R218 to R234, 18_sparse.md R382, R383) -/

section
variable {s : State} {c : Command}

/-- A command that an engine with room accepts in its order, by what its capability and its block say. -/
theorem engineAccept_takes {cid a : Nat} (hf : s.commands.find? (fun c => c.id == cid && c.viaMcmd) = some c) (ha : c.counter = some a)
    (hdie : s.dieLost (coreDie c.target) = false) (hbehind : s.commandBehind c = false)
    (hroom : (s.core c.target).engine.accepted.length < 8) :
    let t := { s with commands := s.commands.filter (fun x => x.id ≠ cid) }
    let t := t.alterCtx c.issuer c.issuerCtx (fun x => { x with acks := x.acks.set a (x.acks.get a - 1) })
    (s.capPasses c = false → s.engineAccept cid = t.endCommand c.target c 2 0 0 0 0)
    ∧ (∀ x, s.capPasses c = true → (s.asIssuer c.issuer c.issuerCtx c.level).checkBlock c.target c 0 = .ok x →
      s.engineAccept cid = t.acceptCommand c.target { c with viaMcmd := false }) := by
  intro t t'
  have turn : ¬ (s.commandBehind c = true ∨ 8 ≤ (s.core c.target).engine.accepted.length) := by
    simp only [hbehind, Bool.false_eq_true, false_or]
    omega
  refine ⟨fun hcap => ?_, fun x hcap hx => ?_⟩
  · simp only [State.engineAccept, hf, hdie, Bool.false_eq_true, if_false, if_neg turn, ha, hcap, not_false_eq_true, if_true]
    rfl
  · simp only [State.engineAccept, hf, hdie, Bool.false_eq_true, if_false, if_neg turn, ha, hcap, not_true_eq_false, hx]
    rfl

theorem engineStart_starts {core : Nat} (hrun : (s.core core).engine.running = none)
    (hc : oldestEligible [] (s.core core).engine.queue = some c) :
    s.engineStart core = (s.setCore core { s.core core with engine := { (s.core core).engine with
      running := some c, queue := (s.core core).engine.queue.filter (fun x => x.id ≠ c.id) } }).touchPlate core c := by
  simp only [State.engineStart, hrun, Option.isSome_none, Bool.false_eq_true, if_false, hc]

theorem engineComplete_eq {core : Nat} (hrun : (s.core core).engine.running = some c) :
    s.engineComplete core = match s.runCommand core c with
      | .goes t => t
      | .asks t p pl size => if (t.fetched c.id p).isNone then t.unitRequest c.issuer c.part c.id p pl (.load size false) 0 else t
      | .ended t => t.dropUnit c.id := by
  simp only [State.engineComplete, hrun] <;> rfl

theorem engineMigrate_moves {core cid n : Nat} (hc : (s.core core).engine.queue.find? (fun c => c.id == cid) = some c)
    (hn : (tileCores (coreTile core)).find? (fun n => n != core && (s.core n).engine.queue.isEmpty && (s.core n).engine.running.isNone)
      = some n)
    (hmay : ¬ ((s.partRegs (s.partOf core)).mmigt = 0 ∨ c.moved = true ∨ ¬ c.isBlock = true ∨ ¬ c.zero = true ∨ ¬ c.writesBack = true
      ∨ c.asrc ≠ 0 ∨ c.bsrc ≠ 0 ∨ c.afwd = true ∨ c.bfwd = true)) :
    let k := s.core core
    let t := s.setCore core { k with engine := { k.engine with queue := k.engine.queue.filter (fun x => x.id ≠ cid) } }
    s.engineMigrate core cid = (t.acceptCommand n { c with moved := true, target := n }).identities core := by
  simp only [State.engineMigrate, hc, hn, if_neg hmay]
end

section
variable {s : State} {sg : Nat} {r : Engrave} {rest : List Engrave} {w : Word} {v : BitVec 7}

theorem engraveStart_reads (he : (s.superGroup sg).engraver = r :: rest) (hh : s.tileHeader r.part r.level r.address = .ok (w, v))
    (hstart : r.started = false) :
    s.engraveStart sg = if v ≠ r.version then s.engraveStale sg r
      else s.setSuperGroup sg { s.superGroup sg with engraver := { r with started := true, header := w } :: rest } := by
  simp only [State.engraveStart, he, hstart, Bool.false_eq_true, if_false, hh]

theorem engraveComplete_first {got : Table Word} (he : (s.superGroup sg).engraver = r :: rest) (hstart : r.started = true)
    (heager : s.eager = false) (hrows : r.rows = [])
    (hgot : s.readRows r ((List.range 64).filter (fun i => s.free (2000 + i) 2 == 1)) = .ok got) :
    s.engraveComplete sg = s.setSuperGroup sg { s.superGroup sg with engraver := { r with rows := got } :: rest } := by
  have first : ¬ s.eager = true ∧ r.rows = [] := ⟨ne_true_of_eq_false heager, hrows⟩
  simp only [State.engraveComplete, he, hstart, not_true_eq_false, if_false, if_pos first, hgot]

theorem engraveComplete_ends {got : Table Word} (he : (s.superGroup sg).engraver = r :: rest)
    (hh : s.tileHeader r.part r.level r.address = .ok (w, v)) (hstart : r.started = true) (hsecond : s.eager = true ∨ r.rows ≠ [])
    (hgot : s.readRows r (List.range 64) = .ok got) :
    let rows := (List.range 64).map (fun i => Table.get got i 0)
    s.engraveComplete sg = if v ≠ r.version then s.engraveStale sg r
      else if tileMalformed r.header rows then s.engraveFailed sg r (7, Cause.format.number, 0)
      else s.engraveBuilt sg r (plateOf r r.header rows s.nextOrder) := by
  have second : ¬ (¬ s.eager = true ∧ r.rows = []) := fun h => hsecond.elim h.1 (fun hr => hr h.2)
  simp only [State.engraveComplete, he, hstart, not_true_eq_false, if_false, if_neg second, hgot, hh]
end

/-- Settles O48: each step by the command or the request that the engine or the engraver takes. -/
theorem engineEvents : Obligations.EngineEvents := by
  unfold Obligations.EngineEvents
  refine ⟨?accept, ?start, ?complete, ?migrate, ?engrave⟩
  case accept =>
    intro s cid c a hf ha hdie hbehind hroom t t'
    have takes := engineAccept_takes hf ha hdie hbehind hroom
    exact ⟨fun hcap => completes_unit rfl (takes.1 hcap), fun x hcap hx => completes_unit rfl (takes.2 x hcap hx)⟩
  case start => exact fun s core c hrun hc => completes_unit rfl (engineStart_starts hrun hc)
  case complete =>
    intro s core c t hrun
    have ends := engineComplete_eq hrun
    refine ⟨fun h => completes_unit rfl (by rw [ends, h]), fun h => completes_unit rfl (by rw [ends, h]),
      fun p pl size h => ⟨fun hnone => completes_unit rfl ?_, fun x hx => completes_unit rfl ?_⟩⟩
    · rw [ends, h]
      exact if_pos (Option.isNone_iff_eq_none.2 hnone)
    · rw [ends, h]
      exact if_neg (by simp [hx])
  case migrate =>
    intro s core cid n c hc hn hmmigt hmoved hblock hzero hback ha hb haf hbf k t
    exact completes_unit rfl (engineMigrate_moves hc hn (by simp only [hmmigt, hmoved, hblock, hzero, hback, ha, hb, haf, hbf, ne_eq,
      not_true_eq_false, Bool.false_eq_true, or_self, not_false_eq_true]))
  case engrave =>
    intro s sg r rest w v he hh
    refine ⟨fun hstart => ?_, fun hstart heager hrows got hgot => completes_unit rfl (engraveComplete_first he hstart heager hrows hgot),
      fun hstart hsecond got hgot => ?_⟩
    · have reads := engraveStart_reads he hh hstart
      exact ⟨fun hv => completes_unit rfl (reads.trans (if_neg (not_not.2 hv))), fun hv => completes_unit rfl (reads.trans (if_pos hv))⟩
    · intro rows
      have ends := engraveComplete_ends he hh hstart hsecond hgot
      exact ⟨fun hv => completes_unit rfl (ends.trans (if_pos hv)),
        fun hv hbad => completes_unit rfl (ends.trans ((if_neg (not_not.2 hv)).trans (if_pos hbad))),
        fun hv hgood => completes_unit rfl (ends.trans ((if_neg (not_not.2 hv)).trans (if_neg (ne_true_of_eq_false hgood))))⟩

end Sys2Proof.Machine
namespace Sys2Proof.Machine

/-! ## Steps of copies, surveyors and memory streams (09_copy_instr.md R253, R257, 08_matrix_instr.md R243, 06_task_instr.md R173) -/

section
variable {s : State} {tile : Nat} {c : Copy}

/-- The copy that starts, and what the atlas lookup of a tensor source gives it. -/
theorem startCopy_starts (hrun : (s.tile tile).runningCopy = none) (hc : (s.tile tile).copies.find? (fun c => !c.started) = some c) :
    let d : Copy := { c with started := true, epoch := (s.tile tile).epoch }
    let failed (cause : Cause) : State :=
      if c.kind = .cpyq then s.putCopy tile { d with failed := some cause }
      else s.stopCopy tile d { at_ := 0, cause := some cause, address := mapBase c.src } 0
    s.startCopy tile =
      if c.hasSource = true ∧ ptrSpace (mapBase c.src) = 2 then
        match s.lookupEntry c.part tile (bitsOf (mapBase c.src) 51 40) with
        | .error .address => failed .address
        | .error (.page _) => failed .page
        | .ok (e, s') => s'.putCopy tile { d with entry := some e }
      else s.putCopy tile d := by
  simp only [State.startCopy, hrun, Option.isSome_none, Bool.false_eq_true, if_false, hc] <;> rfl
end

section
variable {s : State} {core n : Nat} {t : Stream}

theorem surveyorStep_line (ht : Table.look (s.core core).streams n = some t) (hw : t.wantsLine = true) (hahead : t.ahead = [])
    (hat : t.at_ = none) : s.surveyorStep core n = s.readIndexLine core n t := by
  simp only [State.surveyorStep, ht, hw, hahead, hat, List.isEmpty_nil, Option.isNone_none, Bool.and_self, Bool.true_or, if_true]

/-- A surveyor that needs no line, or reads none ahead, goes on with its kernel, its next run or its end. -/
theorem surveyorStep_goes (ht : Table.look (s.core core).streams n = some t)
    (hread : t.wantsLine = false ∨ s.eager = true ∧ (t.ahead.isEmpty && t.at_.isNone) = false) :
    s.surveyorStep core n = match t.at_ with
      | some (i, count) => s.runKernel core n t i count
      | none =>
        if t.started ∧ ¬ t.ended ∧ t.lines ≤ t.nextLine then s.endStream core n t
        else if (s.core core).nextRun = some n then s.startRun core n t
        else s := by
  rcases hread with hw | ⟨he, hidle⟩
  · simp only [State.surveyorStep, ht, hw, Bool.false_and, Bool.false_eq_true, if_false] <;> rfl
  · simp only [State.surveyorStep, ht, he, hidle, Bool.not_true, Bool.false_and, Bool.or_self, Bool.and_false, Bool.false_eq_true, if_false] <;> rfl

theorem surveyorStep_kernel {i count : Nat} (ht : Table.look (s.core core).streams n = some t) (hread : t.wantsLine = false ∨ s.eager = true)
    (hat : t.at_ = some (i, count)) : s.surveyorStep core n = s.runKernel core n t i count := by
  rw [surveyorStep_goes ht (hread.imp_right fun he => ⟨he, by simp [hat]⟩), hat]

theorem surveyorStep_starts {b : List Byte} {rest : List IndexLine} (ht : Table.look (s.core core).streams n = some t) (hat : t.at_ = none)
    (hahead : t.ahead = .bytes b :: rest) (hread : t.wantsLine = false ∨ s.eager = true) (hmore : t.nextLine < t.lines)
    (hturn : (s.core core).nextRun = some n) :
    s.surveyorStep core n = (s.setCore core { s.core core with servedStream := n }).setStream core n
      { t with at_ := some (0, 0), line := b, ahead := rest, regs := (t.regs.set 0 (wordOf t.nextLine)).set 1 t.base } := by
  have runs : ¬ (t.started = true ∧ ¬ t.ended = true ∧ t.lines ≤ t.nextLine) := fun h => Nat.not_lt.2 h.2.2 hmore
  rw [surveyorStep_goes ht (hread.imp_right fun he => ⟨he, by simp [hahead]⟩), hat]
  refine (if_neg runs).trans ((if_pos hturn).trans ?_)
  simp only [State.startRun, hahead]

theorem surveyorStep_ends (ht : Table.look (s.core core).streams n = some t) (hat : t.at_ = none) (hw : t.wantsLine = false)
    (hstart : t.started = true) (hend : t.ended = false) (hlines : t.lines ≤ t.nextLine) (hroom : t.queue.length < 16)
    (hgather : t.queue.any (·.reserved.isSome) = false) :
    s.surveyorStep core n = (s.setStream core n { t with
      started := false, ended := true, queue := t.queue ++ [{ control := true, data := 0 }] }).streamCompletion core n t 0 [] := by
  have room : ¬ (16 ≤ t.queue.length ∨ t.queue.any (·.reserved.isSome) = true) := by
    simp only [hgather, Bool.false_eq_true, or_false]
    omega
  have goes := surveyorStep_goes ht (Or.inl hw)
  rw [hat] at goes
  refine goes.trans ((if_pos ⟨hstart, ne_true_of_eq_false hend, hlines⟩).trans ?_)
  simp only [State.endStream, if_neg room]

theorem runKernel_step {i count : Nat} (hcount : count < 256) :
    s.runKernel core n t i count = match t.execute i with
      | .goes u j => s.setStream core n { u with at_ := some (j, count + 1) }
      | .prefetches q near =>
        let r := s.setStream core n { t with at_ := some (i + 1, count + 1) }
        if ptrSpace q = 0 then r.prefetchLine core t.level (ptrAddr q / 128) 0 near else r
      | .stalls => s
      | .ends => s.setStream core n { t with at_ := none, nextLine := t.nextLine + 1 }
      | .faults e => s.faultStream core n t e.streamEnd := by
  simp only [State.runKernel, if_neg (Nat.not_le.2 hcount)] <;> rfl

theorem gatherReturn_fills {i : Nat} {q : Word} {x : Nat} (ht : Table.look (s.core core).streams n = some t)
    (hg : (gathersOf t.queue)[if s.eager then 0 else s.free 341 (gathersOf t.queue).length]? = some (i, q))
    (hx : (s.streamView core t).gatherDword (streamGroup core n) q = .ok x) :
    let u := { s with requests := s.requests.filter (fun r => !(r.grp == streamGroup core n && r.pointer == q)) }
    s.gatherReturn core n = ((s.streamView core t).fillFor q 0 true u).setStream core n { t with queue := fillEntry (wordOf x) i t.queue } := by
  simp only [State.gatherReturn, ht, hg, hx]
end

section
variable {s : State} {core ctx q : Nat} {h : Channel}

theorem streamRead_open (hkind : h.kind = 4) (hopen : h.closed = false) (hroom : h.entries.length < 16) :
    ¬ (h.kind ≠ 4 ∨ h.closed = true ∨ 16 ≤ h.entries.length) := by
  simp only [hkind, hopen, ne_eq, not_true_eq_false, Bool.false_eq_true, false_or]
  omega

theorem streamRead_closes (hh : s.channel core ctx q = some h) (hopen : ¬ (h.kind ≠ 4 ∨ h.closed = true ∨ 16 ≤ h.entries.length))
    (hdone : h.count ≤ h.delivered) :
    s.streamRead core ctx q = s.setChannel core ctx q { h with closed := true, entries := h.entries ++ [{ control := true, data := 0 }] } := by
  simp only [State.streamRead, hh, if_neg hopen, if_pos hdone]

theorem streamRead_delivers {p : Word} {x : Nat} (hh : s.channel core ctx q = some h)
    (hopen : ¬ (h.kind ≠ 4 ∨ h.closed = true ∨ 16 ≤ h.entries.length)) (hmore : h.delivered < h.count)
    (hp : elementPtr h.pointer (8 * h.delivered : Nat) = .ok p)
    (hx : (s.asIssuer core ctx (s.ctx core ctx).level).elementBytes (channelGroup core ctx q) p 8 none = .ok x) :
    s.streamRead core ctx q = (s.dropUnit (channelGroup core ctx q)).setChannel core ctx q
      { h with delivered := h.delivered + 1, entries := h.entries ++ [{ data := wordOf x }] } := by
  simp only [State.streamRead, hh, if_neg hopen, if_neg (Nat.not_le.2 hmore), hp, hx]
end

/-- Settles O49: each step by the copy, the stream or the channel that the unit goes on with. -/
theorem copyEvents : Obligations.CopyEvents := by
  unfold Obligations.CopyEvents
  refine ⟨?start, ?run, ?resume, ?surveyor, ?memory⟩
  case start =>
    intro s tile c hrun hc
    have starts := startCopy_starts hrun hc
    refine ⟨fun h => completes_unit rfl (starts.trans (if_neg h)), fun e t hsrc hspace hlook => completes_unit rfl ?_, ?_⟩
    · exact (starts.trans (if_pos ⟨hsrc, hspace⟩)).trans (by rw [hlook])
    · intro x hsrc hspace hlook cause d
      have fails := starts.trans (if_pos ⟨hsrc, hspace⟩)
      rw [hlook] at fails
      cases x with
      | address =>
        exact ⟨fun hk => completes_unit rfl (fails.trans (if_pos hk)), fun hk => completes_unit rfl (fails.trans (if_neg hk))⟩
      | page r =>
        exact ⟨fun hk => completes_unit rfl (fails.trans (if_pos hk)), fun hk => completes_unit rfl (fails.trans (if_neg hk))⟩
  case run =>
    intro s tile c hrun
    have runs : exec (.copyComplete tile) s = .next (if c.kind = .cpyq then s.runChannel tile c else s.runCopy tile c) := by
      change execCopyComplete tile s = _
      simp only [execCopyComplete, hrun]
    exact ⟨fun hk => runs.trans (congrArg _ (if_neg hk)), fun hk => runs.trans (congrArg _ (if_pos hk))⟩
  case resume =>
    intro s tile c hc
    change execCopyqResume tile s = _
    simp only [execCopyqResume, hc]
  case surveyor =>
    intro s core n t ht
    refine ⟨fun hw hahead hat => completes_unit rfl (surveyorStep_line ht hw hahead hat), fun hread => ?_, ?_, ?_, ?_⟩
    · have kernel {i count : Nat} (hat : t.at_ = some (i, count)) (hcount : count < 256) :=
        (surveyorStep_kernel ht hread hat).trans (runKernel_step hcount)
      refine ⟨fun i count u j hat hcount hx => completes_unit rfl ?_, fun i count hat hcount hx => completes_unit rfl ?_,
        fun i count e hat hcount hx => completes_unit rfl ?_, fun i count hat hcount hx => completes_unit rfl ?_,
        fun i count hat hcount => completes_unit rfl ((surveyorStep_kernel ht hread hat).trans (if_pos hcount))⟩
      all_goals
        rw [kernel hat hcount, hx]
    · intro b rest hat hahead hread hmore hturn u
      exact completes_unit rfl (surveyorStep_starts ht hat hahead hread hmore hturn)
    · intro hat hw hstart hend hlines hroom hgather u
      exact completes_unit rfl (surveyorStep_ends ht hat hw hstart hend hlines hroom hgather)
    · intro i q x hg hx u
      exact completes_unit rfl (gatherReturn_fills ht hg hx)
  case memory =>
    intro s core ctx q h hh hkind hopen hroom
    have open_ := streamRead_open hkind hopen hroom
    exact ⟨fun hdone => completes_unit rfl (streamRead_closes hh open_ hdone),
      fun p x hmore hp hx => completes_unit rfl (streamRead_delivers hh open_ hmore hp hx)⟩

end Sys2Proof.Machine
namespace Sys2Proof.Machine

/-! ## Steps of optical ports and rings (23_program_optics.md R435 to R441) -/

section
variable {s : State} {r ring port : Nat} {v : Word}

theorem writes_orte (s : State) (svc : Nat) (v : Word) : exec (.orteWrite svc v) s
    = .next (s.writeRoute ((s.core svc).selectedPort svc) (bitsOf (s.core svc).oridx 7 0) (v.getLsbD 15) (bitsOf v 11 8)) := rfl

theorem writes_oheat (s : State) (svc : Nat) (v : Word) : exec (.oheatWrite svc v) s
    = .next (s.setRing ((s.core svc).selectedRing svc) { s.ring ((s.core svc).selectedRing svc) with heat := v.setWidth 12 }) := rfl

theorem writes_opark (s : State) (svc : Nat) (v : Word) : exec (.oparkWrite svc v) s
    = .next (s.writeOpark ((s.core svc).selectedPort svc) v) := rfl

theorem writeOptical_oasgn (s : State) (svc : Nat) (v : Word) :
    s.writeOptical svc 0x404 v = s.writeOasgn ((s.core svc).selectedRing svc) v := by
  simp only [State.writeOptical]

/-- The write of OASGN, in two steps: at once the kernel would compare the bodies of what follows it. -/
theorem writes_oasgn (s : State) (svc : Nat) (v : Word) : exec (.oasgnWrite svc v) s
    = .next (s.writeOasgn ((s.core svc).selectedRing svc) v) := by
  change Host.Outcome.next (s.writeOptical svc 0x404 v) = _
  rw [writeOptical_oasgn]

theorem writeOasgn_ignored (h : ringSends r = false ∨ (s.ring r).state ≠ 0 ∨ 16 ≤ (v.setWidth 5).toNat) : s.writeOasgn r v = s :=
  if_pos (h.imp_left ne_true_of_eq_false)

/-- OASGN of a wavelength that no ring of the fibre carries parks the ring with the wavelength, or starts it. -/
theorem writeOasgn_takes (hsend : ringSends r = true) (hstate : (s.ring r).state = 0) (hlam : (v.setWidth 5).toNat < 16)
    (hfree : ((List.range 20).map (fun n => r / 20 * 20 + n)).find? (fun q => q != r && (s.ring q).lambda == v.setWidth 5) = none) :
    s.writeOasgn r v =
      if (s.port (ringPort r)).opark.getLsbD (v.setWidth 5).toNat then s.setRing r { s.ring r with state := 1, lambda := v.setWidth 5 }
      else
        let t := s.setRing r { s.ring r with lambda := v.setWidth 5, moving := true, state := 2, deskewed := false }
        t.setPort (ringPort r) { t.port (ringPort r) with wk := true, awaitLock := true } := by
  have may : ¬ (¬ ringSends r = true ∨ (s.ring r).state ≠ 0 ∨ 16 ≤ (v.setWidth 5).toNat) := by
    simp only [hsend, hstate, not_true_eq_false, ne_eq, false_or]
    omega
  refine (if_neg may).trans ?_
  simp only [hfree]
  rfl

theorem ringStep_taken {may : Ring → Bool} (h : may (s.ring ring) = true) (f : Ring → Ring) :
    s.ringStep ring may f = s.setRing ring (f (s.ring ring)) := if_pos h

theorem ringStep_kept {may : Ring → Bool} (h : may (s.ring ring) = false) (f : Ring → Ring) : s.ringStep ring may f = s :=
  if_neg (ne_true_of_eq_false h)

theorem locked_iff {x : Ring} (h : x.state = 3) : x.locked = true ↔ 2032 ≤ x.mon.toNat ∧ x.mon.toNat ≤ 2064 := by
  simp [Ring.locked, Ring.reading, Ring.lit, h]

theorem lockTimeout_parks (h : (s.ring ring).state = 3) :
    s.lockTimeout ring =
      let t := s.setRing ring { s.ring ring with state := 1, wfail := true, mon := 0, moving := false }
      if ringSends ring ∧ (s.ring ring).lambda.toNat < 16 then
        t.setPort (ringPort ring) { t.port (ringPort ring) with
          opark := (t.port (ringPort ring)).opark ||| ((1 : BitVec 16) <<< (s.ring ring).lambda.toNat) }
      else t := if_neg (not_not.2 h)

theorem wakeCheck_quiet (h : (s.port port).oqthr = 0 ∨ (s.port port).opark = 0 ∨ (s.port port).wk = true
    ∨ (s.port port).queued.length < (s.port port).oqthr.toNat) : s.wakeCheck port = s := by
  refine if_neg fun ⟨hthr, hpark, hwk, hlen⟩ => ?_
  rcases h with h | h | h | h
  · exact hthr h
  · exact hpark h
  · exact hwk h
  · exact Nat.not_le.2 h hlen
end

/-- Settles O50: each write and each step by the ring and the port that it acts on. -/
theorem opticalEvents : Obligations.OpticalEvents := by
  unfold Obligations.OpticalEvents
  refine ⟨?writes, ?rings, ?ports, ?flits⟩
  case writes =>
    intro s svc v port r
    refine ⟨writes_orte s svc v, writes_oheat s svc v, writes_opark s svc v, fun h => completes_unit (writes_oasgn s svc v) (writeOasgn_ignored h), fun hsend hstate hlam hfree => ?_⟩
    have takes := writeOasgn_takes hsend hstate hlam hfree
    refine ⟨fun h => completes_unit (writes_oasgn s svc v) (takes.trans (if_pos h)), ?_⟩
    intro h t
    exact completes_unit (writes_oasgn s svc v) (takes.trans (if_neg (ne_true_of_eq_false h)))
  case rings =>
    intro s ring x
    refine ⟨fun h => completes_unit rfl (ringStep_taken (may := fun x => x.state == 2) (beq_iff_eq.2 h) _), fun h hlow hhigh => completes_unit rfl (ringStep_taken ?_ _),
      fun h hout => completes_unit rfl (ringStep_kept ?_ _), fun h => completes_unit rfl (ringStep_taken (may := fun x => x.state == 4) (beq_iff_eq.2 h) _),
      fun h hsend => completes_unit rfl ?_, ?_, fun h => completes_unit rfl ?_, fun h => ?_⟩
    · rw [(locked_iff h).2 ⟨hlow, hhigh⟩, Bool.and_true]
      exact beq_iff_eq.2 h
    · rw [Bool.eq_false_iff.2 (mt (locked_iff h).1 hout), Bool.and_false]
    · exact (lockTimeout_parks h).trans (if_neg fun hs => ne_true_of_eq_false hsend hs.1)
    · intro h hsend hlam t p
      exact completes_unit rfl ((lockTimeout_parks h).trans (if_pos ⟨hsend, hlam⟩))
    · have dark : ¬ x.lit = true := by rcases h with h | h | h <;> simp [Ring.lit, h]
      exact if_pos dark
    · have lit : ¬ ¬ x.lit = true := by rcases h with h | h | h <;> simp [Ring.lit, h]
      intro e
      refine ⟨fun hnear => completes_unit rfl ((if_neg lit).trans ?_), fun hfar => completes_unit rfl ((if_neg lit).trans ?_)⟩
      · exact congrArg (fun m => s.setRing ring { x with mon := m }) (if_pos hnear)
      · exact congrArg (fun m => s.setRing ring { x with mon := m }) (if_neg (Nat.not_le.2 hfar))
  case ports =>
    intro s port p
    refine ⟨fun h => completes_unit rfl (wakeCheck_quiet h), fun h1 h2 h3 h4 => completes_unit rfl (if_pos ⟨h1, h2, ne_true_of_eq_false h3, h4⟩),
      ?_, fun h => completes_unit rfl (if_pos h), rfl⟩
    intro hbusy hawait t
    exact completes_unit rfl (if_neg (not_or.2 ⟨ne_true_of_eq_false hbusy, ne_true_of_eq_false hawait⟩))
  case flits => exact fun s port mask => ⟨rfl, rfl⟩

end Sys2Proof.Machine
namespace Sys2Proof.Machine

/-! ## Steps of the link layer (24_fabric.md R450 to R453, R448) -/

/-- What a port reads in a flit that passes its check: data, a NAK, an acknowledgement, or another's. -/
def Port.reads (p : Port) (f : BitVec 306) : Port :=
  match (f.extractLsb' 30 4).toNat with
  | 0 | 1 => p.arrive (f.extractLsb' 34 16) (f.extractLsb' 30 4) (f.extractLsb' 50 256)
  | 2 => p.resend (f.extractLsb' 34 16)
  | 3 => { p with window := p.window.filter (fun e => e.1 != f.extractLsb' 34 16) }
  | _ => p

theorem reads_eq (p : Port) (f : BitVec 306) : p.reads f =
    if (f.extractLsb' 30 4).toNat ≤ 1 then p.arrive (f.extractLsb' 34 16) (f.extractLsb' 30 4) (f.extractLsb' 50 256)
    else if (f.extractLsb' 30 4).toNat = 2 then p.resend (f.extractLsb' 34 16)
    else if (f.extractLsb' 30 4).toNat = 3 then { p with window := p.window.filter (fun e => e.1 != f.extractLsb' 34 16) }
    else p := by
  unfold Port.reads
  split
  · next h => rw [if_pos (by omega)]
  · next h => rw [if_pos (by omega)]
  · next h => rw [if_neg (by omega), if_pos h]
  · next h => rw [if_neg (by omega), if_neg (by omega), if_pos h]
  · next h0 h1 h2 h3 =>
    have : ¬ (f.extractLsb' 30 4).toNat ≤ 1 := by
      intro h
      obtain h | h : (f.extractLsb' 30 4).toNat = 0 ∨ (f.extractLsb' 30 4).toNat = 1 := by omega
      · exact h0 h
      · exact h1 h
    rw [if_neg this, if_neg h2, if_neg h3]

section
variable {s : State} {port : Nat} {flit : BitVec 306}

theorem flitArrival_nak (h : s.free 0 3 = 2) : s.flitArrival port flit = s.setPort port { s.port port with naks := (s.port port).naks + 1 } :=
  if_pos h

theorem flitArrival_reads (h : s.free 0 3 = 0) : s.flitArrival port flit = s.setPort port ((s.port port).reads flit) := by
  simp only [State.flitArrival, h]
  rfl

theorem flitArrival_corrects (h : s.free 0 3 = 1) : s.flitArrival port flit = s.setPort port
    ({ s.port port with corrected := (s.port port).corrected + 1 }.reads (flit ^^^ ((1 : BitVec 306) <<< s.free 1 306))) := by
  simp only [State.flitArrival, h]
  rfl
end

/-- Settles O51: each step by the flit, the window entry or the request that it takes. -/
theorem linkEvents : Obligations.LinkEvents := by
  unfold Obligations.LinkEvents
  refine ⟨?flit, ?window, ?replay, ?down⟩
  case flit =>
    intro s port flit p read
    have reads (f : BitVec 306) (p : Port) : p.reads f = read f p := reads_eq p f
    refine ⟨fun h => completes_unit rfl (flitArrival_nak h), fun h => completes_unit rfl ?_, fun h => completes_unit rfl ?_⟩
    · rw [flitArrival_reads h, reads]
    · rw [flitArrival_corrects h, reads]
  case window =>
    intro s port q p
    refine ⟨fun h => ⟨completes_unit rfl (congrArg (s.setPort port) (if_pos h)), completes_unit rfl (if_pos h)⟩,
      fun h => ⟨completes_unit rfl (congrArg (s.setPort port) (if_neg (ne_true_of_eq_false h))),
        completes_unit rfl (if_neg (ne_true_of_eq_false h))⟩⟩
  case replay =>
    intro s rid pkg r hf hremote hstage t
    have replays := replay_abroad hf hremote hstage
    exact ⟨fun port hport => ⟨completes_unit rfl (by rw [replays, hport]), completes_unit rfl (by rw [replays, hport])⟩,
      fun hport => ⟨completes_unit rfl (by rw [replays, hport]), completes_unit rfl (by rw [replays, hport])⟩⟩
  case down => exact fun s port => rfl

end Sys2Proof.Machine
namespace Sys2Proof.Machine

/-! ## Steps of the torus, of losses and of the package (24_fabric.md R447 to R461, 22_faults.md R433, 25_package.md R478) -/

section
variable {s : State} {n : Nat}

/-- No direction is damaged: nothing is taken back. -/
theorem takeBack_none (s : State) (n : Nat) :
    ([0, 1, 2, 3] : List Nat).foldl (fun (s : State) d => if (0 : BitVec 4).getLsbD d then s.takeBack n d else s) s = s := by
  simp
/-- Outside a drain no flit is discarded. -/
theorem routeFlit_discarded (s : State) (n : Nat) (r : Routing) (f : Flit) : (s.routeFlit n false r f).discarded = r.discarded := by
  simp only [State.routeFlit, Bool.false_eq_true, false_and, if_false]
  split
  · rfl
  · split
    · rfl
    · split <;> rfl

theorem route_discarded (s : State) (n : Nat) (fs : List Flit) (r : Routing) : (fs.foldl (s.routeFlit n false) r).discarded = r.discarded := by
  induction fs generalizing r with
  | nil => rfl
  | cons f fs ih => rw [List.foldl_cons, ih, routeFlit_discarded]

/-- A cycle of a router whose die is not paused and whose core injects nothing. -/
theorem routerCycle_sends (hn : n < 4096) (hdie : s.dieLost (coreDie n) = false) (hpaused : s.paused.getLsbD (coreDie n) = false)
    (hinj : (s.router n).injecting = []) :
    let x := s.router n
    let r := (ranked x.arriving).foldl (s.routeFlit n false) { ports := ~~~x.dead }
    let t := s.setRouter n { x with arriving := r.left, injecting := [], kept := r.sent }
    let t := r.sent.foldl (fun (t : State) e =>
      t.setRouter (neighbour n e.1) { t.router (neighbour n e.1) with arriving := (t.router (neighbour n e.1)).arriving ++ [e.2] }) t
    s.routerCycle n 0 = match r.out with
      | some f => t.ejectFlit n f
      | none => t := by
  intro x r
  have stands : ¬ (4096 ≤ n ∨ s.dieLost (coreDie n) = true) := not_or.2 ⟨Nat.not_le.2 hn, ne_true_of_eq_false hdie⟩
  have kept : r.discarded = [] := route_discarded s n _ _
  simp only [State.routerCycle, if_neg stands, takeBack_none, hpaused, State.injectFlit, hinj]
  change (let losses := r.discarded.filter (fun f => f.ty ≠ 15) |>.map (lossFlit s.choice n)
    let s := s.setRouter n { x with arriving := r.left, injecting := [] ++ losses, kept := r.sent }
    let s := r.sent.foldl (fun (t : State) e =>
      t.setRouter (neighbour n e.1) { t.router (neighbour n e.1) with arriving := (t.router (neighbour n e.1)).arriving ++ [e.2] }) s
    let s := match r.out with
      | some f => s.ejectFlit n f
      | none => s
    r.discarded.foldl (fun (s : State) f =>
      let n := nodeOf f.dst
      let y := s.router n
      { s.setRouter n { y with ejected := y.ejected.filter (fun g => g.packet ≠ f.packet) } with
        lostPackets := f.packet :: s.lostPackets }) s) = _
  rw [kept]
  rfl

/-- A link from which nothing is taken back is marked dead at this end. -/
theorem markDead_quiet {dir : Nat} (h : s.keptFlit n dir = none) :
    let x := s.router n
    let t := s.setRouter n { x with dead := x.dead ||| ((1 : BitVec 4) <<< dir) }
    s.markDead n dir = { t with paused := t.paused ||| ((1 : BitVec 8) <<< coreDie n) } := by
  have kept : s.takeBack n dir = s := by simp only [State.takeBack, h]
  simp only [State.markDead, kept]
end

/-- Settles O52: each step by the flits, the die, the packet or the time that it takes. -/
theorem fabricEvents : Obligations.FabricEvents := by
  unfold Obligations.FabricEvents
  refine ⟨?router, ?dead, ?drain, ?die, ?package, ?transit, ?loss, ?time⟩
  case router =>
    intro s n hn hdie hpaused hinj x step
    have steps : s.routeFlit n false = step := by
      funext r f
      simp only [State.routeFlit, Bool.false_eq_true, false_and, if_false] <;> rfl
    intro r t t'
    refine completes_unit rfl ?_
    rw [routerCycle_sends hn hdie hpaused hinj, steps] <;> rfl
  case dead =>
    intro s n dir hn hkept x t t'
    have stands : ¬ 4096 ≤ n := Nat.not_le.2 hn
    refine completes_unit rfl ((if_neg stands).trans ?_)
    rw [markDead_quiet hkept]
  case drain => exact fun s mask => rfl
  case die =>
    intro s die
    refine ⟨fun h => completes_unit rfl (if_pos h), ?_⟩
    intro hd hlive u lost stray t t' t''
    exact completes_unit rfl (if_neg (not_or.2 ⟨Nat.not_le.2 hd, ne_true_of_eq_false hlive⟩))
  case package =>
    exact fun s reason => ⟨rfl, rfl, rfl, fun h => completes_unit rfl (if_pos h), fun h => completes_unit rfl (if_neg h)⟩
  case transit =>
    intro s i t ht u
    refine ⟨fun h => completes_unit rfl ?_, fun port h hport => completes_unit rfl ?_, fun h hport => completes_unit rfl ?_⟩
    · simp only [State.transit, ht, if_pos h]
      rfl
    · simp only [State.transit, ht, if_neg h]
      change (match u.transitPort t.dest (t.source % 8192) t.homekey with | some port => _ | none => _) = _
      rw [hport]
    · simp only [State.transit, ht, if_neg h]
      change (match u.transitPort t.dest (t.source % 8192) t.homekey with | some port => _ | none => _) = _
      rw [hport]
  case loss => exact fun s source seqs => rfl
  case time =>
    intro s port peer time
    exact ⟨fun hup hpeer htime => completes_unit rfl (if_pos ⟨hup, hpeer, htime⟩),
      fun htime => completes_unit rfl (if_neg fun h => Nat.not_lt.2 htime h.2.2)⟩

end Sys2Proof.Machine
namespace Sys2Proof.Machine

/-! ## Steps of the host (25_package.md R472 to R476) -/

section
variable {s : State} {n o q : Nat} {bytes : List Byte}

/-- An offset in the window of a partition names that partition. -/
theorem windowPart_at {base : Nat} (hn : n < 16) (ho : o < 0x1000) : windowPart base (base + 0x1000 * n + o) = some n := by
  unfold windowPart
  rw [if_pos (by omega)]
  congr 1
  omega

theorem discardWrite_eq {at_ len : Nat} (h : at_ < 2 ^ 32) : s.discardWrite n at_ len = s.logEvent 8191 0 n 0 (wordOf (len * 2 ^ 32 + at_)) := by
  rw [State.discardWrite, Nat.mod_eq_of_lt h]

theorem hostLaunch_discards (hn : n < 16) (ho : o < 0x1000) (h : bytes.length ≠ 128 ∨ o % 128 ≠ 0 ∨ s.takesWork n = false) :
    s.hostLaunch (0x10000 + 0x1000 * n + o) bytes
      = s.logEvent 8191 0 n 0 (wordOf (bytes.length * 2 ^ 32 + (0x10000 + 0x1000 * n + o))) := by
  have bad : bytes.length ≠ 128 ∨ (0x10000 + 0x1000 * n + o) % 128 ≠ 0 ∨ ¬ s.takesWork n = true :=
    h.imp_right (Or.imp (by omega) ne_true_of_eq_false)
  simp only [State.hostLaunch, windowPart_at hn ho]
  rw [if_pos bad, discardWrite_eq (by omega)]

theorem hostCommand_discards (hn : n < 16) (ho : o < 0x1000) (h : bytes.length ≠ 128 ∨ o % 128 ≠ 0 ∨ s.takesWork n = false) :
    s.hostCommand (0x30000 + 0x1000 * n + o) bytes
      = s.logEvent 8191 0 n 0 (wordOf (bytes.length * 2 ^ 32 + (0x30000 + 0x1000 * n + o))) := by
  have bad : bytes.length ≠ 128 ∨ (0x30000 + 0x1000 * n + o) % 128 ≠ 0 ∨ ¬ s.takesWork n = true
      ∨ s.partOf (bitsOf ((dwordsOf bytes).getD 0 0) 11 0) ≠ some n :=
    h.imp_right (Or.imp (by omega) fun h => Or.inl (ne_true_of_eq_false h))
  simp only [State.hostCommand, windowPart_at hn ho]
  rw [if_pos bad, discardWrite_eq (by omega)]

/-- A host launch that the window takes is queued, or answered with the cause of its fault. -/
theorem hostLaunch_takes (hn : n < 16) (ho : o < 0x1000) (hlen : bytes.length = 128) (halign : o % 128 = 0) (hwork : s.takesWork n = true) :
    let w := dwordsOf bytes
    let r : LaunchRequest := { packet := Vector.ofFn (fun i : Fin 16 => w.getD i.val 0), part := n, entry := 0 }
    s.hostLaunch (0x10000 + 0x1000 * n + o) bytes = match s.hostLaunchEntry n w with
      | .ok e => { s with launchQueue := s.launchQueue ++ [{ r with entry := e }] }
      | .error c => s.launchReply r 7 [wordOf c.number] := by
  have good : ¬ (bytes.length ≠ 128 ∨ (0x10000 + 0x1000 * n + o) % 128 ≠ 0 ∨ ¬ s.takesWork n = true) := by
    simp only [hlen, hwork, ne_eq, not_true_eq_false, false_or, or_false]
    omega
  simp only [State.hostLaunch, windowPart_at hn ho, if_neg good] <;> rfl

theorem hostCommand_posts (hn : n < 16) (ho : o < 0x1000) (hlen : bytes.length = 128) (halign : o % 128 = 0) (hwork : s.takesWork n = true)
    (hpart : s.partOf (bitsOf ((dwordsOf bytes).getD 0 0) 11 0) = some n) :
    let w := dwordsOf bytes
    s.hostCommand (0x30000 + 0x1000 * n + o) bytes = s.post (.core (bitsOf (w.getD 0 0) 11 0))
      { header := headerOf 0xFE 0 0 0 (bitsOf (w.getD 1 0) 31 16) 0 6, arg0 := w.getD 2 0, arg1 := w.getD 3 0, arg2 := w.getD 4 0
        arg3 := w.getD 5 0, arg4 := w.getD 6 0, arg5 := w.getD 7 0, arg6 := w.getD 8 0 } 8191 n none := by
  have good : ¬ (bytes.length ≠ 128 ∨ (0x30000 + 0x1000 * n + o) % 128 ≠ 0 ∨ ¬ s.takesWork n = true
      ∨ s.partOf (bitsOf ((dwordsOf bytes).getD 0 0) 11 0) ≠ some n) := by
    simp only [hlen, hwork, hpart, ne_eq, not_true_eq_false, false_or, or_false]
    omega
  simp only [State.hostCommand, windowPart_at hn ho, if_neg good]

/-- A register of a queue, by its place in the window. -/
theorem queueSlot_at {k : Nat} (hn : n < 16) (hq : q < 16) (hk : k < 0x20) : queueSlot (0x20000 + 0x1000 * n + 0x40 * q + k) = some (n, q, k) := by
  have window : windowPart 0x20000 (0x20000 + 0x1000 * n + 0x40 * q + k) = some n := by
    rw [Nat.add_assoc]
    exact windowPart_at hn (by omega)
  have inside : (0x20000 + 0x1000 * n + 0x40 * q + k) % 0x1000 = 0x40 * q + k := by omega
  have slot : (0x40 * q + k) / 0x40 = q ∧ (0x40 * q + k) % 0x40 = k := by omega
  have low : 0x40 * q + k < 0x400 := by omega
  simp only [queueSlot, window, inside, if_pos low, slot]

/-- A write of a queue register: 8 bytes are taken or discarded as the register says, and any other length is discarded. -/
theorem writeQueue_at {k : Nat} (hn : n < 16) (hq : q < 16) (hk : k < 0x20) (h8 : k % 8 = 0) (take : HostQueue → Word → Option HostQueue) :
    s.writeQueue (0x20000 + 0x1000 * n + 0x40 * q + k) bytes k take =
      if bytes.length ≠ 8 then s.discardWrite n (0x20000 + 0x1000 * n + 0x40 * q + k) bytes.length
      else match take (s.hostQueue n q) (wordOf (ofBytes bytes)) with
        | some h => s.setHostQueue n q h
        | none => s.discardWrite n (0x20000 + 0x1000 * n + 0x40 * q + k) bytes.length := by
  have aligned : (0x20000 + 0x1000 * n + 0x40 * q + k) % 8 = 0 := by omega
  simp only [State.writeQueue, queueSlot_at hn hq hk, ne_eq, not_true_eq_false, if_false, aligned, or_false] <;> rfl

theorem hostDeliver_eq {mid : Nat} {f : Flight} (hf : s.flights.find? (fun f => f.id == mid) = some f) (hdest : f.dest = .hostQueue n q)
    (hfirst : s.flights.any (fun g => g.dest == f.dest && g.before f) = false) (htime : f.gtc.toNat < s.gtc.toNat) :
    let h := s.hostQueue n q
    let size := 2 ^ h.logSize
    s.hostDeliver mid =
      if h.logSize = 0 then (s.landed f).logEvent f.source 4 n 0 (wordOf q)
      else if (h.tail + 1) % size = h.head % size then
        { s with flights := s.flights.map (fun (g : Flight) => if g.id = mid then { g with nacked := true } else g) }
      else
        let u := { s with mem := writeList s.mem (hostKey ((h.base.toNat + 64 * h.tail) % 2 ^ 64))
                            (f.msg.dwords.flatMap (fun (w : Word) => bytesOf w.toNat 8)) }
        (u.setHostQueue n q { h with tail := (h.tail + 1) % size, interrupts := h.interrupts + 1 }).landed f := by
  have turn : ¬ (s.gtc.toNat ≤ f.gtc.toNat ∨ s.flights.any (fun g => g.dest == f.dest && g.before f) = true) :=
    not_or.2 ⟨Nat.not_le.2 htime, ne_true_of_eq_false hfirst⟩
  unfold State.hostDeliver
  split
  · next h => rw [hf] at h; cases h
  · next g h =>
    obtain rfl : f = g := Option.some.inj (hf.symm.trans h)
    split
    · next n' q' h =>
      obtain ⟨rfl, rfl⟩ : n = n' ∧ q = q' := by simpa using hdest.symm.trans h
      exact if_neg turn
    · next h => exact absurd hdest (h n q)
end

/-- Settles O53: each write by the window it falls in, each delivery by the state of its queue. -/
theorem hostEvents : Obligations.HostEvents := by
  unfold Obligations.HostEvents
  refine ⟨?windows, ?registers, ?delivery⟩
  case windows =>
    intro s n o bytes hn ho
    refine ⟨fun h => ⟨completes_unit rfl (hostLaunch_discards hn ho h), completes_unit rfl (hostCommand_discards hn ho h)⟩, ?_⟩
    intro hlen halign hwork w r
    have takes := hostLaunch_takes hn ho hlen halign hwork
    exact ⟨fun e he => completes_unit rfl (takes.trans (by rw [he])), fun c hc => completes_unit rfl (takes.trans (by rw [hc])),
      fun hpart => completes_unit rfl (hostCommand_posts hn ho hlen halign hwork hpart)⟩
  case registers =>
    intro s n q bytes hn hq at_ v h
    have writes (k : Nat) (hk : k < 0x20) (h8 : k % 8 = 0) (take : HostQueue → Word → Option HostQueue) :=
      writeQueue_at (s := s) (bytes := bytes) hn hq hk h8 take
    have base := writes 0 (by omega) rfl (fun h v => if h.logSize = 0 then some { h with base := v &&& ~~~0xFFF#64 } else none)
    have size := writes 8 (by omega) rfl (fun h v =>
      if bitsOf v 4 0 = 0 ∨ (4 ≤ bitsOf v 4 0 ∧ bitsOf v 4 0 ≤ 16) then
        some { h with logSize := bitsOf v 4 0, vec := bitsOf v 26 16, tail := 0, head := 0 } else none)
    have head := writes 24 (by omega) rfl (fun h v => some { h with head := bitsOf v 15 0 })
    refine ⟨fun hlen => ?_, fun hlen => ⟨completes_unit rfl (base.trans (if_pos hlen)), completes_unit rfl (size.trans (if_pos hlen)),
      completes_unit rfl (head.trans (if_pos hlen))⟩⟩
    have taken : ¬ bytes.length ≠ 8 := not_not.2 hlen
    refine ⟨fun hs => completes_unit rfl (base.trans ((if_neg taken).trans ?_)),
      fun hs => completes_unit rfl (base.trans ((if_neg taken).trans ?_)),
      fun hs => completes_unit rfl (size.trans ((if_neg taken).trans ?_)), completes_unit rfl (head.trans (if_neg taken))⟩
    · rw [if_pos hs]
    · rw [if_neg hs, hlen]
      rfl
    · rw [if_pos hs]
  case delivery =>
    intro s mid n q f hf hdest hfirst h size htime
    have ends := hostDeliver_eq hf hdest hfirst htime
    refine ⟨fun h0 => completes_unit rfl (ends.trans (if_pos h0)),
      fun h0 hfull => completes_unit rfl (ends.trans ((if_neg h0).trans (if_pos hfull))), ?_⟩
    intro h0 hroom u
    exact completes_unit rfl (ends.trans ((if_neg h0).trans (if_neg hroom)))

end Sys2Proof.Machine
namespace Sys2Proof.Machine

/-! ## Firmware and the root of trust (25_package.md R463 to R472, R477) -/

section
variable {s : State} {body r : List Byte}

/-- Outside a session of the management interface a request is refused. -/
theorem handle_refused (h : s.spdm.session = false) (op : Nat) (f : State → Handled) : s.handle op f = s.sendResponse (spdmError 0x0B) :=
  if_pos (ne_true_of_eq_false h)

theorem handle_answered (h : s.spdm.session = true) (op : Nat) (f : State → Handled) :
    s.handle op f = (f s).1.sendResponse (vendorResponse op (f s).2.1 (f s).2.2) := if_neg (not_not.2 h)

theorem destroyPart_length (h : s.spdm.session = true) (hlen : body.length ≠ 8) :
    s.destroyPart body = s.sendResponse (vendorResponse 2 2 []) := (if_pos (Or.inl hlen)).trans (handle_answered h _ _)

/-- A DESTROY of a partition that is already being destroyed ends it once its contexts have stopped and its units are idle. -/
theorem destroyPart_again {n : Nat} {p : Partition} (h : s.spdm.session = true) (hlen : body.length = 8) (hn : byteAt body 0 = n) (h16 : n < 16)
    (h0 : numberAt body 1 7 = 0) (hp : s.part n = some p) (hd : p.destroying = true) :
    s.destroyPart body = if s.allStopped n && s.unitsIdle n p then (s.endPart n p).sendResponse (vendorResponse 2 0 []) else s := by
  subst hn
  have good : ¬ (body.length ≠ 8 ∨ numberAt body 1 7 ≠ 0 ∨ 16 ≤ byteAt body 0) := by
    simp only [hlen, h0, ne_eq, not_true_eq_false, false_or]
    omega
  simp only [State.destroyPart, if_neg good, hp, h, hd, not_true_eq_false, and_self, if_false, if_true]

theorem converse_spdm (s : State) (q a : List Byte) : (s.converse q a).spdm
    = { s.spdm with transcript := s.spdm.transcript ++ q ++ a, responses := a :: s.spdm.responses } := rfl

/-- A request taken in its turn. -/
theorem inTurn_taken {turn : Bool} (h : turn = true) (f : State → State) : s.inTurn turn f = f s := if_pos h

/-- A signature takes the next index of the key. -/
theorem signed_next (h : s.spdm.xmssIndex < 2 ^ 20) (q : List Byte) (code : Byte) (f : State → List Byte → State) :
    ∃ a, s.signed q code f = f { s with spdm := { s.spdm with xmssIndex := s.spdm.xmssIndex + 1 } } a :=
  ⟨_, if_neg (Nat.not_le.2 h)⟩

theorem signed_exhausted (h : 2 ^ 20 ≤ s.spdm.xmssIndex) (q : List Byte) (code : Byte) (f : State → List Byte → State) :
    s.signed q code f = s.sendResponse (spdmError 0x05) := if_pos h
end

section
variable {s : State} {m r : List Byte}

theorem vendorRequest_malformed (h : s.spdm.session = true)
    (hbad : byteAt m 0 = 0 ∨ 6 < byteAt m 0 ∨ m.length < 4 ∨ byteAt m 1 ≠ 0 ∨ numberAt m 2 2 ≠ (m.drop 4).length) :
    s.vendorRequest m = s.sendResponse (vendorResponse (byteAt m 0) 2 []) := (if_pos hbad).trans (handle_answered h _ _)

/-- What a request of the management session does, by its code. -/
def State.vendorTaken (s : State) (op : Nat) (body : List Byte) : State :=
  match op with
  | 1 => s.handle 1 (handleCreate body)
  | 2 => s.destroyPart body
  | 3 => s.handle 3 (handleSetKey body)
  | 4 => s.handle 4 (handleSetPkg body)
  | 5 => s.handle 5 (handleLog body)
  | _ => s.handle 6 (handleRoute body)

theorem vendorRequest_taken {op : Nat} (h1 : byteAt m 1 = 0) (hlen : 4 ≤ m.length) (hbody : numberAt m 2 2 = (m.drop 4).length)
    (hop : byteAt m 0 = op) (h0 : op ≠ 0) (h6 : op ≤ 6) : s.vendorRequest m = s.vendorTaken op (m.drop 4) := by
  subst hop
  have good : ¬ (byteAt m 0 = 0 ∨ 6 < byteAt m 0 ∨ m.length < 4 ∨ byteAt m 1 ≠ 0 ∨ numberAt m 2 2 ≠ (m.drop 4).length) := by
    simp only [h0, h1, hbody, ne_eq, not_true_eq_false, false_or, or_false]
    omega
  exact if_neg good

theorem bringUp_held (trained : BitVec 16) (peers : List (BitVec 8 × BitVec 4)) :
    let t := s.bringUp false trained peers
    t.heldInReset = true ∧ t.ready = false ∧ t.reports = (0, 0) :: s.reports ∧ t.parts = [] ∧ t.gtc = 0 := ⟨rfl, rfl, rfl, rfl, rfl⟩

theorem bringUp_ready (trained : BitVec 16) (peers : List (BitVec 8 × BitVec 4)) :
    let t := s.bringUp true trained peers
    t.heldInReset = false ∧ t.ready = true ∧ t.gtc = 0 ∧ t.parts = [] ∧ t.halted = false ∧ t.cores = State.reset.cores ∧ t.lostDies = 0
      ∧ t.spdm.xmssIndex = s.spdm.xmssIndex ∧ t.mem = s.mem.filter (fun c => decide (2 ^ 64 ≤ c.1)) :=
  ⟨rfl, rfl, rfl, rfl, rfl, rfl, rfl, rfl, rfl⟩

/-- The signed requests of a negotiated conversation take the next index of the key. -/
theorem challenge_signs (hn : s.spdm.negotiated = true) (hx : s.spdm.xmssIndex < 2 ^ 20) :
    (s.challenge r).spdm.xmssIndex = s.spdm.xmssIndex + 1 := by
  obtain ⟨a, ha⟩ := signed_next hx r 0x03 (fun s r' => s.converse r r')
  rw [State.challenge, inTurn_taken hn, ha, converse_spdm]

theorem getMeasurements_signs (hn : s.spdm.negotiated = true) (hx : s.spdm.xmssIndex < 2 ^ 20) :
    (s.getMeasurements r).spdm.xmssIndex = s.spdm.xmssIndex + 1 := by
  obtain ⟨a, ha⟩ := signed_next hx r 0x60 (fun s r' => s.converse r r')
  rw [State.getMeasurements, inTurn_taken hn, ha, converse_spdm]

theorem exchange_signs (hn : s.spdm.negotiated = true) (hx : s.spdm.xmssIndex < 2 ^ 20) :
    (s.exchange r).spdm.xmssIndex = s.spdm.xmssIndex + 1 ∧ (s.exchange r).spdm.handshake = true := by
  rw [State.exchange, inTurn_taken hn]
  obtain ⟨a, ha⟩ := signed_next hx r 0x64 (fun s r' =>
    let (share, secret) := Config.keyExchange (s.randomBytes 64 64) r
    { s with spdm := { s.spdm with handshake := true, secret := secret } }.converse r (r' ++ share))
  rw [ha]
  exact ⟨rfl, rfl⟩

theorem challenge_exhausted (hn : s.spdm.negotiated = true) (hx : 2 ^ 20 ≤ s.spdm.xmssIndex) :
    (s.challenge r).spdm.xmssIndex = s.spdm.xmssIndex := by
  rw [State.challenge, inTurn_taken hn, signed_exhausted hx]
  rfl

/-- FINISH with the right verify data opens the session. -/
theorem finishSession_opens (hh : s.spdm.handshake = true) (hm : (Config.finishMac s.spdm.secret s.spdm.transcript).isSuffixOf r = true) :
    s.finishSession r = { s with spdm := { s.spdm with handshake := false, session := true } }.converse r (s.openResponse 0x65) := by
  rw [State.finishSession, inTurn_taken hh]
  exact if_pos hm

theorem finishSession_early (hh : s.spdm.handshake = false) : s.finishSession r = s.sendResponse (spdmError 0x04) :=
  if_neg (ne_true_of_eq_false hh)
end

/-- Settles O54: power good by the signature of its image, each request by the session or the conversation that it finds. -/
theorem firmwareEvents : Obligations.FirmwareEvents := by
  unfold Obligations.FirmwareEvents
  refine ⟨?power, ?refused, ?answered, ?destroy, ?vendor, ?spdm⟩
  case power =>
    exact fun s trained peers => ⟨⟨_, rfl, bringUp_held trained peers⟩, ⟨_, rfl, bringUp_ready trained peers⟩⟩
  case refused =>
    intro s body hs refuses
    have refused (op : Nat) (f : State → Handled) := handle_refused hs op f
    exact ⟨completes_unit rfl (refused _ _), completes_unit rfl (refused _ _), completes_unit rfl (refused _ _),
      completes_unit rfl (refused _ _), completes_unit rfl (refused _ _)⟩
  case answered =>
    intro s body hs answers
    have answered (op : Nat) (f : State → Handled) := handle_answered hs op f
    exact ⟨completes_unit rfl (answered _ _), completes_unit rfl (answered _ _), completes_unit rfl (answered _ _),
      completes_unit rfl (answered _ _), completes_unit rfl (answered _ _), fun hlen => completes_unit rfl (destroyPart_length hs hlen)⟩
  case destroy =>
    intro s n body p hs hlen hn h16 h0 hp hd
    have again := destroyPart_again hs hlen hn h16 h0 hp hd
    refine ⟨fun hstop hidle => completes_unit rfl (again.trans (if_pos (Bool.and_eq_true_iff.2 ⟨hstop, hidle⟩))),
      fun hnot => completes_unit rfl (again.trans (if_neg ?_))⟩
    rcases hnot with h | h <;> simp [h]
  case vendor =>
    intro s m
    refine ⟨fun hs hbad => completes_unit rfl (vendorRequest_malformed hs hbad), ?_⟩
    intro h1 hlen hbody same
    have taken {op : Nat} (hop : byteAt m 0 = op) (h0 : op ≠ 0) (h6 : op ≤ 6) := vendorRequest_taken (s := s) h1 hlen hbody hop h0 h6
    exact ⟨fun h => congrArg _ (taken h (by decide) (by decide)), fun h => congrArg _ (taken h (by decide) (by decide)),
      fun h => congrArg _ (taken h (by decide) (by decide)), fun h => congrArg _ (taken h (by decide) (by decide)),
      fun h => congrArg _ (taken h (by decide) (by decide)), fun h => congrArg _ (taken h (by decide) (by decide))⟩
  case spdm =>
    intro s r
    refine ⟨⟨_, rfl, rfl, rfl, rfl⟩, fun h => ⟨_, rfl, ?_⟩, fun h => ⟨_, rfl, ?_⟩, fun h => ⟨⟨_, rfl, ?_⟩, ⟨_, rfl, ?_⟩,
      fun hx => ⟨⟨_, rfl, challenge_signs h hx⟩, ⟨_, rfl, getMeasurements_signs h hx⟩, ⟨_, rfl, exchange_signs h hx⟩⟩,
      fun hx => ⟨_, rfl, challenge_exhausted h hx⟩⟩, fun hh hm => ⟨_, rfl, ?_⟩, fun hh => ⟨_, rfl, ?_⟩⟩
    · rw [State.getCapabilities, inTurn_taken h, converse_spdm]
    · rw [State.negotiate, inTurn_taken h, converse_spdm]
    · rw [State.getDigests, inTurn_taken h, converse_spdm, List.length_cons]
    · rw [State.getCertificate, inTurn_taken h, converse_spdm, List.length_cons]
    · rw [finishSession_opens hh hm, converse_spdm]
      exact ⟨rfl, rfl⟩
    · rw [finishSession_early hh]
      rfl

end Sys2Proof.Machine
namespace Sys2Proof.Machine

/-! ## Reset, the worked encodings, and the turns of the machine (25_package.md R477, 03_encoding.md R74 to R95, 12_execution.md R297) -/

/-- Each service core stands at the firmware entry with its control context alone. -/
theorem reset_core {n : Nat} (h : 4108 ≤ n ∧ n < 4128) : State.reset.core n = Core.serviceReset := by
  have look : ∀ i : Fin 20, State.reset.core (4108 + i.val) = Core.serviceReset := by decide
  have := look ⟨n - 4108, by omega⟩
  rwa [Nat.add_sub_cancel' h.1] at this

/-- A table has nothing at a key that no entry bears. -/
theorem look_absent {α : Type} {t : Table α} {n : Nat} (h : ∀ e ∈ t, e.1 ≠ n) : Table.look t n = none := by
  induction t with
  | nil => rfl
  | cons e rest ih =>
    have hrest : Table.look rest n = none := ih fun x hx => h x (List.mem_cons_of_mem _ hx)
    exact (if_neg (h e List.mem_cons_self)).trans hrest

theorem serviceCores_high : ∀ n ∈ serviceCores, 4096 ≤ n := by decide

theorem reset_core_die {n : Nat} (h : n < 4096) : State.reset.core n = {} := by
  have absent : Table.look State.reset.cores n = none := look_absent fun e he => by
    obtain ⟨k, hk, rfl⟩ := List.mem_map.1 he
    have := serviceCores_high k hk
    exact fun hkn => absurd (hkn ▸ this) (Nat.not_le.2 h)
  rw [State.core, Table.get, absent]
  rfl

/-- Settles O55: the reset state, read off. -/
theorem resetState : Obligations.ResetState := by
  unfold Obligations.ResetState
  refine ⟨rfl, rfl, rfl, rfl, reset_wf, rfl, rfl, rfl, rfl, fun n hlow hhigh => ?_, fun n h => ?_⟩
  · have control : State.reset.ctx n 0 = Ctx.serviceReset := by
      rw [State.ctx, reset_core ⟨hlow, hhigh⟩]
      rfl
    rw [reset_core ⟨hlow, hhigh⟩, control]
    decide
  · rw [reset_core_die h]

/-- Settles O56: every word decoded. -/
theorem decodeWords : Obligations.DecodeWords := by
  unfold Obligations.DecodeWords
  decide

section
variable {s u v : State} {h h' : BitVec 16}

/-! ### What a fetch gives -/

theorem fetchInstr_fault {a : Word} {r : Nat} (hf : u.fetchHalf u.me.pc = .error (a, r)) : u.fetchInstr = (.fetchFault a r, u) := by
  simp only [State.fetchInstr, hf]

theorem fetchInstr_narrow (hf : u.fetchHalf u.me.pc = .ok (h, v)) (h15 : h.getLsbD 15 = false) :
    (∀ i rest, decode [h] = .ok (i, rest) → u.fetchInstr = (i, v))
    ∧ (∀ e, decode [h] = .error e → u.fetchInstr = (.illegalEncoding (h.setWidth 32) false, v)) := by
  refine ⟨fun i rest hd => ?_, fun e hd => ?_⟩
  all_goals simp only [State.fetchInstr, hf, h15, Bool.false_eq_true, if_false, hd]

theorem fetchInstr_wide {v' : State} (hf : u.fetchHalf u.me.pc = .ok (h, v)) (h15 : h.getLsbD 15 = true)
    (hf' : v.fetchHalf (u.me.pc + 2) = .ok (h', v')) :
    (∀ i rest, decode [h, h'] = .ok (i, rest) → u.fetchInstr = (i, v'))
    ∧ (∀ e, decode [h, h'] = .error e → u.fetchInstr = (.illegalEncoding (h ++ h') true, v')) := by
  refine ⟨fun i rest hd => ?_, fun e hd => ?_⟩
  all_goals simp only [State.fetchInstr, hf, h15, if_true, hf', hd]

theorem fetchInstr_wide_fault {a : Word} {r : Nat} (hf : u.fetchHalf u.me.pc = .ok (h, v)) (h15 : h.getLsbD 15 = true)
    (hf' : v.fetchHalf (u.me.pc + 2) = .error (a, r)) : u.fetchInstr = (.fetchFault a r, v) := by
  simp only [State.fetchInstr, hf, h15, if_true, hf']

/-! ### What a turn does -/

theorem step_turn {t : Turn} (ht : s.background.turn = some t) :
    step s = takeTurn { s.background with agenda := s.background.agenda.drop 1 } t := by
  simp only [step, ht]

theorem takeTurn_issues {b : State} {turn : Turn} {core ctx : Nat} (hturn : turn = .slot core ∨ turn = .issue core ctx)
    (hgo : b.stopped = false) (hn : b.nextIssue core = some ctx) :
    takeTurn b turn = exec (b.issueFrom core ctx).fetchInstr.1 (b.issueFrom core ctx).fetchInstr.2 := by
  have issues : issueStep b core ctx = exec (b.issueFrom core ctx).fetchInstr.1 (b.issueFrom core ctx).fetchInstr.2 := if_pos hn
  rcases hturn with rfl | rfl
  · simp only [takeTurn, hgo, Bool.false_eq_true, if_false, hn, issues]
  · simp only [takeTurn, hgo, Bool.false_eq_true, if_false, issues]

theorem takeTurn_idle {b : State} {turn : Turn} {core ctx : Nat} (hturn : turn = .slot core ∨ turn = .issue core ctx)
    (hgo : b.stopped = false) (hn : b.nextIssue core = none) : takeTurn b turn = .next b := by
  rcases hturn with rfl | rfl
  · simp only [takeTurn, hgo, Bool.false_eq_true, if_false, hn]
  · simp only [takeTurn, hgo, Bool.false_eq_true, if_false, issueStep, hn, reduceCtorEq]

/-- The first of a list that meets a condition, and what stands before it. -/
theorem find_split {α : Type} {p : α → Bool} {xs : List α} {x : α} (hx : xs.find? p = some x) :
    ∃ before after, xs = before ++ x :: after ∧ p x = true ∧ ∀ y ∈ before, p y = false := by
  obtain ⟨hp, before, after, hxs, hall⟩ := List.find?_eq_some_iff_append.1 hx
  exact ⟨before, after, hxs, hp, fun y hy => by simpa using hall y hy⟩

theorem nextIssue_order {core ctx : Nat} (hn : s.nextIssue core = some ctx) : ∃ before after, (s.core core).order = before ++ ctx :: after
    ∧ ((s.isReady core ctx false = true ∧ ∀ n ∈ before, s.isReady core n false = false)
      ∨ (s.isReady core ctx true = true ∧ (∀ n ∈ (s.core core).order, s.isReady core n false = false)
        ∧ ∀ n ∈ before, s.isReady core n true = false)) := by
  simp only [State.nextIssue] at hn
  split at hn
  · next n hfirst =>
    obtain rfl := Option.some.inj hn
    obtain ⟨before, after, horder, hready, hbefore⟩ := find_split hfirst
    exact ⟨before, after, horder, Or.inl ⟨hready, hbefore⟩⟩
  · next hnone =>
    obtain ⟨before, after, horder, hready, hbefore⟩ := find_split hn
    have none_ready : ∀ n ∈ (s.core core).order, s.isReady core n false = false := fun n hn => by
      simpa using List.find?_eq_none.1 hnone n hn
    exact ⟨before, after, horder, Or.inr ⟨hready, none_ready, hbefore⟩⟩
end

/-- Settles O58: a step is the turn at the head of the agenda, taken. -/
theorem stepRunsDecoded : Obligations.StepRunsDecoded := by
  unfold Obligations.StepRunsDecoded
  refine ⟨?issue, fun s core ctx => nextIssue_order, ?event, ?tick, ?stopped⟩
  case issue =>
    intro s turn core ctx ht hturn hgo b
    have takes := step_turn ht
    have go : b.stopped = false := hgo
    refine ⟨fun hn => ?_, fun hn => takes.trans (takeTurn_idle hturn go hn)⟩
    intro u
    have runs {i : Instr} {w : State} (hfetch : u.fetchInstr = (i, w)) : step s = exec i w := by
      refine (takes.trans (takeTurn_issues hturn go hn)).trans ?_
      change exec u.fetchInstr.1 u.fetchInstr.2 = _
      rw [hfetch]
    refine ⟨fun h v hf h15 => ?_, fun h v h' v' hf h15 hf' => ?_, fun h v a r hf h15 hf' => runs (fetchInstr_wide_fault hf h15 hf'),
      fun a r hf => runs (fetchInstr_fault hf)⟩
    · obtain ⟨decoded, rejected⟩ := fetchInstr_narrow hf h15
      exact ⟨fun i rest hd => runs (decoded i rest hd), fun e hd => runs (rejected e hd)⟩
    · obtain ⟨decoded, rejected⟩ := fetchInstr_wide hf h15 hf'
      exact ⟨fun i rest hd => runs (decoded i rest hd), fun e hd => runs (rejected e hd)⟩
  case event =>
    intro s i ht hgo
    refine (step_turn ht).trans (if_neg ?_)
    rcases hgo with hgo | ⟨good, trained, peers, rfl⟩
    · exact fun h => ne_true_of_eq_false hgo (Bool.and_eq_true_iff.1 h).1
    · simp [wakesPackage]
  case tick =>
    intro s ht hgo
    exact (step_turn ht).trans (if_neg (ne_true_of_eq_false hgo))
  case stopped =>
    intro s hstop hno
    cases ht : s.background.turn with
    | none => simp only [step, ht, hstop, if_true]
    | some t =>
      refine (step_turn ht).trans ?_
      have halted : ({ s.background with agenda := s.background.agenda.drop 1 } : State).stopped = true := hstop
      cases t with
      | event i =>
        have sleeps : wakesPackage i = false := by
          unfold wakesPackage
          split
          · next good trained peers => exact absurd ht (hno good trained peers)
          · rfl
        simp only [takeTurn, halted, sleeps, Bool.not_false, Bool.and_self, if_true]
      | issue core ctx => simp only [takeTurn, halted, if_true]
      | slot core => simp only [takeTurn, halted, if_true]
      | tick => simp only [takeTurn, halted, if_true]

end Sys2Proof.Machine
namespace Sys2Proof.Machine

/-! ## Every step keeps the memory canonical: how the memory of what a function leaves is spoken of

One lemma per function of the model says what it leaves of the memory: `mem_f` where it leaves it as it was, `wf_f` where it changes it but keeps
it canonical. For an execution that may stop the lemma is about every state that it can carry (`Gives`). -/

/-- Both ends of a choice that leave memory alone leave it alone. -/
@[simp] theorem mem_ite {c : Prop} [Decidable c] (s t : State) : (if c then s else t).mem = if c then s.mem else t.mem := apply_ite _ _ _ _

@[simp] theorem wf_ite {c : Prop} [Decidable c] {m n : List Host.Cell} (hm : Memory.wf m = true) (hn : Memory.wf n = true) :
    Memory.wf (if c then m else n) = true := by split <;> assumption

@[simp] theorem mem_foldl {α : Type} {l : List α} {f : State → α → State} {s : State} (hf : ∀ t x, (f t x).mem = t.mem) :
    (l.foldl f s).mem = s.mem := by
  induction l generalizing s with
  | nil => rfl
  | cons x l ih => exact (ih (s := f s x)).trans (hf s x)

@[simp] theorem wf_foldl {α : Type} {l : List α} {f : State → α → State} {s : State}
    (hf : ∀ t x, Memory.wf t.mem = true → Memory.wf (f t x).mem = true)
    (hs : Memory.wf s.mem = true) : Memory.wf (l.foldl f s).mem = true := by
  induction l generalizing s with
  | nil => exact hs
  | cons x l ih => exact ih (hf s x hs)

theorem wf_foldl_fst {α β : Type} {l : List α} {f : State × β → α → State × β} {p : State × β}
    (hf : ∀ p x, Memory.wf p.1.mem = true → Memory.wf (f p x).1.mem = true) (hp : Memory.wf p.1.mem = true) :
    Memory.wf (l.foldl f p).1.mem = true := by
  induction l generalizing p with
  | nil => exact hp
  | cons x l ih => exact ih (hf p x hp)

/-- The memory of the state that a stop carries is canonical. -/
def Stop.Wf : Stop → Prop
  | .trapIn t _ => Memory.wf t.mem = true
  | .waitIn t _ => Memory.wf t.mem = true
  | _ => True

@[simp] theorem Stop.wf_trap (x : TrapInfo) : (Stop.trap x).Wf := trivial
@[simp] theorem Stop.wf_wait (w : Wait) : (Stop.wait w).Wf := trivial
@[simp] theorem Stop.wf_trapIn (t : State) (x : TrapInfo) : (Stop.trapIn t x).Wf ↔ Memory.wf t.mem = true := Iff.rfl
@[simp] theorem Stop.wf_waitIn (t : State) (w : Wait) : (Stop.waitIn t w).Wf ↔ Memory.wf t.mem = true := Iff.rfl

/-- What an execution gives holds of `P`, and the memory of the state that a stop carries is canonical. -/
def Gives {α : Type} (P : α → Prop) : Except Stop α → Prop
  | .ok a => P a
  | .error e => e.Wf

/-- The memory of every state that a run gives is canonical. -/
def RunWf (r : Run) : Prop := Gives (fun t => Memory.wf t.mem = true) r

/-- The memory of every state that a check stops with is canonical. -/
def StopsWf {α : Type} (x : Except Stop α) : Prop := Gives (fun _ => True) x

theorem RunWf.of {r : Run} (h : Gives (fun t => Memory.wf t.mem = true) r) : RunWf r := h

theorem StopsWf.of {α : Type} {x : Except Stop α} (h : Gives (fun _ => True) x) : StopsWf x := h

/-- The memory of what an outcome leaves is canonical. -/
def OutcomeWf : Host.Outcome State Fault Refusal → Prop
  | .next t => Memory.wf t.mem = true
  | _ => True

@[simp] theorem outcomeWf_next (t : State) : OutcomeWf (.next t) ↔ Memory.wf t.mem = true := Iff.rfl

section
variable {α β : Type} {P : α → Prop}

theorem gives_iff {Q : α → Prop} {x : Except Stop α} (hx : Gives P x) : Gives Q x ↔ ∀ a, x = .ok a → P a → Q a := by
  cases x with
  | ok a => exact ⟨fun h b e _ => (Except.ok.inj e ▸ h), fun h => h a rfl hx⟩
  | error e => exact ⟨fun _ _ e' => (nomatch e'), fun _ => hx⟩

theorem Gives.mono {Q : α → Prop} {x : Except Stop α} (hx : Gives P x) (h : ∀ a, P a → Q a) : Gives Q x :=
  (gives_iff hx).2 fun a _ => h a
end

/-- What follows a check that has no state of its own: it is run where the check passes. -/
@[simp] theorem gives_check {α : Type} {Q : α → Prop} {x : Except Stop α} (hx : StopsWf x) : Gives Q x ↔ ∀ a, x = .ok a → Q a :=
  (gives_iff (P := fun _ => True) hx).trans (by simp)

/-- What follows a run of which the memory of the state is canonical. -/
@[simp] theorem gives_run {Q : State → Prop} {x : Run} (hx : RunWf x) :
    Gives Q x ↔ ∀ t, x = .ok t → Memory.wf t.mem = true → Q t := gives_iff hx

/-- A check of two parts whose second is a state. -/
theorem gives_pair {α : Type} {Q : α × State → Prop} {x : Except Stop (α × State)}
    (hx : Gives (fun a => Memory.wf a.2.mem = true) x) :
    Gives Q x ↔ ∀ a t, x = .ok (a, t) → Memory.wf t.mem = true → Q (a, t) :=
  (gives_iff hx).trans Prod.forall

/-- A check of two parts whose first is a state. -/
theorem gives_pair_left {α : Type} {Q : State × α → Prop} {x : Except Stop (State × α)}
    (hx : Gives (fun a => Memory.wf a.1.mem = true) x) :
    Gives Q x ↔ ∀ t a, x = .ok (t, a) → Memory.wf t.mem = true → Q (t, a) :=
  (gives_iff hx).trans Prod.forall

section
variable {α β : Type} {P : α → Prop}

@[simp] theorem gives_ok (a : α) : Gives P (.ok a) ↔ P a := Iff.rfl
@[simp] theorem gives_pure (a : α) : Gives P (pure a) ↔ P a := Iff.rfl
@[simp] theorem gives_error (e : Stop) : Gives P (.error e) ↔ e.Wf := Iff.rfl
@[simp] theorem gives_stall (w : Wait) : Gives P (stall w) := trivial
@[simp] theorem gives_trapWith (c : Cause) (f : Word) : Gives P (trapWith c f) := trivial
@[simp] theorem gives_pageTrap (f : Word) (r : Nat) : Gives P (pageTrap f r) := trivial
@[simp] theorem gives_illegal : Gives P illegal := trivial

@[simp] theorem gives_ite {c : Prop} [Decidable c] {x y : Except Stop α} :
    Gives P (if c then x else y) ↔ (c → Gives P x) ∧ (¬c → Gives P y) := by split <;> simp [*]

/-- A sequence gives what its second part gives of what its first part gives. -/
@[simp] theorem gives_bind {Q : β → Prop} {x : Except Stop α} {k : α → Except Stop β} :
    Gives Q (x >>= k) ↔ Gives (fun a => Gives Q (k a)) x := by cases x <;> rfl

@[simp] theorem gives_map {Q : β → Prop} {x : Except Stop α} {f : α → β} : Gives Q (f <$> x) ↔ Gives (fun a => Q (f a)) x := by
  cases x <;> rfl
end

/-- A check that a condition asks for, and what goes on after it. -/
theorem gives_when {α β : Type} {Q : β → Prop} {c : Prop} [Decidable c] {x : Except Stop α} (u : α) {k : α → Except Stop β}
    (hx : StopsWf x) (hk : ∀ a, Gives Q (k a)) : Gives Q (if c then x >>= k else k u) := by
  split
  · rw [gives_bind]
    exact Gives.mono hx fun a _ => hk a
  · exact hk u

end Sys2Proof.Machine
namespace Sys2Proof.Machine

/-! ## Every step keeps the memory canonical: the state, its contexts and its homes -/

/-! ### The functions of Sys2Proof/Machine/Ops.lean -/

@[simp] theorem mem_setCore (s : State) (n : Nat) (c : Core) : (s.setCore n c).mem = s.mem := rfl

@[simp] theorem mem_setCtx (s : State) (n k : Nat) (x : Ctx) : (s.setCtx n k x).mem = s.mem := rfl

@[simp] theorem mem_setMe (s : State) (x : Ctx) : (s.setMe x).mem = s.mem := rfl

@[simp] theorem mem_setMine (s : State) (c : Core) : (s.setMine c).mem = s.mem := rfl

@[simp] theorem mem_setTile (s : State) (n : Nat) (t : Tile) : (s.setTile n t).mem = s.mem := rfl

@[simp] theorem mem_setSuperGroup (s : State) (n : Nat) (g : SuperGroup) : (s.setSuperGroup n g).mem = s.mem := rfl

@[simp] theorem mem_setPart (s : State) (n : Nat) (p : Partition) : (s.setPart n p).mem = s.mem := rfl

@[simp] theorem mem_fresh (s : State) : s.fresh.2.mem = s.mem := rfl

@[simp] theorem mem_setTag (s : State) (key : Nat) (t : Byte) : (s.setTag key t).mem = s.mem := by
  simp [State.setTag]

@[simp] theorem mem_setStamp (s : State) (key : Nat) (v : Option Nat) : (s.setStamp key v).mem = s.mem := by
  simp [State.setStamp]

@[simp] theorem wf_storeBytes (s : State) (key n v : Nat) (h : Memory.wf s.mem = true) : Memory.wf (s.storeBytes key n v).mem = true :=
  storeBytes_wf s key n v h

@[simp] theorem wf_putBytes (s : State) (line : Option (Nat × Nat)) (key n v : Nat) (h : Memory.wf s.mem = true) :
    Memory.wf (s.putBytes line key n v).mem = true := by
  simp only [State.putBytes]
  split
  · exact storeBytes_wf s key n v h
  · exact h

@[simp] theorem wf_readReg (s : State) (r : Reg) : StopsWf (s.readReg r) := by
  refine StopsWf.of ?_
  simp only [State.readReg]
  (repeat' split) <;> simp

@[simp] theorem wf_placeOf (s : State) (p : Word) (align : Nat) (need : Need) (sync : Bool) (bonded : Bool) :
    StopsWf (s.placeOf p align need sync bonded) := by
  refine StopsWf.of ?_
  simp only [State.placeOf]
  (repeat' split) <;> simp

@[simp] theorem mem_note (s : State) (pl : Place) : (s.note pl).mem = s.mem := by
  simp only [State.note]
  (repeat' split) <;> simp

@[simp] theorem mem_countHeat (s : State) (tag va : Nat) (write : Bool) : (s.countHeat tag va write).mem = s.mem := countHeat_mem s tag va write

@[simp] theorem mem_asIssuer (s : State) (core ctx level : Nat) : (s.asIssuer core ctx level).mem = s.mem := by
  simp [State.asIssuer]

@[simp] theorem mem_queueFlits (s : State) (port n : Nat) : (s.queueFlits port n).mem = s.mem := by
  simp [State.queueFlits]

@[simp] theorem mem_takeSeq (s : State) (source pkg home : Nat) : (s.takeSeq source pkg home).2.mem = s.mem := rfl

@[simp] theorem mem_countSeq (s : State) (source home : Nat) : (s.countSeq source home).mem = s.mem := by
  simp [State.countSeq]

@[simp] theorem mem_touchForwards (s : State) (off fuel core : Nat) : (s.touchForwards off fuel core).mem = s.mem := by
  induction fuel generalizing s core with
  | zero => rfl
  | succ fuel ih =>
    simp only [State.touchForwards]
    split
    · rfl
    · simp [ih]

@[simp] theorem mem_forwarded (s : State) (pl : Place) : (s.forwarded pl).mem = s.mem := by
  simp only [State.forwarded]
  (repeat' split) <;> simp

@[simp] theorem mem_depart (s : State) (pl : Place) : (s.depart pl).mem = s.mem := by
  simp [State.depart]

@[simp] theorem wf_ask (s : State) (p : Word) (pl : Place) (pkg n : Nat) (h : Memory.wf s.mem = true) : (s.ask p pl pkg n).Wf := by
  simp only [State.ask]
  split
  · trivial
  · simp [h]

@[simp] theorem wf_fetchData (s : State) (p : Word) (n : Nat) (h : Memory.wf s.mem = true) : StopsWf (State.fetchData s p n) := by
  refine StopsWf.of ?_
  simp only [State.fetchData, gives_bind]
  refine Gives.mono (wf_placeOf s p n Need.load false false) fun pl _ => ?_
  split
  · split <;> simp [h]
  · simp only [gives_ite, gives_bind, gives_pageTrap, gives_stall, implies_true, true_and]
    intros
    split <;> simp

@[simp] theorem wf_advanceOr (p : Word) (delta : Int) : StopsWf (advanceOr p delta) := by
  refine StopsWf.of ?_
  simp only [advanceOr]
  (repeat' split) <;> simp

@[simp] theorem wf_fetchImage (s : State) (p : Word) (i n : Nat) (h : Memory.wf s.mem = true) : StopsWf (s.fetchImage p i n) := by
  induction n generalizing i with
  | zero => trivial
  | succ n ih => exact StopsWf.of (by simp [State.fetchImage, h, ih])

@[simp] theorem mem_takeBank (s : State) (core ctx key : Nat) : (s.takeBank core ctx key).mem = s.mem := by
  simp [State.takeBank]

@[simp] theorem wf_scrub (s : State) (key n : Nat) (h : Memory.wf s.mem = true) : Memory.wf (s.scrub key n).mem = true := scrub_wf s key n h

@[simp] theorem mem_beginOp (s : State) (core ctx cls : Nat) (ack : Option Nat) : (s.beginOp core ctx cls ack).mem = s.mem := by
  simp [State.beginOp]

@[simp] theorem mem_alterCtx (s : State) (core ctx : Nat) (f : Ctx → Ctx) : (s.alterCtx core ctx f).mem = s.mem := by
  simp [State.alterCtx]

@[simp] theorem mem_endOp (s : State) (core ctx cls : Nat) (ack : Option Nat) : (s.endOp core ctx cls ack).mem = s.mem := by
  simp [State.endOp]

@[simp] theorem mem_wake (s : State) (core ctx : Nat) : (s.wake core ctx).mem = s.mem := by
  simp only [State.wake]
  (repeat' split) <;> simp

@[simp] theorem mem_landed (s : State) (f : Flight) : (s.landed f).mem = s.mem := by
  simp only [State.landed]
  (repeat' split) <;> simp

@[simp] theorem mem_arrive (s : State) (f : Flight) : (s.arrive f).mem = s.mem := by
  simp only [State.arrive]
  (repeat' split) <;> simp

@[simp] theorem mem_sendFlight (s : State) (f : Flight) : (s.sendFlight f).mem = s.mem := by
  simp only [State.sendFlight]
  (repeat' split) <;> simp

@[simp] theorem mem_post (s : State) (dest : Dest) (msg : Message) (source : Nat) (part : Nat) (issuer : Option (Nat × Nat × Nat)) :
    (s.post dest msg source part issuer).mem = s.mem := by
  simp [State.post]

@[simp] theorem mem_complete (s : State) (core ctx part : Nat) (op : BitVec 16) (cls : Option Nat) (code : Nat) (args : List Word) :
    (s.complete core ctx part op cls code args).mem = s.mem := by
  simp [State.complete]

@[simp] theorem mem_report (s : State) (n src core ctx kind reason cause : Nat) (addr iaddr d4 d5 : Word) :
    (s.report n src core ctx kind reason cause addr iaddr d4 d5).mem = s.mem := by
  simp [State.report]

@[simp] theorem mem_reportLost (s : State) (core ctx : Nat) (reason : Nat) (addr : Word) (seq kind counter why : Nat) :
    (s.reportLost core ctx reason addr seq kind counter why).mem = s.mem := by
  simp only [State.reportLost]
  (repeat' split) <;> simp

@[simp] theorem wf_writeBack (s : State) (v : VCopy) (h : Memory.wf s.mem = true) : Memory.wf (s.writeBack v).mem = true :=
  writeBack_wf s v h

@[simp] theorem wf_dropLines (s : State) (hit : VCopy → Bool) (h : Memory.wf s.mem = true) : Memory.wf (s.dropLines hit).mem = true := by
  simp only [State.dropLines]
  (repeat' split) <;> simp +contextual [h]

@[simp] theorem wf_dropLine (s : State) (part line : Nat) (h : Memory.wf s.mem = true) : Memory.wf (s.dropLine part line).mem = true := by
  simp [State.dropLine, h]

@[simp] theorem wf_makeRoom (s : State) (part line : Nat) (h : Memory.wf s.mem = true) : Memory.wf (s.makeRoom part line).mem = true := by
  simp only [State.makeRoom]
  (repeat' split) <;> simp [h]

@[simp] theorem mem_limitStuck (s : State) (part line : Nat) : (s.limitStuck part line).mem = s.mem := by
  simp only [State.limitStuck]
  (repeat' split) <;> simp

@[simp] theorem wf_fillOne (s : State) (part line frame : Nat) (slot : Option Nat) (hint : BitVec 2) (read : Bool) (h : Memory.wf s.mem = true) :
    Memory.wf (s.fillOne part line frame slot hint read).mem = true := by
  simp only [State.fillOne]
  (repeat' split) <;> simp [h]

@[simp] theorem mem_hitCopy (s : State) (part line : Nat) (hint : BitVec 2) : (s.hitCopy part line hint).mem = s.mem := by
  simp [State.hitCopy]

@[simp] theorem wf_fill (s : State) (line : Option (Nat × Nat)) (key : Nat) (slot : Option Nat) (hint : BitVec 2) (read : Bool)
    (h : Memory.wf s.mem = true) : Memory.wf (s.fill line key slot hint read).mem = true := by
  simp only [State.fill]
  (repeat' split) <;> simp +contextual [h]

@[simp] theorem mem_dropNear (s : State) (core : Nat) (hit : Nat → Bool) : (s.dropNear core hit).mem = s.mem := by
  simp [State.dropNear]

@[simp] theorem mem_dropPool (s : State) (tile : Nat) (hit : Nat → Bool) : (s.dropPool tile hit).mem = s.mem := by
  simp [State.dropPool]

@[simp] theorem mem_passedAtL2 (s : State) (core line : Nat) : (s.passedAtL2 core line).mem = s.mem := by
  simp [State.passedAtL2]

@[simp] theorem mem_putNear (s : State) (core : Nat) (x : NearLine) : (s.putNear core x).1.mem = s.mem := rfl

@[simp] theorem mem_enterNear (s : State) (core : Nat) (x : NearLine) (fuel : Nat) : (s.enterNear core x fuel).mem = s.mem := by
  induction fuel generalizing s core x with
  | zero => rfl
  | succ fuel ih =>
    simp only [State.enterNear]
    have put := mem_putNear s core x
    split
    · next heq => rwa [heq] at put
    · next heq =>
      rw [heq] at put
      split
      · rw [ih, put]
      · exact put

@[simp] theorem mem_keepLine (s : State) (core line : Nat) (d : BitVec 1024) (hint : BitVec 2) : (s.keepLine core line d hint).mem = s.mem := by
  simp only [State.keepLine, mem_enterNear, mem_setCore]

@[simp] theorem mem_moveNear (s : State) (core line : Nat) (d : BitVec 1024) (hint : BitVec 2) : (s.moveNear core line d hint).mem = s.mem := by
  simp only [State.moveNear]
  (repeat' split) <;> simp

@[simp] theorem mem_fillNear (s : State) (core line : Nat) (hint : BitVec 2) (v : Option VCopy) : (s.fillNear core line hint v).mem = s.mem := by
  simp only [State.fillNear]
  (repeat' split) <;> simp

@[simp] theorem mem_storeNear (s : State) (core line off n v : Nat) : (s.storeNear core line off n v).mem = s.mem := by
  simp [State.storeNear]

@[simp] theorem mem_acquire (s : State) (core : Nat) : (s.acquire core).mem = s.mem := by
  simp [State.acquire]

@[simp] theorem mem_dropFar (s : State) (part : Nat) (hit : Nat → Bool) : (s.dropFar part hit).mem = s.mem := by
  simp [State.dropFar]

@[simp] theorem mem_discard (s : State) (core ctx : Nat) (e : LostLoad) : (s.discard core ctx e).mem = s.mem := by
  simp [State.discard]

@[simp] theorem mem_discards (s : State) (writes : List (Reg × Word)) : (s.discards writes).mem = s.mem := by
  refine mem_foldl fun t x => ?_
  split
  · split <;> simp
  · rfl

@[simp] theorem mem_retiredTo (s : State) (pc' : Word) (dies : List Reg) (writes : List (Reg × Word)) :
    (s.retiredTo pc' dies writes).mem = s.mem := by
  simp [State.retiredTo]

@[simp] theorem wf_retireTo (s : State) (pc' : Word) (dies : List Reg) (writes : List (Reg × Word)) (h : Memory.wf s.mem = true) :
    RunWf (s.retireTo pc' dies writes) := by
  refine RunWf.of ?_
  simp [State.retireTo, h]

@[simp] theorem wf_mayBegin (s : State) (dies : List Reg) (d : Reg) : StopsWf (s.mayBegin dies d) := StopsWf.of (by simp [State.mayBegin])

@[simp] theorem mem_setAside (s : State) (dies : List Reg) (d : Reg) : (s.setAside dies d).mem = s.mem := by
  simp [State.setAside]

@[simp] theorem wf_retire (s : State) (length : Nat) (dies : List Reg) (writes : List (Reg × Word)) (h : Memory.wf s.mem = true) :
    RunWf (s.retire length dies writes) := wf_retireTo s _ dies writes h

theorem wf_superWrite {s t : State} {n base : Nat} {l : List (Nat × Nat × Word)} (e : s.superWrite n base l = .ok t)
    (h : Memory.wf s.mem = true) : Memory.wf t.mem = true := by
  induction l generalizing s with
  | nil =>
    obtain rfl := Except.ok.inj e
    exact h
  | cons x l ih =>
    simp only [State.superWrite] at e
    split at e
    · cases e
    · exact ih e (wf_putBytes _ _ _ _ _ h)

theorem wf_saveAt {s t : State} {n va core ctx : Nat} {lanes : Bool} (e : s.saveAt n va core ctx lanes = .ok t)
    (h : Memory.wf s.mem = true) : Memory.wf t.mem = true := by
  simp only [State.saveAt] at e
  split at e
  · cases e
  · next u hu =>
    obtain rfl := Except.ok.inj e
    simp [wf_superWrite hu h]

theorem wf_save {s t : State} {core ctx : Nat} {lanes : Bool} (e : s.save core ctx lanes = .ok t) (h : Memory.wf s.mem = true) :
    Memory.wf t.mem = true := by
  simp only [State.save] at e
  split at e
  · exact wf_saveAt e h
  · cases e
  · cases e

theorem mem_reload {s t : State} {core ctx : Nat} (e : s.reload core ctx = .ok t) : t.mem = s.mem := by
  simp only [State.reload] at e
  split at e
  · split at e
    · cases e
    · obtain rfl := Except.ok.inj e
      simp
  · cases e

@[simp] theorem mem_saveFailed (s : State) (core ctx : Nat) (reason va : Nat) : (s.saveFailed core ctx reason va).mem = s.mem := by
  simp only [State.saveFailed]
  (repeat' split) <;> simp

@[simp] theorem wf_takeTrap (s : State) (t : TrapInfo) (h : Memory.wf s.mem = true) : Memory.wf (s.takeTrap t).mem = true := by
  simp only [State.takeTrap]
  split
  · split
    · next e _ => simp [wf_save e (by simp [h])]
    · simp [h]
    · next e _ => simp [wf_save e (by simp [h])]
  · split
    · split
      · simp [h]
      · split
        · simp [h]
        · split
          · next e => simp [wf_save e (by simp [h])]
          · simp [h]
    · simp [h]

@[simp] theorem mem_block (s : State) (w : Wait) : (s.block w).mem = s.mem := by
  simp [State.block]

@[simp] theorem wf_afterStep (s s' : State) (h_s' : Memory.wf s'.mem = true) : Memory.wf (s.afterStep s').mem = true := by
  simp [State.afterStep, h_s']

@[simp] theorem wf_stepStopped (s : State) (core ctx : Nat) (pc : Word) (h : Memory.wf s.mem = true) :
    Memory.wf (s.stepStopped core ctx pc).mem = true := by
  simp [State.stepStopped, h]

theorem wf_conclude {s : State} {r : Run} (h : Memory.wf s.mem = true) (hr : Gives (fun t => Memory.wf t.mem = true) r) :
    OutcomeWf (conclude s r) := by
  have hb : ∀ {t : State} (w : Wait), Memory.wf t.mem = true → OutcomeWf (.next (t.block w)) := fun w ht => by simp [ht]
  match r, hr with
  | .ok t, hr => exact wf_afterStep s t hr
  | .error (.trap t), _ => exact wf_takeTrap s t h
  | .error (.trapIn t x), hr => exact wf_takeTrap t x hr
  | .error (.wait w), _ => exact hb w h
  | .error (.waitIn t w), hr => exact hb w hr

theorem wf_concludeAs {encoding : Word} {s : State} {r : Run} (h : Memory.wf s.mem = true) (hr : Gives (fun t => Memory.wf t.mem = true) r) :
    OutcomeWf (concludeAs encoding s r) := by
  refine wf_conclude h ?_
  split
  · trivial
  · exact hr
  · exact hr

@[simp] theorem wf_needLevel (s : State) (level : Nat) : StopsWf (s.needLevel level) := StopsWf.of (by simp [State.needLevel])

/-! ### The functions of Sys2Proof/Machine/Cycle.lean -/

@[simp] theorem mem_tick (s : State) : s.tick.mem = s.mem := by
  simp [State.tick]

@[simp] theorem mem_passTime (s : State) : s.passTime.mem = s.mem := by
  simp [State.passTime]

@[simp] theorem wf_heatOne (s : State) (t : Translation) (write : Bool) (h : Memory.wf s.mem = true) : Memory.wf (s.heatOne t write).mem = true := by
  simp [State.heatOne, h]

@[simp] theorem wf_heat (s : State) (h : Memory.wf s.mem = true) : Memory.wf s.heat.mem = true := by
  refine wf_foldl (fun t x ht => ?_) (wf_foldl (fun t x ht => ?_) h) <;> simp [ht]

@[simp] theorem wf_replaceCopy (s : State) (h : Memory.wf s.mem = true) : Memory.wf s.replaceCopy.mem = true := by
  simp only [State.replaceCopy]
  (repeat' split) <;> simp [h]

@[simp] theorem mem_issueFrom (s : State) (core ctx : Nat) : (s.issueFrom core ctx).mem = s.mem := by
  simp [State.issueFrom]

theorem wf_fetchHalf {s t : State} {va : Word} {w : BitVec 16} (e : s.fetchHalf va = .ok (w, t)) (h : Memory.wf s.mem = true) :
    Memory.wf t.mem = true := by
  simp only [State.fetchHalf] at e
  split at e
  · cases e
  · split at e
    · cases e
    · split at e
      · obtain ⟨-, rfl⟩ := Prod.mk.inj (Except.ok.inj e)
        exact h
      · split at e
        · cases e
        · obtain ⟨-, rfl⟩ := Prod.mk.inj (Except.ok.inj e)
          simp [h]

@[simp] theorem wf_fetchInstr (s : State) (h : Memory.wf s.mem = true) : Memory.wf s.fetchInstr.2.mem = true := by
  simp only [State.fetchInstr]
  split
  · exact h
  · next e =>
    have h1 := wf_fetchHalf e h
    split
    · split
      · exact h1
      · next e' =>
        have h2 := wf_fetchHalf e' h1
        split <;> exact h2
    · split <;> exact h1

/-! ### The functions of Sys2Proof/Machine/Operands.lean -/

@[simp] theorem wf_binary (s : State) (length : Nat) (d a : Reg) (l : Bool) (b : Reg) (m : Bool) (f : Word → Word → Word)
    (h : Memory.wf s.mem = true) : OutcomeWf (binary s length d a l b m f) :=
  wf_conclude h (by simp [h])

@[simp] theorem wf_unary (s : State) (length : Nat) (d a : Reg) (l : Bool) (f : Word → Word) (h : Memory.wf s.mem = true) :
    OutcomeWf (unary s length d a l f) :=
  wf_conclude h (by simp [h])

@[simp] theorem wf_ternary (s : State) (length : Nat) (d a : Reg) (l : Bool) (b : Reg) (m : Bool) (f : Word → Word → Word → Word)
    (h : Memory.wf s.mem = true) : OutcomeWf (ternary s length d a l b m f) :=
  wf_conclude h (by simp [h])

@[simp] theorem wf_constant (s : State) (length : Nat) (d : Reg) (v : Word) (h : Memory.wf s.mem = true) : OutcomeWf (constant s length d v) :=
  wf_conclude h (by simp [h])

@[simp] theorem wf_idle (s : State) (length : Nat) (h : Memory.wf s.mem = true) : OutcomeWf (idle s length) := wf_conclude h (by simp [h])

@[simp] theorem wf_transfer (s : State) (target : Word) (dies : List Reg) (writes : List (Reg × Word)) (h : Memory.wf s.mem = true) :
    RunWf (s.transfer target dies writes) := by
  refine RunWf.of ?_
  simp [State.transfer, h]

@[simp] theorem wf_eaDisp (s : State) (a : Reg) (i : BitVec 7) (size : Nat) : StopsWf (s.eaDisp a i size) := StopsWf.of (by simp [State.eaDisp])

@[simp] theorem wf_eaIndex (s : State) (a b : Reg) (sh : Nat) : StopsWf (s.eaIndex a b sh) := StopsWf.of (by simp [State.eaIndex])

/-! ### The functions of Sys2Proof/Machine/Home.lean -/

@[simp] theorem mem_enterRelief (s : State) (tile : Nat) (t : Task) : (s.enterRelief tile t).mem = s.mem := by
  simp [State.enterRelief]

@[simp] theorem mem_loseFlight (s : State) (f : Flight) (why : Nat) : (s.loseFlight f why).mem = s.mem := by
  simp only [State.loseFlight]
  (repeat' split) <;> simp

@[simp] theorem mem_sendMessage (s : State) (f : Flight) : (s.sendMessage f).mem = s.mem := by
  simp only [State.sendMessage]
  (repeat' split) <;> simp

@[simp] theorem mem_fire (s : State) (part home : Nat) (kind : Nat) (cont w0 w2 : Word) : (s.fire part home kind cont w0 w2).mem = s.mem := by
  simp only [State.fire]
  (repeat' split) <;> simp

@[simp] theorem wf_joinInit (s : State) (part home key last : Nat) (operand : Word) (h : Memory.wf s.mem = true) :
    Memory.wf (s.joinInit part home key last operand).1.mem = true := by
  simp [State.joinInit, h]

@[simp] theorem wf_joinStep (s : State) (part home key last ecore code : Nat) (h : Memory.wf s.mem = true) :
    Memory.wf (s.joinStep part home key last ecore code).1.mem = true := by
  unfold State.joinStep
  extract_lets w0 w2 count w2' w2'' armed w0' t
  have ht : Memory.wf t.mem = true := by simp [t, h]
  rw [apply_ite Prod.fst]
  split
  · exact h
  · dsimp only
    split
    · exact ht
    · simp [ht]

@[simp] theorem wf_hwJoin (s : State) (part src core ctx : Nat) (record : Word) (f : State → Nat → Nat → State × Word) (level : Nat)
    (hf : ∀ t home key, Memory.wf t.mem = true → Memory.wf (f t home key).1.mem = true) (h : Memory.wf s.mem = true) :
    Memory.wf (s.hwJoin part src core ctx record f level).mem = true := by
  simp only [State.hwJoin]
  split
  · exact hf _ _ _ (by simp [h])
  · simp [h]

@[simp] theorem wf_flushLines (s : State) (part level a n : Nat) (h : Memory.wf s.mem = true) :
    Memory.wf (s.flushLines part level a n).mem = true := by
  simp [State.flushLines, h]

@[simp] theorem wf_unpin (s : State) (id : Nat) (keep : Nat → Bool) (h : Memory.wf s.mem = true) : Memory.wf (s.unpin id keep).mem = true := by
  simp [State.unpin, h]

theorem wf_pin {s t : State} {id : Nat} {pl : Place} (e : s.pin id pl = some t) (h : Memory.wf s.mem = true) : Memory.wf t.mem = true := by
  simp only [State.pin] at e
  split at e
  · obtain rfl := Option.some.inj e
    exact h
  · split at e
    · cases e
    · obtain rfl := Option.some.inj e
      simp [h]

@[simp] theorem mem_raiseFlags (s : State) (core ctx : Nat) (f : FpFlags) : (s.raiseFlags core ctx f).mem = s.mem := by
  simp [State.raiseFlags]

@[simp] theorem wf_loaded (s : State) (r : Request) (h : Memory.wf s.mem = true) : Memory.wf (s.loaded r).mem = true := by
  simp only [State.loaded]
  (repeat' split) <;> simp [h]

@[simp] theorem wf_stored (s : State) (r : Request) (n v : Nat) (h : Memory.wf s.mem = true) : Memory.wf (s.stored r n v).mem = true := by
  simp only [State.stored]
  (repeat' split) <;> simp [h]

@[simp] theorem wf_atSlice (s : State) (r : Request) (h : Memory.wf s.mem = true) : Memory.wf (s.atSlice r).mem = true := by
  simp only [State.atSlice]
  (repeat' split) <;> simp [h]

@[simp] theorem mem_seenNear (s : State) (r : Request) : (s.seenNear r).mem = s.mem := by
  simp only [State.seenNear]
  (repeat' split) <;> simp

@[simp] theorem mem_performed (s t : State) (r : Request) : (s.performed t r).mem = t.mem := by
  simp only [State.performed]
  split <;> simp

end Sys2Proof.Machine
namespace Sys2Proof.Machine

/-! ## Every step keeps the memory canonical: accesses, atlas, operands and optics -/

/-! ### The functions of Sys2Proof/Machine/Home.lean -/

@[simp] theorem wf_storeEntry (s : State) (r : Request) (h : Memory.wf s.mem = true) : Memory.wf (s.storeEntry r).mem = true := by
  simp [State.storeEntry, h]

/-- The memory of the state that an answer leaves is canonical. -/
def Answer.Wf : Answer → Prop
  | .done t _ => Memory.wf t.mem = true
  | _ => True

@[simp] theorem answerWf_done (t : State) (d : Word) : (Answer.done t d).Wf ↔ Memory.wf t.mem = true := Iff.rfl
@[simp] theorem answerWf_unmet : Answer.unmet.Wf := trivial
@[simp] theorem answerWf_trap (t : TrapInfo) : (Answer.trap t).Wf := trivial

@[simp] theorem answerWf_ite {c : Prop} [Decidable c] {x y : Answer} : (if c then x else y).Wf ↔ (c → x.Wf) ∧ (¬c → y.Wf) := by
  split <;> simp [*]

theorem wf_applyCore (s : State) (r : Request) (h : Memory.wf s.mem = true) : (s.applyCore r).Wf := by
  simp only [State.applyCore]
  (repeat' split) <;> simp [h]

@[simp] theorem mem_putRequest (s : State) (r : Request) : (s.putRequest r).mem = s.mem := by
  simp [State.putRequest]

@[simp] theorem mem_dropRequest (s : State) (id : Nat) : (s.dropRequest id).mem = s.mem := by
  simp [State.dropRequest]

theorem wf_perform (s : State) (r : Request) (h : Memory.wf s.mem = true) : (s.perform r).Wf := by
  have hc := wf_applyCore s r h
  simp only [State.perform]
  split
  · next e => simpa [e] using hc
  · exact hc

theorem wf_of_perform {s t : State} {r : Request} {d : Word} (e : s.perform r = .done t d) (h : Memory.wf s.mem = true) :
    Memory.wf t.mem = true := by simpa [e] using wf_perform s r h

@[simp] theorem wf_recheckOne (s : State) (id n : Nat) (h : Memory.wf s.mem = true) : Memory.wf (s.recheckOne id n).1.mem = true := by
  simp only [State.recheckOne]
  split
  · exact h
  · split
    · next r _ _ ahead passed _ =>
      have finish : Memory.wf (match s.perform r with
          | .done t d => ((t.putRequest { r with stage := .returned d }).wake r.core r.ctx, true)
          | .unmet => (s, false)
          | .trap t => ((s.putRequest { r with stage := .failed t.cause t.reason t.faddr t.detail5 }).wake r.core r.ctx, true)).1.mem
          = true := by
        split
        · next e => simp [wf_of_perform e h]
        · exact h
        · simp [h]
      split
      · split
        · exact h
        · split
          · exact finish
          · (repeat' split) <;> simp [h]
      · exact finish
    · exact h

@[simp] theorem wf_recheck (s : State) (key fuel n : Nat) (h : Memory.wf s.mem = true) : Memory.wf (s.recheck key fuel n).mem = true := by
  induction fuel generalizing s n with
  | zero => exact h
  | succ fuel ih =>
    have hl : Memory.wf ((s.waitersOn key).foldl (fun (acc : State × Bool) id => ((acc.1.recheckOne id n).1, acc.2 || (acc.1.recheckOne id n).2))
        (s, false)).1.mem = true :=
      List.foldlRecOn (motive := fun acc : State × Bool => Memory.wf acc.1.mem = true) _ _ h fun acc ha id _ => by simp [ha]
    simp only [State.recheck]
    split
    · exact ih _ _ hl
    · exact hl

@[simp] theorem wf_apply (s : State) (r : Request) (h : Memory.wf s.mem = true) : (s.apply r).Wf := by
  simp only [State.apply]
  split
  · next t d e =>
    have ht := wf_of_perform e (by simp [h])
    split
    · exact ht
    · refine wf_foldl (fun t k ht => ?_) ht
      split
      · refine wf_recheck _ _ _ _ (wf_foldl (fun t id ht => ?_) ht)
        split
        · exact ht
        · split <;> simp [ht]
      · simp [ht]
  · next e =>
    have hp := wf_perform (s.atSlice r) r (by simp [h])
    exact hp

theorem wf_of_apply {s t : State} {r : Request} {d : Word} (e : s.apply r = .done t d) (h : Memory.wf s.mem = true) :
    Memory.wf t.mem = true := by simpa [e] using wf_apply s r h

@[simp] theorem wf_enqueue (s : State) (r : Request) (h : Memory.wf s.mem = true) : Memory.wf (s.enqueue r).mem = true := by
  simp [State.enqueue, h]

@[simp] theorem mem_finishCounts (s : State) (r : Request) : (s.finishCounts r).mem = s.mem := by
  simp only [State.finishCounts]
  (repeat' split) <;> simp

@[simp] theorem mem_noteLost (s : State) (r : Request) : (s.noteLost r).mem = s.mem := by
  simp only [State.noteLost]
  (repeat' split) <;> simp

@[simp] theorem mem_loseRequest (s : State) (r : Request) (why : Nat) : (s.loseRequest r why).mem = s.mem := by
  simp only [State.loseRequest]
  (repeat' split) <;> simp

@[simp] theorem wf_readyToSend (s : State) (pl : Place) (n cls : Nat) : StopsWf (s.readyToSend pl n cls) := StopsWf.of (by simp [State.readyToSend])

@[simp] theorem mem_dispatch (s : State) (r : Request) : (s.dispatch r).mem = s.mem := by
  simp only [State.dispatch]
  (repeat' split) <;> simp

@[simp] theorem mem_beginRequest (s : State) (r : Request) : (s.beginRequest r).mem = s.mem := by
  simp only [State.beginRequest]
  (repeat' split) <;> simp

@[simp] theorem mem_launchRequest (s : State) (r : Request) : (s.launchRequest r).mem = s.mem := by
  simp [State.launchRequest]

@[simp] theorem wf_loseHere (s : State) (r : Request) (h : Memory.wf s.mem = true) : Memory.wf (s.loseHere r).mem = true := by
  simp [State.loseHere, h]

@[simp] theorem wf_sendCounted (s : State) (r : Request) (lost : Bool) (h : Memory.wf s.mem = true) :
    Memory.wf (s.sendCounted r lost).mem = true := by
  simp only [State.sendCounted]
  split
  · simp [h]
  · split
    · simp [h]
    · split
      · split
        · next e =>
          have ht := wf_of_apply e (by simp [h])
          split <;> simp [ht]
        · simp [h]
      · simp [h]

@[simp] theorem wf_retirePending (s : State) (length : Nat) (dies : List Reg) (d : Reg) (h : Memory.wf s.mem = true) :
    RunWf (s.retirePending length dies d) :=
  RunWf.of (by simp [State.retirePending, h])

@[simp] theorem wf_sendLoad (s : State) (p : Word) (pl : Place) (n : Nat) (op : MemOp) (data expected : Word) (d : Reg) (length : Nat)
    (dies : List Reg) (hint : BitVec 2) (h : Memory.wf s.mem = true) :
    RunWf (s.sendLoad p pl n op data expected d length dies hint) := by
  refine RunWf.of ?_
  simp only [State.sendLoad, gives_bind]
  refine Gives.mono (wf_readyToSend s pl n 0) fun _ _ => ?_
  split
  · simp [h]
  · split
    · simp +contextual [h]
    · split
      · simp +contextual [h]
      · split
        · split
          · next e => simp [wf_of_apply e (by simp [h])]
          · simp
          · simp
        · simp +contextual [h]

@[simp] theorem wf_sendStore (s : State) (p : Word) (pl : Place) (n : Nat) (op : MemOp) (data expected : Word) (length : Nat)
    (dies : List Reg) (hint : BitVec 2) (h : Memory.wf s.mem = true) :
    RunWf (s.sendStore p pl n op data expected length dies hint) := by
  refine RunWf.of ?_
  simp only [State.sendStore, gives_bind]
  refine Gives.mono (wf_readyToSend s pl n 1) fun _ _ => ?_
  split
  · simp +contextual [h]
  · split
    · simp +contextual [h]
    · split
      · split
        · next e => simp [wf_of_apply e (by simp [h])]
        · simp
        · simp
      · simp +contextual [h]

/-! ### The functions of Sys2Proof/Machine/Order.lean -/

@[simp] theorem wf_extent (s : State) (e faddr : Word) : StopsWf (s.extent e faddr) := by
  refine StopsWf.of ?_
  simp only [State.extent]
  (repeat' split) <;> simp

@[simp] theorem mem_hold (s : State) (id : Nat) (mask : BitVec 4) (what : HeldWhat) : (s.hold id mask what).mem = s.mem := by
  simp [State.hold]

@[simp] theorem wf_sendRelease (s : State) (p : Word) (pl : Place) (n : Nat) (op : MemOp) (data : Word) (d : Reg) (length : Nat) (dies : List Reg)
    (hint : BitVec 2) (h : Memory.wf s.mem = true) : RunWf (s.sendRelease p pl n op data d length dies hint) :=
  RunWf.of (by simp [State.sendRelease, h])

@[simp] theorem mem_satisfied (s : State) (op : MemOp) : (s.satisfied op).mem = s.mem := by
  simp [State.satisfied]

@[simp] theorem wf_atHome (s : State) (n cls : Nat) (d : Reg) (dies : List Reg) (op : MemOp) (start : Except Stop (Word × Place × Word))
    (ready : Word → Except Stop Unit) (h : Memory.wf s.mem = true) (hs : Gives (fun _ => True) start)
    (hr : ∀ p, Gives (fun _ => True) (ready p)) :
    RunWf (s.atHome n cls d dies op start ready) := by
  refine RunWf.of ?_
  unfold State.atHome
  split
  · split
    · simp +contextual [h]
    · simp [h]
    · simp
  · simp only [gives_bind]
    refine Gives.mono hs fun ⟨p, pl, data⟩ _ => ?_
    dsimp only
    refine Gives.mono (wf_readyToSend s pl n cls) fun _ _ => Gives.mono (hr p) fun _ _ => Gives.mono (wf_mayBegin s dies d) fun _ _ => ?_
    split
    · simp [h]
    · split
      · simp [h]
      · split
        · split
          · next e => simp [wf_of_apply e (by simp [h])]
          · simp
          · simp [h]
        · simp [h]

@[simp] theorem wf_blocking (s : State) (cls : Nat) (releases : Bool) (d : Reg) (dies : List Reg) (op : MemOp)
    (start : Except Stop (Word × Place × Word)) (h : Memory.wf s.mem = true) (h_start : Gives (fun _ => True) start) :
    RunWf (s.blocking cls releases d dies op start) :=
  RunWf.of (by simp (disch := simp +contextual [h, h_start]) [State.blocking])

@[simp] theorem wf_spaces (p : Word) (ok : List Nat) : StopsWf (spaces p ok) := StopsWf.of (by simp [spaces])

@[simp] theorem wf_rangeOf (s : State) (p len : Word) (ok : List Nat) : StopsWf (s.rangeOf p len ok) := StopsWf.of (by simp [State.rangeOf])

@[simp] theorem wf_execFence (d : BitVec 5) (a : BitVec 5) (l : Bool) (s : State) (h : Memory.wf s.mem = true) : OutcomeWf (execFence d a l s) :=
  wf_conclude h (by simp [h])

@[simp] theorem wf_execFlush (a : BitVec 5) (l : Bool) (b : BitVec 5) (m : Bool) (s : State) (h : Memory.wf s.mem = true) :
    OutcomeWf (execFlush a l b m s) :=
  wf_concludeAs h (by simp [h])

@[simp] theorem wf_execCinv (a : BitVec 5) (l : Bool) (b : BitVec 5) (m : Bool) (s : State) (h : Memory.wf s.mem = true) :
    OutcomeWf (execCinv a l b m s) :=
  wf_concludeAs h (by simp [h])

@[simp] theorem wf_prefetchLine (s : State) (core level line : Nat) (hint : BitVec 2) (near : Bool) (h : Memory.wf s.mem = true) :
    Memory.wf (s.prefetchLine core level line hint near).mem = true := by
  simp only [State.prefetchLine]
  (repeat' split) <;> simp [h]

@[simp] theorem wf_prefetchRange (s : State) (p : Word) (n : Nat) (hint : BitVec 2) (h : Memory.wf s.mem = true) :
    Memory.wf (s.prefetchRange p n hint).mem = true := by
  simp only [State.prefetchRange]
  (repeat' split) <;> simp +contextual [h]

@[simp] theorem wf_execPref (h : BitVec 2) (a : BitVec 5) (l : Bool) (b : BitVec 5) (m : Bool) (s : State) (hs : Memory.wf s.mem = true) :
    OutcomeWf (execPref h a l b m s) :=
  wf_concludeAs hs (by simp (disch := simp [hs]))

@[simp] theorem wf_waitFor (s : State) (length : Nat) (limits : List (BitVec 4)) (h : Memory.wf s.mem = true) : RunWf (waitFor s length limits) :=
  RunWf.of (by simp [waitFor, h])

@[simp] theorem wf_execWait (a : BitVec 4) (b : BitVec 4) (c : BitVec 4) (d : BitVec 4) (s : State) (h : Memory.wf s.mem = true) :
    OutcomeWf (execWait a b c d s) :=
  wf_conclude h (by simp [h])

/-! ### The functions of Sys2Proof/Machine/Atlas.lean -/

theorem wf_tableRead {s t : State} {part va n lin : Nat} {l : List Word} (e : s.tableRead part va n = .ok (l, lin, t))
    (h : Memory.wf s.mem = true) : Memory.wf t.mem = true := by
  simp only [State.tableRead] at e
  split at e
  · cases e
  · split at e
    · cases e
    · split at e
      · cases e
      · obtain ⟨-, -, rfl⟩ : _ ∧ _ ∧ _ = t := by simpa using e
        simp [h]

@[simp] theorem mem_filledEntry (s : State) (part lin : Nat) (now : Vector Word 8) : (s.filledEntry part lin now).2.mem = s.mem := by
  simp only [State.filledEntry]
  (repeat' split) <;> simp

theorem wf_lookupEntry {s t : State} {part tile tensor : Nat} {w : Vector Word 8} (e : s.lookupEntry part tile tensor = .ok (w, t))
    (h : Memory.wf s.mem = true) : Memory.wf t.mem = true := by
  simp only [State.lookupEntry] at e
  split at e
  · cases e
  · next x s' known =>
    have hs : Memory.wf s'.mem = true := by
      split at known
      · obtain ⟨-, rfl⟩ := Prod.mk.inj (Except.ok.inj known)
        simp [h]
      · split at known
        · cases known
        · split at known
          · cases known
          · next e' =>
            obtain ⟨-, rfl⟩ := Prod.mk.inj (Except.ok.inj known)
            simp [wf_tableRead e' h]
    split at e
    · cases e
    · obtain ⟨-, rfl⟩ := Prod.mk.inj (Except.ok.inj e)
      exact hs

theorem wf_lookupShard {s t : State} {part tile tensor index pkg va : Nat} {w : Vector Word 8}
    (e : s.lookupShard part tile tensor w index = .ok (pkg, va, t)) (h : Memory.wf s.mem = true) : Memory.wf t.mem = true := by
  simp only [State.lookupShard] at e
  split at e
  · split at e
    · cases e
    · obtain ⟨-, -, rfl⟩ : _ ∧ _ ∧ _ = t := by simpa using e
      simp [h]
  · split at e
    · cases e
    · next e' =>
      have ht := wf_tableRead e' h
      split at e
      · cases e
      · obtain ⟨-, -, rfl⟩ : _ ∧ _ ∧ _ = t := by simpa using e
        simp [ht]

@[simp] theorem wf_placeShard (s : State) (p : Word) (size : Nat) (need : Need) (h : Memory.wf s.mem = true) :
    Gives (fun x => Memory.wf x.2.mem = true) (s.placeShard p size need) := by
  unfold State.placeShard
  split
  · simp
  · split
    · simp
    · split
      · simp
      · simp only
        split
        · split <;> simp
        · next e =>
          have h1 := wf_lookupEntry e h
          split
          · simp
          · split
            · simp
            · split
              · split <;> simp
              · next e' =>
                have h2 := wf_lookupShard e' h1
                split
                · split <;> simp [h2]
                · exact h2

/-! ### The functions of Sys2Proof/Machine/Memory.lean -/

@[simp] theorem wf_loadAt (s : State) (length : Nat) (p : Word) (size : Nat) (sgn : Bool) (d : Reg) (dies : List Reg) (hint : BitVec 2)
    (h : Memory.wf s.mem = true) : RunWf (loadAt s length p size sgn d dies hint) :=
  RunWf.of (by simp [loadAt, h])

@[simp] theorem wf_storeAt (s : State) (length : Nat) (p : Word) (size : Nat) (data : Word) (dies : List Reg) (hint : BitVec 2)
    (h : Memory.wf s.mem = true) : RunWf (storeAt s length p size data dies hint) :=
  RunWf.of (by simp [storeAt, h])

@[simp] theorem wf_execLd (d : BitVec 5) (a : BitVec 5) (l : Bool) (sg : Bool) (z : BitVec 2) (h : BitVec 2) (i : BitVec 7) (s : State)
    (hs : Memory.wf s.mem = true) : OutcomeWf (execLd d a l sg z h i s) :=
  wf_concludeAs hs (by simp [hs])

@[simp] theorem wf_execSt (d : BitVec 5) (a : BitVec 5) (l : Bool) (e : Bool) (z : BitVec 2) (h : BitVec 2) (i : BitVec 7) (s : State)
    (hs : Memory.wf s.mem = true) : OutcomeWf (execSt d a l e z h i s) :=
  wf_concludeAs hs (by simp [hs])

@[simp] theorem wf_execLdx (d : BitVec 5) (a : BitVec 5) (l : Bool) (b : BitVec 5) (m : Bool) (sg : Bool) (z : BitVec 2) (h : BitVec 2)
    (x : BitVec 2) (s : State) (hs : Memory.wf s.mem = true) : OutcomeWf (execLdx d a l b m sg z h x s) :=
  wf_concludeAs hs (by simp [hs])

@[simp] theorem wf_execStx (d : BitVec 5) (a : BitVec 5) (l : Bool) (b : BitVec 5) (m : Bool) (e : Bool) (z : BitVec 2) (h : BitVec 2)
    (x : BitVec 2) (s : State) (hs : Memory.wf s.mem = true) : OutcomeWf (execStx d a l b m e z h x s) :=
  wf_concludeAs hs (by simp [hs])

@[simp] theorem wf_waitingLoad (s : State) (d a : Reg) (dies : List Reg) (delta : Int) (need : Need) (v : BitVec 7) (op : MemOp)
    (h : Memory.wf s.mem = true) : RunWf (waitingLoad s d a dies delta need v op) :=
  RunWf.of (by simp (disch := simp +contextual [h]) [waitingLoad])

@[simp] theorem wf_execLdFut (d : BitVec 5) (a : BitVec 5) (l : Bool) (h : BitVec 2) (i : BitVec 7) (s : State) (hs : Memory.wf s.mem = true) :
    OutcomeWf (execLdFut d a l h i s) :=
  wf_concludeAs hs (by simp [hs])

@[simp] theorem wf_execLdTake (d : BitVec 5) (a : BitVec 5) (l : Bool) (h : BitVec 2) (i : BitVec 7) (s : State) (hs : Memory.wf s.mem = true) :
    OutcomeWf (execLdTake d a l h i s) :=
  wf_concludeAs hs (by simp [hs])

@[simp] theorem wf_execLdtVeq (d : BitVec 5) (a : BitVec 5) (l : Bool) (b : BitVec 5) (m : Bool) (h : BitVec 2) (s : State)
    (hs : Memory.wf s.mem = true) : OutcomeWf (execLdtVeq d a l b m h s) :=
  wf_concludeAs hs (by simp [hs])

@[simp] theorem wf_execLdtVge (d : BitVec 5) (a : BitVec 5) (l : Bool) (b : BitVec 5) (m : Bool) (h : BitVec 2) (s : State)
    (hs : Memory.wf s.mem = true) : OutcomeWf (execLdtVge d a l b m h s) :=
  wf_concludeAs hs (by simp [hs])

@[simp] theorem wf_releasingStore (s : State) (p data : Word) (op : MemOp) (dies : List Reg) (h : Memory.wf s.mem = true) :
    RunWf (releasingStore s p data op dies) :=
  RunWf.of (by simp [releasingStore, h])

@[simp] theorem wf_execStFill (d : BitVec 5) (a : BitVec 5) (l : Bool) (e : Bool) (h : BitVec 2) (i : BitVec 7) (s : State)
    (hs : Memory.wf s.mem = true) : OutcomeWf (execStFill d a l e h i s) :=
  wf_concludeAs hs (by simp [hs])

@[simp] theorem wf_execStGive (d : BitVec 5) (a : BitVec 5) (l : Bool) (e : Bool) (h : BitVec 2) (i : BitVec 7) (s : State)
    (hs : Memory.wf s.mem = true) : OutcomeWf (execStGive d a l e h i s) :=
  wf_concludeAs hs (by simp (disch := simp [hs]))

@[simp] theorem wf_execSttVnx (d : BitVec 5) (a : BitVec 5) (l : Bool) (e : Bool) (h : BitVec 2) (s : State) (hs : Memory.wf s.mem = true) :
    OutcomeWf (execSttVnx d a l e h s) :=
  wf_concludeAs hs (by simp [hs])

@[simp] theorem wf_execSttVset (d : BitVec 5) (a : BitVec 5) (l : Bool) (b : BitVec 5) (m : Bool) (e : Bool) (h : BitVec 2) (s : State)
    (hs : Memory.wf s.mem = true) : OutcomeWf (execSttVset d a l b m e h s) :=
  wf_concludeAs hs (by simp [hs])

@[simp] theorem wf_execVrecl (a : BitVec 5) (l : Bool) (b : BitVec 5) (m : Bool) (s : State) (h : Memory.wf s.mem = true) :
    OutcomeWf (execVrecl a l b m s) :=
  wf_concludeAs h (by simp [h])

@[simp] theorem wf_execTagr (d : BitVec 5) (a : BitVec 5) (l : Bool) (s : State) (h : Memory.wf s.mem = true) : OutcomeWf (execTagr d a l s) :=
  wf_concludeAs h (by simp [h])

@[simp] theorem wf_execTagw (a : BitVec 5) (l : Bool) (b : BitVec 5) (m : Bool) (s : State) (h : Memory.wf s.mem = true) :
    OutcomeWf (execTagw a l b m s) :=
  wf_concludeAs h (by simp [h])

@[simp] theorem wf_sharded (q y : Word) : StopsWf (sharded q y) := StopsWf.of (by simp [sharded])

@[simp] theorem wf_readTwo (s : State) (a b : Reg) : StopsWf (s.readTwo a b) := StopsWf.of (by simp [State.readTwo])

@[simp] theorem wf_notService (s : State) : StopsWf (s.notService) := StopsWf.of (by simp [State.notService])

@[simp] theorem wf_execLds (d : BitVec 5) (a : BitVec 5) (l : Bool) (b : BitVec 5) (m : Bool) (sg : Bool) (z : BitVec 2) (h : BitVec 2) (s : State)
    (hs : Memory.wf s.mem = true) : OutcomeWf (execLds d a l b m sg z h s) := by
  refine wf_concludeAs hs ?_
  rw [gives_bind]
  refine Gives.mono (wf_readTwo s a b) fun ⟨x, y⟩ _ => ?_
  simp only [gives_bind]
  refine Gives.mono (wf_notService s) fun _ _ => Gives.mono (wf_sharded x y) fun p _ => ?_
  split
  · exact wf_atHome _ _ _ _ _ _ _ _ hs trivial fun _ => trivial
  · rw [gives_bind]
    refine Gives.mono (wf_placeShard s p _ _ hs) fun ⟨pl, t⟩ ht => ?_
    dsimp only
    split
    · exact wf_atHome _ _ _ _ _ _ _ _ ht trivial fun _ => trivial
    · exact wf_sendLoad _ _ _ _ _ _ _ _ _ _ _ ht

@[simp] theorem wf_execSts (d : BitVec 5) (a : BitVec 5) (l : Bool) (b : BitVec 5) (m : Bool) (e : Bool) (z : BitVec 2) (h : BitVec 2) (s : State)
    (hs : Memory.wf s.mem = true) : OutcomeWf (execSts d a l b m e z h s) := by
  refine wf_concludeAs hs ?_
  rw [gives_bind]
  refine Gives.mono (wf_readTwo s a b) fun ⟨x, y⟩ _ => ?_
  simp only [gives_bind]
  refine Gives.mono (wf_readReg s d) fun v _ => Gives.mono (wf_notService s) fun _ _ => Gives.mono (wf_sharded x y) fun p _ => ?_
  split
  · exact wf_atHome _ _ _ _ _ _ _ _ hs trivial fun _ => trivial
  · rw [gives_bind]
    refine Gives.mono (wf_placeShard s p _ _ hs) fun ⟨pl, t⟩ ht => ?_
    dsimp only
    split
    · exact wf_atHome _ _ _ _ _ _ _ _ ht trivial fun _ => trivial
    · exact wf_sendStore _ _ _ _ _ _ _ _ _ _ ht

@[simp] theorem wf_atomic (s : State) (d a : Reg) (l : Bool) (b : Reg) (m : Bool) (z : BitVec 1) (op : Nat → MemOp) (expected : Word)
    (h : Memory.wf s.mem = true) : RunWf (atomic s d a l b m z op expected) :=
  RunWf.of (by simp [atomic, h])

@[simp] theorem wf_execAmoSwap (d : BitVec 5) (a : BitVec 5) (l : Bool) (b : BitVec 5) (m : Bool) (z : BitVec 1) (h : BitVec 2) (s : State)
    (hs : Memory.wf s.mem = true) : OutcomeWf (execAmoSwap d a l b m z h s) :=
  wf_concludeAs hs (by simp [hs])

@[simp] theorem wf_execAmoAdd (d : BitVec 5) (a : BitVec 5) (l : Bool) (b : BitVec 5) (m : Bool) (z : BitVec 1) (h : BitVec 2) (s : State)
    (hs : Memory.wf s.mem = true) : OutcomeWf (execAmoAdd d a l b m z h s) :=
  wf_concludeAs hs (by simp [hs])

@[simp] theorem wf_execAmoAnd (d : BitVec 5) (a : BitVec 5) (l : Bool) (b : BitVec 5) (m : Bool) (z : BitVec 1) (h : BitVec 2) (s : State)
    (hs : Memory.wf s.mem = true) : OutcomeWf (execAmoAnd d a l b m z h s) :=
  wf_concludeAs hs (by simp [hs])

@[simp] theorem wf_execAmoOr (d : BitVec 5) (a : BitVec 5) (l : Bool) (b : BitVec 5) (m : Bool) (z : BitVec 1) (h : BitVec 2) (s : State)
    (hs : Memory.wf s.mem = true) : OutcomeWf (execAmoOr d a l b m z h s) :=
  wf_concludeAs hs (by simp [hs])

@[simp] theorem wf_execAmoXor (d : BitVec 5) (a : BitVec 5) (l : Bool) (b : BitVec 5) (m : Bool) (z : BitVec 1) (h : BitVec 2) (s : State)
    (hs : Memory.wf s.mem = true) : OutcomeWf (execAmoXor d a l b m z h s) :=
  wf_concludeAs hs (by simp [hs])

@[simp] theorem wf_execAmoMin (d : BitVec 5) (a : BitVec 5) (l : Bool) (b : BitVec 5) (m : Bool) (z : BitVec 1) (h : BitVec 2) (s : State)
    (hs : Memory.wf s.mem = true) : OutcomeWf (execAmoMin d a l b m z h s) :=
  wf_concludeAs hs (by simp [hs])

@[simp] theorem wf_execAmoMax (d : BitVec 5) (a : BitVec 5) (l : Bool) (b : BitVec 5) (m : Bool) (z : BitVec 1) (h : BitVec 2) (s : State)
    (hs : Memory.wf s.mem = true) : OutcomeWf (execAmoMax d a l b m z h s) :=
  wf_concludeAs hs (by simp [hs])

@[simp] theorem wf_execAmoMinu (d : BitVec 5) (a : BitVec 5) (l : Bool) (b : BitVec 5) (m : Bool) (z : BitVec 1) (h : BitVec 2) (s : State)
    (hs : Memory.wf s.mem = true) : OutcomeWf (execAmoMinu d a l b m z h s) :=
  wf_concludeAs hs (by simp [hs])

@[simp] theorem wf_execAmoMaxu (d : BitVec 5) (a : BitVec 5) (l : Bool) (b : BitVec 5) (m : Bool) (z : BitVec 1) (h : BitVec 2) (s : State)
    (hs : Memory.wf s.mem = true) : OutcomeWf (execAmoMaxu d a l b m z h s) :=
  wf_concludeAs hs (by simp [hs])

@[simp] theorem wf_execCas (d : BitVec 5) (a : BitVec 5) (l : Bool) (b : BitVec 5) (m : Bool) (z : BitVec 1) (h : BitVec 2) (s : State)
    (hs : Memory.wf s.mem = true) : OutcomeWf (execCas d a l b m z h s) :=
  wf_concludeAs hs (by simp [hs])

@[simp] theorem wf_reductionPlace (s : State) (p : Word) (need : Need) : StopsWf (reductionPlace s p need) := StopsWf.of (by simp [reductionPlace])

@[simp] theorem wf_execRedo (d : BitVec 5) (a : BitVec 5) (l : Bool) (b : BitVec 5) (m : Bool) (f : BitVec 6) (s : State)
    (h : Memory.wf s.mem = true) : OutcomeWf (execRedo d a l b m f s) :=
  wf_concludeAs h (by simp [h])

@[simp] theorem wf_execReda (a : BitVec 5) (l : Bool) (b : BitVec 5) (m : Bool) (f : BitVec 6) (s : State) (h : Memory.wf s.mem = true) :
    OutcomeWf (execReda a l b m f s) :=
  wf_concludeAs h (by simp (disch := simp [h]))

@[simp] theorem wf_reduceRead (s : State) (d a : Reg) (l : Bool) (f : BitVec 6) (op : MemOp) (h : Memory.wf s.mem = true) :
    RunWf (reduceRead s d a l f op) :=
  RunWf.of (by simp (disch := simp +contextual [h]) [reduceRead])

@[simp] theorem wf_execRedr (d : BitVec 5) (a : BitVec 5) (l : Bool) (f : BitVec 6) (s : State) (h : Memory.wf s.mem = true) :
    OutcomeWf (execRedr d a l f s) :=
  wf_concludeAs h (by simp [h])

@[simp] theorem wf_execRedc (d : BitVec 5) (a : BitVec 5) (l : Bool) (f : BitVec 6) (s : State) (h : Memory.wf s.mem = true) :
    OutcomeWf (execRedc d a l f s) :=
  wf_concludeAs h (by simp [h])

@[simp] theorem wf_recordPlace (s : State) (p : Word) : StopsWf (recordPlace s p) := StopsWf.of (by simp [recordPlace])

@[simp] theorem wf_execJinit (d : BitVec 5) (a : BitVec 5) (l : Bool) (b : BitVec 5) (m : Bool) (s : State) (h : Memory.wf s.mem = true) :
    OutcomeWf (execJinit d a l b m s) :=
  wf_concludeAs h (by simp [h])

@[simp] theorem wf_execJoin (d : BitVec 5) (a : BitVec 5) (l : Bool) (b : BitVec 5) (m : Bool) (s : State) (h : Memory.wf s.mem = true) :
    OutcomeWf (execJoin d a l b m s) :=
  wf_concludeAs h (by simp [h])

@[simp] theorem mem_takeNumber (s : State) : (s.takeNumber).2.mem = s.mem := by
  simp [State.takeNumber]

theorem wf_mcastTo (s : State) (p : Word) (fill : Bool) (grp : Nat) (op : BitVec 16) (lost : Bool) (data : List Nat) (i : Nat)
    (h : Memory.wf s.mem = true) : Gives (fun x => Memory.wf x.1.mem = true) (s.mcastTo p fill grp op lost data i) := by
  induction data generalizing s lost i with
  | nil => exact h
  | cons v rest ih =>
    simp only [State.mcastTo, gives_bind]
    refine Gives.mono (wf_advanceOr p (8 * i)) fun q _ => Gives.mono (wf_placeOf s q 8 Need.store _ _) fun pl _ => ?_
    generalize (if (rest.isEmpty && fill) = true then MemOp.storeFill else MemOp.store 8) = mop
    split
    · split <;> refine ih _ _ _ ?_ <;> simp [h]
    · split
      · refine ih _ _ _ ?_
        simp [h]
      · split
        · refine ih _ _ _ ?_
          simp [h]
        · split
          · next e => exact ih _ _ _ (wf_of_apply e (by simp [h]))
          · refine ih _ _ _ ?_
            simp [h]

@[simp] theorem wf_mcastAll (s : State) (fill : Bool) (grp : Nat) (op : BitVec 16) (data : List Nat) (lost : Bool) (ps : List Word)
    (h : Memory.wf s.mem = true) : Gives (fun x => Memory.wf x.1.mem = true) (s.mcastAll fill grp op data lost ps) := by
  induction ps generalizing s lost with
  | nil => exact h
  | cons p rest ih =>
    simp only [State.mcastAll, gives_bind]
    exact Gives.mono (wf_mcastTo s p fill grp op lost data 0 h) fun ⟨t, b⟩ ht => ih t b ht

@[simp] theorem wf_execMcast (d : BitVec 5) (a : BitVec 5) (l : Bool) (b : BitVec 5) (m : Bool) (s : State) (h : Memory.wf s.mem = true) :
    OutcomeWf (execMcast d a l b m s) := by
  refine wf_concludeAs h ?_
  simp only [gives_bind]
  refine Gives.mono (wf_readReg s a) fun src _ => Gives.mono (wf_readReg s b) fun lst _ => Gives.mono (wf_spaces src [0, 1]) fun _ _ =>
    Gives.mono (wf_spaces lst [0]) fun _ _ => ?_
  simp [h]
  intros
  split
  · split <;> trivial
  · simp only [gives_bind]
    refine Gives.mono (wf_fetchImage s _ _ _ h) fun data _ => ?_
    split
    · trivial
    · simp only [gives_bind]
      refine Gives.mono (wf_mcastAll _ _ _ _ _ _ _ (by simp [h])) fun x hx => wf_retire _ _ _ _ ?_
      simp [hx]

/-! ### The functions of Sys2Proof/Machine/Optics.lean -/

@[simp] theorem mem_setRing (s : State) (r : Nat) (x : Ring) : (s.setRing r x).mem = s.mem := by
  simp [State.setRing]

@[simp] theorem mem_setPort (s : State) (n : Nat) (p : Port) : (s.setPort n p).mem = s.mem := by
  simp [State.setPort]

@[simp] theorem mem_eachRing (s : State) (port : Nat) (f : Nat → Ring → Ring) : (s.eachRing port f).mem = s.mem := by
  simp [State.eachRing]

@[simp] theorem mem_wakeRings (s : State) (port : Nat) (mask : BitVec 16) : (s.wakeRings port mask).mem = s.mem := by
  simp [State.wakeRings]

@[simp] theorem mem_wakeCheck (s : State) (port : Nat) : (s.wakeCheck port).mem = s.mem := by
  simp [State.wakeCheck]

@[simp] theorem mem_writeOpark (s : State) (port : Nat) (v : Word) : (s.writeOpark port v).mem = s.mem := by
  simp [State.writeOpark]

@[simp] theorem wf_writeOheat (s : State) (r : Nat) (v : Word) (h : Memory.wf s.mem = true) : Memory.wf (s.writeOheat r v).mem = true := by
  simp [State.writeOheat, h]

@[simp] theorem mem_writeOasgn (s : State) (r : Nat) (v : Word) : (s.writeOasgn r v).mem = s.mem := by
  simp only [State.writeOasgn]
  (repeat' split) <;> simp

@[simp] theorem mem_writeRoute (s : State) (port dpkg : Nat) (valid : Bool) (hops : Nat) : (s.writeRoute port dpkg valid hops).mem = s.mem := by
  simp [State.writeRoute]

@[simp] theorem wf_writeOptical (s : State) (core n : Nat) (v : Word) (h : Memory.wf s.mem = true) :
    Memory.wf (s.writeOptical core n v).mem = true := by
  simp only [State.writeOptical]
  (repeat' split) <;> simp [h]

@[simp] theorem mem_setRouter (s : State) (n : Nat) (r : Router) : (s.setRouter n r).mem = s.mem := by
  simp [State.setRouter]

@[simp] theorem mem_writeDrain (s : State) (mask : BitVec 8) : (s.writeDrain mask).mem = s.mem := by
  simp [State.writeDrain]

@[simp] theorem mem_writeCacheDie (s : State) (core n : Nat) (v : Word) : (s.writeCacheDie core n v).mem = s.mem := by
  simp only [State.writeCacheDie]
  (repeat' split) <;> simp

@[simp] theorem wf_execOrteWrite (svc : Nat) (value : Word) (s : State) (h : Memory.wf s.mem = true) : OutcomeWf (execOrteWrite svc value s) := by
  simp [execOrteWrite, h]

@[simp] theorem wf_execOparkWrite (svc : Nat) (value : Word) (s : State) (h : Memory.wf s.mem = true) : OutcomeWf (execOparkWrite svc value s) := by
  simp [execOparkWrite, h]

@[simp] theorem wf_execOheatWrite (svc : Nat) (value : Word) (s : State) (h : Memory.wf s.mem = true) : OutcomeWf (execOheatWrite svc value s) := by
  simp [execOheatWrite, h]

@[simp] theorem wf_execOasgnWrite (svc : Nat) (value : Word) (s : State) (h : Memory.wf s.mem = true) : OutcomeWf (execOasgnWrite svc value s) := by
  simp [execOasgnWrite, h]

@[simp] theorem wf_execDrainWrite (mask : BitVec 8) (s : State) (h : Memory.wf s.mem = true) : OutcomeWf (execDrainWrite mask s) := by
  simp [execDrainWrite, h]

@[simp] theorem wf_execOpticalWakeTrigger (port : Nat) (s : State) (h : Memory.wf s.mem = true) : OutcomeWf (execOpticalWakeTrigger port s) := by
  simp [execOpticalWakeTrigger, h]

@[simp] theorem mem_ringStep (s : State) (ring : Nat) (may : Ring → Bool) (f : Ring → Ring) : (s.ringStep ring may f).mem = s.mem := by
  simp [State.ringStep]

@[simp] theorem wf_execRingSettleDone (ring : Nat) (s : State) (h : Memory.wf s.mem = true) : OutcomeWf (execRingSettleDone ring s) := by
  simp [execRingSettleDone, h]

@[simp] theorem wf_execRingLocked (ring : Nat) (s : State) (h : Memory.wf s.mem = true) : OutcomeWf (execRingLocked ring s) := by
  simp [execRingLocked, h]

@[simp] theorem mem_lockTimeout (s : State) (ring : Nat) : (s.lockTimeout ring).mem = s.mem := by
  simp [State.lockTimeout]

@[simp] theorem wf_execRingLockTimeout (ring : Nat) (s : State) (h : Memory.wf s.mem = true) : OutcomeWf (execRingLockTimeout ring s) := by
  simp [execRingLockTimeout, h]

@[simp] theorem wf_execRingDeskewDone (ring : Nat) (s : State) (h : Memory.wf s.mem = true) : OutcomeWf (execRingDeskewDone ring s) := by
  simp [execRingDeskewDone, h]

@[simp] theorem mem_stripeWiden (s : State) (port : Nat) : (s.stripeWiden port).mem = s.mem := by
  simp [State.stripeWiden]

@[simp] theorem wf_execStripeWiden (port : Nat) (s : State) (h : Memory.wf s.mem = true) : OutcomeWf (execStripeWiden port s) := by
  simp [execStripeWiden, h]

@[simp] theorem wf_monitorSample (s : State) (ring : Nat) (h : Memory.wf s.mem = true) : Memory.wf (s.monitorSample ring).mem = true := by
  simp [State.monitorSample, h]

@[simp] theorem wf_execMonitorSample (ring : Nat) (s : State) (h : Memory.wf s.mem = true) : OutcomeWf (execMonitorSample ring s) := by
  simp [execMonitorSample, h]

@[simp] theorem mem_farFlit (s : State) (port : Nat) (mask : BitVec 16) (may : Ring → Bool) (f : Ring → Ring) :
    (s.farFlit port mask may f).mem = s.mem := by
  simp [State.farFlit]

@[simp] theorem wf_execParkFlit (port : Nat) (mask : BitVec 16) (s : State) (h : Memory.wf s.mem = true) : OutcomeWf (execParkFlit port mask s) := by
  simp [execParkFlit, h]

@[simp] theorem wf_execWakeFlit (port : Nat) (mask : BitVec 16) (s : State) (h : Memory.wf s.mem = true) : OutcomeWf (execWakeFlit port mask s) := by
  simp [execWakeFlit, h]

@[simp] theorem wf_execLockReport (port : Nat) (s : State) (h : Memory.wf s.mem = true) : OutcomeWf (execLockReport port s) := by
  simp [execLockReport, h]

@[simp] theorem mem_sendQueued (s : State) (port : Nat) : (s.sendQueued port).mem = s.mem := by
  simp only [State.sendQueued]
  (repeat' split) <;> simp

@[simp] theorem mem_pump (s : State) : s.pump.mem = s.mem := by
  simp [State.pump]

@[simp] theorem mem_flitArrival (s : State) (port : Nat) (flit : BitVec 306) : (s.flitArrival port flit).mem = s.mem := by
  simp [State.flitArrival]

@[simp] theorem wf_execFlitArrival (port : Nat) (flit : BitVec 306) (s : State) (h : Memory.wf s.mem = true) :
    OutcomeWf (execFlitArrival port flit s) := by
  simp [execFlitArrival, h]

@[simp] theorem wf_execLinkNakResend (port : Nat) (lseq : BitVec 16) (s : State) (h : Memory.wf s.mem = true) :
    OutcomeWf (execLinkNakResend port lseq s) := by
  simp [execLinkNakResend, h]

@[simp] theorem mem_windowUpset (s : State) (port : Nat) (lseq : BitVec 16) : (s.windowUpset port lseq).mem = s.mem := by
  simp [State.windowUpset]

@[simp] theorem wf_execSendWindowDoubleUpset (port : Nat) (lseq : BitVec 16) (s : State) (h : Memory.wf s.mem = true) :
    OutcomeWf (execSendWindowDoubleUpset port lseq s) := by
  simp [execSendWindowDoubleUpset, h]

@[simp] theorem mem_replay (s : State) (id : Nat) : (s.replay id).mem = s.mem := by
  simp only [State.replay]
  (repeat' split) <;> simp

@[simp] theorem wf_execFabricTimedReplay (rid : Nat) (s : State) (h : Memory.wf s.mem = true) : OutcomeWf (execFabricTimedReplay rid s) := by
  simp [execFabricTimedReplay, h]

@[simp] theorem wf_execReplayNotice (rid : Nat) (s : State) (h : Memory.wf s.mem = true) : OutcomeWf (execReplayNotice rid s) := by
  simp [execReplayNotice, h]

@[simp] theorem mem_portDown (s : State) (port : Nat) : (s.portDown port).mem = s.mem := by
  simp [State.portDown]

@[simp] theorem wf_execPortDown (port : Nat) (s : State) (h : Memory.wf s.mem = true) : OutcomeWf (execPortDown port s) := by
  simp [execPortDown, h]

/-! ### The functions of Sys2Proof/Machine/Queue.lean -/

@[simp] theorem mem_offer (s : State) (tile : Nat) (t : Task) : (s.offer tile t).mem = s.mem := by
  simp only [State.offer]
  (repeat' split) <;> simp

@[simp] theorem mem_startTask (s : State) (core helper : Nat) (t : Task) (role : Role) (taskix : Word) :
    (s.startTask core helper t role taskix).mem = s.mem := by
  simp only [State.startTask]
  (repeat' split) <;> simp

@[simp] theorem mem_setChannel (s : State) (core ctx q : Nat) (h : Channel) : (s.setChannel core ctx q h).mem = s.mem := by
  simp [State.setChannel]

@[simp] theorem mem_dropChannel (s : State) (core ctx q : Nat) : (s.dropChannel core ctx q).mem = s.mem := by
  simp [State.dropChannel]

@[simp] theorem mem_setEntries (s : State) (core ctx q : Nat) (h : Channel) (es : List Entry) : (s.setEntries core ctx q h es).mem = s.mem := by
  simp only [State.setEntries]
  (repeat' split) <;> simp

@[simp] theorem mem_dropUnit (s : State) (grp : Nat) : (s.dropUnit grp).mem = s.mem := by
  simp [State.dropUnit]

@[simp] theorem mem_dropStreamRequests (s : State) (core n : Nat) : (s.dropStreamRequests core n).mem = s.mem := by
  simp [State.dropStreamRequests]

@[simp] theorem mem_unbindStream (s : State) (core n : Nat) : (s.unbindStream core n).mem = s.mem := by
  simp only [State.unbindStream]
  (repeat' split) <;> simp

end Sys2Proof.Machine
namespace Sys2Proof.Machine

/-! ## Every step keeps the memory canonical: stops, messages, contexts, crews, channels and administration -/

/-! ### The functions of Sys2Proof/Machine/Queue.lean -/

@[simp] theorem mem_unbindStreams (s : State) (core ctx : Nat) : (s.unbindStreams core ctx).mem = s.mem := by
  simp [State.unbindStreams]

@[simp] theorem wf_rootHalted (s : State) (id d core code : Nat) (h : Memory.wf s.mem = true) :
    Memory.wf (s.rootHalted id d core code).mem = true := by
  simp only [State.rootHalted]
  (repeat' split) <;> simp +contextual [h]

@[simp] theorem wf_memberHalted (s : State) (id core ctx code : Nat) (h : Memory.wf s.mem = true) :
    Memory.wf (s.memberHalted id core ctx code).mem = true := by
  simp only [State.memberHalted]
  (repeat' split) <;> simp +contextual [h]

@[simp] theorem wf_powerDown (s : State) (core ctx : Nat) (h : Memory.wf s.mem = true) : Memory.wf (s.powerDown core ctx).mem = true := by
  simp +contextual [State.powerDown, h]

@[simp] theorem wf_orphanOps (s : State) (core ctx : Nat) (h : Memory.wf s.mem = true) : Memory.wf (s.orphanOps core ctx).mem = true := by
  simp [State.orphanOps, h]

@[simp] theorem mem_leaveBarriers (s : State) (core ctx : Nat) : (s.leaveBarriers core ctx).mem = s.mem := by
  simp [State.leaveBarriers]

@[simp] theorem mem_emptyReceives (s : State) (core ctx : Nat) : (s.emptyReceives core ctx).mem = s.mem := by
  simp [State.emptyReceives]

@[simp] theorem wf_freeHelper (s : State) (core ctx code : Nat) (h : Memory.wf s.mem = true) :
    Memory.wf (s.freeHelper core ctx code).mem = true := by
  simp only [State.freeHelper]
  (repeat' split) <;> simp +contextual [h]

@[simp] theorem wf_stopHelper (s : State) (core ctx : Nat) (h : Memory.wf s.mem = true) : Memory.wf (s.stopHelper core ctx).mem = true := by
  simp (disch := simp [h]) [State.stopHelper]

/-! ### The functions of Sys2Proof/Machine/Stops.lean -/

@[simp] theorem wf_settleSync (s : State) (core ctx : Nat) (pend : Bool) (h : Memory.wf s.mem = true) :
    Memory.wf (s.settleSync core ctx pend).mem = true := by
  simp only [State.settleSync]
  (repeat' split) <;> simp [h]

@[simp] theorem wf_forgetAsked (s : State) (core ctx : Nat) (h : Memory.wf s.mem = true) : Memory.wf (s.forgetAsked core ctx).mem = true := by
  simp [State.forgetAsked, h]

@[simp] theorem mem_withdrawClaim (s : State) (core ctx : Nat) : (s.withdrawClaim core ctx).mem = s.mem := by
  simp [State.withdrawClaim]

@[simp] theorem mem_lay (s : State) (core ctx : Nat) (st : RunState) (stopsClaim : Bool) : (s.lay core ctx st stopsClaim).mem = s.mem := by
  simp [State.lay]

@[simp] theorem mem_lift (s : State) (core ctx : Nat) : (s.lift core ctx).mem = s.mem := by
  simp [State.lift]

@[simp] theorem wf_layAndSave (s : State) (core ctx : Nat) (st : RunState) (stopsClaim lanes : Bool) (h : Memory.wf s.mem = true) :
    Memory.wf (s.layAndSave core ctx st stopsClaim lanes).mem = true := by
  simp only [State.layAndSave]
  split
  · next e => exact wf_save e (by simp [h])
  · simp [h]

@[simp] theorem wf_retrySave (s : State) (core ctx : Nat) (h : Memory.wf s.mem = true) : Memory.wf (s.retrySave core ctx).mem = true := by
  simp only [State.retrySave]
  split
  · next e => simp [wf_save e h]
  · exact h

@[simp] theorem wf_applyPending (s : State) (core ctx : Nat) (h : Memory.wf s.mem = true) : Memory.wf (s.applyPending core ctx).mem = true := by
  simp only [State.applyPending]
  (repeat' split) <;> simp [h]

@[simp] theorem mem_reloadOrFault (s : State) (core ctx : Nat) : (s.reloadOrFault core ctx).1.mem = s.mem := by
  simp only [State.reloadOrFault]
  split
  · next e => exact mem_reload e
  · simp

@[simp] theorem mem_leaveTile (s : State) (core ctx : Nat) : (s.leaveTile core ctx).mem = s.mem := by
  simp [State.leaveTile]

@[simp] theorem mem_claimAgain (s : State) (core ctx : Nat) : (s.claimAgain core ctx).mem = s.mem := by
  simp only [State.claimAgain]
  (repeat' split) <;> simp

@[simp] theorem wf_writeRecord (s : State) (core : Nat) (h : Memory.wf s.mem = true) : Memory.wf (s.writeRecord core).mem = true := by
  simp only [State.writeRecord]
  split
  · exact h
  · split
    · exact h
    · split
      · next e => exact wf_superWrite e h
      · exact h

@[simp] theorem wf_seat (s : State) (core ctx : Nat) (h : Memory.wf s.mem = true) : Memory.wf (s.seat core ctx).mem = true := by
  simp only [State.seat]
  split
  · exact h
  · split
    · simp [h]
    · next e => simp [wf_save e (by simp [h])]

/-! ### The functions of Sys2Proof/Machine/System.lean -/

@[simp] theorem wf_splitSram (s : State) (core : Nat) (cw : BitVec 3) (h : Memory.wf s.mem = true) : Memory.wf (s.splitSram core cw).mem = true := by
  simp +contextual [State.splitSram, h]

@[simp] theorem wf_execLsplitWrite (core : Nat) (cw : BitVec 3) (s : State) (h : Memory.wf s.mem = true) :
    OutcomeWf (execLsplitWrite core cw s) := by
  simp [execLsplitWrite, h]

@[simp] theorem mem_writeVgroup (s : State) (tile : Nat) (en : Bool) : (s.writeVgroup tile en).mem = s.mem := by
  simp [State.writeVgroup]

@[simp] theorem wf_execVgroupWrite (tile : Nat) (en : Bool) (s : State) (h : Memory.wf s.mem = true) : OutcomeWf (execVgroupWrite tile en s) := by
  simp [execVgroupWrite, h]

@[simp] theorem wf_writeState (s : State) (n : Nat) (v : Word) (h : Memory.wf s.mem = true) : Memory.wf (s.writeState n v).mem = true := by
  simp only [State.writeState]
  (repeat' split) <;> simp [h]

@[simp] theorem wf_execSrd (g : BitVec 5) (n : BitVec 12) (s : State) (h : Memory.wf s.mem = true) : OutcomeWf (execSrd g n s) := by
  refine wf_concludeAs h ?_
  (repeat' split) <;> simp +contextual [h]

@[simp] theorem wf_execSwr (g : BitVec 5) (l : Bool) (n : BitVec 12) (s : State) (h : Memory.wf s.mem = true) : OutcomeWf (execSwr g l n s) := by
  refine wf_concludeAs h ?_
  (repeat' split) <;> simp +contextual [h]

@[simp] theorem wf_execTrap (n : BitVec 12) (s : State) (h : Memory.wf s.mem = true) : OutcomeWf (execTrap n s) := wf_concludeAs h (by simp)

@[simp] theorem wf_execBrk (n : BitVec 12) (s : State) (h : Memory.wf s.mem = true) : OutcomeWf (execBrk n s) := wf_concludeAs h (by simp)

@[simp] theorem wf_xret (s : State) (h : Memory.wf s.mem = true) : RunWf (s.xret) := RunWf.of (by simp (disch := simp [h]) [State.xret, h])

@[simp] theorem wf_execXret (s : State) (h : Memory.wf s.mem = true) : OutcomeWf (execXret s) := wf_concludeAs h (by simp [h])

@[simp] theorem wf_execNop (s : State) (h : Memory.wf s.mem = true) : OutcomeWf (execNop s) := wf_concludeAs h (by simp [h])

@[simp] theorem wf_execSynci (s : State) (h : Memory.wf s.mem = true) : OutcomeWf (execSynci s) := wf_concludeAs h (by simp [h])

@[simp] theorem wf_service (s : State) (n : Nat) (f : State → State) (h : Memory.wf s.mem = true)
    (h_f : ∀ t : State, Memory.wf t.mem = true → Memory.wf (f t).mem = true) : RunWf (s.service n f) :=
  RunWf.of (by simp [State.service, h, h_f])

@[simp] theorem mem_mint (s : State) : s.mint.mem = s.mem := by
  simp only [State.mint]
  (repeat' split) <;> simp

@[simp] theorem wf_execCapMint (s : State) (h : Memory.wf s.mem = true) : OutcomeWf (execCapMint s) := wf_concludeAs h (by simp [h])

@[simp] theorem mem_newGeneration (s : State) : s.newGeneration.mem = s.mem := by
  simp only [State.newGeneration]
  (repeat' split) <;> simp

@[simp] theorem wf_execCapNewGeneration (s : State) (h : Memory.wf s.mem = true) : OutcomeWf (execCapNewGeneration s) :=
  wf_concludeAs h (by simp [h])

@[simp] theorem wf_execIllegalEncoding (encoding : BitVec 32) (wide : Bool) (s : State) (h : Memory.wf s.mem = true) :
    OutcomeWf (execIllegalEncoding encoding wide s) :=
  wf_conclude h (by simp)

@[simp] theorem wf_execFetchFault (address : Word) (reason : Nat) (s : State) (h : Memory.wf s.mem = true) :
    OutcomeWf (execFetchFault address reason s) :=
  wf_conclude h (by simp)

/-! ### The functions of Sys2Proof/Machine/Task.lean -/

@[simp] theorem wf_routineEntry (s : State) (routine : Nat) (image : Word) (h : Memory.wf s.mem = true) :
    StopsWf (s.routineEntry routine image) := by
  refine StopsWf.of ?_
  simp only [State.routineEntry]
  split
  · trivial
  · simp only [gives_bind]
    refine Gives.mono (wf_fetchData s _ 8 h) fun w0 _ => Gives.mono (wf_fetchData s _ 8 h) fun w1 _ => ?_
    split <;> trivial

@[simp] theorem wf_taskImage (s : State) (p : Word) (h : Memory.wf s.mem = true) : StopsWf (s.taskImage p) :=
  StopsWf.of (by simp [State.taskImage, h])

@[simp] theorem wf_execSpawn (a : BitVec 5) (l : Bool) (b : BitVec 5) (m : Bool) (s : State) (h : Memory.wf s.mem = true) :
    OutcomeWf (execSpawn a l b m s) :=
  wf_concludeAs h (by simp [h])

@[simp] theorem wf_execLaunch (d : BitVec 5) (a : BitVec 5) (l : Bool) (s : State) (h : Memory.wf s.mem = true) :
    OutcomeWf (execLaunch d a l s) :=
  wf_concludeAs h (by simp [h])

@[simp] theorem wf_yielding (s : State) (length : Nat) (h : Memory.wf s.mem = true) : OutcomeWf (yielding s length) := wf_conclude h (by simp [h])

@[simp] theorem wf_execYield (s : State) (h : Memory.wf s.mem = true) : OutcomeWf (execYield s) := wf_conclude h (by simp [h])

@[simp] theorem wf_execPrio (d : BitVec 5) (a : BitVec 5) (l : Bool) (s : State) (h : Memory.wf s.mem = true) : OutcomeWf (execPrio d a l s) :=
  wf_conclude h (by simp [h])

/-! ### The functions of Sys2Proof/Machine/Message.lean -/

@[simp] theorem wf_destinationOf (s : State) (p : Word) : StopsWf (s.destinationOf p) := by
  refine StopsWf.of ?_
  simp only [State.destinationOf]
  (repeat' split) <;> simp

@[simp] theorem wf_mayClass (s : State) (cls : Nat) (p : Word) : StopsWf (s.mayClass cls p) := StopsWf.of (by simp [State.mayClass])

@[simp] theorem wf_messageImage (s : State) (p : Word) (h : Memory.wf s.mem = true) : StopsWf (s.messageImage p) :=
  StopsWf.of (by simp [State.messageImage, h])

@[simp] theorem wf_sendFrom (s : State) (dest : Dest) (counter : Nat) (m : Message) (faddr : Word) (dies : List Reg) (h : Memory.wf s.mem = true) :
    RunWf (s.sendFrom dest counter m faddr dies) :=
  RunWf.of (by simp [State.sendFrom, h])

@[simp] theorem wf_execSendm (a : BitVec 5) (l : Bool) (b : BitVec 5) (m : Bool) (s : State) (h : Memory.wf s.mem = true) :
    OutcomeWf (execSendm a l b m s) :=
  wf_concludeAs h (by simp [h])

@[simp] theorem wf_execReply (a : BitVec 5) (l : Bool) (s : State) (h : Memory.wf s.mem = true) : OutcomeWf (execReply a l s) := by
  refine wf_concludeAs h ?_
  (repeat' split) <;> simp +contextual [h]

@[simp] theorem wf_storePlaces (s : State) (p : Word) (i n : Nat) : StopsWf (s.storePlaces p i n) := by
  induction n generalizing i with
  | zero => trivial
  | succ n ih => exact StopsWf.of (by simp [State.storePlaces, ih])

@[simp] theorem wf_storeNow (s : State) (q : Word) (pl : Place) (v : Word) (h : Memory.wf s.mem = true) :
    Memory.wf (s.storeNow q pl v).mem = true := by
  simp [State.storeNow, h]

@[simp] theorem wf_receive (s : State) (length : Nat) (d a : Reg) (l : Bool) (h : Memory.wf s.mem = true) : RunWf (receive s length d a l) := by
  refine RunWf.of ?_
  simp only [receive, gives_bind]
  refine Gives.mono (wf_readReg s a) fun p _ => ?_
  split
  · trivial
  · split
    all_goals
      simp only [gives_bind]
      refine Gives.mono (P := fun _ => True) (by simp) fun places _ => ?_
      split
      · trivial
      · simp only [gives_bind]
        exact Gives.mono (wf_retire s _ _ _ h) fun t ht => wf_foldl (fun u x hu => wf_storeNow _ _ _ _ hu) (by simp [ht])

@[simp] theorem wf_execRecv (d : BitVec 5) (a : BitVec 5) (l : Bool) (s : State) (h : Memory.wf s.mem = true) : OutcomeWf (execRecv d a l s) :=
  wf_concludeAs h (by simp [h])

@[simp] theorem wf_execPeek (d : BitVec 5) (s : State) (h : Memory.wf s.mem = true) : OutcomeWf (execPeek d s) := wf_conclude h (by simp [h])

/-! ### The functions of Sys2Proof/Machine/Context.lean -/

@[simp] theorem wf_controlOnly (s : State) : StopsWf (s.controlOnly) := StopsWf.of (by simp [State.controlOnly])

@[simp] theorem wf_execHstart (d : BitVec 5) (a : BitVec 5) (l : Bool) (b : BitVec 5) (m : Bool) (s : State) (h : Memory.wf s.mem = true) :
    OutcomeWf (execHstart d a l b m s) := by
  refine wf_concludeAs h ?_
  simp only [gives_bind]
  refine Gives.mono (wf_needLevel s 1) fun _ _ => Gives.mono (wf_readReg s a) fun x _ => Gives.mono (wf_readReg s b) fun y _ =>
    Gives.mono (wf_controlOnly s) fun _ _ => Gives.mono (wf_retire s 4 _ _ h) fun r hr => ?_
  split
  · exact hr
  · simp [hr]

@[simp] theorem wf_halt (s : State) (a : Reg) (h : Memory.wf s.mem = true) : RunWf (halt s a) := RunWf.of (by simp (disch := simp [h]) [halt, h])

@[simp] theorem wf_execHhalt (a : BitVec 5) (l : Bool) (s : State) (h : Memory.wf s.mem = true) : OutcomeWf (execHhalt a l s) :=
  wf_concludeAs h (by simp [h])

@[simp] theorem wf_execHhaltRetain (a : BitVec 5) (l : Bool) (b : BitVec 5) (m : Bool) (s : State) (h : Memory.wf s.mem = true) :
    OutcomeWf (execHhaltRetain a l b m s) :=
  wf_concludeAs h (by simp [h])

@[simp] theorem wf_execHwait (d : BitVec 5) (a : BitVec 5) (l : Bool) (s : State) (h : Memory.wf s.mem = true) : OutcomeWf (execHwait d a l s) := by
  refine wf_concludeAs h ?_
  simp only [gives_bind]
  refine Gives.mono (wf_needLevel s 1) fun _ _ => Gives.mono (wf_readReg s a) fun x _ => Gives.mono (wf_controlOnly s) fun _ _ => ?_
  split <;> simp [h]

/-! ### The functions of Sys2Proof/Machine/Crew.lean -/

theorem mem_crewArrive {s t : State} {sg : Nat} {c : CrewRequest} (e : s.crewArrive sg c = some t) : t.mem = s.mem := by
  simp only [State.crewArrive, Option.map_eq_some_iff] at e
  obtain ⟨g, -, rfl⟩ := e
  split <;> simp

@[simp] theorem wf_crewArrive_getD {s t : State} {sg : Nat} {c : CrewRequest} (hs : Memory.wf s.mem = true) (ht : Memory.wf t.mem = true) :
    Memory.wf ((s.crewArrive sg c).getD t).mem = true := by
  cases e : s.crewArrive sg c with
  | none => exact ht
  | some u => exact (mem_crewArrive e).symm ▸ hs

@[simp] theorem wf_execCrew (a : BitVec 5) (l : Bool) (b : BitVec 5) (m : Bool) (s : State) (h : Memory.wf s.mem = true) :
    OutcomeWf (execCrew a l b m s) := by
  refine wf_concludeAs h ?_
  simp only [gives_bind]
  refine Gives.mono (wf_readReg s a) fun p _ => Gives.mono (wf_readReg s b) fun y _ => Gives.mono (wf_taskImage s p h) fun img _ => ?_
  split
  · trivial
  · simp only [gives_bind]
    refine Gives.mono (wf_retire s 4 _ [] h) fun r hr => ?_
    split
    · next e =>
      split at e
      · rw [gives_pure, mem_crewArrive e]
        simp [hr]
      · cases e
    · simp [hr]

@[simp] theorem wf_execCrewx (d : BitVec 5) (s : State) (h : Memory.wf s.mem = true) : OutcomeWf (execCrewx d s) := by
  refine wf_conclude h ?_
  (repeat' split) <;> simp +contextual [h]

@[simp] theorem wf_leaveBarrier (s : State) (b : Barrier) (a : Arrival) (dies : List Reg) (h : Memory.wf s.mem = true) :
    RunWf (s.leaveBarrier b a dies) :=
  RunWf.of (by simp [State.leaveBarrier, h])

@[simp] theorem wf_execBar (d : BitVec 5) (a : BitVec 5) (l : Bool) (n : BitVec 5) (s : State) (h : Memory.wf s.mem = true) :
    OutcomeWf (execBar d a l n s) := by
  refine wf_conclude h ?_
  simp only [gives_bind]
  refine Gives.mono (wf_readReg s a) fun e _ => ?_
  split
  · split
    · split
      · exact wf_leaveBarrier _ _ _ _ h
      · trivial
    · trivial
  · split
    · trivial
    · simp only [gives_bind]
      refine Gives.mono (wf_extent s e e) fun mask _ => ?_
      split
      · trivial
      · simp [h]

/-! ### The functions of Sys2Proof/Machine/Channel.lean -/

@[simp] theorem wf_binding (s : State) (x y : Word) (h : Memory.wf s.mem = true) : StopsWf (s.binding x y) := by
  refine StopsWf.of ?_
  simp only [State.binding]
  (repeat' split) <;> simp [h]

@[simp] theorem wf_execQbind (a : BitVec 5) (l : Bool) (b : BitVec 5) (m : Bool) (q : BitVec 3) (s : State) (h : Memory.wf s.mem = true) :
    OutcomeWf (execQbind a l b m q s) :=
  wf_concludeAs h (by simp [h])

@[simp] theorem wf_execQfree (q : BitVec 3) (s : State) (h : Memory.wf s.mem = true) : OutcomeWf (execQfree q s) := by
  refine wf_concludeAs h ?_
  (repeat' split) <;> simp +contextual [h]

@[simp] theorem wf_lightEntry (s : State) (data : Word) (h : Memory.wf s.mem = true) : RunWf (s.lightEntry data) :=
  RunWf.of (by simp [State.lightEntry, h])

@[simp] theorem wf_openChannel (s : State) (q : BitVec 3) (reads : Bool) : StopsWf (s.openChannel q reads) := by
  refine StopsWf.of ?_
  simp only [State.openChannel]
  (repeat' split) <;> simp

@[simp] theorem wf_streamNext (s : State) (h : Channel) (hs : Memory.wf s.mem = true) : StopsWf (s.streamNext h) :=
  StopsWf.of (by simp [State.streamNext, hs])

@[simp] theorem wf_awaitEntry (s : State) (h : Channel) (hs : Memory.wf s.mem = true) : RunWf (s.awaitEntry h) :=
  RunWf.of (by simp [State.awaitEntry, hs])

@[simp] theorem wf_execQctlPop (d : BitVec 5) (q : BitVec 3) (s : State) (h : Memory.wf s.mem = true) : OutcomeWf (execQctlPop d q s) := by
  refine wf_concludeAs h ?_
  simp only [gives_bind]
  refine Gives.mono (wf_openChannel s q true) fun ch _ => ?_
  split
  · exact wf_awaitEntry s ch h
  · split
    · simp [h]
    · rw [gives_bind]
      exact Gives.mono (wf_retire s 4 [] _ h) fun r hr => by simp [hr]

@[simp] theorem wf_push (s : State) (a : Reg) (l : Bool) (q : BitVec 3) (control : Bool) (h : Memory.wf s.mem = true) :
    RunWf (push s a l q control) :=
  RunWf.of (by simp [push, h])

@[simp] theorem wf_execQctlPush (a : BitVec 5) (l : Bool) (q : BitVec 3) (s : State) (h : Memory.wf s.mem = true) :
    OutcomeWf (execQctlPush a l q s) :=
  wf_concludeAs h (by simp [h])

@[simp] theorem wf_execQctlPushc (a : BitVec 5) (l : Bool) (q : BitVec 3) (s : State) (h : Memory.wf s.mem = true) :
    OutcomeWf (execQctlPushc a l q s) :=
  wf_concludeAs h (by simp [h])

@[simp] theorem wf_execQctlFlush (q : BitVec 3) (s : State) (h : Memory.wf s.mem = true) : OutcomeWf (execQctlFlush q s) := by
  refine wf_concludeAs h ?_
  (repeat' split) <;> simp +contextual [h]

@[simp] theorem wf_execQstat (d : BitVec 5) (q : BitVec 3) (s : State) (h : Memory.wf s.mem = true) : OutcomeWf (execQstat d q s) :=
  wf_conclude h (by simp [h])

@[simp] theorem wf_execQhnd (a : BitVec 5) (l : Bool) (s : State) (h : Memory.wf s.mem = true) : OutcomeWf (execQhnd a l s) :=
  wf_conclude h (by simp [h])

@[simp] theorem wf_execQret (s : State) (h : Memory.wf s.mem = true) : OutcomeWf (execQret s) := wf_concludeAs h (by simp [h])

/-! ### The functions of Sys2Proof/Machine/VectorCtl.lean -/

@[simp] theorem mem_leaveClaims (s : State) (tile : Nat) : (s.leaveClaims tile).mem = s.mem := by
  simp [State.leaveClaims]

@[simp] theorem wf_joinClaims (s : State) (tile req minreq : Nat) (h : Memory.wf s.mem = true) : RunWf (s.joinClaims tile req minreq) :=
  RunWf.of (by simp [State.joinClaims, h])

@[simp] theorem wf_granted (s : State) (d a : Reg) (l : Bool) (v : Nat) (c : Option Claim) (h : Memory.wf s.mem = true) :
    RunWf (s.granted d a l v c) :=
  RunWf.of (by simp [State.granted, h])

@[simp] theorem wf_grantedNew (s : State) (d a : Reg) (l : Bool) (c : Claim) (h : Memory.wf s.mem = true) : RunWf (s.grantedNew d a l c) :=
  RunWf.of (by simp [State.grantedNew, h])

@[simp] theorem wf_renegotiate (s : State) (d a : Reg) (l : Bool) (held : Claim) (x : Word) (h : Memory.wf s.mem = true) :
    RunWf (renegotiate s d a l held x) :=
  RunWf.of (by simp [renegotiate, h])

@[simp] theorem wf_execVclaim (d : BitVec 5) (a : BitVec 5) (l : Bool) (s : State) (h : Memory.wf s.mem = true) :
    OutcomeWf (execVclaim d a l s) := by
  refine wf_concludeAs h ?_
  (repeat' split) <;> simp +contextual [h]

@[simp] theorem wf_needClaim (s : State) : StopsWf (s.needClaim) := by
  refine StopsWf.of ?_
  simp only [State.needClaim]
  (repeat' split) <;> simp

@[simp] theorem wf_execVreneg (d : BitVec 5) (a : BitVec 5) (l : Bool) (s : State) (h : Memory.wf s.mem = true) :
    OutcomeWf (execVreneg d a l s) :=
  wf_concludeAs h (by simp [h])

@[simp] theorem mem_dropElements (s : State) (core ctx : Nat) : (s.dropElements core ctx).mem = s.mem := by
  simp [State.dropElements]

@[simp] theorem wf_execVrel (s : State) (h : Memory.wf s.mem = true) : OutcomeWf (execVrel s) := wf_concludeAs h (by simp [h])

@[simp] theorem mem_setClaim (s : State) (c : Claim) : (s.setClaim c).mem = s.mem := by
  simp [State.setClaim]

@[simp] theorem wf_execPcnt (d : BitVec 5) (k : BitVec 2) (s : State) (h : Memory.wf s.mem = true) : OutcomeWf (execPcnt d k s) :=
  wf_concludeAs h (by simp [h])

@[simp] theorem wf_execPwhile (d : BitVec 5) (a : BitVec 5) (l : Bool) (b : BitVec 5) (m : Bool) (k : BitVec 2) (s : State)
    (h : Memory.wf s.mem = true) : OutcomeWf (execPwhile d a l b m k s) :=
  wf_concludeAs h (by simp [h])

@[simp] theorem wf_execPmin (a : BitVec 5) (l : Bool) (k : BitVec 2) (kb : BitVec 2) (s : State) (h : Memory.wf s.mem = true) :
    OutcomeWf (execPmin a l k kb s) :=
  wf_concludeAs h (by simp [h])

/-! ### The functions of Sys2Proof/Machine/Admin.lean -/

@[simp] theorem wf_released (s : State) : StopsWf (s.released) := StopsWf.of (by simp [State.released])

@[simp] theorem wf_dropTranslations (s : State) (part start length : Nat) (h : Memory.wf s.mem = true) :
    Memory.wf (s.dropTranslations part start length).mem = true := by
  simp [State.dropTranslations, h]

@[simp] theorem wf_execPtinv (a : BitVec 5) (l : Bool) (b : BitVec 5) (m : Bool) (s : State) (h : Memory.wf s.mem = true) :
    OutcomeWf (execPtinv a l b m s) := by
  refine wf_concludeAs h ?_
  (repeat' split) <;> simp +contextual [h]

@[simp] theorem wf_writeEntry (s : State) (line : Option (Nat × Nat)) (key : Nat) (ws : List Word) (h : Memory.wf s.mem = true) :
    Memory.wf (s.writeEntry line key ws).mem = true := by
  simp +contextual [State.writeEntry, h]

@[simp] theorem mem_noteEntry (s : State) (lin : Nat) (ws : List Word) : (s.noteEntry lin ws).mem = s.mem := by
  simp only [State.noteEntry]
  (repeat' split) <;> simp

@[simp] theorem wf_execAtset (a : BitVec 5) (l : Bool) (b : BitVec 5) (m : Bool) (s : State) (h : Memory.wf s.mem = true) :
    OutcomeWf (execAtset a l b m s) := by
  refine wf_concludeAs h ?_
  simp only [gives_bind]
  refine Gives.mono (wf_needLevel s 1) fun _ _ => Gives.mono (wf_readReg s a) fun x _ => Gives.mono (wf_readReg s b) fun p _ =>
    Gives.mono (wf_released s) fun _ _ => Gives.mono (wf_spaces p [0]) fun _ _ => Gives.mono (wf_fetchImage s p 0 8 h) fun img _ => ?_
  split
  · trivial
  · split
    · trivial
    · simp only [gives_bind]
      refine Gives.mono (wf_placeOf s _ 8 Need.both false _) fun pl _ => ?_
      split
      · trivial
      · split
        · simp
          exact fun _ => Gives.mono (wf_retire _ 4 _ [] (by simp [h])) fun t ht => by simp [ht]
        · trivial

@[simp] theorem mem_invalidateAtlas (s : State) (part epoch : Nat) : (s.invalidateAtlas part epoch).mem = s.mem := mem_foldl fun _ _ => rfl

@[simp] theorem wf_execAtsync (d : BitVec 5) (s : State) (h : Memory.wf s.mem = true) : OutcomeWf (execAtsync d s) := by
  refine wf_concludeAs h ?_
  (repeat' split) <;> simp +contextual [h]

@[simp] theorem wf_streamBank (s : State) (src dst : Nat) (h : Memory.wf s.mem = true) : Memory.wf (s.streamBank src dst).mem = true := by
  have tags : ∀ (l : List Nat) (t : State), (l.foldl (fun t i => t.setTag (dst + 8 * i) (s.tag (src + 8 * i))) t).mem = t.mem :=
    fun l t => mem_foldl fun _ _ => by simp
  have stamps : ∀ (l : List Nat) (t : State), (l.foldl (fun t i => t.setStamp (dst + 4096 * i) (s.stamp (src + 4096 * i))) t).mem = t.mem :=
    fun l t => mem_foldl fun _ _ => by simp
  unfold State.streamBank
  simp only [tags, stamps, writeList_wf _ _ h]

@[simp] theorem wf_moveHelper (s : State) (h dest newh : Nat) (hs : Memory.wf s.mem = true) : Memory.wf (s.moveHelper h dest newh).mem = true := by
  have banks : ∀ l : List Nat,
      Memory.wf (l.foldl (fun (t : State) b => t.streamBank (sramKey s.cur.1 (b * 8192)) (sramKey dest (b * 8192))) s).mem = true :=
    fun l => wf_foldl (fun t b ht => by simp [ht]) hs
  simp [State.moveHelper, banks]

@[simp] theorem mem_unmigrate (s : State) (h : Nat) : (s.unmigrate h).mem = s.mem := by
  simp [State.unmigrate]

@[simp] theorem mem_migrationFailed (s : State) (h reason va : Nat) (quietly : Bool) : (s.migrationFailed h reason va quietly).mem = s.mem := by
  simp [State.migrationFailed]

@[simp] theorem wf_stream (s : State) (h dest : Nat) (quietly : Bool) (done : State → Run) (hs : Memory.wf s.mem = true)
    (hd : ∀ t : State, Memory.wf t.mem = true → Gives (fun u => Memory.wf u.mem = true) (done t)) : RunWf (s.stream h dest quietly done) := by
  refine RunWf.of ?_
  simp only [State.stream]
  split
  · simp [hs]
  · split
    · simp [hs]
    · next e =>
      have ht := wf_save e (by simp [hs])
      split
      · simp [ht]
      · next e' =>
        have hu := (mem_reload e').symm ▸ ht
        split
        · exact hu
        · exact hd _ (by simp [hu])

@[simp] theorem wf_migrate (s : State) (h dest : Nat) (done : State → Run) (hs : Memory.wf s.mem = true)
    (hd : ∀ t : State, Memory.wf t.mem = true → Gives (fun u => Memory.wf u.mem = true) (done t)) : RunWf (s.migrate h dest done) := by
  refine RunWf.of ?_
  unfold State.migrate
  extract_lets core c quietly stopped
  have hst : ∀ t, Memory.wf t.mem = true → Gives (fun u => Memory.wf u.mem = true) (stopped t) := fun t ht => by
    simp only [stopped]
    split
    · exact wf_stream _ _ _ _ _ (by simp [ht]) hd
    · simp [ht]
  clear_value stopped quietly
  split
  · exact hst s hs
  · split
    · trivial
    · split
      · simp [hs]
      · exact hst _ (by simp [hs])
  · split
    · exact hst _ (by simp [hs])
    · trivial
  · trivial

@[simp] theorem wf_execMigr (d : BitVec 5) (a : BitVec 5) (l : Bool) (b : BitVec 5) (m : Bool) (s : State) (h : Memory.wf s.mem = true) :
    OutcomeWf (execMigr d a l b m s) := by
  refine wf_concludeAs h ?_
  simp only [gives_bind]
  refine Gives.mono (wf_needLevel s 1) fun _ _ => Gives.mono (wf_readReg s a) fun x _ => Gives.mono (wf_readReg s b) fun y _ =>
    gives_when () trivial fun _ => gives_when () trivial fun _ => ?_
  simp only [gives_bind]
  refine Gives.mono (wf_spaces y [1]) fun _ _ => ?_
  split
  · rw [gives_bind]
    refine Gives.mono (wf_released s) fun _ _ => ?_
    split
    · simp [h]
    · exact wf_migrate _ _ _ _ h fun t ht => wf_retire t 4 _ _ ht
  · trivial

@[simp] theorem wf_gangOne (s : State) (core ctx : Nat) (h : Memory.wf s.mem = true) : Memory.wf (s.gangOne core ctx).mem = true := by
  simp only [State.gangOne]
  (repeat' split) <;> simp [h]

@[simp] theorem wf_gangStop (s : State) (part core ctx : Nat) (h : Memory.wf s.mem = true) : Memory.wf (s.gangStop part core ctx).mem = true := by
  simp (disch := simp +contextual [h]) [State.gangStop]

@[simp] theorem wf_gangRelease (s : State) (part : Nat) (h : Memory.wf s.mem = true) : Memory.wf (s.gangRelease part).mem = true := by
  refine wf_foldl (fun t n ht => by simp [ht]) (wf_foldl (fun t e ht => by simp [ht]) (wf_foldl (fun t e ht => ?_) h))
  split
  next e' =>
    have hv := mem_reloadOrFault t e.1 e.2
    rw [e'] at hv
    dsimp only at hv
    (repeat' split) <;> simp [hv, ht]

@[simp] theorem mem_setGang (s : State) (part : Nat) (g : Option Gang) : (s.setGang part g).mem = s.mem := by
  simp only [State.setGang]
  (repeat' split) <;> simp

@[simp] theorem wf_execGstop (d : BitVec 5) (a : BitVec 5) (l : Bool) (s : State) (h : Memory.wf s.mem = true) :
    OutcomeWf (execGstop d a l s) := by
  have retried : ∀ l : List (Nat × Nat), Memory.wf (l.foldl (fun (t : State) e =>
      if (t.ctx e.1 e.2).run = .faulted then t.retrySave e.1 e.2 else t) s).mem = true :=
    fun l => wf_foldl (fun t e ht => by split <;> simp [ht]) h
  refine wf_concludeAs h ?_
  simp only [gives_bind]
  refine Gives.mono (wf_needLevel s 1) fun _ _ => Gives.mono (wf_readReg s a) fun x _ => Gives.mono (wf_released s) fun _ _ => ?_
  split
  · split
    · simp (disch := simp [h, retried]) [retried]
    · simp (disch := simp [h])
  · simp [h]

/-! ### The functions of Sys2Proof/Machine/Schedule.lean -/

@[simp] theorem mem_launchReply (s : State) (r : LaunchRequest) (code : Nat) (args : List Word) : (s.launchReply r code args).mem = s.mem := by
  simp only [State.launchReply]
  (repeat' split) <;> simp

@[simp] theorem wf_distribute (s : State) (r : LaunchRequest) (h : Memory.wf s.mem = true) : Memory.wf (s.distribute r).mem = true := by
  simp only [State.distribute]
  (repeat' split) <;> simp +contextual [h]

@[simp] theorem wf_launchDistribute (s : State) (h : Memory.wf s.mem = true) : Memory.wf s.launchDistribute.mem = true := by
  simp only [State.launchDistribute]
  (repeat' split) <;> simp [h]

@[simp] theorem wf_execLaunchDistribute (s : State) (h : Memory.wf s.mem = true) : OutcomeWf (execLaunchDistribute s) := by
  simp [execLaunchDistribute, h]

theorem mem_placeEntry {s t : State} {l : Launch} {e : Nat × Nat} (he : s.placeEntry l e = some t) : t.mem = s.mem := by
  simp only [State.placeEntry, Option.map_eq_some_iff] at he
  obtain ⟨q, -, rfl⟩ := he
  simp

@[simp] theorem mem_launchEntryPlace (s : State) (die : Nat) : (s.launchEntryPlace die).mem = s.mem := by
  simp only [State.launchEntryPlace]
  split
  · rfl
  · next l _ =>
    have placed : ∀ (es : List (Nat × Nat)) (o : Option State), (∀ t ∈ o, t.mem = s.mem) →
        ∀ t ∈ es.foldl (fun acc e => acc.bind fun t => t.placeEntry l e) o, t.mem = s.mem := by
      intro es o ho
      refine List.foldlRecOn (motive := fun o : Option State => ∀ t ∈ o, t.mem = s.mem) _ _ ho fun o ho e _ t ht => ?_
      obtain ⟨u, hu, he⟩ := Option.bind_eq_some_iff.1 ht
      rw [mem_placeEntry he, ho u hu]
    split
    · rfl
    · next t e => exact placed _ (some s) (fun t ht => by cases ht; rfl) t e

@[simp] theorem wf_execLaunchEntryPlace (die : Nat) (s : State) (h : Memory.wf s.mem = true) : OutcomeWf (execLaunchEntryPlace die s) := by
  simp [execLaunchEntryPlace, h]

@[simp] theorem mem_startRoot (s : State) (core helper : Nat) (l : Launch) (i : Nat) : (s.startRoot core helper l i).mem = s.mem := by
  simp [State.startRoot]

@[simp] theorem mem_handOff (s : State) (tile : Nat) (e : QEntry) (core : Nat) : (s.handOff tile e core).mem = s.mem := by
  simp only [State.handOff]
  (repeat' split) <;> simp

@[simp] theorem mem_dispatchTile (s : State) (tile : Nat) : (s.dispatchTile tile).mem = s.mem := by
  simp only [State.dispatchTile]
  (repeat' split) <;> simp

@[simp] theorem wf_execDispatch (tile : Nat) (s : State) (h : Memory.wf s.mem = true) : OutcomeWf (execDispatch tile s) := by
  simp [execDispatch, h]

@[simp] theorem mem_spillRefill (s : State) (tile : Nat) : (s.spillRefill tile).mem = s.mem := by
  simp only [State.spillRefill]
  (repeat' split) <;> simp

@[simp] theorem wf_execSpillRefill (tile : Nat) (s : State) (h : Memory.wf s.mem = true) : OutcomeWf (execSpillRefill tile s) := by
  simp [execSpillRefill, h]

@[simp] theorem mem_spillOfferRetry (s : State) (tile : Nat) : (s.spillOfferRetry tile).mem = s.mem := by
  simp [State.spillOfferRetry]

@[simp] theorem wf_execSpillOfferRetry (tile : Nat) (s : State) (h : Memory.wf s.mem = true) : OutcomeWf (execSpillOfferRetry tile s) := by
  simp [execSpillOfferRetry, h]

@[simp] theorem mem_ageEntry (s : State) (part tile now : Nat) (e : QEntry) : (s.ageEntry part tile now e).mem = s.mem := by
  simp only [State.ageEntry]
  (repeat' split) <;> simp

@[simp] theorem mem_queueAgeing (s : State) (tile : Nat) : (s.queueAgeing tile).mem = s.mem := by
  simp only [State.queueAgeing]
  (repeat' split) <;> simp

@[simp] theorem wf_execQueueAgeing (tile : Nat) (s : State) (h : Memory.wf s.mem = true) : OutcomeWf (execQueueAgeing tile s) := by
  simp [execQueueAgeing, h]

@[simp] theorem mem_pressureSample (s : State) (tile : Nat) : (s.pressureSample tile).mem = s.mem := by
  simp only [State.pressureSample]
  (repeat' split) <;> simp

@[simp] theorem wf_execPressureSample (tile : Nat) (s : State) (h : Memory.wf s.mem = true) : OutcomeWf (execPressureSample tile s) := by
  simp [execPressureSample, h]

@[simp] theorem mem_sendPair (s : State) (t dir : Nat) (pair : Nat × Nat) (step : Nat) : (s.sendPair t dir pair step).mem = s.mem := by
  simp [State.sendPair]

@[simp] theorem mem_contourStep (s : State) (tile : Nat) : (s.contourStep tile).mem = s.mem := by
  simp only [State.contourStep]
  (repeat' split) <;> simp

@[simp] theorem wf_execContourStep (tile : Nat) (s : State) (h : Memory.wf s.mem = true) : OutcomeWf (execContourStep tile s) := by
  simp [execContourStep, h]

@[simp] theorem mem_placementDecision (s : State) (tile : Nat) : (s.placementDecision tile).mem = s.mem := by
  simp only [State.placementDecision]
  (repeat' split) <;> simp

@[simp] theorem wf_execPlacementDecision (tile : Nat) (s : State) (h : Memory.wf s.mem = true) : OutcomeWf (execPlacementDecision tile s) := by
  simp [execPlacementDecision, h]

@[simp] theorem mem_heldTaskResume (s : State) (tile : Nat) : (s.heldTaskResume tile).mem = s.mem := by
  simp [State.heldTaskResume]

@[simp] theorem wf_execHeldTaskResume (tile : Nat) (s : State) (h : Memory.wf s.mem = true) : OutcomeWf (execHeldTaskResume tile s) := by
  simp [execHeldTaskResume, h]

/-! ### The functions of Sys2Proof/Machine/Arbiter.lean -/

@[simp] theorem mem_granted311 (s : State) (sg : Nat) (r : CrewRequest) : (s.granted311 sg r).mem = s.mem := by
  simp [State.granted311]

@[simp] theorem mem_startCrew (s : State) (sg : Nat) (r : CrewRequest) (rect : Rect) : (s.startCrew sg r rect).mem = s.mem := by
  simp [State.startCrew]

@[simp] theorem mem_crewGrant (s : State) (sg : Nat) : (s.crewGrant sg).mem = s.mem := by
  simp only [State.crewGrant]
  (repeat' split) <;> simp

@[simp] theorem wf_execCrewGrant (sg : Nat) (s : State) (h : Memory.wf s.mem = true) : OutcomeWf (execCrewGrant sg s) := by
  simp [execCrewGrant, h]

@[simp] theorem mem_ageRequest (s : State) (part sg now : Nat) (r : CrewRequest) : (s.ageRequest part sg now r).mem = s.mem := by
  simp only [State.ageRequest]
  (repeat' split) <;> simp

@[simp] theorem mem_crewTarget (s : State) (sg : Nat) : (s.crewTarget sg).mem = s.mem := by
  simp only [State.crewTarget]
  (repeat' split) <;> simp

@[simp] theorem wf_execCrewTarget (sg : Nat) (s : State) (h : Memory.wf s.mem = true) : OutcomeWf (execCrewTarget sg s) := by
  simp [execCrewTarget, h]

@[simp] theorem wf_markSlot (s : State) (n base : Nat) (use : Bool) (h : Memory.wf s.mem = true) : Memory.wf (s.markSlot n base use).mem = true := by
  simp only [State.markSlot]
  split
  · next e => exact wf_superWrite e h
  · exact h

@[simp] theorem wf_copyDword (s : State) (from_ : Option (Nat × Nat)) (src : Nat) (to_ : Option (Nat × Nat)) (dst : Nat)
    (h : Memory.wf s.mem = true) : Memory.wf (s.copyDword from_ src to_ dst).mem = true := by
  simp [State.copyDword, h]

theorem wf_bankOut {s t : State} {n va key : Nat} {l : List Nat} (e : s.bankOut n va key l = .ok t) (h : Memory.wf s.mem = true) :
    Memory.wf t.mem = true := by
  induction l generalizing s with
  | nil =>
    obtain rfl := Except.ok.inj e
    exact h
  | cons i rest ih =>
    simp only [State.bankOut] at e
    split at e
    · cases e
    · exact ih e (by simp [h])

theorem wf_bankIn {s t : State} {n va key : Nat} {l : List Nat} (e : s.bankIn n va key l = .ok t) (h : Memory.wf s.mem = true) :
    Memory.wf t.mem = true := by
  induction l generalizing s with
  | nil =>
    obtain rfl := Except.ok.inj e
    exact h
  | cons i rest ih =>
    simp only [State.bankIn] at e
    split at e
    · cases e
    · exact ih e (by simp [h])

/-- `List.range 1024` is put aside before the recursion unfolds: the unifier would count it out. -/
theorem banksOut_cons (s : State) (n va core b : Nat) (rest : List Nat) : s.banksOut n va core (b :: rest) =
    (s.bankOut n va (sramKey core (b * 8192)) (List.range 1024) >>= fun t => t.banksOut n (va + 8192) core rest) := by
  delta State.banksOut State.banksOut._f
  generalize List.range 1024 = words
  dsimp only
  cases s.bankOut n va (sramKey core (b * 8192)) words <;> rfl

theorem wf_banksOut {s t : State} {n va core : Nat} {l : List Nat} (e : s.banksOut n va core l = .ok t) (h : Memory.wf s.mem = true) :
    Memory.wf t.mem = true := by
  induction l generalizing s va with
  | nil =>
    obtain rfl := Except.ok.inj e
    exact h
  | cons b rest ih =>
    rw [banksOut_cons] at e
    cases hb : s.bankOut n va (sramKey core (b * 8192)) (List.range 1024) with
    | error a =>
      rw [hb] at e
      cases e
    | ok u =>
      rw [hb] at e
      exact ih e (wf_bankOut hb h)

/-- `List.range 1024` is put aside before the recursion unfolds: the unifier would count it out. -/
theorem banksIn_cons (s : State) (n va core b : Nat) (rest : List Nat) : s.banksIn n va core (b :: rest) =
    (s.bankIn n va (sramKey core (b * 8192)) (List.range 1024) >>= fun t => t.banksIn n (va + 8192) core rest) := by
  delta State.banksIn State.banksIn._f
  generalize List.range 1024 = words
  dsimp only
  cases s.bankIn n va (sramKey core (b * 8192)) words <;> rfl

theorem wf_banksIn {s t : State} {n va core : Nat} {l : List Nat} (e : s.banksIn n va core l = .ok t) (h : Memory.wf s.mem = true) :
    Memory.wf t.mem = true := by
  induction l generalizing s va with
  | nil =>
    obtain rfl := Except.ok.inj e
    exact h
  | cons b rest ih =>
    rw [banksIn_cons] at e
    cases hb : s.bankIn n va (sramKey core (b * 8192)) (List.range 1024) with
    | error a =>
      rw [hb] at e
      cases e
    | ok u =>
      rw [hb] at e
      exact ih e (wf_bankIn hb h)

@[simp] theorem wf_swapStop (s : State) (m : Member) (h : Memory.wf s.mem = true) : Memory.wf (s.swapStop m).mem = true := by
  simp only [State.swapStop]
  (repeat' split) <;> simp [h]

@[simp] theorem wf_stopAgain (s : State) (c : Crew) (h : Memory.wf s.mem = true) : Memory.wf (s.stopAgain c).mem = true := by
  simp (disch := simp +contextual [h]) [State.stopAgain]

@[simp] theorem wf_captureBarrier (s : State) (m : Member) (h : Memory.wf s.mem = true) : Memory.wf (s.captureBarrier m).mem = true := by
  simp only [State.captureBarrier]
  (repeat' split) <;> simp [h]

theorem wf_swapSave {s t : State} {n slot : Nat} {l : List ((Nat × Nat) × Member)} (e : s.swapSave n slot l = .ok t)
    (h : Memory.wf s.mem = true) : Memory.wf t.mem = true := by
  induction l generalizing s with
  | nil =>
    obtain rfl := Except.ok.inj e
    exact h
  | cons x rest ih =>
    simp only [State.swapSave] at e
    split at e
    · cases e
    · next e1 =>
      split at e
      · cases e
      · next e2 => exact ih e (wf_banksOut e2 (wf_saveAt e1 h))

@[simp] theorem wf_swapAway (s : State) (c : Crew) (slot : Nat) (h : Memory.wf s.mem = true) : Memory.wf (s.swapAway c slot).mem = true := by
  simp only [State.swapAway]
  rw [mem_setSuperGroup]
  refine wf_foldl (fun t e ht => ht) (wf_foldl (fun t m ht => ?_) h)
  split <;> simp [ht]

@[simp] theorem mem_abandonSwap (s : State) (c : Crew) : (s.abandonSwap c).mem = s.mem := by
  simp [State.abandonSwap]

@[simp] theorem mem_raiseFloors (s : State) (c : Crew) : (s.raiseFloors c).mem = s.mem := by
  simp [State.raiseFloors]

@[simp] theorem wf_swapOn (s : State) (c : Crew) (n slot base : Nat) (h : Memory.wf s.mem = true) :
    Memory.wf (s.swapOn c n slot base).mem = true := by
  have captured : ∀ l : List ((Nat × Nat) × Member), Memory.wf ((l.foldl (fun t e => t.captureBarrier e.2) s).raiseFloors c).mem = true :=
    fun l => by
      rw [mem_raiseFloors]
      exact wf_foldl (fun t e ht => by simp [ht]) h
  simp only [State.swapOn]
  split
  · simp [h]
  · split
    · next e => exact wf_swapAway _ _ _ (wf_swapSave e (captured _))
    · refine wf_markSlot _ _ _ _ ?_
      rw [mem_saveFailed, mem_abandonSwap]
      exact captured _

@[simp] theorem wf_swapBegin (s : State) (c : Crew) (n slot base : Nat) (h : Memory.wf s.mem = true) :
    Memory.wf (s.swapBegin c n slot base).mem = true := by
  simp +contextual [State.swapBegin, h]

@[simp] theorem wf_crewSwap (s : State) (sg : Nat) (h : Memory.wf s.mem = true) : Memory.wf (s.crewSwap sg).mem = true := by
  simp only [State.crewSwap]
  (repeat' split) <;> simp [h]

@[simp] theorem wf_execCrewSwap (sg : Nat) (s : State) (h : Memory.wf s.mem = true) : OutcomeWf (execCrewSwap sg s) := by
  simp [execCrewSwap, h]

@[simp] theorem wf_resumeWaits (s : State) (core h : Nat) (hs : Memory.wf s.mem = true) : Memory.wf (s.resumeWaits core h).mem = true := by
  simp [State.resumeWaits, hs]

@[simp] theorem wf_restoreMember (s : State) (n base : Nat) (c : Crew) (rect : Rect) (k : Nat) (m : Member) (h : Memory.wf s.mem = true) :
    Memory.wf (s.restoreMember n base c rect k m).mem = true := by
  simp only [State.restoreMember]
  split
  · simp [h]
  · next e =>
    have ht := wf_banksIn e (by simp [h])
    split <;> simp [ht]

@[simp] theorem wf_restoreCrew (s : State) (c : Crew) (rect : Rect) (n base : Nat) (h : Memory.wf s.mem = true) :
    Memory.wf (s.restoreCrew c rect n base).mem = true := by
  refine wf_markSlot _ _ _ _ (wf_foldl (fun t k ht => ?_) h)
  split
  · split <;> simp [ht]
  · exact ht

@[simp] theorem wf_crewRestore (s : State) (sg : Nat) (h : Memory.wf s.mem = true) : Memory.wf (s.crewRestore sg).mem = true := by
  simp only [State.crewRestore]
  (repeat' split) <;> simp [h]

@[simp] theorem wf_execCrewRestore (sg : Nat) (s : State) (h : Memory.wf s.mem = true) : OutcomeWf (execCrewRestore sg s) := by
  simp [execCrewRestore, h]

/-! ### The functions of Sys2Proof/Machine/Flags.lean -/

@[simp] theorem mem_raise (s : State) (f : FpFlags) : (s.raise f).mem = s.mem := by
  simp [State.raise]

/-! ### The functions of Sys2Proof/Machine/Lanes.lean -/

@[simp] theorem wf_readV (s : State) (c : Claim) (v : BitVec 4) : StopsWf (s.readV c v) := by
  refine StopsWf.of ?_
  simp only [State.readV]
  (repeat' split) <;> simp

@[simp] theorem wf_writableV (s : State) (v : BitVec 4) : StopsWf (s.writableV v) := StopsWf.of (by simp [State.writableV])

@[simp] theorem wf_typeIn (ty : BitVec 4) (lo hi : Nat) : StopsWf (typeIn ty lo hi) := by
  refine StopsWf.of ?_
  simp only [typeIn]
  (repeat' split) <;> simp

@[simp] theorem wf_retireV (s : State) (dies : List Reg) (writes : List (Reg × Word)) (vd : Option (BitVec 4)) (c : Claim) (f : FpFlags)
    (h : Memory.wf s.mem = true) : RunWf (s.retireV dies writes vd c f) := by
  refine RunWf.of ?_
  simp only [State.retireV, gives_bind]
  refine Gives.mono (wf_retire s 4 dies writes h) fun r hr => ?_
  split
  · simp [hr]
  · split <;> simp [hr]

end Sys2Proof.Machine
namespace Sys2Proof.Machine

/-! ## Every step keeps the memory canonical: elements and matrix engines -/

/-! ### The functions of Sys2Proof/Machine/Elements.lean -/

@[simp] theorem wf_writePlace (s : State) (pl : Place) (size x : Nat) (h : Memory.wf s.mem = true) :
    Memory.wf (s.writePlace pl size x).mem = true := by
  simp [State.writePlace, h]

@[simp] theorem wf_unitRequest (s : State) (core part grp : Nat) (p : Word) (pl : Place) (op : MemOp) (data : Word) (h : Memory.wf s.mem = true) :
    Memory.wf (s.unitRequest core part grp p pl op data).mem = true := by
  simp [State.unitRequest, h]

/-! ### The functions of Sys2Proof/Machine/Engines.lean -/

@[simp] theorem wf_engineSpace (v : State) (p : Word) (ok : List Nat) : StopsWf (v.engineSpace p ok) := StopsWf.of (by simp [State.engineSpace])

@[simp] theorem wf_checkBlock (v : State) (core : Nat) (c : Command) (q : Word) : StopsWf (v.checkBlock core c q) := by
  refine StopsWf.of ?_
  unfold State.checkBlock
  extract_lets te pair source other j1 j2 j3 j4 j5 j6
  have hs : ∀ p n, StopsWf (source p n) := fun p n => StopsWf.of (by simp [source])
  have h1 : ∀ u, Gives (fun _ => True) (j1 u) := fun u => by
    simp only [j1]
    split <;> simp
  have h2 : ∀ u, Gives (fun _ => True) (j2 u) := fun u => gives_when () trivial h1
  have h3 : ∀ u, Gives (fun _ => True) (j3 u) := fun u => by
    clear_value j2
    simp [j3, hs, h2]
  have h4 : ∀ u, Gives (fun _ => True) (j4 u) := fun u => by
    clear_value j3
    simp [j4, h3]
  have h5 : ∀ u, Gives (fun _ => True) (j5 u) := fun u => gives_when () trivial h4
  have h6 : ∀ u, Gives (fun _ => True) (j6 u) := fun u => gives_when () trivial h5
  exact gives_when () trivial h6

@[simp] theorem mem_dropPlates (s : State) (sg : Nat) (which : Plate → Bool) : (s.dropPlates sg which).mem = s.mem := by
  simp [State.dropPlates]

@[simp] theorem mem_seekPlate (s : State) (sg : Nat) (c : Command) : (s.seekPlate sg c).1.mem = s.mem := by
  simp only [State.seekPlate]
  (repeat' split) <;> simp

@[simp] theorem mem_identify (s : State) (sg : Nat) (c : Command) : (s.identify sg c).1.mem = s.mem := by
  simp only [State.identify]
  (repeat' split) <;> simp

@[simp] theorem mem_identities (s : State) (core : Nat) : (s.identities core).mem = s.mem := by
  simp [State.identities]

@[simp] theorem mem_acceptCommand (s : State) (core : Nat) (c : Command) : (s.acceptCommand core c).mem = s.mem := by
  simp [State.acceptCommand]

@[simp] theorem mem_endCommand (s : State) (core : Nat) (c : Command) (code : Nat) (arg0 : Nat) (arg1 : Word) (flags : FpFlags) (arg3 : Word) :
    (s.endCommand core c code arg0 arg1 flags arg3).mem = s.mem := by
  simp [State.endCommand]

@[simp] theorem mem_faultCommand (s : State) (core : Nat) (c : Command) (step : Nat) (e : ElementFault) (flags : FpFlags) :
    (s.faultCommand core c step e flags).mem = s.mem := by
  simp only [State.faultCommand]
  (repeat' split) <;> simp

@[simp] theorem wf_writePatch (s : State) (core p : Nat) (acc : List (List Nat)) (h : Memory.wf s.mem = true) :
    Memory.wf (s.writePatch core p acc).mem = true := by
  simp [State.writePatch, h]

@[simp] theorem mem_engineView (s : State) (core : Nat) (c : Command) : (s.engineView core c).mem = s.mem := by
  simp [State.engineView]

@[simp] theorem wf_dropFrame (s : State) (key : Nat) (h : Memory.wf s.mem = true) : Memory.wf (s.dropFrame key).mem = true := by
  simp [State.dropFrame, h]

@[simp] theorem wf_tagEffect (s : State) (key effect : Nat) (version : BitVec 7) (h : Memory.wf s.mem = true) :
    Memory.wf (s.tagEffect key effect version).mem = true := by
  simp [State.tagEffect, h]

@[simp] theorem wf_remoteTags (s : State) (core : Nat) (c : Command) (xs : List Nat) (h : Memory.wf s.mem = true) :
    Memory.wf (s.remoteTags core c xs).mem = true := by
  simp [State.remoteTags, h]

/-- The state that a store of an output leaves. -/
def Stored.state : Stored → State
  | .done t _ => t
  | .sent t _ => t
  | .partly t _ => t
  | .failed t _ _ => t

@[simp] theorem state_done (t : State) (f : FpFlags) : (Stored.done t f).state = t := rfl
@[simp] theorem state_sent (t : State) (f : FpFlags) : (Stored.sent t f).state = t := rfl
@[simp] theorem state_partly (t : State) (ns : List Nat) : (Stored.partly t ns).state = t := rfl
@[simp] theorem state_failed (t : State) (e : ElementFault) (f : FpFlags) : (Stored.failed t e f).state = t := rfl

theorem wf_storeOutput (s : State) (core : Nat) (c : Command) (acc : List (List Nat)) (written : Option (List Nat)) (h : Memory.wf s.mem = true) :
    Memory.wf (s.storeOutput core c acc written).state.mem = true := by
  unfold State.storeOutput
  generalize List.range 1024 = all
  extract_lets v f size xs flags places keys met failure write chosen t u remote
  have hw : ∀ (l : List Nat), Memory.wf (l.foldl write s).mem = true := fun l => wf_foldl (fun t n ht => by
    simp only [write]
    split
    · split <;> simp [ht]
    · exact ht) h
  have ht : Memory.wf u.mem = true := hw _
  clear_value chosen failure u
  split
  · exact h
  · exact hw _
  · split
    · exact hw _
    · split
      · split <;> simp [ht]
      · split
        · simp [ht]
        · simp +contextual [ht]

@[simp] theorem mem_alterInlet (s : State) (core : Nat) (b : Bool) (f : Inlet → Inlet) : (s.alterInlet core b f).mem = s.mem := by
  simp [State.alterInlet]

@[simp] theorem mem_beginStreams (s : State) (core : Nat) (c : Command) (fmt : Nat) : (s.beginStreams core c fmt).mem = s.mem := by
  simp [State.beginStreams]

@[simp] theorem mem_leaveStreams (s : State) (core : Nat) (c : Command) : (s.leaveStreams core c).mem = s.mem := by
  simp [State.leaveStreams]

@[simp] theorem wf_release (s : State) (c : Command) (r : EngineRun) (h : Memory.wf s.mem = true) : Memory.wf (s.release c r).1.mem = true := by
  simp only [State.release]
  split <;> simp [h]

/-- The memory of the state that stands first, where lines are pinned and where one could not be. -/
def Pinned : Except (State × EngineRun × ElementFault) (State × EngineRun) → Prop
  | .ok (t, _) => Memory.wf t.mem = true
  | .error (t, _, _) => Memory.wf t.mem = true

theorem wf_pinAll (s : State) (core : Nat) (c : Command) (r : EngineRun) (l : List Word) (h : Memory.wf s.mem = true) :
    Pinned (s.pinAll core c r l) := by
  induction l generalizing s r with
  | nil => exact h
  | cons q rest ih =>
    simp only [State.pinAll]
    split
    · exact ih _ _ h
    · split
      · exact ih _ _ h
      · have ht : Memory.wf (if r.pins.length < 64 then (s, r) else s.release c r).1.mem = true := by split <;> simp [h]
        generalize (if r.pins.length < 64 then (s, r) else s.release c r) = x at ht ⊢
        obtain ⟨t, u⟩ := x
        dsimp only at ht ⊢
        · split
          · exact ht
          · split
            · exact ht
            · next e' => exact ih _ _ (wf_pin e' ht)

@[simp] theorem wf_readOperand (s : State) (core : Nat) (c : Command) (r : EngineRun) (b : Bool) (step x : Nat) (h : Memory.wf s.mem = true) :
    Memory.wf (s.readOperand core c r b step x).1.mem = true := by
  simp only [State.readOperand]
  split
  · exact h
  · split
    · exact h
    · have hp := wf_pinAll s core c r (c.pointers r b step x) h
      split
      · next e => simpa [e, Pinned] using hp
      · next e =>
        rw [e] at hp
        split <;> exact hp

@[simp] theorem wf_readSide (s : State) (core : Nat) (c : Command) (r : EngineRun) (b : Bool) (l : List Nat) (h : Memory.wf s.mem = true) :
    Memory.wf (s.readSide core c r b l).1.mem = true := by
  induction l generalizing s r with
  | nil => exact h
  | cons x rest ih =>
    have ho := wf_readOperand s core c r b r.step x h
    simp only [State.readSide]
    split
    · next e =>
      rw [e] at ho
      exact ih _ _ ho
    · exact ho

@[simp] theorem wf_takeSide (s : State) (core : Nat) (c : Command) (r : EngineRun) (b : Bool) (h : Memory.wf s.mem = true) :
    Memory.wf (s.takeSide core c r b).1.mem = true := by
  have hr := wf_readSide s core c r b (List.range (32 * r.k)) h
  simp only [State.takeSide]
  split
  · split <;> exact h
  · split
    all_goals
      next e =>
      rw [e] at hr
      exact hr

@[simp] theorem mem_keepRun (s : State) (core : Nat) (r : EngineRun) : (s.keepRun core r).mem = s.mem := by
  simp [State.keepRun]

/-- The state that the running command leaves. -/
def Ran.state : Ran → State
  | .goes t => t
  | .asks t _ _ _ => t
  | .ended t => t

@[simp] theorem state_goes (t : State) : (Ran.goes t).state = t := rfl
@[simp] theorem state_asks (t : State) (p : Word) (pl : Place) (n : Nat) : (Ran.asks t p pl n).state = t := rfl
@[simp] theorem state_ended (t : State) : (Ran.ended t).state = t := rfl

theorem wf_pauseAt (s : State) (core : Nat) (r : EngineRun) (p : Word) (pl : Place) (size : Nat) (h : Memory.wf s.mem = true) :
    Memory.wf (s.pauseAt core r p pl size).state.mem = true := by
  simp only [State.pauseAt]
  split <;> simp [h]

@[simp] theorem wf_freeEngine (s : State) (core : Nat) (h : Memory.wf s.mem = true) : Memory.wf (s.freeEngine core).mem = true := by
  simp only [State.freeEngine]
  (repeat' split) <;> simp [h]

@[simp] theorem mem_keepRunning (s : State) (core : Nat) (c : Command) : (s.keepRunning core c).mem = s.mem := by
  simp [State.keepRunning]

theorem wf_finishOutput (s : State) (core : Nat) (c : Command) (r : EngineRun) (steps : Nat) (h : Memory.wf s.mem = true) :
    Memory.wf (s.finishOutput core c r steps).state.mem = true := by
  have hs := wf_storeOutput s core c r.acc r.written h
  delta State.finishOutput
  generalize s.storeOutput core c r.acc r.written = x at hs ⊢
  match x, hs with
  | .done t f, ht => simp_all
  | .sent t f, ht => simp_all
  | .partly t ns, ht => simp_all
  | .failed t (.absent _ _ _) f, ht => simpa using h
  | .failed t (.fault _ _) f, ht => simp_all
  | .failed t (.poison _) f, ht => simp_all

theorem wf_deliver (s : State) (core : Nat) (c : Command) (r : EngineRun) (h : Memory.wf s.mem = true) :
    Memory.wf (s.deliver core c r).state.mem = true := by
  unfold State.deliver
  extract_lets t
  have ht : Memory.wf t.mem = true := by
    simp only [t]
    split <;> simp [h]
  clear_value t
  split
  · simp [ht]
  · exact wf_finishOutput _ _ _ _ _ ht

@[simp] theorem wf_stopCommand (s : State) (core : Nat) (c : Command) (r : EngineRun) (e : ElementFault) (h : Memory.wf s.mem = true) :
    Memory.wf (s.stopCommand core c r e).mem = true := by
  simp only [State.stopCommand]
  (repeat' split) <;> simp [h]

/-- The state that a step of a command leaves, whether it goes on or not. -/
def steppedTo : Ran ⊕ (State × EngineRun) → State
  | .inl x => x.state
  | .inr x => x.1

@[simp] theorem steppedTo_inl (x : Ran) : steppedTo (.inl x) = x.state := rfl
@[simp] theorem steppedTo_inr (x : State × EngineRun) : steppedTo (.inr x) = x.1 := rfl

theorem wf_runStep (s : State) (core : Nat) (c : Command) (r : EngineRun) (h : Memory.wf s.mem = true) :
    Memory.wf (steppedTo (s.runStep core c r)).mem = true := by
  unfold State.runStep
  extract_lets room sent pass
  split
  · simp [h]
  · have h1 := wf_takeSide s core c r false h
    generalize s.takeSide core c r false = x at h1 ⊢
    obtain ⟨t, r, a⟩ := x
    dsimp only at h1 ⊢
    have h2 := wf_takeSide t core c r true h1
    generalize t.takeSide core c r true = x at h2 ⊢
    obtain ⟨t, r, y⟩ := x
    dsimp only at h2 ⊢
    split
    · exact wf_pauseAt _ _ _ _ _ _ h2
    · exact wf_pauseAt _ _ _ _ _ _ h2
    · have hp : ∀ t b z, Memory.wf t.mem = true → Memory.wf (pass t b z).mem = true := fun t b z ht => by
        simp only [pass]
        split <;> split <;> simp [ht]
      have ht := hp _ true y (hp _ false a h2)
      generalize pass (pass t false a) true y = u at ht ⊢
      split
      · split <;> simp [ht]
      · simp [ht]

theorem wf_runSteps (s : State) (core : Nat) (c : Command) (n : Nat) (r : EngineRun) (h : Memory.wf s.mem = true) :
    Memory.wf (s.runSteps core c n r).state.mem = true := by
  induction n generalizing s r with
  | zero => simp [State.runSteps, h]
  | succ n ih =>
    have hs := wf_runStep s core c r h
    simp only [State.runSteps]
    split
    · exact wf_deliver _ _ _ _ h
    · split
      · next e =>
        rw [e] at hs
        exact hs
      · next e =>
        rw [e] at hs
        exact ih _ _ hs

@[simp] theorem wf_readAhead (s : State) (core : Nat) (c : Command) (r : EngineRun) (h : Memory.wf s.mem = true) :
    Memory.wf (s.readAhead core c r).1.mem = true := by
  simp only [State.readAhead]
  split
  · exact h
  · refine List.foldlRecOn (motive := fun p : State × EngineRun => Memory.wf p.1.mem = true) _ _ h fun p hp i _ => ?_
    split
    · exact hp
    · simp [hp]

theorem wf_drainWrong (s : State) (core : Nat) (c : Command) (r : EngineRun) (h : Memory.wf s.mem = true) :
    Memory.wf (s.drainWrong core c r).state.mem = true := by
  unfold State.drainWrong
  extract_lets empty t u taken
  have hu : Memory.wf u.mem = true := by simp [u, t, empty, h]
  clear_value u taken
  split <;> simp [hu]

theorem wf_startBlock (s : State) (core : Nat) (c : Command) (h : Memory.wf s.mem = true) :
    Memory.wf (steppedTo (s.startBlock core c)).mem = true := by
  unfold State.startBlock
  extract_lets header tile acc failed
  have hb : Memory.wf (s.beginStreams core c c.afmt).mem = true := by simp [h]
  split
  · simp [failed, h]
  · simp [failed, h]
  · simp [failed, h]
  · simp [failed, h]
  · extract_lets e
    split
    · exact h
    · simp [h]

theorem wf_runBlock (s : State) (core : Nat) (c : Command) (h : Memory.wf s.mem = true) : Memory.wf (s.runBlock core c).state.mem = true := by
  have started : Memory.wf (steppedTo (match (s.core core).engine.run with
      | some r => .inr (s, r)
      | none => s.startBlock core c)).mem = true := by
    split
    · exact h
    · exact wf_startBlock s core c h
  unfold State.runBlock
  extract_lets x
  change Memory.wf (steppedTo x).mem = true at started
  clear_value x
  match x, started with
  | .inl x, hx => exact hx
  | .inr (t, r), ht =>
    dsimp only
    split
    · exact wf_drainWrong _ _ _ _ ht
    · exact wf_runSteps _ _ _ _ _ (wf_readAhead _ _ _ _ ht)

theorem wf_runLoad (s : State) (core : Nat) (c : Command) (h : Memory.wf s.mem = true) : Memory.wf (s.runLoad core c).state.mem = true := by
  unfold State.runLoad
  extract_lets v f r first wanted read
  split
  · exact wf_pauseAt _ _ _ _ _ _ h
  · simp [h]
  · split
    · simp [h]
    · simp [h]

theorem wf_runStore (s : State) (core : Nat) (c : Command) (h : Memory.wf s.mem = true) : Memory.wf (s.runStore core c).state.mem = true := by
  simp only [State.runStore]
  split
  · simp [h]
  · exact wf_finishOutput _ _ _ _ _ h

theorem wf_runCommand (s : State) (core : Nat) (c : Command) (h : Memory.wf s.mem = true) : Memory.wf (s.runCommand core c).state.mem = true := by
  simp only [State.runCommand]
  split
  · split <;> simp [h]
  · split
    · simp [h]
    · exact wf_runLoad s core c h
    · exact wf_runStore s core c h
    · exact h
    · split
      · split
        · exact wf_finishOutput _ _ _ _ _ h
        · exact wf_runBlock s core c h
      · exact wf_runBlock s core c h

/-! ### The functions of Sys2Proof/Machine/Matrix.lean -/

@[simp] theorem wf_blockAt (s : State) (q : Word) (h : Memory.wf s.mem = true) : StopsWf (s.blockAt q) := StopsWf.of (by simp [State.blockAt, h])

@[simp] theorem wf_engineRoom (s : State) : StopsWf (s.engineRoom) := StopsWf.of (by simp [State.engineRoom])

@[simp] theorem wf_drainedDext (s : State) (q : Word) : StopsWf (s.drainedDext q) := StopsWf.of (by simp [State.drainedDext])

@[simp] theorem wf_queueCommand (s : State) (c : Command) (dies : List Reg) (d : Option Reg) (h : Memory.wf s.mem = true) :
    RunWf (s.queueCommand c dies d) :=
  RunWf.of (by simp [State.queueCommand, h])

@[simp] theorem wf_issueBlock (s : State) (d a : Reg) (l : Bool) (p : BitVec 4) (kind : CmdKind) (zero : Option Bool) (h : Memory.wf s.mem = true) :
    RunWf (issueBlock s d a l p kind zero) :=
  RunWf.of (by simp [issueBlock, h])

@[simp] theorem wf_execMma (d : BitVec 5) (a : BitVec 5) (l : Bool) (p : BitVec 4) (s : State) (h : Memory.wf s.mem = true) :
    OutcomeWf (execMma d a l p s) :=
  wf_concludeAs h (by simp [h])

@[simp] theorem wf_execMmaz (d : BitVec 5) (a : BitVec 5) (l : Bool) (p : BitVec 4) (s : State) (h : Memory.wf s.mem = true) :
    OutcomeWf (execMmaz d a l p s) :=
  wf_concludeAs h (by simp [h])

@[simp] theorem wf_execMbs (d : BitVec 5) (a : BitVec 5) (l : Bool) (p : BitVec 4) (s : State) (h : Memory.wf s.mem = true) :
    OutcomeWf (execMbs d a l p s) :=
  wf_concludeAs h (by simp [h])

@[simp] theorem wf_execMbsz (d : BitVec 5) (a : BitVec 5) (l : Bool) (p : BitVec 4) (s : State) (h : Memory.wf s.mem = true) :
    OutcomeWf (execMbsz d a l p s) :=
  wf_concludeAs h (by simp [h])

@[simp] theorem wf_execMsp (d : BitVec 5) (a : BitVec 5) (l : Bool) (p : BitVec 4) (s : State) (h : Memory.wf s.mem = true) :
    OutcomeWf (execMsp d a l p s) :=
  wf_concludeAs h (by simp [h])

@[simp] theorem wf_tilePointer (p : Word) : StopsWf (tilePointer p) := StopsWf.of (by simp [tilePointer])

@[simp] theorem mem_plateReady (s : State) (c : Command) : (s.plateReady c).mem = s.mem := by
  simp only [State.plateReady]
  (repeat' split) <;> simp

@[simp] theorem wf_execMpre (d : BitVec 5) (a : BitVec 5) (l : Bool) (s : State) (h : Memory.wf s.mem = true) : OutcomeWf (execMpre d a l s) :=
  wf_concludeAs h (by simp [h])

@[simp] theorem wf_execMpinv (a : BitVec 5) (l : Bool) (s : State) (h : Memory.wf s.mem = true) : OutcomeWf (execMpinv a l s) :=
  wf_concludeAs h (by simp [h])

@[simp] theorem wf_issuePatch (s : State) (d a : Reg) (l : Bool) (b : Reg) (m : Bool) (p : BitVec 4) (kind : CmdKind) (effect : Nat)
    (h : Memory.wf s.mem = true) : RunWf (issuePatch s d a l b m p kind effect) :=
  RunWf.of (by simp [issuePatch, h])

@[simp] theorem wf_execMld (d : BitVec 5) (a : BitVec 5) (l : Bool) (b : BitVec 5) (m : Bool) (p : BitVec 4) (s : State)
    (h : Memory.wf s.mem = true) : OutcomeWf (execMld d a l b m p s) :=
  wf_concludeAs h (by simp [h])

@[simp] theorem wf_execMst (d : BitVec 5) (a : BitVec 5) (l : Bool) (b : BitVec 5) (m : Bool) (p : BitVec 4) (s : State)
    (h : Memory.wf s.mem = true) : OutcomeWf (execMst d a l b m p s) :=
  wf_concludeAs h (by simp [h])

@[simp] theorem wf_execMstFill (d : BitVec 5) (a : BitVec 5) (l : Bool) (b : BitVec 5) (m : Bool) (p : BitVec 4) (s : State)
    (h : Memory.wf s.mem = true) : OutcomeWf (execMstFill d a l b m p s) :=
  wf_concludeAs h (by simp [h])

@[simp] theorem wf_execMstVnx (d : BitVec 5) (a : BitVec 5) (l : Bool) (b : BitVec 5) (m : Bool) (p : BitVec 4) (s : State)
    (h : Memory.wf s.mem = true) : OutcomeWf (execMstVnx d a l b m p s) :=
  wf_concludeAs h (by simp [h])

@[simp] theorem wf_execMstVset (d : BitVec 5) (a : BitVec 5) (l : Bool) (b : BitVec 5) (m : Bool) (p : BitVec 4) (s : State)
    (h : Memory.wf s.mem = true) : OutcomeWf (execMstVset d a l b m p s) :=
  wf_concludeAs h (by simp [h])

@[simp] theorem wf_execMzero (p : BitVec 4) (s : State) (h : Memory.wf s.mem = true) : OutcomeWf (execMzero p s) := wf_concludeAs h (by simp [h])

@[simp] theorem wf_execMrd (d : BitVec 5) (a : BitVec 5) (l : Bool) (p : BitVec 4) (s : State) (h : Memory.wf s.mem = true) :
    OutcomeWf (execMrd d a l p s) :=
  wf_concludeAs h (by simp [h])

@[simp] theorem wf_execMcmd (d : BitVec 5) (a : BitVec 5) (l : Bool) (b : BitVec 5) (m : Bool) (s : State) (h : Memory.wf s.mem = true) :
    OutcomeWf (execMcmd d a l b m s) := by
  refine wf_concludeAs h ?_
  simp only [gives_bind]
  refine Gives.mono (wf_readReg s a) fun q _ => Gives.mono (wf_readReg s b) fun y _ => Gives.mono (wf_notService s) fun _ _ =>
    Gives.mono (wf_spaces q [0, 1, 3]) fun _ _ => Gives.mono (wf_blockAt s q h) fun blk _ => Gives.mono (wf_spaces y [1]) fun _ _ => ?_
  split
  · refine gives_when () trivial fun _ => gives_when () trivial fun _ => gives_when () trivial fun _ => ?_
    simp only [gives_bind]
    refine Gives.mono (wf_extent s _ q) fun mask _ => Gives.mono (wf_retire s 4 _ _ h) fun t ht => ?_
    simp [ht]
  · trivial

@[simp] theorem wf_execMqry (d : BitVec 5) (a : BitVec 5) (l : Bool) (s : State) (h : Memory.wf s.mem = true) : OutcomeWf (execMqry d a l s) :=
  wf_concludeAs h (by simp [h])

/-! ### The functions of Sys2Proof/Machine/Commands.lean -/

@[simp] theorem mem_loseCommand (s : State) (c : Command) : (s.loseCommand c).mem = s.mem := by
  simp [State.loseCommand]

@[simp] theorem mem_engineAccept (s : State) (cid : Nat) : (s.engineAccept cid).mem = s.mem := by
  simp only [State.engineAccept]
  (repeat' split) <;> simp

@[simp] theorem wf_execEngineCommandAccept (cid : Nat) (s : State) (h : Memory.wf s.mem = true) : OutcomeWf (execEngineCommandAccept cid s) := by
  simp [execEngineCommandAccept, h]

@[simp] theorem mem_touchPlate (s : State) (core : Nat) (c : Command) : (s.touchPlate core c).mem = s.mem := by
  simp only [State.touchPlate]
  (repeat' split) <;> simp

@[simp] theorem mem_engineStart (s : State) (core : Nat) : (s.engineStart core).mem = s.mem := by
  simp only [State.engineStart]
  (repeat' split) <;> simp

@[simp] theorem wf_execEngineCommandStart (core : Nat) (s : State) (h : Memory.wf s.mem = true) : OutcomeWf (execEngineCommandStart core s) := by
  simp [execEngineCommandStart, h]

@[simp] theorem wf_engineComplete (s : State) (core : Nat) (h : Memory.wf s.mem = true) : Memory.wf (s.engineComplete core).mem = true := by
  simp only [State.engineComplete]
  split
  · exact h
  · next c _ =>
    have hr := wf_runCommand s core c h
    generalize s.runCommand core c = x at hr ⊢
    match x, hr with
    | .goes t, ht => exact ht
    | .asks t p pl n, ht =>
      have ht : Memory.wf t.mem = true := ht
      dsimp only
      split <;> simp [ht]
    | .ended t, ht => simp [show Memory.wf t.mem = true from ht]

@[simp] theorem wf_execEngineCommandComplete (core : Nat) (s : State) (h : Memory.wf s.mem = true) :
    OutcomeWf (execEngineCommandComplete core s) := by
  simp [execEngineCommandComplete, h]

@[simp] theorem wf_engineMigrate (s : State) (core cid : Nat) (h : Memory.wf s.mem = true) : Memory.wf (s.engineMigrate core cid).mem = true := by
  simp only [State.engineMigrate]
  (repeat' split) <;> simp [h]

@[simp] theorem wf_execEngineCommandMigrate (core : Nat) (cid : Nat) (s : State) (h : Memory.wf s.mem = true) :
    OutcomeWf (execEngineCommandMigrate core cid s) := by
  simp [execEngineCommandMigrate, h]

@[simp] theorem mem_onWaiting (s : State) (sg : Nat) (r : Engrave) (f : Command → Command) : (s.onWaiting sg r f).mem = s.mem := by
  simp [State.onWaiting]

@[simp] theorem mem_plateRound (s : State) (sg : Nat) : (s.plateRound sg).mem = s.mem := by
  simp [State.plateRound]

@[simp] theorem mem_dropEngrave (s : State) (sg : Nat) : (s.dropEngrave sg).mem = s.mem := by
  simp [State.dropEngrave]

@[simp] theorem mem_engraveStale (s : State) (sg : Nat) (r : Engrave) : (s.engraveStale sg r).mem = s.mem := by
  simp [State.engraveStale]

@[simp] theorem mem_engraveFailed (s : State) (sg : Nat) (r : Engrave) (e : Nat × Nat × Word) : (s.engraveFailed sg r e).mem = s.mem := by
  simp [State.engraveFailed]

@[simp] theorem mem_engraveBuilt (s : State) (sg : Nat) (r : Engrave) (e : Plate) : (s.engraveBuilt sg r e).mem = s.mem := by
  simp only [State.engraveBuilt]
  (repeat' split) <;> simp

@[simp] theorem mem_engraveStart (s : State) (sg : Nat) : (s.engraveStart sg).mem = s.mem := by
  simp only [State.engraveStart]
  (repeat' split) <;> simp

@[simp] theorem wf_execEngraveStart (sg : Nat) (s : State) (h : Memory.wf s.mem = true) : OutcomeWf (execEngraveStart sg s) := by
  simp [execEngraveStart, h]

@[simp] theorem mem_engraveComplete (s : State) (sg : Nat) : (s.engraveComplete sg).mem = s.mem := by
  simp only [State.engraveComplete]
  (repeat' split) <;> simp

@[simp] theorem wf_execEngraveComplete (sg : Nat) (s : State) (h : Memory.wf s.mem = true) : OutcomeWf (execEngraveComplete sg s) := by
  simp [execEngraveComplete, h]

/-! ### The functions of Sys2Proof/Machine/Control.lean -/

@[simp] theorem wf_branch (s : State) (length : Nat) (taken : Bool) (target : Word) (dies : List Reg) (h : Memory.wf s.mem = true) :
    RunWf (branch s length taken target dies) :=
  RunWf.of (by simp [branch, h])

@[simp] theorem wf_execBc (a : Reg) (l : Bool) (b : Reg) (m : Bool) (c : BitVec 3) (o : BitVec 10) (s : State) (h : Memory.wf s.mem = true) :
    OutcomeWf (execBc a l b m c o s) :=
  wf_conclude h (by simp [h])

@[simp] theorem wf_execJ (o : BitVec 25) (s : State) (h : Memory.wf s.mem = true) : OutcomeWf (execJ o s) := wf_conclude h (by simp [h])

@[simp] theorem wf_execJal (o : BitVec 25) (s : State) (h : Memory.wf s.mem = true) : OutcomeWf (execJal o s) := wf_conclude h (by simp [h])

@[simp] theorem wf_execJr (d a : Reg) (l : Bool) (i : BitVec 10) (s : State) (h : Memory.wf s.mem = true) : OutcomeWf (execJr d a l i s) :=
  wf_conclude h (by simp [h])

@[simp] theorem wf_execLoop (d : Reg) (i : BitVec 10) (s : State) (h : Memory.wf s.mem = true) : OutcomeWf (execLoop d i s) :=
  wf_conclude h (by simp [h])

/-! ### The functions of Sys2Proof/Machine/Pointer.lean -/

@[simp] theorem wf_pidxSize (p : Word) : StopsWf (pidxSize p) := StopsWf.of (by simp [pidxSize])

end Sys2Proof.Machine
namespace Sys2Proof.Machine

/-! ## Every step keeps the memory canonical: pointers, register operations, maps and copies -/

/-! ### The functions of Sys2Proof/Machine/Pointer.lean -/

@[simp] theorem wf_padd (s : State) (length : Nat) (d a : Reg) (l : Bool) (b : Reg) (m : Bool) (h : Memory.wf s.mem = true) :
    RunWf (padd s length d a l b m) :=
  RunWf.of (by simp [padd, h])

@[simp] theorem wf_execPadd (d a : Reg) (l : Bool) (b : Reg) (m : Bool) (s : State) (h : Memory.wf s.mem = true) :
    OutcomeWf (execPadd d a l b m s) :=
  wf_conclude h (by simp [h])

@[simp] theorem wf_execPidx (d a : Reg) (l : Bool) (b : Reg) (m : Bool) (s : State) (h : Memory.wf s.mem = true) :
    OutcomeWf (execPidx d a l b m s) :=
  wf_conclude h (by simp [h])

@[simp] theorem wf_execPset (d a : Reg) (l : Bool) (b : Reg) (m : Bool) (f : BitVec 2) (s : State) (h : Memory.wf s.mem = true) :
    OutcomeWf (execPset d a l b m f s) :=
  wf_conclude h (by simp [h])

@[simp] theorem wf_execPget (d a : Reg) (l : Bool) (f : BitVec 2) (s : State) (h : Memory.wf s.mem = true) : OutcomeWf (execPget d a l f s) :=
  wf_conclude h (by simp [h])

@[simp] theorem wf_execPcore (d a : Reg) (l : Bool) (b : Reg) (m : Bool) (s : State) (h : Memory.wf s.mem = true) :
    OutcomeWf (execPcore d a l b m s) :=
  wf_conclude h (by simp [h])

@[simp] theorem wf_execPshrd (d a : Reg) (l : Bool) (b : Reg) (m : Bool) (s : State) (h : Memory.wf s.mem = true) :
    OutcomeWf (execPshrd d a l b m s) :=
  wf_conclude h (by simp [h])

@[simp] theorem wf_execExt (d a : Reg) (l : Bool) (b : Reg) (m : Bool) (s : State) (h : Memory.wf s.mem = true) :
    OutcomeWf (execExt d a l b m s) :=
  wf_conclude h (by simp [h])

/-! ### The functions of Sys2Proof/Machine/Scalar.lean -/

@[simp] theorem wf_execAdd (d a : Reg) (l : Bool) (b : Reg) (m : Bool) (s : State) (h : Memory.wf s.mem = true) :
    OutcomeWf (execAdd d a l b m s) :=
  wf_conclude h (by simp [h])

@[simp] theorem wf_execSub (d a : Reg) (l : Bool) (b : Reg) (m : Bool) (s : State) (h : Memory.wf s.mem = true) :
    OutcomeWf (execSub d a l b m s) :=
  wf_conclude h (by simp [h])

@[simp] theorem wf_execAnd (d a : Reg) (l : Bool) (b : Reg) (m : Bool) (s : State) (h : Memory.wf s.mem = true) :
    OutcomeWf (execAnd d a l b m s) :=
  wf_conclude h (by simp [h])

@[simp] theorem wf_execOr (d a : Reg) (l : Bool) (b : Reg) (m : Bool) (s : State) (h : Memory.wf s.mem = true) : OutcomeWf (execOr d a l b m s) :=
  wf_conclude h (by simp [h])

@[simp] theorem wf_execXor (d a : Reg) (l : Bool) (b : Reg) (m : Bool) (s : State) (h : Memory.wf s.mem = true) :
    OutcomeWf (execXor d a l b m s) :=
  wf_conclude h (by simp [h])

@[simp] theorem wf_execAndn (d a : Reg) (l : Bool) (b : Reg) (m : Bool) (s : State) (h : Memory.wf s.mem = true) :
    OutcomeWf (execAndn d a l b m s) :=
  wf_conclude h (by simp [h])

@[simp] theorem wf_execShl (d a : Reg) (l : Bool) (b : Reg) (m : Bool) (s : State) (h : Memory.wf s.mem = true) :
    OutcomeWf (execShl d a l b m s) :=
  wf_conclude h (by simp [h])

@[simp] theorem wf_execShr (d a : Reg) (l : Bool) (b : Reg) (m : Bool) (s : State) (h : Memory.wf s.mem = true) :
    OutcomeWf (execShr d a l b m s) :=
  wf_conclude h (by simp [h])

@[simp] theorem wf_execSar (d a : Reg) (l : Bool) (b : Reg) (m : Bool) (s : State) (h : Memory.wf s.mem = true) :
    OutcomeWf (execSar d a l b m s) :=
  wf_conclude h (by simp [h])

@[simp] theorem wf_execRot (d a : Reg) (l : Bool) (b : Reg) (m : Bool) (s : State) (h : Memory.wf s.mem = true) :
    OutcomeWf (execRot d a l b m s) :=
  wf_conclude h (by simp [h])

@[simp] theorem wf_execMin (d a : Reg) (l : Bool) (b : Reg) (m : Bool) (s : State) (h : Memory.wf s.mem = true) :
    OutcomeWf (execMin d a l b m s) :=
  wf_conclude h (by simp [h])

@[simp] theorem wf_execMax (d a : Reg) (l : Bool) (b : Reg) (m : Bool) (s : State) (h : Memory.wf s.mem = true) :
    OutcomeWf (execMax d a l b m s) :=
  wf_conclude h (by simp [h])

@[simp] theorem wf_execMinu (d a : Reg) (l : Bool) (b : Reg) (m : Bool) (s : State) (h : Memory.wf s.mem = true) :
    OutcomeWf (execMinu d a l b m s) :=
  wf_conclude h (by simp [h])

@[simp] theorem wf_execMaxu (d a : Reg) (l : Bool) (b : Reg) (m : Bool) (s : State) (h : Memory.wf s.mem = true) :
    OutcomeWf (execMaxu d a l b m s) :=
  wf_conclude h (by simp [h])

@[simp] theorem wf_execSlt (d a : Reg) (l : Bool) (b : Reg) (m : Bool) (s : State) (h : Memory.wf s.mem = true) :
    OutcomeWf (execSlt d a l b m s) :=
  wf_conclude h (by simp [h])

@[simp] theorem wf_execSltu (d a : Reg) (l : Bool) (b : Reg) (m : Bool) (s : State) (h : Memory.wf s.mem = true) :
    OutcomeWf (execSltu d a l b m s) :=
  wf_conclude h (by simp [h])

@[simp] theorem wf_execSel (d a : Reg) (l : Bool) (b : Reg) (m : Bool) (s : State) (h : Memory.wf s.mem = true) :
    OutcomeWf (execSel d a l b m s) :=
  wf_conclude h (by simp [h])

@[simp] theorem wf_execMov (d a : Reg) (l : Bool) (s : State) (h : Memory.wf s.mem = true) : OutcomeWf (execMov d a l s) :=
  wf_conclude h (by simp [h])

@[simp] theorem wf_execClz (d a : Reg) (l : Bool) (s : State) (h : Memory.wf s.mem = true) : OutcomeWf (execClz d a l s) :=
  wf_conclude h (by simp [h])

@[simp] theorem wf_execCtz (d a : Reg) (l : Bool) (s : State) (h : Memory.wf s.mem = true) : OutcomeWf (execCtz d a l s) :=
  wf_conclude h (by simp [h])

@[simp] theorem wf_execPopc (d a : Reg) (l : Bool) (s : State) (h : Memory.wf s.mem = true) : OutcomeWf (execPopc d a l s) :=
  wf_conclude h (by simp [h])

@[simp] theorem wf_execBrev (d a : Reg) (l : Bool) (s : State) (h : Memory.wf s.mem = true) : OutcomeWf (execBrev d a l s) :=
  wf_conclude h (by simp [h])

@[simp] theorem wf_execBswp (d a : Reg) (l : Bool) (s : State) (h : Memory.wf s.mem = true) : OutcomeWf (execBswp d a l s) :=
  wf_conclude h (by simp [h])

@[simp] theorem wf_execAddW (d a : Reg) (l : Bool) (b : Reg) (m : Bool) (s : State) (h : Memory.wf s.mem = true) :
    OutcomeWf (execAddW d a l b m s) :=
  wf_conclude h (by simp [h])

@[simp] theorem wf_execSubW (d a : Reg) (l : Bool) (b : Reg) (m : Bool) (s : State) (h : Memory.wf s.mem = true) :
    OutcomeWf (execSubW d a l b m s) :=
  wf_conclude h (by simp [h])

@[simp] theorem wf_execAndW (d a : Reg) (l : Bool) (b : Reg) (m : Bool) (s : State) (h : Memory.wf s.mem = true) :
    OutcomeWf (execAndW d a l b m s) :=
  wf_conclude h (by simp [h])

@[simp] theorem wf_execOrW (d a : Reg) (l : Bool) (b : Reg) (m : Bool) (s : State) (h : Memory.wf s.mem = true) :
    OutcomeWf (execOrW d a l b m s) :=
  wf_conclude h (by simp [h])

@[simp] theorem wf_execXorW (d a : Reg) (l : Bool) (b : Reg) (m : Bool) (s : State) (h : Memory.wf s.mem = true) :
    OutcomeWf (execXorW d a l b m s) :=
  wf_conclude h (by simp [h])

@[simp] theorem wf_execAndnW (d a : Reg) (l : Bool) (b : Reg) (m : Bool) (s : State) (h : Memory.wf s.mem = true) :
    OutcomeWf (execAndnW d a l b m s) :=
  wf_conclude h (by simp [h])

@[simp] theorem wf_execShlW (d a : Reg) (l : Bool) (b : Reg) (m : Bool) (s : State) (h : Memory.wf s.mem = true) :
    OutcomeWf (execShlW d a l b m s) :=
  wf_conclude h (by simp [h])

@[simp] theorem wf_execShrW (d a : Reg) (l : Bool) (b : Reg) (m : Bool) (s : State) (h : Memory.wf s.mem = true) :
    OutcomeWf (execShrW d a l b m s) :=
  wf_conclude h (by simp [h])

@[simp] theorem wf_execSarW (d a : Reg) (l : Bool) (b : Reg) (m : Bool) (s : State) (h : Memory.wf s.mem = true) :
    OutcomeWf (execSarW d a l b m s) :=
  wf_conclude h (by simp [h])

@[simp] theorem wf_execRotW (d a : Reg) (l : Bool) (b : Reg) (m : Bool) (s : State) (h : Memory.wf s.mem = true) :
    OutcomeWf (execRotW d a l b m s) :=
  wf_conclude h (by simp [h])

@[simp] theorem wf_execMinW (d a : Reg) (l : Bool) (b : Reg) (m : Bool) (s : State) (h : Memory.wf s.mem = true) :
    OutcomeWf (execMinW d a l b m s) :=
  wf_conclude h (by simp [h])

@[simp] theorem wf_execMaxW (d a : Reg) (l : Bool) (b : Reg) (m : Bool) (s : State) (h : Memory.wf s.mem = true) :
    OutcomeWf (execMaxW d a l b m s) :=
  wf_conclude h (by simp [h])

@[simp] theorem wf_execMinuW (d a : Reg) (l : Bool) (b : Reg) (m : Bool) (s : State) (h : Memory.wf s.mem = true) :
    OutcomeWf (execMinuW d a l b m s) :=
  wf_conclude h (by simp [h])

@[simp] theorem wf_execMaxuW (d a : Reg) (l : Bool) (b : Reg) (m : Bool) (s : State) (h : Memory.wf s.mem = true) :
    OutcomeWf (execMaxuW d a l b m s) :=
  wf_conclude h (by simp [h])

@[simp] theorem wf_execSltW (d a : Reg) (l : Bool) (b : Reg) (m : Bool) (s : State) (h : Memory.wf s.mem = true) :
    OutcomeWf (execSltW d a l b m s) :=
  wf_conclude h (by simp [h])

@[simp] theorem wf_execSltuW (d a : Reg) (l : Bool) (b : Reg) (m : Bool) (s : State) (h : Memory.wf s.mem = true) :
    OutcomeWf (execSltuW d a l b m s) :=
  wf_conclude h (by simp [h])

@[simp] theorem wf_execClzW (d a : Reg) (l : Bool) (s : State) (h : Memory.wf s.mem = true) : OutcomeWf (execClzW d a l s) :=
  wf_conclude h (by simp [h])

@[simp] theorem wf_execCtzW (d a : Reg) (l : Bool) (s : State) (h : Memory.wf s.mem = true) : OutcomeWf (execCtzW d a l s) :=
  wf_conclude h (by simp [h])

@[simp] theorem wf_execPopcW (d a : Reg) (l : Bool) (s : State) (h : Memory.wf s.mem = true) : OutcomeWf (execPopcW d a l s) :=
  wf_conclude h (by simp [h])

@[simp] theorem wf_execAddImm (d a : Reg) (l : Bool) (i : BitVec 10) (s : State) (h : Memory.wf s.mem = true) :
    OutcomeWf (execAddImm d a l i s) :=
  wf_conclude h (by simp [h])

@[simp] theorem wf_execAndImm (d a : Reg) (l : Bool) (i : BitVec 10) (s : State) (h : Memory.wf s.mem = true) :
    OutcomeWf (execAndImm d a l i s) :=
  wf_conclude h (by simp [h])

@[simp] theorem wf_execOrImm (d a : Reg) (l : Bool) (i : BitVec 10) (s : State) (h : Memory.wf s.mem = true) : OutcomeWf (execOrImm d a l i s) :=
  wf_conclude h (by simp [h])

@[simp] theorem wf_execXorImm (d a : Reg) (l : Bool) (i : BitVec 10) (s : State) (h : Memory.wf s.mem = true) :
    OutcomeWf (execXorImm d a l i s) :=
  wf_conclude h (by simp [h])

@[simp] theorem wf_execSltImm (d a : Reg) (l : Bool) (i : BitVec 10) (s : State) (h : Memory.wf s.mem = true) :
    OutcomeWf (execSltImm d a l i s) :=
  wf_conclude h (by simp [h])

@[simp] theorem wf_execSltuImm (d a : Reg) (l : Bool) (i : BitVec 10) (s : State) (h : Memory.wf s.mem = true) :
    OutcomeWf (execSltuImm d a l i s) :=
  wf_conclude h (by simp [h])

@[simp] theorem wf_execMinImm (d a : Reg) (l : Bool) (i : BitVec 10) (s : State) (h : Memory.wf s.mem = true) :
    OutcomeWf (execMinImm d a l i s) :=
  wf_conclude h (by simp [h])

@[simp] theorem wf_execMaxImm (d a : Reg) (l : Bool) (i : BitVec 10) (s : State) (h : Memory.wf s.mem = true) :
    OutcomeWf (execMaxImm d a l i s) :=
  wf_conclude h (by simp [h])

@[simp] theorem wf_execShlImm (d a : Reg) (l : Bool) (c : BitVec 6) (s : State) (h : Memory.wf s.mem = true) : OutcomeWf (execShlImm d a l c s) :=
  wf_conclude h (by simp [h])

@[simp] theorem wf_execShrImm (d a : Reg) (l : Bool) (c : BitVec 6) (s : State) (h : Memory.wf s.mem = true) : OutcomeWf (execShrImm d a l c s) :=
  wf_conclude h (by simp [h])

@[simp] theorem wf_execSarImm (d a : Reg) (l : Bool) (c : BitVec 6) (s : State) (h : Memory.wf s.mem = true) : OutcomeWf (execSarImm d a l c s) :=
  wf_conclude h (by simp [h])

@[simp] theorem wf_execRotImm (d a : Reg) (l : Bool) (c : BitVec 6) (s : State) (h : Memory.wf s.mem = true) : OutcomeWf (execRotImm d a l c s) :=
  wf_conclude h (by simp [h])

@[simp] theorem wf_execAddWImm (d a : Reg) (l : Bool) (i : BitVec 10) (s : State) (h : Memory.wf s.mem = true) :
    OutcomeWf (execAddWImm d a l i s) :=
  wf_conclude h (by simp [h])

@[simp] theorem wf_execLi (d : Reg) (i : BitVec 19) (s : State) (h : Memory.wf s.mem = true) : OutcomeWf (execLi d i s) :=
  wf_conclude h (by simp [h])

@[simp] theorem wf_execLih (d : Reg) (h : BitVec 2) (i : BitVec 16) (s : State) (hs : Memory.wf s.mem = true) : OutcomeWf (execLih d h i s) :=
  wf_conclude hs (by simp [hs])

@[simp] theorem wf_execBfx (d a : Reg) (l : Bool) (o : BitVec 6) (w : BitVec 7) (s : State) (h : Memory.wf s.mem = true) :
    OutcomeWf (execBfx d a l o w s) :=
  wf_conclude h (by simp [h])

@[simp] theorem wf_execBfxs (d a : Reg) (l : Bool) (o : BitVec 6) (w : BitVec 7) (s : State) (h : Memory.wf s.mem = true) :
    OutcomeWf (execBfxs d a l o w s) :=
  wf_conclude h (by simp [h])

@[simp] theorem wf_execBfxs64 (d a : Reg) (l : Bool) (o : BitVec 6) (s : State) (h : Memory.wf s.mem = true) : OutcomeWf (execBfxs64 d a l o s) :=
  wf_conclude h (by simp [h])

@[simp] theorem wf_execBfi (d a : Reg) (l : Bool) (o : BitVec 6) (w : BitVec 7) (s : State) (h : Memory.wf s.mem = true) :
    OutcomeWf (execBfi d a l o w s) :=
  wf_conclude h (by simp [h])

@[simp] theorem wf_execBfxReg (d a : Reg) (l : Bool) (b : Reg) (m : Bool) (s : State) (h : Memory.wf s.mem = true) :
    OutcomeWf (execBfxReg d a l b m s) :=
  wf_conclude h (by simp [h])

@[simp] theorem wf_execBfxsReg (d a : Reg) (l : Bool) (b : Reg) (m : Bool) (s : State) (h : Memory.wf s.mem = true) :
    OutcomeWf (execBfxsReg d a l b m s) :=
  wf_conclude h (by simp [h])

@[simp] theorem wf_execBfiReg (d a : Reg) (l : Bool) (b : Reg) (m : Bool) (s : State) (h : Memory.wf s.mem = true) :
    OutcomeWf (execBfiReg d a l b m s) :=
  wf_conclude h (by simp [h])

@[simp] theorem wf_execMul (d a : Reg) (l : Bool) (b : Reg) (m : Bool) (s : State) (h : Memory.wf s.mem = true) :
    OutcomeWf (execMul d a l b m s) :=
  wf_conclude h (by simp [h])

@[simp] theorem wf_execMulh (d a : Reg) (l : Bool) (b : Reg) (m : Bool) (s : State) (h : Memory.wf s.mem = true) :
    OutcomeWf (execMulh d a l b m s) :=
  wf_conclude h (by simp [h])

@[simp] theorem wf_execMulhu (d a : Reg) (l : Bool) (b : Reg) (m : Bool) (s : State) (h : Memory.wf s.mem = true) :
    OutcomeWf (execMulhu d a l b m s) :=
  wf_conclude h (by simp [h])

@[simp] theorem wf_execDiv (d a : Reg) (l : Bool) (b : Reg) (m : Bool) (s : State) (h : Memory.wf s.mem = true) :
    OutcomeWf (execDiv d a l b m s) :=
  wf_conclude h (by simp [h])

@[simp] theorem wf_execDivu (d a : Reg) (l : Bool) (b : Reg) (m : Bool) (s : State) (h : Memory.wf s.mem = true) :
    OutcomeWf (execDivu d a l b m s) :=
  wf_conclude h (by simp [h])

@[simp] theorem wf_execRem (d a : Reg) (l : Bool) (b : Reg) (m : Bool) (s : State) (h : Memory.wf s.mem = true) :
    OutcomeWf (execRem d a l b m s) :=
  wf_conclude h (by simp [h])

@[simp] theorem wf_execRemu (d a : Reg) (l : Bool) (b : Reg) (m : Bool) (s : State) (h : Memory.wf s.mem = true) :
    OutcomeWf (execRemu d a l b m s) :=
  wf_conclude h (by simp [h])

@[simp] theorem wf_execMulW (d a : Reg) (l : Bool) (b : Reg) (m : Bool) (s : State) (h : Memory.wf s.mem = true) :
    OutcomeWf (execMulW d a l b m s) :=
  wf_conclude h (by simp [h])

@[simp] theorem wf_execMulhW (d a : Reg) (l : Bool) (b : Reg) (m : Bool) (s : State) (h : Memory.wf s.mem = true) :
    OutcomeWf (execMulhW d a l b m s) :=
  wf_conclude h (by simp [h])

@[simp] theorem wf_execMulhuW (d a : Reg) (l : Bool) (b : Reg) (m : Bool) (s : State) (h : Memory.wf s.mem = true) :
    OutcomeWf (execMulhuW d a l b m s) :=
  wf_conclude h (by simp [h])

@[simp] theorem wf_execDivW (d a : Reg) (l : Bool) (b : Reg) (m : Bool) (s : State) (h : Memory.wf s.mem = true) :
    OutcomeWf (execDivW d a l b m s) :=
  wf_conclude h (by simp [h])

@[simp] theorem wf_execDivuW (d a : Reg) (l : Bool) (b : Reg) (m : Bool) (s : State) (h : Memory.wf s.mem = true) :
    OutcomeWf (execDivuW d a l b m s) :=
  wf_conclude h (by simp [h])

@[simp] theorem wf_execRemW (d a : Reg) (l : Bool) (b : Reg) (m : Bool) (s : State) (h : Memory.wf s.mem = true) :
    OutcomeWf (execRemW d a l b m s) :=
  wf_conclude h (by simp [h])

@[simp] theorem wf_execRemuW (d a : Reg) (l : Bool) (b : Reg) (m : Bool) (s : State) (h : Memory.wf s.mem = true) :
    OutcomeWf (execRemuW d a l b m s) :=
  wf_conclude h (by simp [h])

/-! ### The functions of Sys2Proof/Machine/Compact.lean -/

@[simp] theorem wf_execCAdd (d : BitVec 5) (b : BitVec 5) (l : Bool) (s : State) (h : Memory.wf s.mem = true) : OutcomeWf (execCAdd d b l s) :=
  wf_conclude h (by simp [h])

@[simp] theorem wf_execCAddi (d : BitVec 5) (i : BitVec 6) (s : State) (h : Memory.wf s.mem = true) : OutcomeWf (execCAddi d i s) :=
  wf_conclude h (by simp [h])

@[simp] theorem wf_execCMov (d : BitVec 5) (b : BitVec 5) (l : Bool) (s : State) (h : Memory.wf s.mem = true) : OutcomeWf (execCMov d b l s) :=
  wf_conclude h (by simp [h])

@[simp] theorem wf_execCLi (d : BitVec 5) (i : BitVec 6) (s : State) (h : Memory.wf s.mem = true) : OutcomeWf (execCLi d i s) :=
  wf_conclude h (by simp [h])

@[simp] theorem wf_execCLd (d : BitVec 3) (a : BitVec 3) (l : Bool) (i : BitVec 4) (s : State) (h : Memory.wf s.mem = true) :
    OutcomeWf (execCLd d a l i s) :=
  wf_concludeAs h (by simp [h])

@[simp] theorem wf_execCSt (b : BitVec 3) (m : Bool) (a : BitVec 3) (l : Bool) (i : BitVec 3) (s : State) (h : Memory.wf s.mem = true) :
    OutcomeWf (execCSt b m a l i s) :=
  wf_concludeAs h (by simp [h])

@[simp] theorem wf_execCBz (a : BitVec 3) (l : Bool) (o : BitVec 6) (s : State) (h : Memory.wf s.mem = true) : OutcomeWf (execCBz a l o s) :=
  wf_conclude h (by simp [h])

@[simp] theorem wf_execCBnz (a : BitVec 3) (l : Bool) (o : BitVec 6) (s : State) (h : Memory.wf s.mem = true) : OutcomeWf (execCBnz a l o s) :=
  wf_conclude h (by simp [h])

@[simp] theorem wf_execCJ (o : BitVec 11) (s : State) (h : Memory.wf s.mem = true) : OutcomeWf (execCJ o s) := wf_conclude h (by simp [h])

@[simp] theorem wf_execCSub (d : BitVec 3) (a : BitVec 3) (l : Bool) (s : State) (h : Memory.wf s.mem = true) : OutcomeWf (execCSub d a l s) :=
  wf_conclude h (by simp [h])

@[simp] theorem wf_execCAnd (d : BitVec 3) (a : BitVec 3) (l : Bool) (s : State) (h : Memory.wf s.mem = true) : OutcomeWf (execCAnd d a l s) :=
  wf_conclude h (by simp [h])

@[simp] theorem wf_execCOr (d : BitVec 3) (a : BitVec 3) (l : Bool) (s : State) (h : Memory.wf s.mem = true) : OutcomeWf (execCOr d a l s) :=
  wf_conclude h (by simp [h])

@[simp] theorem wf_execCXor (d : BitVec 3) (a : BitVec 3) (l : Bool) (s : State) (h : Memory.wf s.mem = true) : OutcomeWf (execCXor d a l s) :=
  wf_conclude h (by simp [h])

@[simp] theorem wf_execCShl (d : BitVec 3) (a : BitVec 3) (l : Bool) (s : State) (h : Memory.wf s.mem = true) : OutcomeWf (execCShl d a l s) :=
  wf_conclude h (by simp [h])

@[simp] theorem wf_execCShr (d : BitVec 3) (a : BitVec 3) (l : Bool) (s : State) (h : Memory.wf s.mem = true) : OutcomeWf (execCShr d a l s) :=
  wf_conclude h (by simp [h])

@[simp] theorem wf_execCWait (m : BitVec 4) (s : State) (h : Memory.wf s.mem = true) : OutcomeWf (execCWait m s) := wf_conclude h (by simp [h])

@[simp] theorem wf_execCRecv (d : BitVec 5) (s : State) (h : Memory.wf s.mem = true) : OutcomeWf (execCRecv d s) := wf_concludeAs h (by simp [h])

@[simp] theorem wf_execCJr (a : BitVec 5) (l : Bool) (s : State) (h : Memory.wf s.mem = true) : OutcomeWf (execCJr a l s) :=
  wf_conclude h (by simp [h])

@[simp] theorem wf_execCPadd (d : BitVec 5) (b : BitVec 5) (l : Bool) (s : State) (h : Memory.wf s.mem = true) : OutcomeWf (execCPadd d b l s) :=
  wf_conclude h (by simp [h])

@[simp] theorem wf_execCNop (s : State) (h : Memory.wf s.mem = true) : OutcomeWf (execCNop s) := wf_conclude h (by simp [h])

@[simp] theorem wf_execCYield (s : State) (h : Memory.wf s.mem = true) : OutcomeWf (execCYield s) := wf_conclude h (by simp [h])

@[simp] theorem wf_execCHhalt (s : State) (h : Memory.wf s.mem = true) : OutcomeWf (execCHhalt s) := wf_concludeAs h (by simp [h])

/-! ### The functions of Sys2Proof/Machine/TensorMap.lean -/

@[simp] theorem wf_checkMap (m : Vector Word 8) (operand : Word) : StopsWf (checkMap m operand) := by
  refine StopsWf.of ?_
  simp only [checkMap]
  (repeat' split) <;> simp

@[simp] theorem mem_setMap (s : State) (n : BitVec 3) (m : Vector Word 8) : (s.setMap n m).mem = s.mem := by
  simp [State.setMap]

@[simp] theorem wf_execTmld (a : BitVec 5) (l : Bool) (p : BitVec 3) (s : State) (h : Memory.wf s.mem = true) : OutcomeWf (execTmld a l p s) :=
  wf_concludeAs h (by simp [h])

@[simp] theorem wf_execTmset (a : BitVec 5) (l : Bool) (n : BitVec 3) (p : BitVec 3) (s : State) (h : Memory.wf s.mem = true) :
    OutcomeWf (execTmset a l n p s) :=
  wf_concludeAs h (by simp [h])

@[simp] theorem wf_execTmget (d : BitVec 5) (n : BitVec 3) (p : BitVec 3) (s : State) (h : Memory.wf s.mem = true) :
    OutcomeWf (execTmget d n p s) :=
  wf_concludeAs h (by simp [h])

/-! ### The functions of Sys2Proof/Machine/Copy.lean -/

@[simp] theorem wf_copySpace (s : State) (p : Word) (source : Bool) : StopsWf (s.copySpace p source) := by
  refine StopsWf.of ?_
  simp only [State.copySpace]
  (repeat' split) <;> simp

@[simp] theorem wf_checkCopy (s : State) (c : Copy) : StopsWf (s.checkCopy c) := by
  refine StopsWf.of ?_
  unfold State.checkCopy
  extract_lets sized j1 j2 j3 j4 j5 j6
  have h1 : ∀ u, Gives (fun _ => True) (j1 u) := fun u => by
    simp only [j1]
    split
    · split <;> simp
    · trivial
  have h2 : ∀ u, Gives (fun _ => True) (j2 u) := fun u => gives_when () trivial h1
  have h3 : ∀ u, Gives (fun _ => True) (j3 u) := fun u => gives_when () trivial h2
  have h4 : ∀ u, Gives (fun _ => True) (j4 u) := fun u => gives_when () trivial h3
  have h5 : ∀ u, Gives (fun _ => True) (j5 u) := fun u => gives_when () trivial h4
  have h6 : ∀ u, Gives (fun _ => True) (j6 u) := fun u => gives_when () (by simp) h5
  exact gives_when () (by simp) h6

@[simp] theorem mem_endCopy (s : State) (c : Copy) (code arg0 : Nat) (arg1 : Word) (flags p : Nat) :
    (s.endCopy c code arg0 arg1 flags p).mem = s.mem := by
  simp [State.endCopy]

@[simp] theorem wf_issueCopy (s : State) (c : Copy) (d : Reg) (dies : List Reg) (h : Memory.wf s.mem = true) : RunWf (issueCopy s c d dies) := by
  refine RunWf.of ?_
  unfold issueCopy
  extract_lets tile j1 j2
  have h1 : ∀ u, Gives (fun t => Memory.wf t.mem = true) (j1 u) := fun u => by
    simp only [j1]
    refine gives_when () trivial fun _ => ?_
    rw [gives_bind]
    refine Gives.mono (wf_retire s 4 dies _ h) fun t ht => ?_
    split
    · simp [ht]
    · split <;> simp [ht]
  have h2 : ∀ u, Gives (fun t => Memory.wf t.mem = true) (j2 u) := fun u => by
    simp only [j2]
    split
    · exact h1 _
    · refine gives_bind.2 ?_
      exact Gives.mono (wf_extent s _ _) fun m _ => h1 m
  exact gives_when () (by simp) h2

@[simp] theorem wf_execCpy (d : BitVec 5) (sg : BitVec 3) (p : BitVec 3) (s : State) (h : Memory.wf s.mem = true) :
    OutcomeWf (execCpy d sg p s) :=
  wf_concludeAs h (by simp [h])

@[simp] theorem wf_execCpyg (d : BitVec 5) (a : BitVec 5) (l : Bool) (sg : BitVec 3) (p : BitVec 3) (s : State) (h : Memory.wf s.mem = true) :
    OutcomeWf (execCpyg d a l sg p s) :=
  wf_concludeAs h (by simp [h])

@[simp] theorem wf_execCpys (d : BitVec 5) (a : BitVec 5) (l : Bool) (sg : BitVec 3) (p : BitVec 3) (s : State) (h : Memory.wf s.mem = true) :
    OutcomeWf (execCpys d a l sg p s) :=
  wf_concludeAs h (by simp [h])

@[simp] theorem wf_execCpyq (d : BitVec 5) (q : BitVec 3) (p : BitVec 3) (s : State) (h : Memory.wf s.mem = true) :
    OutcomeWf (execCpyq d q p s) :=
  wf_concludeAs h (by simp [h])

@[simp] theorem wf_execCpyf (d : BitVec 5) (a : BitVec 5) (l : Bool) (b : BitVec 5) (m : Bool) (p : BitVec 3) (s : State)
    (h : Memory.wf s.mem = true) : OutcomeWf (execCpyf d a l b m p s) :=
  wf_concludeAs h (by simp [h])

@[simp] theorem mem_copyView (s : State) (c : Copy) : (s.copyView c).mem = s.mem := by
  simp [State.copyView]

/-- What an execution gives, where it does not fail, holds of `P`. -/
def Yields {ε α : Type} (P : α → Prop) : Except ε α → Prop
  | .ok a => P a
  | .error _ => True

section
variable {ε α β : Type} {P : α → Prop}

@[simp] theorem yields_ok (a : α) : Yields P (.ok a : Except ε α) ↔ P a := Iff.rfl
@[simp] theorem yields_pure (a : α) : Yields P (pure a : Except ε α) ↔ P a := Iff.rfl
@[simp] theorem yields_error (e : ε) : Yields P (.error e : Except ε α) := trivial

@[simp] theorem yields_ite {c : Prop} [Decidable c] {x y : Except ε α} : Yields P (if c then x else y) ↔ (c → Yields P x) ∧ (¬c → Yields P y) := by
  split <;> simp [*]

theorem yields_bind {Q : β → Prop} {x : Except ε α} {k : α → Except ε β} : Yields Q (x >>= k) ↔ Yields (fun a => Yields Q (k a)) x := by
  cases x <;> rfl

@[simp] theorem yields_orStop {x : Except ElementFault α} : Yields P (orStop x) ↔ Yields P x := by cases x <;> rfl

theorem Yields.of {x : Except ε α} (h : ∀ a, P a) : Yields P x := by
  cases x with
  | ok a => exact h a
  | error e => trivial

theorem Yields.mono {Q : α → Prop} {x : Except ε α} (hx : Yields P x) (h : ∀ a, P a → Q a) : Yields Q x := by
  cases x with
  | ok a => exact h a hx
  | error e => trivial
end

theorem wf_shardPlace (s : State) (c : Copy) (i : Int) (h : Memory.wf s.mem = true) :
    Yields (fun x => Memory.wf x.2.mem = true) (s.shardPlace c i) := by
  simp only [State.shardPlace]
  split
  · trivial
  · split
    · exact h
    · split
      · trivial
      · trivial
      · next e =>
        have ht := wf_lookupShard e h
        split
        · split
          · trivial
          · split
            · trivial
            · exact ht
        · exact ht

theorem wf_readShard (s : State) (c : Copy) (i : Int) (h : Memory.wf s.mem = true) :
    Yields (fun x => Memory.wf x.2.mem = true) (s.readShard c i) := by
  simp only [State.readShard, yields_bind]
  refine Yields.mono (wf_shardPlace s c i h) fun ⟨o, t⟩ ht => ?_
  dsimp only
  split
  · exact ht
  · rw [yields_bind]
    exact Yields.of fun _ => ht

theorem wf_copySource (s : State) (c : Copy) (at_ : List Int) (h : Memory.wf s.mem = true) :
    Yields (fun x => Memory.wf x.2.mem = true) (s.copySource c at_) := by
  simp only [State.copySource]
  split
  · exact h
  · split
    · exact yields_orStop.2 (wf_readShard s c _ h)
    · rw [yields_orStop, yields_bind]
      exact Yields.of fun _ => h

theorem wf_keepTaken (s : State) (c : Copy) (i : Nat) (to_ : Option (List Int)) (t : Taken) (h : Memory.wf s.mem = true) :
    Yields (fun x => Memory.wf x.1.mem = true) (s.keepTaken c i to_ t) := by
  simp only [State.keepTaken]
  split
  · exact h
  · split
    · exact h
    · rw [yields_orStop, yields_bind]
      exact Yields.of fun _ => h

theorem wf_takePosition (s : State) (c : Copy) (i : Nat) (h : Memory.wf s.mem = true) :
    Yields (fun x => Memory.wf x.1.mem = true) (s.takePosition c i) := by
  have sourced : ∀ (c : Copy) at_ to_ (f : Taken → Taken), Yields (fun x => Memory.wf x.1.mem = true) (do
      let (x, s) ← s.copySource c at_
      let t ← c.valueOf x
      s.keepTaken c i to_ (f t)) := fun c at_ to_ f => by
    rw [yields_bind]
    refine Yields.mono (wf_copySource s c at_ h) fun ⟨x, t⟩ ht => ?_
    rw [yields_bind]
    exact Yields.of fun y => wf_keepTaken t c i to_ (f y) ht
  simp only [State.takePosition]
  split
  · exact sourced _ _ none id
  · rw [yields_bind]
    refine Yields.of fun ⟨l, c⟩ => ?_
    simp only [yields_bind]
    refine Yields.mono (wf_copySource s c _ h) fun ⟨x, t⟩ ht => ?_
    dsimp only
    split
    · rw [yields_bind]
      exact Yields.of fun y => wf_keepTaken t c i _ y ht
    · split
      · trivial
      · exact wf_keepTaken t c i _ _ ht
  · split
    · exact wf_keepTaken s c i _ _ h
    · split
      · exact wf_keepTaken s c i _ _ h
      · rw [yields_bind]
        refine Yields.of fun ⟨l, c⟩ => ?_
        dsimp only
        split
        · exact wf_keepTaken s c i _ _ h
        · exact sourced c _ _ fun t => { t with shared := some _ }
      · exact sourced _ _ _ id

@[simp] theorem wf_askFor (s : State) (c : Copy) (p : Word) (pl : Place) (size : Nat) (h : Memory.wf s.mem = true) :
    Memory.wf (s.askFor c p pl size).mem = true := by
  simp [State.askFor, h]

theorem wf_of_takePosition {s t : State} {c d : Copy} {i : Nat} (e : s.takePosition c i = .ok (t, d)) (h : Memory.wf s.mem = true) :
    Memory.wf t.mem = true := by simpa [e] using wf_takePosition s c i h

@[simp] theorem wf_takeSome (s : State) (c : Copy) (h : Memory.wf s.mem = true) : Memory.wf (s.takeSome c).1.mem = true := by
  unfold State.takeSome
  extract_lets wanted
  split
  next _ t d need e =>
    have ht : Memory.wf t.mem = true := by
      rw [← show _ = t from congrArg Prod.fst e]
      refine wf_foldl_fst (fun ⟨u, d, need⟩ i hu => ?_) h
      dsimp only
      split
      · exact hu
      · split
        · next e => exact wf_of_takePosition e hu
        · exact hu
        · exact hu
    split <;> simp [ht]

@[simp] theorem mem_loseCopied (s : State) (c : Copy) (p : Word) (pl : Place) : (s.loseCopied c p pl).mem = s.mem := by
  simp [State.loseCopied]

@[simp] theorem wf_writeCopied (s : State) (c : Copy) (pl : Place) (size x : Nat) (h : Memory.wf s.mem = true) :
    Memory.wf (s.writeCopied c pl size x).mem = true := by
  simp [State.writeCopied, h]

@[simp] theorem wf_writePosition (s : State) (c : Copy) (ranges : List (Nat × Nat)) (i : Nat) (h : Memory.wf s.mem = true) :
    Memory.wf (s.writePosition c ranges i).1.mem = true := by
  simp only [State.writePosition]
  (repeat' split) <;> simp [h]

@[simp] theorem wf_tagWords (s : State) (c : Copy) (opened written : List Nat) (h : Memory.wf s.mem = true) :
    Memory.wf (s.tagWords c opened written).mem = true := by
  simp only [State.tagWords]
  (repeat' split) <;> simp (disch := simp +contextual [h])

@[simp] theorem wf_writeSome (s : State) (c : Copy) (h : Memory.wf s.mem = true) : Memory.wf (s.writeSome c).1.mem = true := by
  simp only [State.writeSome]
  rw [wf_tagWords]
  exact wf_foldl_fst (fun p i hp => by simp [hp]) h

@[simp] theorem wf_writePacked (s : State) (c : Copy) (bytes : List Byte) (ns : List Nat) (choose : Nat → Place → Bool) (h : Memory.wf s.mem = true) :
    Memory.wf (s.writePacked c bytes ns choose).1.mem = true := by
  simp only [State.writePacked]
  rw [wf_tagWords]
  refine wf_foldl_fst (fun p n hp => ?_) h
  split
  · exact hp
  · split
    · simp [hp]
    · split <;> simp [hp]

@[simp] theorem mem_dropCopy (s : State) (tile id : Nat) : (s.dropCopy tile id).mem = s.mem := by
  simp [State.dropCopy]

@[simp] theorem mem_putCopy (s : State) (tile : Nat) (c : Copy) : (s.putCopy tile c).mem = s.mem := by
  simp [State.putCopy]

@[simp] theorem mem_stopCopy (s : State) (tile : Nat) (c : Copy) (e : CopyEnd) (p : Nat) : (s.stopCopy tile c e p).mem = s.mem := by
  simp only [State.stopCopy]
  (repeat' split) <;> simp

@[simp] theorem mem_doneCopy (s : State) (tile : Nat) (c : Copy) : (s.doneCopy tile c).mem = s.mem := by
  simp [State.doneCopy]

@[simp] theorem wf_runPacked (s : State) (tile : Nat) (c : Copy) (h : Memory.wf s.mem = true) : Memory.wf (s.runPacked tile c).mem = true := by
  simp only [State.runPacked]
  (repeat' split) <;> simp [h]

@[simp] theorem wf_runCopy (s : State) (tile : Nat) (c : Copy) (h : Memory.wf s.mem = true) : Memory.wf (s.runCopy tile c).mem = true := by
  simp only [State.runCopy]
  (repeat' split) <;> simp [h]

@[simp] theorem mem_copyPush (s : State) (c : Copy) (e : Entry) : (s.copyPush c e).mem = s.mem := by
  simp only [State.copyPush]
  (repeat' split) <;> simp

@[simp] theorem mem_stopPushes (s : State) (tile : Nat) (c : Copy) (e : CopyEnd) : (s.stopPushes tile c e).mem = s.mem := by
  simp [State.stopPushes]

@[simp] theorem wf_runPushes (tile n : Nat) (s : State) (c : Copy) (h : Memory.wf s.mem = true) :
    Memory.wf (State.runPushes tile n s c).mem = true := by
  induction n generalizing s c with
  | zero => simp [State.runPushes, h]
  | succ n ih =>
    simp only [State.runPushes]
    split
    · simp [h]
    · split
      · simp [h]
      · split
        · split <;> simp [h]
        · split
          · exact ih _ _ (by simp [h])
          · split
            · next e => exact ih _ _ (wf_of_takePosition e h)
            · simp [h]
            · exact ih _ _ h

@[simp] theorem wf_runChannel (s : State) (tile : Nat) (c : Copy) (h : Memory.wf s.mem = true) : Memory.wf (s.runChannel tile c).mem = true := by
  simp (disch := simp [h]) [State.runChannel]

@[simp] theorem wf_startCopy (s : State) (tile : Nat) (h : Memory.wf s.mem = true) : Memory.wf (s.startCopy tile).mem = true := by
  simp only [State.startCopy]
  split
  · exact h
  · split
    · exact h
    · split
      · split
        · split <;> simp [h]
        · split <;> simp [h]
        · next e => simp [wf_lookupEntry e h]
      · simp [h]

@[simp] theorem wf_execCopyStart (tile : Nat) (s : State) (h : Memory.wf s.mem = true) : OutcomeWf (execCopyStart tile s) := by
  simp [execCopyStart, h]

@[simp] theorem wf_execCopyComplete (tile : Nat) (s : State) (h : Memory.wf s.mem = true) : OutcomeWf (execCopyComplete tile s) := by
  simp only [execCopyComplete]
  (repeat' split) <;> simp [h]

@[simp] theorem wf_execCopyqResume (tile : Nat) (s : State) (h : Memory.wf s.mem = true) : OutcomeWf (execCopyqResume tile s) := by
  simp only [execCopyqResume]
  (repeat' split) <;> simp [h]

/-! ### The functions of Sys2Proof/Machine/Delivery.lean -/

@[simp] theorem mem_logEvent (s : State) (source kind part : Nat) (address detail : Word) :
    (s.logEvent source kind part address detail).mem = s.mem := by
  simp [State.logEvent]

@[simp] theorem wf_answer (s : State) (r : Request) (a : Answer) (h : Memory.wf s.mem = true) (ha : a.Wf) : Memory.wf (s.answer r a).mem = true := by
  match a, ha with
  | .done t v, ht =>
    have ht : Memory.wf t.mem = true := ht
    simp only [State.answer]
    split <;> simp [ht]
  | .unmet, _ => simp [State.answer, h]
  | .trap t, _ => simp [State.answer, h]

@[simp] theorem wf_homeAccept (s : State) (rid : Nat) (h : Memory.wf s.mem = true) : Memory.wf (s.homeAccept rid).mem = true := by
  simp only [State.homeAccept]
  (repeat' split) <;> simp [h]

@[simp] theorem wf_execHomeAccept (rid : Nat) (s : State) (h : Memory.wf s.mem = true) : OutcomeWf (execHomeAccept rid s) := by
  simp [execHomeAccept, h]

@[simp] theorem mem_retryReplay (s : State) (rid : Nat) : (s.retryReplay rid).mem = s.mem := by
  simp only [State.retryReplay]
  (repeat' split) <;> simp

@[simp] theorem wf_execRetryReplay (rid : Nat) (s : State) (h : Memory.wf s.mem = true) : OutcomeWf (execRetryReplay rid s) := by
  simp [execRetryReplay, h]

@[simp] theorem wf_saveReg (s : State) (core ctx place : Nat) (v : Word) (h : Memory.wf s.mem = true) :
    Memory.wf (s.saveReg core ctx place v).mem = true := by
  unfold State.saveReg
  extract_lets c off saved
  clear_value off saved
  split
  · split
    · split
      · next e => exact wf_superWrite e h
      · exact h
    · exact h
  · exact h

end Sys2Proof.Machine
namespace Sys2Proof.Machine

/-! ## Every step keeps the memory canonical: delivery, loss, firmware, the host link and vector memory -/

/-! ### The functions of Sys2Proof/Machine/Delivery.lean -/

@[simp] theorem wf_deliverData (s : State) (r : Request) (v : Word) (h : Memory.wf s.mem = true) : Memory.wf (s.deliverData r v).mem = true := by
  simp only [State.deliverData]
  (repeat' split) <;> simp [h]

@[simp] theorem wf_ownerFault (s : State) (r : Request) (fault : Nat) (detail : Word) (h : Memory.wf s.mem = true) :
    Memory.wf (s.ownerFault r fault detail).mem = true := by
  simp [State.ownerFault, h]

@[simp] theorem wf_dataReturn (s : State) (rid : Nat) (data : Word) (h : Memory.wf s.mem = true) : Memory.wf (s.dataReturn rid data).mem = true := by
  unfold State.dataReturn
  split
  · exact h
  · next r _ =>
    extract_lets value
    clear_value value
    split
    · exact h
    · (repeat' split) <;> simp [h]

@[simp] theorem wf_execLoadDataReturn (rid : Nat) (data : Word) (s : State) (h : Memory.wf s.mem = true) :
    OutcomeWf (execLoadDataReturn rid data s) := by
  simp [execLoadDataReturn, h]

@[simp] theorem wf_storeAck (s : State) (rid : Nat) (h : Memory.wf s.mem = true) : Memory.wf (s.storeAck rid).mem = true := by
  simp only [State.storeAck]
  (repeat' split) <;> simp [h]

@[simp] theorem wf_execStoreAck (rid : Nat) (s : State) (h : Memory.wf s.mem = true) : OutcomeWf (execStoreAck rid s) := by
  simp [execStoreAck, h]

@[simp] theorem wf_releaseSend (s : State) (hid : Nat) (h : Memory.wf s.mem = true) : Memory.wf (s.releaseSend hid).mem = true := by
  simp only [State.releaseSend]
  (repeat' split) <;> simp [h]

@[simp] theorem wf_execReleaseSend (hid : Nat) (s : State) (h : Memory.wf s.mem = true) : OutcomeWf (execReleaseSend hid s) := by
  simp [execReleaseSend, h]

@[simp] theorem mem_barComplete (s : State) (core ctx : Nat) : (s.barComplete core ctx).mem = s.mem := by
  simp [State.barComplete]

@[simp] theorem wf_execBarComplete (core : Nat) (ctx : Nat) (s : State) (h : Memory.wf s.mem = true) : OutcomeWf (execBarComplete core ctx s) := by
  simp [execBarComplete, h]

@[simp] theorem mem_atPort (s : State) (f : Flight) : (s.atPort f).mem = s.mem := by
  simp only [State.atPort]
  (repeat' split) <;> simp

@[simp] theorem mem_messageArrival (s : State) (mid : Nat) : (s.messageArrival mid).mem = s.mem := by
  simp only [State.messageArrival]
  (repeat' split) <;> simp

@[simp] theorem wf_execMessageArrival (mid : Nat) (s : State) (h : Memory.wf s.mem = true) : OutcomeWf (execMessageArrival mid s) := by
  simp [execMessageArrival, h]

@[simp] theorem mem_messageReplay (s : State) (mid : Nat) : (s.messageReplay mid).mem = s.mem := by
  simp only [State.messageReplay]
  (repeat' split) <;> simp

@[simp] theorem wf_execMessageReplay (mid : Nat) (s : State) (h : Memory.wf s.mem = true) : OutcomeWf (execMessageReplay mid s) := by
  simp [execMessageReplay, h]

@[simp] theorem mem_handlerStart (s : State) (core : Nat) : (s.handlerStart core).mem = s.mem := by
  simp only [State.handlerStart]
  (repeat' split) <;> simp

@[simp] theorem wf_execHandlerStart (core : Nat) (s : State) (h : Memory.wf s.mem = true) : OutcomeWf (execHandlerStart core s) := by
  simp [execHandlerStart, h]

@[simp] theorem wf_handlerPath (s : State) (core ctx : Nat) (h : Memory.wf s.mem = true) : Memory.wf (s.handlerPath core ctx).mem = true := by
  unfold State.handlerPath
  extract_lets c level vec base s1
  have h1 : Memory.wf s1.mem = true := h
  clear_value level vec s1
  split
  · split
    · exact h1
    · split
      · simp [h1]
      · split
        · next e => simp [wf_save e h1]
        · simp [h1]
  · simp [h]

@[simp] theorem wf_resume (s : State) (core ctx : Nat) (d : Bool) (h : Memory.wf s.mem = true) : Memory.wf (s.resume core ctx d).mem = true := by
  simp only [State.resume]
  (repeat' split) <;> simp [h]

@[simp] theorem wf_resumeMessage (s : State) (mid : Nat) (h : Memory.wf s.mem = true) : Memory.wf (s.resumeMessage mid).mem = true := by
  simp only [State.resumeMessage]
  (repeat' split) <;> simp [h]

@[simp] theorem wf_execResumeMessage (mid : Nat) (s : State) (h : Memory.wf s.mem = true) : OutcomeWf (execResumeMessage mid s) := by
  simp [execResumeMessage, h]

@[simp] theorem wf_stopMessage (s : State) (mid : Nat) (h : Memory.wf s.mem = true) : Memory.wf (s.stopMessage mid).mem = true := by
  simp only [State.stopMessage]
  (repeat' split) <;> simp [h]

@[simp] theorem wf_execStopMessage (mid : Nat) (s : State) (h : Memory.wf s.mem = true) : OutcomeWf (execStopMessage mid s) := by
  simp [execStopMessage, h]

@[simp] theorem mem_restartForward (s : State) (core : Nat) (f : Forward) : (s.restartForward core f).mem = s.mem := by
  simp [State.restartForward]

@[simp] theorem mem_forwardOne (s : State) (rid : Nat) : (s.forwardOne rid).mem = s.mem := by
  simp only [State.forwardOne]
  (repeat' split) <;> simp

@[simp] theorem wf_execForwardRequest (rid : Nat) (s : State) (h : Memory.wf s.mem = true) : OutcomeWf (execForwardRequest rid s) := by
  simp [execForwardRequest, h]

@[simp] theorem mem_forwardExpire (s : State) (core index : Nat) : (s.forwardExpire core index).mem = s.mem := by
  simp only [State.forwardExpire]
  (repeat' split) <;> simp

@[simp] theorem wf_execForwardExpire (core : Nat) (index : Nat) (s : State) (h : Memory.wf s.mem = true) :
    OutcomeWf (execForwardExpire core index s) := by
  simp [execForwardExpire, h]

@[simp] theorem wf_streamRead (s : State) (core ctx q : Nat) (h : Memory.wf s.mem = true) : Memory.wf (s.streamRead core ctx q).mem = true := by
  simp only [State.streamRead]
  (repeat' split) <;> simp [h]

@[simp] theorem wf_execMemoryStreamRead (core : Nat) (ctx : Nat) (q : BitVec 3) (s : State) (h : Memory.wf s.mem = true) :
    OutcomeWf (execMemoryStreamRead core ctx q s) := by
  simp [execMemoryStreamRead, h]

@[simp] theorem wf_registerPreempt (s : State) (core ctx : Nat) (h : Memory.wf s.mem = true) :
    Memory.wf (s.registerPreempt core ctx).mem = true := by
  simp only [State.registerPreempt]
  split
  · exact h
  · split
    · next e => simp [wf_save e (by simp [h])]
    · simp [h]

@[simp] theorem wf_execRegisterPreempt (core : Nat) (ctx : Nat) (s : State) (h : Memory.wf s.mem = true) :
    OutcomeWf (execRegisterPreempt core ctx s) := by
  simp [execRegisterPreempt, h]

@[simp] theorem mem_registerGrant (s : State) (core : Nat) : (s.registerGrant core).mem = s.mem := by
  simp only [State.registerGrant]
  (repeat' split) <;> simp

@[simp] theorem wf_execRegisterGrant (core : Nat) (s : State) (h : Memory.wf s.mem = true) : OutcomeWf (execRegisterGrant core s) := by
  simp [execRegisterGrant, h]

@[simp] theorem mem_reclaim (s : State) (tile : Nat) (met : State → Bool) (fuel : Nat) : (s.reclaim tile met fuel).mem = s.mem := by
  induction fuel generalizing s with
  | zero => rfl
  | succ fuel ih =>
    simp only [State.reclaim]
    split
    · rfl
    · split
      · rfl
      · simp [ih]

@[simp] theorem mem_claimGrant (s : State) (tile : Nat) : (s.claimGrant tile).mem = s.mem := by
  simp only [State.claimGrant]
  (repeat' split) <;> simp

@[simp] theorem wf_execClaimGrant (tile : Nat) (s : State) (h : Memory.wf s.mem = true) : OutcomeWf (execClaimGrant tile s) := by
  simp [execClaimGrant, h]

/-! ### The functions of Sys2Proof/Machine/Loss.lean -/

@[simp] theorem wf_coolTable (s : State) (p : Partition) (k table : Nat) (h : Memory.wf s.mem = true) :
    Memory.wf (s.coolTable p k table).mem = true := by
  induction k generalizing s table with
  | zero => exact h
  | succ k ih =>
    refine wf_foldl (fun t i ht => ?_) h
    split
    · exact ht
    · dsimp only
      split
      · exact ht
      · split <;> simp [ht]
      · exact ih _ _ ht

@[simp] theorem wf_heatSweep (s : State) (part : Nat) (h : Memory.wf s.mem = true) : Memory.wf (s.heatSweep part).mem = true := by
  simp only [State.heatSweep]
  (repeat' split) <;> simp [h]

@[simp] theorem wf_execHeatSweep (part : Nat) (s : State) (h : Memory.wf s.mem = true) : OutcomeWf (execHeatSweep part s) := by
  simp [execHeatSweep, h]

@[simp] theorem mem_doubleUpset (s : State) (key : Nat) : (s.doubleUpset key).mem = s.mem := by
  simp [State.doubleUpset]

@[simp] theorem wf_execMemoryDoubleUpset (address : Nat) (s : State) (h : Memory.wf s.mem = true) : OutcomeWf (execMemoryDoubleUpset address s) := by
  simp [execMemoryDoubleUpset, h]

@[simp] theorem mem_ejectFlit (s : State) (router : Nat) (f : Flit) : (s.ejectFlit router f).mem = s.mem := by
  simp [State.ejectFlit]

@[simp] theorem mem_takeBack (s : State) (router dir : Nat) : (s.takeBack router dir).mem = s.mem := by
  simp only [State.takeBack]
  (repeat' split) <;> simp

@[simp] theorem mem_routerCycle (s : State) (router : Nat) (damaged : BitVec 4) : (s.routerCycle router damaged).mem = s.mem := by
  simp only [State.routerCycle]
  (repeat' split) <;> simp

@[simp] theorem wf_execRouterCycle (router : Nat) (damaged : BitVec 4) (s : State) (h : Memory.wf s.mem = true) :
    OutcomeWf (execRouterCycle router damaged s) := by
  simp [execRouterCycle, h]

@[simp] theorem mem_markDead (s : State) (router dir : Nat) : (s.markDead router dir).mem = s.mem := by
  simp [State.markDead]

@[simp] theorem mem_linkDead (s : State) (router dir : Nat) : (s.linkDead router dir).mem = s.mem := by
  simp [State.linkDead]

@[simp] theorem wf_execLinkDead (router : Nat) (dir : BitVec 2) (s : State) (h : Memory.wf s.mem = true) :
    OutcomeWf (execLinkDead router dir s) := by
  simp [execLinkDead, h]

@[simp] theorem mem_cutOff (s : State) (die : Nat) : (s.cutOff die).mem = s.mem := by
  simp [State.cutOff]

@[simp] theorem mem_dropWork (s : State) (die : Nat) : (s.dropWork die).mem = s.mem := by
  simp [State.dropWork]

@[simp] theorem mem_endCommandsOn (s : State) (die : Nat) : (s.endCommandsOn die).mem = s.mem := by
  simp [State.endCommandsOn]

@[simp] theorem mem_clearDie (s : State) (die : Nat) : (s.clearDie die).mem = s.mem := by
  simp [State.clearDie]

@[simp] theorem mem_loseAt (s : State) (rid : Nat) : (s.loseAt rid).mem = s.mem := by
  simp only [State.loseAt]
  (repeat' split) <;> simp

@[simp] theorem mem_loseDie (s : State) (die : Nat) : (s.loseDie die).mem = s.mem := by
  simp [State.loseDie]

@[simp] theorem wf_execDieLost (die : Nat) (s : State) (h : Memory.wf s.mem = true) : OutcomeWf (execDieLost die s) := by
  simp [execDieLost, h]

@[simp] theorem mem_losePackage (s : State) (reason : Nat) : (s.losePackage reason).mem = s.mem := by
  simp [State.losePackage]

@[simp] theorem wf_execPackageLoss (reason : Nat) (s : State) (h : Memory.wf s.mem = true) : OutcomeWf (execPackageLoss reason s) := by
  simp [execPackageLoss, h]

@[simp] theorem mem_sendLoss (s : State) (t : Transit) : (s.sendLoss t).mem = s.mem := by
  simp only [State.sendLoss]
  (repeat' split) <;> simp

@[simp] theorem mem_transit (s : State) (index : Nat) : (s.transit index).mem = s.mem := by
  simp only [State.transit]
  (repeat' split) <;> simp

@[simp] theorem wf_execFabricTransit (index : Nat) (s : State) (h : Memory.wf s.mem = true) : OutcomeWf (execFabricTransit index s) := by
  simp [execFabricTransit, h]

@[simp] theorem mem_lossPacket (s : State) (source : Nat) (seqs : List Nat) : (s.lossPacket source seqs).mem = s.mem := by
  simp [State.lossPacket]

@[simp] theorem wf_execLossPacket (source : Nat) (seqs : List Nat) (s : State) (h : Memory.wf s.mem = true) :
    OutcomeWf (execLossPacket source seqs s) := by
  simp [execLossPacket, h]

@[simp] theorem mem_timeExchange (s : State) (port : Nat) (peer : BitVec 8) (time : Word) : (s.timeExchange port peer time).mem = s.mem := by
  simp [State.timeExchange]

@[simp] theorem wf_execTimeExchange (port : Nat) (peer : BitVec 8) (time : Word) (s : State) (h : Memory.wf s.mem = true) :
    OutcomeWf (execTimeExchange port peer time s) := by
  simp [execTimeExchange, h]

/-! ### The functions of Sys2Proof/Machine/Firmware.lean -/

@[simp] theorem wf_bringUp (s : State) (signatureOk : Bool) (trained : BitVec 16) (peers : List (BitVec 8 × BitVec 4))
    (h : Memory.wf s.mem = true) : Memory.wf (s.bringUp signatureOk trained peers).mem = true := by
  have hf := filter_wf (fun c : Host.Cell => decide (2 ^ 64 ≤ c.1)) h
  unfold State.bringUp
  extract_lets base
  split <;> exact hf

@[simp] theorem wf_execPowerGood (signatureOk : Bool) (trained : BitVec 16) (peers : List (BitVec 8 × BitVec 4)) (s : State)
    (h : Memory.wf s.mem = true) : OutcomeWf (execPowerGood signatureOk trained peers s) := by
  simp [execPowerGood, h]

@[simp] theorem wf_execThermalThrottle (s : State) (h : Memory.wf s.mem = true) : OutcomeWf (execThermalThrottle s) := by
  simp [execThermalThrottle, h]

@[simp] theorem wf_execThermalTrip (s : State) (h : Memory.wf s.mem = true) : OutcomeWf (execThermalTrip s) := by
  simp [execThermalTrip, h]

@[simp] theorem wf_execD3hotRequest (s : State) (h : Memory.wf s.mem = true) : OutcomeWf (execD3hotRequest s) := by
  simp [execD3hotRequest, h]

@[simp] theorem mem_sendResponse (s : State) (r : List Byte) : (s.sendResponse r).mem = s.mem := by
  simp [State.sendResponse]

@[simp] theorem wf_handle (s : State) (op : Nat) (f : State → Handled) (h : Memory.wf s.mem = true) (hf : Memory.wf (f s).1.mem = true) :
    Memory.wf (s.handle op f).mem = true := by
  simp only [State.handle]
  split
  · simp [h]
  · simp [hf]

@[simp] theorem wf_scrubPart (s : State) (n : Nat) (p : Partition) (h : Memory.wf s.mem = true) : Memory.wf (s.scrubPart n p).mem = true :=
  filter_wf _ h

@[simp] theorem mem_startControls (s : State) (n : Nat) (p : Partition) : (s.startControls n p).mem = s.mem := mem_foldl fun _ _ => by simp

@[simp] theorem mem_directRoutes (s : State) (p : Partition) : (s.directRoutes p).mem = s.mem := by
  simp [State.directRoutes]

@[simp] theorem wf_handleCreate (body : List Byte) (s : State) (h : Memory.wf s.mem = true) : Memory.wf (handleCreate body s).1.mem = true := by
  simp only [handleCreate]
  split
  · exact h
  · split
    · exact h
    · split
      · exact h
      · simp [h]

@[simp] theorem wf_execCreate (body : List Byte) (s : State) (h : Memory.wf s.mem = true) : OutcomeWf (execCreate body s) := by
  simp [execCreate, h]

@[simp] theorem wf_endPart (s : State) (n : Nat) (p : Partition) (h : Memory.wf s.mem = true) : Memory.wf (s.endPart n p).mem = true := by
  simp [State.endPart, h]

@[simp] theorem wf_destroyPart (s : State) (body : List Byte) (h : Memory.wf s.mem = true) : Memory.wf (s.destroyPart body).mem = true := by
  simp only [State.destroyPart]
  (repeat' split) <;> simp [h]

@[simp] theorem wf_execDestroy (body : List Byte) (s : State) (h : Memory.wf s.mem = true) : OutcomeWf (execDestroy body s) := by
  simp [execDestroy, h]

@[simp] theorem mem_handleSetKey (body : List Byte) (s : State) : (handleSetKey body s).1.mem = s.mem := by
  simp only [handleSetKey]
  split
  · rfl
  · split
    · rfl
    · (repeat' split) <;> rfl

@[simp] theorem wf_execSetKey (body : List Byte) (s : State) (h : Memory.wf s.mem = true) : OutcomeWf (execSetKey body s) := by
  simp [execSetKey, h]

@[simp] theorem mem_handleSetPkg (body : List Byte) (s : State) : (handleSetPkg body s).1.mem = s.mem := by
  simp only [handleSetPkg]
  (repeat' split) <;> rfl

@[simp] theorem wf_execSetPkg (body : List Byte) (s : State) (h : Memory.wf s.mem = true) : OutcomeWf (execSetPkg body s) := by
  simp [execSetPkg, h]

@[simp] theorem mem_handleLog (body : List Byte) (s : State) : (handleLog body s).1.mem = s.mem := by
  simp only [handleLog]
  split <;> rfl

@[simp] theorem wf_execLog (body : List Byte) (s : State) (h : Memory.wf s.mem = true) : OutcomeWf (execLog body s) := by
  simp [execLog, h]

@[simp] theorem mem_handleRoute (body : List Byte) (s : State) : (handleRoute body s).1.mem = s.mem := by
  simp only [handleRoute]
  split <;> simp

@[simp] theorem wf_execRoute (body : List Byte) (s : State) (h : Memory.wf s.mem = true) : OutcomeWf (execRoute body s) := by
  simp [execRoute, h]

@[simp] theorem wf_vendorRequest (s : State) (r : List Byte) (h : Memory.wf s.mem = true) : Memory.wf (s.vendorRequest r).mem = true := by
  simp only [State.vendorRequest]
  (repeat' split) <;> simp [h]

@[simp] theorem wf_execVendorDefinedRequest (request : List Byte) (s : State) (h : Memory.wf s.mem = true) :
    OutcomeWf (execVendorDefinedRequest request s) := by
  simp [execVendorDefinedRequest, h]

/-! ### The functions of Sys2Proof/Machine/HostLink.lean -/

@[simp] theorem mem_discardWrite (s : State) (part offset length : Nat) : (s.discardWrite part offset length).mem = s.mem := by
  simp [State.discardWrite]

@[simp] theorem mem_hostLaunch (s : State) (offset : Nat) (bytes : List Byte) : (s.hostLaunch offset bytes).mem = s.mem := by
  simp only [State.hostLaunch]
  (repeat' split) <;> simp

@[simp] theorem wf_execHostLaunchWrite (offset : Nat) (bytes : List Byte) (s : State) (h : Memory.wf s.mem = true) :
    OutcomeWf (execHostLaunchWrite offset bytes s) := by
  simp [execHostLaunchWrite, h]

@[simp] theorem mem_hostCommand (s : State) (offset : Nat) (bytes : List Byte) : (s.hostCommand offset bytes).mem = s.mem := by
  simp only [State.hostCommand]
  (repeat' split) <;> simp

@[simp] theorem wf_execHostCommandWrite (offset : Nat) (bytes : List Byte) (s : State) (h : Memory.wf s.mem = true) :
    OutcomeWf (execHostCommandWrite offset bytes s) := by
  simp [execHostCommandWrite, h]

@[simp] theorem mem_setHostQueue (s : State) (part q : Nat) (h : HostQueue) : (s.setHostQueue part q h).mem = s.mem := by
  simp [State.setHostQueue]

@[simp] theorem mem_writeQueue (s : State) (offset : Nat) (bytes : List Byte) (reg : Nat) (take : HostQueue → Word → Option HostQueue) :
    (s.writeQueue offset bytes reg take).mem = s.mem := by
  simp only [State.writeQueue]
  (repeat' split) <;> simp

@[simp] theorem mem_writeHqbase (s : State) (offset : Nat) (bytes : List Byte) : (s.writeHqbase offset bytes).mem = s.mem := by
  simp [State.writeHqbase]

@[simp] theorem wf_execHqbaseWrite (offset : Nat) (bytes : List Byte) (s : State) (h : Memory.wf s.mem = true) :
    OutcomeWf (execHqbaseWrite offset bytes s) := by
  simp [execHqbaseWrite, h]

@[simp] theorem mem_writeHqsize (s : State) (offset : Nat) (bytes : List Byte) : (s.writeHqsize offset bytes).mem = s.mem := by
  simp [State.writeHqsize]

@[simp] theorem wf_execHqsizeWrite (offset : Nat) (bytes : List Byte) (s : State) (h : Memory.wf s.mem = true) :
    OutcomeWf (execHqsizeWrite offset bytes s) := by
  simp [execHqsizeWrite, h]

@[simp] theorem mem_writeHqhead (s : State) (offset : Nat) (bytes : List Byte) : (s.writeHqhead offset bytes).mem = s.mem := by
  simp [State.writeHqhead]

@[simp] theorem wf_execHqheadWrite (offset : Nat) (bytes : List Byte) (s : State) (h : Memory.wf s.mem = true) :
    OutcomeWf (execHqheadWrite offset bytes s) := by
  simp [execHqheadWrite, h]

@[simp] theorem wf_hostDeliver (s : State) (mid : Nat) (h : Memory.wf s.mem = true) : Memory.wf (s.hostDeliver mid).mem = true := by
  simp only [State.hostDeliver]
  split
  · exact h
  · split
    · split
      · exact h
      · split
        · simp [h]
        · split
          · exact h
          · simp [writeList_wf _ _ h]
    · exact h

@[simp] theorem wf_execHostQueueDeliver (mid : Nat) (s : State) (h : Memory.wf s.mem = true) : OutcomeWf (execHostQueueDeliver mid s) := by
  simp [execHostQueueDeliver, h]

/-! ### The functions of Sys2Proof/Machine/VectorMem.lean -/

@[simp] theorem wf_vectorFormat (p : Word) : StopsWf (vectorFormat p) := by
  refine StopsWf.of ?_
  simp only [vectorFormat]
  (repeat' split) <;> simp

@[simp] theorem wf_elementAt (s : State) (p : Word) (size : Nat) (need : Need) (delta : Int) : StopsWf (s.elementAt p size need delta) :=
  StopsWf.of (by simp [State.elementAt])

@[simp] theorem wf_elementPlaces (s : State) (p : Word) (size : Nat) (need : Need) (l : List Int) : StopsWf (s.elementPlaces p size need l) := by
  induction l with
  | nil => trivial
  | cons x rest ih => exact StopsWf.of (by simp [State.elementPlaces, ih])

theorem wf_elementsUntil (s : State) (p : Word) (size : Nat) (need : Need) (l : List Int) :
    ∀ e ∈ (s.elementsUntil p size need l).2, e.Wf := by
  induction l with
  | nil => exact fun e he => nomatch he
  | cons x rest ih =>
    have hx := wf_elementAt s p size need x
    simp only [State.elementsUntil]
    split
    · next e heq =>
      rw [heq] at hx
      rintro _ ⟨⟩
      exact hx
    · exact ih

@[simp] theorem wf_sendGroup (s : State) (grp cls : Nat) (counter : Option Nat) (rs : List (Request × Bool)) (h : Memory.wf s.mem = true) :
    Memory.wf (s.sendGroup grp cls counter rs).mem = true := by
  unfold State.sendGroup
  extract_lets one t
  have ht : Memory.wf t.mem = true := wf_foldl (fun u x hu => by
    simp only [one]
    split
    · split <;> split <;> simp [hu]
    · split
      · simp [hu]
      · split
        · next e => exact wf_of_apply e hu
        · exact hu) (by simp [h])
  clear_value t
  split <;> simp [ht]

@[simp] theorem wf_groupReady (s : State) (places : List (Word × Place)) (size cls : Nat) : StopsWf (s.groupReady places size cls) :=
  StopsWf.of (by simp [State.groupReady])

@[simp] theorem wf_elementLoaded (s : State) (q : Word) (pl : Place) (hint : BitVec 2) (h : Memory.wf s.mem = true) :
    Memory.wf (s.elementLoaded q pl hint).mem = true := by
  simp only [State.elementLoaded]
  (repeat' split) <;> simp [h]

@[simp] theorem wf_readElements (s : State) (size : Nat) (old : List Nat) (hint : BitVec 2) (l : List (Word × Place)) :
    StopsWf (s.readElements size old hint l) := by
  induction l generalizing old with
  | nil => trivial
  | cons x rest ih =>
    refine StopsWf.of ?_
    simp only [State.readElements]
    split
    · simp [ih]
    · split <;> simp [ih]

@[simp] theorem wf_vectorLoad (s : State) (c : Claim) (f : Fmt) (size : Nat) (d : BitVec 4) (code : Nat) (places : List (Word × Place))
    (dies : List Reg) (hint : BitVec 2) (h : Memory.wf s.mem = true) : RunWf (vectorLoad s c f size d code places dies hint) := by
  refine RunWf.of ?_
  simp only [vectorLoad]
  split
  · simp [h]
  · simp only [gives_bind]
    refine Gives.mono (wf_groupReady s places size 0) fun _ _ => Gives.mono (wf_writableV s d) fun _ _ =>
      Gives.mono (wf_readElements s size _ hint places) fun vals _ => Gives.mono (wf_retireV s dies [] (some d) _ 0 h) fun r hr => ?_
    have hl : Memory.wf (places.foldl (fun r e => r.elementLoaded e.1 e.2 hint) r).mem = true := wf_foldl (fun t x ht => by simp [ht]) hr
    rw [gives_pure]
    split <;> simp [hl]

@[simp] theorem wf_vectorStore (s : State) (c : Claim) (f : Fmt) (size : Nat) (d : BitVec 4) (places : List (Word × Place)) (dies : List Reg)
    (hint : BitVec 2) (h : Memory.wf s.mem = true) : RunWf (vectorStore s c f size d places dies hint) := by
  refine RunWf.of ?_
  simp only [vectorStore]
  (repeat' split) <;> simp +contextual [h]

@[simp] theorem wf_vectorBase (s : State) (a : Reg) : StopsWf (s.vectorBase a) := StopsWf.of (by simp [State.vectorBase])

@[simp] theorem wf_execVld (d : BitVec 4) (a : BitVec 5) (l : Bool) (k : BitVec 2) (h : BitVec 2) (s : State) (hs : Memory.wf s.mem = true) :
    OutcomeWf (execVld d a l k h s) :=
  wf_concludeAs hs (by simp [hs])

@[simp] theorem wf_execVst (d : BitVec 4) (a : BitVec 5) (l : Bool) (k : BitVec 2) (h : BitVec 2) (s : State) (hs : Memory.wf s.mem = true) :
    OutcomeWf (execVst d a l k h s) :=
  wf_concludeAs hs (by simp [hs])

@[simp] theorem wf_execVldf (d : BitVec 4) (a : BitVec 5) (l : Bool) (k : BitVec 2) (h : BitVec 2) (s : State) (hs : Memory.wf s.mem = true) :
    OutcomeWf (execVldf d a l k h s) := by
  refine wf_concludeAs hs (gives_when () trivial fun _ => ?_)
  rw [gives_bind]
  refine Gives.mono (wf_vectorBase s a) fun ⟨p, c, f, size⟩ _ => ?_
  dsimp only
  have hu := wf_elementsUntil s p size Need.load (strided (active c k f.width) size)
  generalize s.elementsUntil p size Need.load (strided (active c k f.width) size) = x at hu ⊢
  obtain ⟨places, failure⟩ := x
  cases failure with
  | none => exact wf_vectorLoad _ _ _ _ _ _ _ _ _ hs
  | some e =>
    dsimp only
    split
    · exact hu e rfl
    · exact wf_vectorLoad _ _ _ _ _ _ _ _ _ hs

@[simp] theorem wf_execVlds (d : BitVec 4) (a : BitVec 5) (l : Bool) (b : BitVec 5) (m : Bool) (k : BitVec 2) (h : BitVec 2) (s : State)
    (hs : Memory.wf s.mem = true) : OutcomeWf (execVlds d a l b m k h s) :=
  wf_concludeAs hs (by simp [hs])

@[simp] theorem wf_execVsts (d : BitVec 4) (a : BitVec 5) (l : Bool) (b : BitVec 5) (m : Bool) (k : BitVec 2) (h : BitVec 2) (s : State)
    (hs : Memory.wf s.mem = true) : OutcomeWf (execVsts d a l b m k h s) :=
  wf_concludeAs hs (by simp [hs])

@[simp] theorem wf_execVgth (d : BitVec 4) (a : BitVec 5) (l : Bool) (w : BitVec 4) (k : BitVec 2) (h : BitVec 2) (s : State)
    (hs : Memory.wf s.mem = true) : OutcomeWf (execVgth d a l w k h s) :=
  wf_concludeAs hs (by simp [hs])

@[simp] theorem wf_execVsct (d : BitVec 4) (a : BitVec 5) (l : Bool) (w : BitVec 4) (k : BitVec 2) (h : BitVec 2) (s : State)
    (hs : Memory.wf s.mem = true) : OutcomeWf (execVsct d a l w k h s) :=
  wf_concludeAs hs (by simp [hs])

/-! ### The functions of Sys2Proof/Machine/Sparse.lean -/

@[simp] theorem wf_tableReach (s : State) (key : Nat) : StopsWf (s.tableReach key) := StopsWf.of (by simp [State.tableReach])

@[simp] theorem wf_tableUse (s : State) (key : Nat) : StopsWf (s.tableUse key) := StopsWf.of (by simp [State.tableUse])

@[simp] theorem wf_tableHeader (s : State) (p : Word) : StopsWf (s.tableHeader p) := StopsWf.of (by simp [State.tableHeader])

@[simp] theorem wf_hashTable (s : State) (p : Word) : StopsWf (s.hashTable p) := StopsWf.of (by simp [State.hashTable])

@[simp] theorem wf_tableWrite (s : State) (key : Nat) (v : Word) (h : Memory.wf s.mem = true) : Memory.wf (s.tableWrite key v).mem = true := by
  simp [State.tableWrite, h]

@[simp] theorem wf_tableTag (s : State) (key : Nat) (fe : Bool) (h : Memory.wf s.mem = true) : Memory.wf (s.tableTag key fe).mem = true := by
  simp [State.tableTag, h]

@[simp] theorem wf_setTableCount (s : State) (t : HashTable) (n : Nat) (h : Memory.wf s.mem = true) :
    Memory.wf (s.setTableCount t n).mem = true := by
  simp [State.setTableCount, h]

theorem stopsWf_foldr {α β : Type} {l : List α} {f : α → Except Stop β → Except Stop β} {x : Except Stop β}
    (hf : ∀ a r, StopsWf r → StopsWf (f a r)) (hx : StopsWf x) : StopsWf (l.foldr f x) := by
  induction l with
  | nil => exact hx
  | cons a l ih => exact hf a _ ih

@[simp] theorem wf_probe (s : State) (t : HashTable) (key : Word) : StopsWf (s.probe t key) := by
  refine stopsWf_foldr (fun i rest hr => gives_bind.2 (Gives.mono (wf_tableUse s _) fun _ _ => ?_)) trivial
  split
  · trivial
  · split
    · trivial
    · exact hr

@[simp] theorem wf_arrayDescriptor (s : State) (p : Word) (h : Memory.wf s.mem = true) : StopsWf (s.arrayDescriptor p) :=
  StopsWf.of (by simp [State.arrayDescriptor, h])

@[simp] theorem mem_setHprog (s : State) (e : Nat) : (s.setHprog e).mem = s.mem := by
  simp [State.setHprog]

@[simp] theorem wf_haccOne (s : State) (t : HashTable) (keys vals : Word) (e : Nat) (h : Memory.wf s.mem = true) :
    RunWf (s.haccOne t keys vals e) := by
  refine RunWf.of ?_
  simp only [State.haccOne, gives_bind]
  refine Gives.mono (wf_advanceOr keys _) fun kp _ => Gives.mono (wf_fetchData s kp _ h) fun k _ =>
    Gives.mono (wf_advanceOr vals _) fun vp _ => Gives.mono (wf_fetchData s vp _ h) fun x _ => Gives.mono (wf_probe s t _) fun found _ => ?_
  split
  · simp only [gives_bind]
    refine Gives.mono (wf_tableReach s _) fun _ _ => ?_
    split <;> simp [h]
  · simp only [gives_bind]
    refine Gives.mono (wf_tableReach s _) fun _ _ => ?_
    split
    · trivial
    · rw [gives_pure, mem_raise]
      exact wf_setTableCount _ _ _ (wf_tableWrite _ _ _ (by simp [h]))
  · trivial

theorem Stop.wf_keeping {e : Stop} {s : State} (he : e.Wf) (h : Memory.wf s.mem = true) : (e.keeping s).Wf := by
  cases e with
  | trap t => exact h
  | trapIn t x => exact he
  | wait w => exact h
  | waitIn t w => exact he

@[simp] theorem wf_haccFrom (s : State) (t : HashTable) (keys vals : Word) (pause : Bool) (fuel e : Nat) (h : Memory.wf s.mem = true) :
    RunWf (s.haccFrom t keys vals pause fuel e) := by
  induction fuel generalizing s e with
  | zero =>
    simp only [State.haccFrom]
    split <;> exact h
  | succ fuel ih =>
    have hk := wf_haccOne s t keys vals e h
    simp only [State.haccFrom]
    split
    · next x hx =>
      rw [hx] at hk
      exact Stop.wf_keeping hk (by simp [h])
    · next u hu =>
      rw [hu] at hk
      exact ih _ _ (by simpa using show Memory.wf u.mem = true from hk)

@[simp] theorem wf_execHacc (d : BitVec 5) (a : BitVec 5) (l : Bool) (b : BitVec 5) (m : Bool) (s : State) (h : Memory.wf s.mem = true) :
    OutcomeWf (execHacc d a l b m s) := by
  refine wf_concludeAs h ?_
  simp only [gives_bind]
  refine Gives.mono (wf_readReg s a) fun p _ => Gives.mono (wf_readReg s b) fun y _ => Gives.mono (wf_hashTable s p) fun t _ =>
    Gives.mono (wf_arrayDescriptor s y h) fun ⟨keys, vals, n⟩ _ => ?_
  refine gives_when () trivial fun _ => gives_when () trivial fun _ => ?_
  simp only [gives_bind]
  refine Gives.mono (wf_haccFrom s t keys vals _ _ _ h) fun r hr => ?_
  have hz := wf_retire (r.setHprog 0) 4 (used l a ++ used m b) [(d, wordOf n)] (by simp [hr])
  split
  · next z e =>
    rw [e] at hz
    exact hz
  · next x e =>
    rw [e] at hz
    exact Stop.wf_keeping hz hr

@[simp] theorem wf_tableUses (s : State) (t : HashTable) : StopsWf (s.tableUses t) := by
  refine StopsWf.of ?_
  simp only [State.tableUses]
  induction List.range t.size with
  | nil => trivial
  | cons i l ih =>
    change StopsWf (_ >>= fun _ => List.forM l _)
    exact gives_bind.2 (Gives.mono (P := fun _ => True) (by simp) fun _ _ => ih)

@[simp] theorem wf_drainPlaces (s : State) (p : Word) (size i n : Nat) : StopsWf (s.drainPlaces p size i n) := by
  induction n generalizing i with
  | zero => trivial
  | succ n ih => exact StopsWf.of (by simp [State.drainPlaces, ih])

@[simp] theorem wf_storeArray (s : State) (places : List (Word × Place)) (size : Nat) (vs : List Word) (h : Memory.wf s.mem = true) :
    Memory.wf (s.storeArray places size vs).mem = true := by
  simp only [State.storeArray]
  (repeat' split) <;> simp [h]

@[simp] theorem wf_execHdrn (d : BitVec 5) (a : BitVec 5) (l : Bool) (b : BitVec 5) (m : Bool) (s : State) (h : Memory.wf s.mem = true) :
    OutcomeWf (execHdrn d a l b m s) := by
  refine wf_concludeAs h ?_
  simp only [gives_bind]
  refine Gives.mono (wf_readReg s a) fun p _ => Gives.mono (wf_readReg s b) fun y _ => Gives.mono (wf_hashTable s p) fun t _ =>
    Gives.mono (wf_arrayDescriptor s y h) fun ⟨keys, vals, cap⟩ _ => ?_
  refine gives_when () trivial fun _ => gives_when () trivial fun _ => ?_
  simp only [gives_bind]
  refine Gives.mono (wf_tableUses s t) fun _ _ => gives_when () trivial fun _ => ?_
  simp only [gives_bind]
  refine Gives.mono (wf_drainPlaces s keys _ _ _) fun kps _ => Gives.mono (wf_drainPlaces s vals _ _ _) fun vps _ => gives_when () trivial fun _ => ?_
  rw [gives_bind]
  refine Gives.mono (wf_retire s 4 _ _ h) fun r hr => ?_
  rw [gives_pure]
  refine wf_setTableCount _ t 0 (wf_foldl (fun u e hu => ?_) ?_)
  · split <;> simp [hu]
  · simp [hr]

@[simp] theorem wf_execSbnd (a : BitVec 5) (l : Bool) (b : BitVec 5) (m : Bool) (s : State) (h : Memory.wf s.mem = true) :
    OutcomeWf (execSbnd a l b m s) :=
  wf_concludeAs h (by simp +contextual [h])

end Sys2Proof.Machine
namespace Sys2Proof.Machine

/-! ## Every step keeps the memory canonical: surveyors, vector arithmetic, dispatch and the step -/

/-! ### The functions of Sys2Proof/Machine/Sparse.lean -/

@[simp] theorem wf_execCarry (d : BitVec 5) (a : BitVec 5) (l : Bool) (b : BitVec 5) (m : Bool) (s : State) (h : Memory.wf s.mem = true) :
    OutcomeWf (execCarry d a l b m s) :=
  wf_concludeAs h (by simp (disch := simp [h]))

/-! ### The functions of Sys2Proof/Machine/Spdm.lean -/

@[simp] theorem mem_converse (s : State) (request response : List Byte) : (s.converse request response).mem = s.mem := by
  simp [State.converse]

@[simp] theorem mem_inTurn {s : State} {turn : Bool} {f : State → State} (hf : (f s).mem = s.mem) : (s.inTurn turn f).mem = s.mem := by
  simp only [State.inTurn]
  split
  · exact hf
  · simp

@[simp] theorem mem_signed {s : State} {request : List Byte} {code : Byte} {f : State → List Byte → State} (hf : ∀ t b, (f t b).mem = t.mem) :
    (s.signed request code f).mem = s.mem := by
  simp only [State.signed]
  split
  · simp
  · rw [hf]

@[simp] theorem mem_getVersion (s : State) (request : List Byte) : (s.getVersion request).mem = s.mem := by
  simp [State.getVersion]

@[simp] theorem wf_execGetVersion (request : List Byte) (s : State) (h : Memory.wf s.mem = true) : OutcomeWf (execGetVersion request s) := by
  simp [execGetVersion, h]

@[simp] theorem mem_getCapabilities (s : State) (request : List Byte) : (s.getCapabilities request).mem = s.mem := by
  simp [State.getCapabilities]

@[simp] theorem wf_execGetCapabilities (request : List Byte) (s : State) (h : Memory.wf s.mem = true) :
    OutcomeWf (execGetCapabilities request s) := by
  simp [execGetCapabilities, h]

@[simp] theorem mem_negotiate (s : State) (request : List Byte) : (s.negotiate request).mem = s.mem := by
  simp [State.negotiate]

@[simp] theorem wf_execNegotiateAlgorithms (request : List Byte) (s : State) (h : Memory.wf s.mem = true) :
    OutcomeWf (execNegotiateAlgorithms request s) := by
  simp [execNegotiateAlgorithms, h]

@[simp] theorem mem_getDigests (s : State) (request : List Byte) : (s.getDigests request).mem = s.mem := by
  simp [State.getDigests]

@[simp] theorem wf_execGetDigests (request : List Byte) (s : State) (h : Memory.wf s.mem = true) : OutcomeWf (execGetDigests request s) := by
  simp [execGetDigests, h]

@[simp] theorem mem_getCertificate (s : State) (request : List Byte) : (s.getCertificate request).mem = s.mem := by
  simp [State.getCertificate]

@[simp] theorem wf_execGetCertificate (request : List Byte) (s : State) (h : Memory.wf s.mem = true) : OutcomeWf (execGetCertificate request s) := by
  simp [execGetCertificate, h]

@[simp] theorem mem_challenge (s : State) (request : List Byte) : (s.challenge request).mem = s.mem := by
  simp [State.challenge]

@[simp] theorem wf_execChallenge (request : List Byte) (s : State) (h : Memory.wf s.mem = true) : OutcomeWf (execChallenge request s) := by
  simp [execChallenge, h]

@[simp] theorem mem_getMeasurements (s : State) (request : List Byte) : (s.getMeasurements request).mem = s.mem := by
  simp [State.getMeasurements]

@[simp] theorem wf_execGetMeasurements (request : List Byte) (s : State) (h : Memory.wf s.mem = true) :
    OutcomeWf (execGetMeasurements request s) := by
  simp [execGetMeasurements, h]

@[simp] theorem mem_exchange (s : State) (request : List Byte) : (s.exchange request).mem = s.mem := by
  simp [State.exchange]

@[simp] theorem wf_execKeyExchange (request : List Byte) (s : State) (h : Memory.wf s.mem = true) : OutcomeWf (execKeyExchange request s) := by
  simp [execKeyExchange, h]

@[simp] theorem mem_finishSession (s : State) (request : List Byte) : (s.finishSession request).mem = s.mem := by
  simp [State.finishSession]

@[simp] theorem wf_execFinish (request : List Byte) (s : State) (h : Memory.wf s.mem = true) : OutcomeWf (execFinish request s) := by
  simp [execFinish, h]

/-! ### The functions of Sys2Proof/Machine/Surveyor.lean -/

@[simp] theorem wf_kernelFrom (s : State) (va : Word) (n : Nat) : StopsWf (s.kernelFrom va n) := by
  induction n generalizing va with
  | zero => trivial
  | succ n ih =>
    refine StopsWf.of ?_
    simp only [State.kernelFrom]
    split
    · split <;> trivial
    · split
      · trivial
      · split
        · trivial
        · simp [ih]

theorem wf_survBind (s : State) (d a : Reg) (l : Bool) (b : Reg) (m : Bool) (h : Memory.wf s.mem = true) :
    Gives (Yields fun t => Memory.wf t.mem = true) (survBind s d a l b m) := by
  simp only [survBind, gives_bind]
  refine Gives.mono (wf_readReg s a) fun p _ => Gives.mono (wf_readReg s b) fun y _ => Gives.mono (wf_notService s) fun _ _ =>
    Gives.mono (wf_spaces p [0, 1]) fun _ _ => gives_when () trivial fun _ => ?_
  simp only [gives_bind]
  refine Gives.mono (wf_fetchImage s p 0 4 h) fun desc _ => Gives.mono (wf_spaces _ [0]) fun _ _ => gives_when () trivial fun _ =>
    gives_when () trivial fun _ => gives_when () trivial fun _ => ?_
  simp only [gives_bind]
  refine Gives.mono (wf_kernelFrom s y 64) fun ks _ => ?_
  split
  · trivial
  · split
    · trivial
    · simp only [gives_bind]
      refine Gives.mono (wf_retire s 4 _ _ h) fun r hr => ?_
      split <;> simp [hr]

@[simp] theorem wf_execSurvBind (d : BitVec 5) (a : BitVec 5) (l : Bool) (b : BitVec 5) (m : Bool) (s : State) (h : Memory.wf s.mem = true) :
    OutcomeWf (execSurvBind d a l b m s) := by
  have hb := wf_survBind s d a l b m h
  simp only [execSurvBind]
  split
  · next e =>
    rw [e] at hb
    exact wf_concludeAs h hb
  · exact wf_conclude h trivial
  · next e =>
    rw [e] at hb
    exact wf_conclude h hb

@[simp] theorem wf_streamNamed (s : State) (x : Word) : StopsWf (s.streamNamed x) := by
  refine StopsWf.of ?_
  simp only [State.streamNamed]
  (repeat' split) <;> simp

@[simp] theorem mem_setStream (s : State) (core n : Nat) (t : Stream) : (s.setStream core n t).mem = s.mem := by
  simp [State.setStream]

@[simp] theorem wf_onStream (s : State) (a : Reg) (l : Bool) (f : State → Nat → Stream → State) (h : Memory.wf s.mem = true)
    (hf : ∀ t n x, Memory.wf t.mem = true → Memory.wf (f t n x).mem = true) : RunWf (onStream s a l f) := by
  refine RunWf.of ?_
  simp only [onStream, gives_bind]
  exact Gives.mono (wf_readReg s a) fun x _ => Gives.mono (wf_notService s) fun _ _ => Gives.mono (wf_streamNamed s x) fun y _ =>
    Gives.mono (wf_retire s 4 _ [] h) fun r hr => hf r y.1 y.2 hr

@[simp] theorem wf_execSurvUnbind (a : BitVec 5) (l : Bool) (s : State) (h : Memory.wf s.mem = true) : OutcomeWf (execSurvUnbind a l s) :=
  wf_concludeAs h (by simp [h])

@[simp] theorem wf_execSurvStart (a : BitVec 5) (l : Bool) (s : State) (h : Memory.wf s.mem = true) : OutcomeWf (execSurvStart a l s) :=
  wf_concludeAs h (by simp [h])

@[simp] theorem wf_execSurvStop (a : BitVec 5) (l : Bool) (s : State) (h : Memory.wf s.mem = true) : OutcomeWf (execSurvStop a l s) :=
  wf_concludeAs h (by simp [h])

@[simp] theorem wf_execSvFetch (a : BitVec 3) (b : BitVec 3) (i : BitVec 4) (s : State) (h : Memory.wf s.mem = true) :
    OutcomeWf (execSvFetch a b i s) :=
  wf_concludeAs h (by simp)

@[simp] theorem wf_execSvEmit (a : BitVec 3) (b : BitVec 3) (i : BitVec 4) (s : State) (h : Memory.wf s.mem = true) :
    OutcomeWf (execSvEmit a b i s) :=
  wf_concludeAs h (by simp)

@[simp] theorem mem_streamCompletion (s : State) (core n : Nat) (t : Stream) (code : Nat) (args : List Word) :
    (s.streamCompletion core n t code args).mem = s.mem := by
  simp [State.streamCompletion]

@[simp] theorem mem_faultStream (s : State) (core n : Nat) (t : Stream) (e : Nat × List Word) : (s.faultStream core n t e).mem = s.mem := by
  simp [State.faultStream]

@[simp] theorem mem_streamView (s : State) (core : Nat) (t : Stream) : (s.streamView core t).mem = s.mem := by
  simp [State.streamView]

@[simp] theorem wf_fillFor (v : State) (q : Word) (hint : BitVec 2) (near : Bool) (s : State) (h : Memory.wf s.mem = true) :
    Memory.wf (v.fillFor q hint near s).mem = true := by
  simp only [State.fillFor]
  (repeat' split) <;> simp [h]

@[simp] theorem wf_readIndexLine (s : State) (core n : Nat) (t : Stream) (h : Memory.wf s.mem = true) :
    Memory.wf (s.readIndexLine core n t).mem = true := by
  simp only [State.readIndexLine]
  (repeat' split) <;> simp [h]

@[simp] theorem mem_endStream (s : State) (core n : Nat) (t : Stream) : (s.endStream core n t).mem = s.mem := by
  simp [State.endStream]

@[simp] theorem mem_startRun (s : State) (core n : Nat) (t : Stream) : (s.startRun core n t).mem = s.mem := by
  simp only [State.startRun]
  (repeat' split) <;> simp

@[simp] theorem wf_runKernel (s : State) (core n : Nat) (t : Stream) (i count : Nat) (h : Memory.wf s.mem = true) :
    Memory.wf (s.runKernel core n t i count).mem = true := by
  simp only [State.runKernel]
  (repeat' split) <;> simp [h]

@[simp] theorem wf_surveyorStep (s : State) (core n : Nat) (h : Memory.wf s.mem = true) : Memory.wf (s.surveyorStep core n).mem = true := by
  simp only [State.surveyorStep]
  (repeat' split) <;> simp [h]

@[simp] theorem wf_execSurveyorRun (core : Nat) (stream : Nat) (s : State) (h : Memory.wf s.mem = true) :
    OutcomeWf (execSurveyorRun core stream s) := by
  simp [execSurveyorRun, h]

@[simp] theorem wf_gatherReturn (s : State) (core n : Nat) (h : Memory.wf s.mem = true) : Memory.wf (s.gatherReturn core n).mem = true := by
  simp only [State.gatherReturn]
  (repeat' split) <;> simp [h]

@[simp] theorem wf_execSurveyorGatherReturn (core : Nat) (stream : Nat) (s : State) (h : Memory.wf s.mem = true) :
    OutcomeWf (execSurveyorGatherReturn core stream s) := by
  simp [execSurveyorGatherReturn, h]

/-! ### The functions of Sys2Proof/Machine/VectorArith.lean -/

@[simp] theorem wf_vector1 (s : State) (d a : BitVec 4) (k : BitVec 2) (t : BitVec 4) (x : BitVec 3) (lo hi : Nat)
    (op : Fmt → Rounding → Nat → Result) (h : Memory.wf s.mem = true) : RunWf (vector1 s d a k t x lo hi op) :=
  RunWf.of (by simp [vector1, h])

@[simp] theorem wf_vector2 (s : State) (d a b : BitVec 4) (k : BitVec 2) (t : BitVec 4) (x : BitVec 3) (lo hi : Nat)
    (op : Fmt → Rounding → Nat → Nat → Result) (h : Memory.wf s.mem = true) : RunWf (vector2 s d a b k t x lo hi op) :=
  RunWf.of (by simp [vector2, h])

@[simp] theorem wf_vector3 (s : State) (d a b : BitVec 4) (k : BitVec 2) (t : BitVec 4) (x : BitVec 3) (lo hi : Nat)
    (op : Fmt → Rounding → Nat → Nat → Nat → Result) (h : Memory.wf s.mem = true) : RunWf (vector3 s d a b k t x lo hi op) :=
  RunWf.of (by simp [vector3, h])

@[simp] theorem wf_lanewise (s : State) (d a b : BitVec 4) (k : BitVec 2) (t : BitVec 4) (op : Lane → Lane → Lane) (h : Memory.wf s.mem = true) :
    RunWf (lanewise s d a b k t op) :=
  RunWf.of (by simp [lanewise, h])

@[simp] theorem wf_execVadd (d : BitVec 4) (a : BitVec 4) (b : BitVec 4) (k : BitVec 2) (t : BitVec 4) (x : BitVec 3) (s : State)
    (h : Memory.wf s.mem = true) : OutcomeWf (execVadd d a b k t x s) :=
  wf_concludeAs h (by simp [h])

@[simp] theorem wf_execVsub (d : BitVec 4) (a : BitVec 4) (b : BitVec 4) (k : BitVec 2) (t : BitVec 4) (x : BitVec 3) (s : State)
    (h : Memory.wf s.mem = true) : OutcomeWf (execVsub d a b k t x s) :=
  wf_concludeAs h (by simp [h])

@[simp] theorem wf_execVmul (d : BitVec 4) (a : BitVec 4) (b : BitVec 4) (k : BitVec 2) (t : BitVec 4) (x : BitVec 3) (s : State)
    (h : Memory.wf s.mem = true) : OutcomeWf (execVmul d a b k t x s) :=
  wf_concludeAs h (by simp [h])

@[simp] theorem wf_execVdiv (d : BitVec 4) (a : BitVec 4) (b : BitVec 4) (k : BitVec 2) (t : BitVec 4) (x : BitVec 3) (s : State)
    (h : Memory.wf s.mem = true) : OutcomeWf (execVdiv d a b k t x s) :=
  wf_concludeAs h (by simp [h])

@[simp] theorem wf_execVmin (d : BitVec 4) (a : BitVec 4) (b : BitVec 4) (k : BitVec 2) (t : BitVec 4) (x : BitVec 3) (s : State)
    (h : Memory.wf s.mem = true) : OutcomeWf (execVmin d a b k t x s) :=
  wf_concludeAs h (by simp [h])

@[simp] theorem wf_execVmax (d : BitVec 4) (a : BitVec 4) (b : BitVec 4) (k : BitVec 2) (t : BitVec 4) (x : BitVec 3) (s : State)
    (h : Memory.wf s.mem = true) : OutcomeWf (execVmax d a b k t x s) :=
  wf_concludeAs h (by simp [h])

@[simp] theorem wf_execVabsd (d : BitVec 4) (a : BitVec 4) (b : BitVec 4) (k : BitVec 2) (t : BitVec 4) (x : BitVec 3) (s : State)
    (h : Memory.wf s.mem = true) : OutcomeWf (execVabsd d a b k t x s) :=
  wf_concludeAs h (by simp [h])

@[simp] theorem wf_execVmulh (d : BitVec 4) (a : BitVec 4) (b : BitVec 4) (k : BitVec 2) (t : BitVec 4) (x : BitVec 3) (s : State)
    (h : Memory.wf s.mem = true) : OutcomeWf (execVmulh d a b k t x s) :=
  wf_concludeAs h (by simp [h])

@[simp] theorem wf_execVfma (d : BitVec 4) (a : BitVec 4) (b : BitVec 4) (k : BitVec 2) (t : BitVec 4) (x : BitVec 3) (s : State)
    (h : Memory.wf s.mem = true) : OutcomeWf (execVfma d a b k t x s) :=
  wf_concludeAs h (by simp [h])

@[simp] theorem wf_execVfms (d : BitVec 4) (a : BitVec 4) (b : BitVec 4) (k : BitVec 2) (t : BitVec 4) (x : BitVec 3) (s : State)
    (h : Memory.wf s.mem = true) : OutcomeWf (execVfms d a b k t x s) :=
  wf_concludeAs h (by simp [h])

@[simp] theorem wf_execVcvt (d : BitVec 4) (a : BitVec 4) (sg : BitVec 4) (k : BitVec 2) (t : BitVec 4) (x : BitVec 3) (s : State)
    (h : Memory.wf s.mem = true) : OutcomeWf (execVcvt d a sg k t x s) :=
  wf_concludeAs h (by simp [h])

@[simp] theorem wf_execVabs (d : BitVec 4) (a : BitVec 4) (k : BitVec 2) (t : BitVec 4) (x : BitVec 3) (s : State) (h : Memory.wf s.mem = true) :
    OutcomeWf (execVabs d a k t x s) :=
  wf_concludeAs h (by simp [h])

@[simp] theorem wf_execVneg (d : BitVec 4) (a : BitVec 4) (k : BitVec 2) (t : BitVec 4) (x : BitVec 3) (s : State) (h : Memory.wf s.mem = true) :
    OutcomeWf (execVneg d a k t x s) :=
  wf_concludeAs h (by simp [h])

@[simp] theorem wf_execVsqrt (d : BitVec 4) (a : BitVec 4) (k : BitVec 2) (t : BitVec 4) (x : BitVec 3) (s : State) (h : Memory.wf s.mem = true) :
    OutcomeWf (execVsqrt d a k t x s) :=
  wf_concludeAs h (by simp [h])

@[simp] theorem wf_execVrcp (d : BitVec 4) (a : BitVec 4) (k : BitVec 2) (t : BitVec 4) (x : BitVec 3) (s : State) (h : Memory.wf s.mem = true) :
    OutcomeWf (execVrcp d a k t x s) :=
  wf_concludeAs h (by simp [h])

@[simp] theorem wf_execVrsq (d : BitVec 4) (a : BitVec 4) (k : BitVec 2) (t : BitVec 4) (x : BitVec 3) (s : State) (h : Memory.wf s.mem = true) :
    OutcomeWf (execVrsq d a k t x s) :=
  wf_concludeAs h (by simp [h])

@[simp] theorem wf_execVexp (d : BitVec 4) (a : BitVec 4) (k : BitVec 2) (t : BitVec 4) (x : BitVec 3) (s : State) (h : Memory.wf s.mem = true) :
    OutcomeWf (execVexp d a k t x s) :=
  wf_concludeAs h (by simp [h])

@[simp] theorem wf_execVlog (d : BitVec 4) (a : BitVec 4) (k : BitVec 2) (t : BitVec 4) (x : BitVec 3) (s : State) (h : Memory.wf s.mem = true) :
    OutcomeWf (execVlog d a k t x s) :=
  wf_concludeAs h (by simp [h])

@[simp] theorem wf_execVsin (d : BitVec 4) (a : BitVec 4) (k : BitVec 2) (t : BitVec 4) (x : BitVec 3) (s : State) (h : Memory.wf s.mem = true) :
    OutcomeWf (execVsin d a k t x s) :=
  wf_concludeAs h (by simp [h])

@[simp] theorem wf_execVcos (d : BitVec 4) (a : BitVec 4) (k : BitVec 2) (t : BitVec 4) (x : BitVec 3) (s : State) (h : Memory.wf s.mem = true) :
    OutcomeWf (execVcos d a k t x s) :=
  wf_concludeAs h (by simp [h])

@[simp] theorem wf_execVtanh (d : BitVec 4) (a : BitVec 4) (k : BitVec 2) (t : BitVec 4) (x : BitVec 3) (s : State) (h : Memory.wf s.mem = true) :
    OutcomeWf (execVtanh d a k t x s) :=
  wf_concludeAs h (by simp [h])

@[simp] theorem wf_execVand (d : BitVec 4) (a : BitVec 4) (b : BitVec 4) (k : BitVec 2) (t : BitVec 4) (x : BitVec 3) (s : State)
    (h : Memory.wf s.mem = true) : OutcomeWf (execVand d a b k t x s) :=
  wf_concludeAs h (by simp [h])

@[simp] theorem wf_execVor (d : BitVec 4) (a : BitVec 4) (b : BitVec 4) (k : BitVec 2) (t : BitVec 4) (x : BitVec 3) (s : State)
    (h : Memory.wf s.mem = true) : OutcomeWf (execVor d a b k t x s) :=
  wf_concludeAs h (by simp [h])

@[simp] theorem wf_execVxor (d : BitVec 4) (a : BitVec 4) (b : BitVec 4) (k : BitVec 2) (t : BitVec 4) (x : BitVec 3) (s : State)
    (h : Memory.wf s.mem = true) : OutcomeWf (execVxor d a b k t x s) :=
  wf_concludeAs h (by simp [h])

@[simp] theorem wf_execVandn (d : BitVec 4) (a : BitVec 4) (b : BitVec 4) (k : BitVec 2) (t : BitVec 4) (x : BitVec 3) (s : State)
    (h : Memory.wf s.mem = true) : OutcomeWf (execVandn d a b k t x s) :=
  wf_concludeAs h (by simp [h])

@[simp] theorem wf_execVshl (d : BitVec 4) (a : BitVec 4) (b : BitVec 4) (k : BitVec 2) (t : BitVec 4) (x : BitVec 3) (s : State)
    (h : Memory.wf s.mem = true) : OutcomeWf (execVshl d a b k t x s) :=
  wf_concludeAs h (by simp [h])

@[simp] theorem wf_execVshr (d : BitVec 4) (a : BitVec 4) (b : BitVec 4) (k : BitVec 2) (t : BitVec 4) (x : BitVec 3) (s : State)
    (h : Memory.wf s.mem = true) : OutcomeWf (execVshr d a b k t x s) :=
  wf_concludeAs h (by simp [h])

@[simp] theorem wf_execVsar (d : BitVec 4) (a : BitVec 4) (b : BitVec 4) (k : BitVec 2) (t : BitVec 4) (x : BitVec 3) (s : State)
    (h : Memory.wf s.mem = true) : OutcomeWf (execVsar d a b k t x s) :=
  wf_concludeAs h (by simp [h])

@[simp] theorem wf_execVcmp (d : BitVec 4) (a : BitVec 4) (b : BitVec 4) (k : BitVec 2) (t : BitVec 4) (c : BitVec 3) (s : State)
    (h : Memory.wf s.mem = true) : OutcomeWf (execVcmp d a b k t c s) :=
  wf_concludeAs h (by simp [h])

@[simp] theorem wf_execVsel (d : BitVec 4) (a : BitVec 4) (b : BitVec 4) (k : BitVec 2) (t : BitVec 4) (x : BitVec 3) (s : State)
    (h : Memory.wf s.mem = true) : OutcomeWf (execVsel d a b k t x s) :=
  wf_concludeAs h (by simp [h])

@[simp] theorem wf_reduce (s : State) (a : BitVec 4) (d : Reg) (k : BitVec 2) (t : BitVec 4) (x : BitVec 3)
    (op : Fmt → Rounding → Nat → List Nat → Word × FpFlags) (h : Memory.wf s.mem = true) : RunWf (reduce s a d k t x op) :=
  RunWf.of (by simp [reduce, h])

@[simp] theorem wf_execVsum (a : BitVec 4) (g : BitVec 5) (k : BitVec 2) (t : BitVec 4) (x : BitVec 3) (s : State) (h : Memory.wf s.mem = true) :
    OutcomeWf (execVsum a g k t x s) :=
  wf_concludeAs h (by simp [h])

@[simp] theorem wf_execVrmax (a : BitVec 4) (g : BitVec 5) (k : BitVec 2) (t : BitVec 4) (x : BitVec 3) (s : State) (h : Memory.wf s.mem = true) :
    OutcomeWf (execVrmax a g k t x s) :=
  wf_concludeAs h (by simp [h])

@[simp] theorem wf_execVrmin (a : BitVec 4) (g : BitVec 5) (k : BitVec 2) (t : BitVec 4) (x : BitVec 3) (s : State) (h : Memory.wf s.mem = true) :
    OutcomeWf (execVrmin a g k t x s) :=
  wf_concludeAs h (by simp [h])

@[simp] theorem wf_execVscan (d : BitVec 4) (a : BitVec 4) (k : BitVec 2) (t : BitVec 4) (x : BitVec 3) (s : State) (h : Memory.wf s.mem = true) :
    OutcomeWf (execVscan d a k t x s) :=
  wf_concludeAs h (by simp [h])

@[simp] theorem wf_execVperm (d : BitVec 4) (a : BitVec 4) (b : BitVec 4) (k : BitVec 2) (t : BitVec 4) (x : BitVec 3) (s : State)
    (h : Memory.wf s.mem = true) : OutcomeWf (execVperm d a b k t x s) :=
  wf_concludeAs h (by simp [h])

@[simp] theorem wf_execVbc (d : BitVec 4) (g : BitVec 5) (l : Bool) (k : BitVec 2) (t : BitVec 4) (x : BitVec 3) (s : State)
    (h : Memory.wf s.mem = true) : OutcomeWf (execVbc d g l k t x s) :=
  wf_concludeAs h (by simp [h])

@[simp] theorem wf_execVext (a : BitVec 4) (g : BitVec 5) (k : BitVec 2) (t : BitVec 4) (x : BitVec 3) (s : State) (h : Memory.wf s.mem = true) :
    OutcomeWf (execVext a g k t x s) :=
  wf_concludeAs h (by simp [h])

@[simp] theorem wf_execVins (d : BitVec 4) (g : BitVec 5) (l : Bool) (k : BitVec 2) (t : BitVec 4) (x : BitVec 3) (s : State)
    (h : Memory.wf s.mem = true) : OutcomeWf (execVins d g l k t x s) :=
  wf_concludeAs h (by simp [h])

@[simp] theorem wf_execViota (d : BitVec 4) (k : BitVec 2) (t : BitVec 4) (x : BitVec 3) (s : State) (h : Memory.wf s.mem = true) :
    OutcomeWf (execViota d k t x s) :=
  wf_concludeAs h (by simp [h])

@[simp] theorem wf_execVmov (d : BitVec 4) (a : BitVec 4) (k : BitVec 2) (t : BitVec 4) (x : BitVec 3) (s : State) (h : Memory.wf s.mem = true) :
    OutcomeWf (execVmov d a k t x s) :=
  wf_concludeAs h (by simp [h])

@[simp] theorem wf_execVqmovPop (d : BitVec 4) (q : BitVec 3) (k : BitVec 2) (t : BitVec 4) (x : BitVec 3) (s : State)
    (h : Memory.wf s.mem = true) : OutcomeWf (execVqmovPop d q k t x s) := by
  refine wf_concludeAs h (gives_when () trivial fun _ => ?_)
  simp only [gives_bind]
  refine Gives.mono (wf_needClaim s) fun c _ => Gives.mono (wf_typeIn t 0 13) fun f _ => Gives.mono (wf_openChannel s q true) fun ch _ => ?_
  split
  · simp [h]
  · simp only [gives_bind]
    refine Gives.mono (wf_writableV s d) fun _ _ => ?_
    split
    · exact wf_awaitEntry s ch h
    · split
      · simp [h]
      · rw [gives_bind]
        exact Gives.mono (wf_retireV s [] [] (some d) _ 0 h) fun r hr => by simp [hr]

@[simp] theorem wf_execVqmovPush (q : BitVec 3) (a : BitVec 4) (k : BitVec 2) (t : BitVec 4) (x : BitVec 3) (s : State) (h : Memory.wf s.mem = true) :
    OutcomeWf (execVqmovPush q a k t x s) :=
  wf_concludeAs h (by simp [h])

@[simp] theorem wf_execVmrg (d : BitVec 4) (a : BitVec 3) (b : BitVec 3) (k : BitVec 2) (t : BitVec 4) (x : BitVec 3) (s : State)
    (h : Memory.wf s.mem = true) : OutcomeWf (execVmrg d a b k t x s) := by
  refine wf_concludeAs h (gives_when () trivial fun _ => gives_bind.2 (Gives.mono (wf_needClaim s) fun cl _ =>
    gives_bind.2 (Gives.mono (wf_typeIn t 0 11) fun f _ => gives_bind.2 (Gives.mono (wf_openChannel s a true) fun ha _ =>
    gives_bind.2 (Gives.mono (wf_openChannel s b true) fun hb _ => gives_bind.2 (Gives.mono (wf_writableV s d) fun _ _ => ?_))))))
  extract_lets n pos ea eb turns me r
  clear_value n pos turns
  split
  next xs ys out finished _ =>
    extract_lets v done merged ch next_
    have hm : ∀ t : State, (merged t).mem = t.mem := fun t => by simp [merged]
    have hr : Memory.wf r.mem = true := by simp [r, h]
    have hn : StopsWf next_ := by
      refine StopsWf.of ?_
      simp only [next_]
      split <;> simp [h]
    clear_value v done merged ch next_
    split
    · exact gives_bind.2 (Gives.mono (wf_retireV s [] [] (some d) _ 0 h) fun u hu => by simp [hm, hu])
    · split
      · exact hr
      · exact hn
      · rw [gives_error, Stop.wf_waitIn, mem_setMe, hm, mem_setClaim]
        exact hr

/-! ### The functions of Sys2Proof/Machine/Dispatch.lean -/

@[simp] theorem wf_exec (i : Instr) (s : State) (hs : Memory.wf s.mem = true) : OutcomeWf (exec i s) :=
  match i with
  | .padd d a l b m => wf_execPadd d a l b m s hs
  | .pidx d a l b m => wf_execPidx d a l b m s hs
  | .pset d a l b m f => wf_execPset d a l b m f s hs
  | .pget d a l f => wf_execPget d a l f s hs
  | .pcore d a l b m => wf_execPcore d a l b m s hs
  | .pshrd d a l b m => wf_execPshrd d a l b m s hs
  | .ext d a l b m => wf_execExt d a l b m s hs
  | .bc a l b m c o => wf_execBc a l b m c o s hs
  | .j o => wf_execJ o s hs
  | .jal o => wf_execJal o s hs
  | .jr d a l imm => wf_execJr d a l imm s hs
  | .loop d imm => wf_execLoop d imm s hs
  | .ld d a l sg z h imm => wf_execLd d a l sg z h imm s hs
  | .ldFut d a l h imm => wf_execLdFut d a l h imm s hs
  | .ldTake d a l h imm => wf_execLdTake d a l h imm s hs
  | .st d a l e z h imm => wf_execSt d a l e z h imm s hs
  | .stFill d a l e h imm => wf_execStFill d a l e h imm s hs
  | .stGive d a l e h imm => wf_execStGive d a l e h imm s hs
  | .ldx d a l b m sg z h x => wf_execLdx d a l b m sg z h x s hs
  | .stx d a l b m e z h x => wf_execStx d a l b m e z h x s hs
  | .ldtVeq d a l b m h => wf_execLdtVeq d a l b m h s hs
  | .ldtVge d a l b m h => wf_execLdtVge d a l b m h s hs
  | .sttVnx d a l e h => wf_execSttVnx d a l e h s hs
  | .sttVset d a l b m e h => wf_execSttVset d a l b m e h s hs
  | .lds d a l b m sg z h => wf_execLds d a l b m sg z h s hs
  | .sts d a l b m e z h => wf_execSts d a l b m e z h s hs
  | .amoSwap d a l b m z h => wf_execAmoSwap d a l b m z h s hs
  | .amoAdd d a l b m z h => wf_execAmoAdd d a l b m z h s hs
  | .amoAnd d a l b m z h => wf_execAmoAnd d a l b m z h s hs
  | .amoOr d a l b m z h => wf_execAmoOr d a l b m z h s hs
  | .amoXor d a l b m z h => wf_execAmoXor d a l b m z h s hs
  | .amoMin d a l b m z h => wf_execAmoMin d a l b m z h s hs
  | .amoMax d a l b m z h => wf_execAmoMax d a l b m z h s hs
  | .amoMinu d a l b m z h => wf_execAmoMinu d a l b m z h s hs
  | .amoMaxu d a l b m z h => wf_execAmoMaxu d a l b m z h s hs
  | .cas d a l b m z h => wf_execCas d a l b m z h s hs
  | .redo d a l b m f => wf_execRedo d a l b m f s hs
  | .reda a l b m f => wf_execReda a l b m f s hs
  | .redr d a l f => wf_execRedr d a l f s hs
  | .redc d a l f => wf_execRedc d a l f s hs
  | .jinit d a l b m => wf_execJinit d a l b m s hs
  | .join d a l b m => wf_execJoin d a l b m s hs
  | .fence d a l => wf_execFence d a l s hs
  | .flush a l b m => wf_execFlush a l b m s hs
  | .cinv a l b m => wf_execCinv a l b m s hs
  | .wait a b c d => wf_execWait a b c d s hs
  | .pref h a l b m => wf_execPref h a l b m s hs
  | .vrecl a l b m => wf_execVrecl a l b m s hs
  | .tagr d a l => wf_execTagr d a l s hs
  | .tagw a l b m => wf_execTagw a l b m s hs
  | .mcast d a l b m => wf_execMcast d a l b m s hs
  | .spawn a l b m => wf_execSpawn a l b m s hs
  | .launch d a l => wf_execLaunch d a l s hs
  | .yield => wf_execYield s hs
  | .prio d a l => wf_execPrio d a l s hs
  | .sendm a l b m => wf_execSendm a l b m s hs
  | .recv d a l => wf_execRecv d a l s hs
  | .peek d => wf_execPeek d s hs
  | .reply a l => wf_execReply a l s hs
  | .hstart d a l b m => wf_execHstart d a l b m s hs
  | .hhalt a l => wf_execHhalt a l s hs
  | .hhaltRetain a l b m => wf_execHhaltRetain a l b m s hs
  | .hwait d a l => wf_execHwait d a l s hs
  | .crew a l b m => wf_execCrew a l b m s hs
  | .crewx d => wf_execCrewx d s hs
  | .bar d a l n => wf_execBar d a l n s hs
  | .qbind a l b m q => wf_execQbind a l b m q s hs
  | .qfree q => wf_execQfree q s hs
  | .qctlPop d q => wf_execQctlPop d q s hs
  | .qctlPush a l q => wf_execQctlPush a l q s hs
  | .qctlPushc a l q => wf_execQctlPushc a l q s hs
  | .qctlFlush q => wf_execQctlFlush q s hs
  | .qstat d q => wf_execQstat d q s hs
  | .qhnd a l => wf_execQhnd a l s hs
  | .qret => wf_execQret s hs
  | .vclaim d a l => wf_execVclaim d a l s hs
  | .vreneg d a l => wf_execVreneg d a l s hs
  | .vrel => wf_execVrel s hs
  | .pcnt d k => wf_execPcnt d k s hs
  | .pwhile d a l b m k => wf_execPwhile d a l b m k s hs
  | .pmin a l k kb => wf_execPmin a l k kb s hs
  | .vld d a l k h => wf_execVld d a l k h s hs
  | .vst d a l k h => wf_execVst d a l k h s hs
  | .vldf d a l k h => wf_execVldf d a l k h s hs
  | .vlds d a l b m k h => wf_execVlds d a l b m k h s hs
  | .vsts d a l b m k h => wf_execVsts d a l b m k h s hs
  | .vgth d a l w k h => wf_execVgth d a l w k h s hs
  | .vsct d a l w k h => wf_execVsct d a l w k h s hs
  | .vadd d a b k t x => wf_execVadd d a b k t x s hs
  | .vsub d a b k t x => wf_execVsub d a b k t x s hs
  | .vmul d a b k t x => wf_execVmul d a b k t x s hs
  | .vdiv d a b k t x => wf_execVdiv d a b k t x s hs
  | .vmin d a b k t x => wf_execVmin d a b k t x s hs
  | .vmax d a b k t x => wf_execVmax d a b k t x s hs
  | .vabsd d a b k t x => wf_execVabsd d a b k t x s hs
  | .vmulh d a b k t x => wf_execVmulh d a b k t x s hs
  | .vfma d a b k t x => wf_execVfma d a b k t x s hs
  | .vfms d a b k t x => wf_execVfms d a b k t x s hs
  | .vcvt d a sg k t x => wf_execVcvt d a sg k t x s hs
  | .vabs d a k t x => wf_execVabs d a k t x s hs
  | .vneg d a k t x => wf_execVneg d a k t x s hs
  | .vsqrt d a k t x => wf_execVsqrt d a k t x s hs
  | .vrcp d a k t x => wf_execVrcp d a k t x s hs
  | .vrsq d a k t x => wf_execVrsq d a k t x s hs
  | .vexp d a k t x => wf_execVexp d a k t x s hs
  | .vlog d a k t x => wf_execVlog d a k t x s hs
  | .vsin d a k t x => wf_execVsin d a k t x s hs
  | .vcos d a k t x => wf_execVcos d a k t x s hs
  | .vtanh d a k t x => wf_execVtanh d a k t x s hs
  | .vand d a b k t x => wf_execVand d a b k t x s hs
  | .vor d a b k t x => wf_execVor d a b k t x s hs
  | .vxor d a b k t x => wf_execVxor d a b k t x s hs
  | .vandn d a b k t x => wf_execVandn d a b k t x s hs
  | .vshl d a b k t x => wf_execVshl d a b k t x s hs
  | .vshr d a b k t x => wf_execVshr d a b k t x s hs
  | .vsar d a b k t x => wf_execVsar d a b k t x s hs
  | .vcmp d a b k t c => wf_execVcmp d a b k t c s hs
  | .vsel d a b k t x => wf_execVsel d a b k t x s hs
  | .vsum a g k t x => wf_execVsum a g k t x s hs
  | .vrmax a g k t x => wf_execVrmax a g k t x s hs
  | .vrmin a g k t x => wf_execVrmin a g k t x s hs
  | .vscan d a k t x => wf_execVscan d a k t x s hs
  | .vperm d a b k t x => wf_execVperm d a b k t x s hs
  | .vbc d g l k t x => wf_execVbc d g l k t x s hs
  | .vext a g k t x => wf_execVext a g k t x s hs
  | .vins d g l k t x => wf_execVins d g l k t x s hs
  | .viota d k t x => wf_execViota d k t x s hs
  | .vmov d a k t x => wf_execVmov d a k t x s hs
  | .vqmovPop d q k t x => wf_execVqmovPop d q k t x s hs
  | .vqmovPush q a k t x => wf_execVqmovPush q a k t x s hs
  | .vmrg d a b k t x => wf_execVmrg d a b k t x s hs
  | .mma d a l p => wf_execMma d a l p s hs
  | .mmaz d a l p => wf_execMmaz d a l p s hs
  | .mbs d a l p => wf_execMbs d a l p s hs
  | .mbsz d a l p => wf_execMbsz d a l p s hs
  | .msp d a l p => wf_execMsp d a l p s hs
  | .mpre d a l => wf_execMpre d a l s hs
  | .mpinv a l => wf_execMpinv a l s hs
  | .mld d a l b m p => wf_execMld d a l b m p s hs
  | .mst d a l b m p => wf_execMst d a l b m p s hs
  | .mzero p => wf_execMzero p s hs
  | .mrd d a l p => wf_execMrd d a l p s hs
  | .mstFill d a l b m p => wf_execMstFill d a l b m p s hs
  | .mstVnx d a l b m p => wf_execMstVnx d a l b m p s hs
  | .mstVset d a l b m p => wf_execMstVset d a l b m p s hs
  | .mcmd d a l b m => wf_execMcmd d a l b m s hs
  | .mqry d a l => wf_execMqry d a l s hs
  | .hacc d a l b m => wf_execHacc d a l b m s hs
  | .hdrn d a l b m => wf_execHdrn d a l b m s hs
  | .sbnd a l b m => wf_execSbnd a l b m s hs
  | .carry d a l b m => wf_execCarry d a l b m s hs
  | .survBind d a l b m => wf_execSurvBind d a l b m s hs
  | .survUnbind a l => wf_execSurvUnbind a l s hs
  | .survStart a l => wf_execSurvStart a l s hs
  | .survStop a l => wf_execSurvStop a l s hs
  | .tmld a l p => wf_execTmld a l p s hs
  | .tmset a l n p => wf_execTmset a l n p s hs
  | .tmget d n p => wf_execTmget d n p s hs
  | .cpy d sg p => wf_execCpy d sg p s hs
  | .cpyg d a l sg p => wf_execCpyg d a l sg p s hs
  | .cpys d a l sg p => wf_execCpys d a l sg p s hs
  | .cpyq d q p => wf_execCpyq d q p s hs
  | .cpyf d a l b m p => wf_execCpyf d a l b m p s hs
  | .srd g n => wf_execSrd g n s hs
  | .swr g l n => wf_execSwr g l n s hs
  | .trap n => wf_execTrap n s hs
  | .capMint => wf_execCapMint s hs
  | .capNewGeneration => wf_execCapNewGeneration s hs
  | .xret => wf_execXret s hs
  | .brk n => wf_execBrk n s hs
  | .nop => wf_execNop s hs
  | .synci => wf_execSynci s hs
  | .ptinv a l b m => wf_execPtinv a l b m s hs
  | .atset a l b m => wf_execAtset a l b m s hs
  | .atsync d => wf_execAtsync d s hs
  | .migr d a l b m => wf_execMigr d a l b m s hs
  | .gstop d a l => wf_execGstop d a l s hs
  | .svFetch a b imm => wf_execSvFetch a b imm s hs
  | .svEmit a b imm => wf_execSvEmit a b imm s hs
  | .add d a l b m => wf_execAdd d a l b m s hs
  | .sub d a l b m => wf_execSub d a l b m s hs
  | .and d a l b m => wf_execAnd d a l b m s hs
  | .or d a l b m => wf_execOr d a l b m s hs
  | .xor d a l b m => wf_execXor d a l b m s hs
  | .andn d a l b m => wf_execAndn d a l b m s hs
  | .shl d a l b m => wf_execShl d a l b m s hs
  | .shr d a l b m => wf_execShr d a l b m s hs
  | .sar d a l b m => wf_execSar d a l b m s hs
  | .rot d a l b m => wf_execRot d a l b m s hs
  | .min d a l b m => wf_execMin d a l b m s hs
  | .max d a l b m => wf_execMax d a l b m s hs
  | .minu d a l b m => wf_execMinu d a l b m s hs
  | .maxu d a l b m => wf_execMaxu d a l b m s hs
  | .slt d a l b m => wf_execSlt d a l b m s hs
  | .sltu d a l b m => wf_execSltu d a l b m s hs
  | .sel d a l b m => wf_execSel d a l b m s hs
  | .mov d a l => wf_execMov d a l s hs
  | .clz d a l => wf_execClz d a l s hs
  | .ctz d a l => wf_execCtz d a l s hs
  | .popc d a l => wf_execPopc d a l s hs
  | .brev d a l => wf_execBrev d a l s hs
  | .bswp d a l => wf_execBswp d a l s hs
  | .addW d a l b m => wf_execAddW d a l b m s hs
  | .subW d a l b m => wf_execSubW d a l b m s hs
  | .andW d a l b m => wf_execAndW d a l b m s hs
  | .orW d a l b m => wf_execOrW d a l b m s hs
  | .xorW d a l b m => wf_execXorW d a l b m s hs
  | .andnW d a l b m => wf_execAndnW d a l b m s hs
  | .shlW d a l b m => wf_execShlW d a l b m s hs
  | .shrW d a l b m => wf_execShrW d a l b m s hs
  | .sarW d a l b m => wf_execSarW d a l b m s hs
  | .rotW d a l b m => wf_execRotW d a l b m s hs
  | .minW d a l b m => wf_execMinW d a l b m s hs
  | .maxW d a l b m => wf_execMaxW d a l b m s hs
  | .minuW d a l b m => wf_execMinuW d a l b m s hs
  | .maxuW d a l b m => wf_execMaxuW d a l b m s hs
  | .sltW d a l b m => wf_execSltW d a l b m s hs
  | .sltuW d a l b m => wf_execSltuW d a l b m s hs
  | .clzW d a l => wf_execClzW d a l s hs
  | .ctzW d a l => wf_execCtzW d a l s hs
  | .popcW d a l => wf_execPopcW d a l s hs
  | .addImm d a l imm => wf_execAddImm d a l imm s hs
  | .andImm d a l imm => wf_execAndImm d a l imm s hs
  | .orImm d a l imm => wf_execOrImm d a l imm s hs
  | .xorImm d a l imm => wf_execXorImm d a l imm s hs
  | .shlImm d a l c => wf_execShlImm d a l c s hs
  | .shrImm d a l c => wf_execShrImm d a l c s hs
  | .sarImm d a l c => wf_execSarImm d a l c s hs
  | .rotImm d a l c => wf_execRotImm d a l c s hs
  | .sltImm d a l imm => wf_execSltImm d a l imm s hs
  | .sltuImm d a l imm => wf_execSltuImm d a l imm s hs
  | .minImm d a l imm => wf_execMinImm d a l imm s hs
  | .maxImm d a l imm => wf_execMaxImm d a l imm s hs
  | .addWImm d a l imm => wf_execAddWImm d a l imm s hs
  | .li d imm => wf_execLi d imm s hs
  | .lih d h imm => wf_execLih d h imm s hs
  | .bfx d a l o w => wf_execBfx d a l o w s hs
  | .bfxs d a l o w => wf_execBfxs d a l o w s hs
  | .bfxs64 d a l o => wf_execBfxs64 d a l o s hs
  | .bfi d a l o w => wf_execBfi d a l o w s hs
  | .bfxReg d a l b m => wf_execBfxReg d a l b m s hs
  | .bfxsReg d a l b m => wf_execBfxsReg d a l b m s hs
  | .bfiReg d a l b m => wf_execBfiReg d a l b m s hs
  | .mul d a l b m => wf_execMul d a l b m s hs
  | .mulh d a l b m => wf_execMulh d a l b m s hs
  | .mulhu d a l b m => wf_execMulhu d a l b m s hs
  | .div d a l b m => wf_execDiv d a l b m s hs
  | .divu d a l b m => wf_execDivu d a l b m s hs
  | .rem d a l b m => wf_execRem d a l b m s hs
  | .remu d a l b m => wf_execRemu d a l b m s hs
  | .mulW d a l b m => wf_execMulW d a l b m s hs
  | .mulhW d a l b m => wf_execMulhW d a l b m s hs
  | .mulhuW d a l b m => wf_execMulhuW d a l b m s hs
  | .divW d a l b m => wf_execDivW d a l b m s hs
  | .divuW d a l b m => wf_execDivuW d a l b m s hs
  | .remW d a l b m => wf_execRemW d a l b m s hs
  | .remuW d a l b m => wf_execRemuW d a l b m s hs
  | .cAdd d b l => wf_execCAdd d b l s hs
  | .cAddi d imm => wf_execCAddi d imm s hs
  | .cMov d b l => wf_execCMov d b l s hs
  | .cLi d imm => wf_execCLi d imm s hs
  | .cLd d a l imm => wf_execCLd d a l imm s hs
  | .cSt b m a l imm => wf_execCSt b m a l imm s hs
  | .cBz a l o => wf_execCBz a l o s hs
  | .cBnz a l o => wf_execCBnz a l o s hs
  | .cJ o => wf_execCJ o s hs
  | .cSub d a l => wf_execCSub d a l s hs
  | .cAnd d a l => wf_execCAnd d a l s hs
  | .cOr d a l => wf_execCOr d a l s hs
  | .cXor d a l => wf_execCXor d a l s hs
  | .cShl d a l => wf_execCShl d a l s hs
  | .cShr d a l => wf_execCShr d a l s hs
  | .cWait m => wf_execCWait m s hs
  | .cRecv d => wf_execCRecv d s hs
  | .cJr a l => wf_execCJr a l s hs
  | .cPadd d b l => wf_execCPadd d b l s hs
  | .cNop => wf_execCNop s hs
  | .cYield => wf_execCYield s hs
  | .cHhalt => wf_execCHhalt s hs
  | .claimGrant tile => wf_execClaimGrant tile s hs
  | .lsplitWrite core cw => wf_execLsplitWrite core cw s hs
  | .vgroupWrite tile en => wf_execVgroupWrite tile en s hs
  | .homeAccept rid => wf_execHomeAccept rid s hs
  | .retryReplay rid => wf_execRetryReplay rid s hs
  | .loadDataReturn rid data => wf_execLoadDataReturn rid data s hs
  | .storeAck rid => wf_execStoreAck rid s hs
  | .releaseSend hid => wf_execReleaseSend hid s hs
  | .barComplete core ctx => wf_execBarComplete core ctx s hs
  | .messageArrival mid => wf_execMessageArrival mid s hs
  | .messageReplay mid => wf_execMessageReplay mid s hs
  | .handlerStart core => wf_execHandlerStart core s hs
  | .resumeMessage mid => wf_execResumeMessage mid s hs
  | .stopMessage mid => wf_execStopMessage mid s hs
  | .forwardRequest rid => wf_execForwardRequest rid s hs
  | .forwardExpire core index => wf_execForwardExpire core index s hs
  | .registerPreempt core ctx => wf_execRegisterPreempt core ctx s hs
  | .registerGrant core => wf_execRegisterGrant core s hs
  | .engineCommandAccept cid => wf_execEngineCommandAccept cid s hs
  | .engineCommandStart core => wf_execEngineCommandStart core s hs
  | .engineCommandComplete core => wf_execEngineCommandComplete core s hs
  | .engineCommandMigrate core cid => wf_execEngineCommandMigrate core cid s hs
  | .engraveStart sg => wf_execEngraveStart sg s hs
  | .engraveComplete sg => wf_execEngraveComplete sg s hs
  | .copyStart tile => wf_execCopyStart tile s hs
  | .copyComplete tile => wf_execCopyComplete tile s hs
  | .copyqResume tile => wf_execCopyqResume tile s hs
  | .surveyorRun core stream => wf_execSurveyorRun core stream s hs
  | .surveyorGatherReturn core stream => wf_execSurveyorGatherReturn core stream s hs
  | .memoryStreamRead core ctx q => wf_execMemoryStreamRead core ctx q s hs
  | .launchDistribute => wf_execLaunchDistribute s hs
  | .launchEntryPlace die => wf_execLaunchEntryPlace die s hs
  | .dispatch tile => wf_execDispatch tile s hs
  | .placementDecision tile => wf_execPlacementDecision tile s hs
  | .heldTaskResume tile => wf_execHeldTaskResume tile s hs
  | .spillRefill tile => wf_execSpillRefill tile s hs
  | .spillOfferRetry tile => wf_execSpillOfferRetry tile s hs
  | .queueAgeing tile => wf_execQueueAgeing tile s hs
  | .pressureSample tile => wf_execPressureSample tile s hs
  | .contourStep tile => wf_execContourStep tile s hs
  | .crewGrant sg => wf_execCrewGrant sg s hs
  | .crewTarget sg => wf_execCrewTarget sg s hs
  | .crewSwap sg => wf_execCrewSwap sg s hs
  | .crewRestore sg => wf_execCrewRestore sg s hs
  | .heatSweep part => wf_execHeatSweep part s hs
  | .memoryDoubleUpset address => wf_execMemoryDoubleUpset address s hs
  | .dieLost die => wf_execDieLost die s hs
  | .routerCycle router damaged => wf_execRouterCycle router damaged s hs
  | .linkDead router dir => wf_execLinkDead router dir s hs
  | .drainWrite mask => wf_execDrainWrite mask s hs
  | .fabricTimedReplay rid => wf_execFabricTimedReplay rid s hs
  | .fabricTransit index => wf_execFabricTransit index s hs
  | .lossPacket source seqs => wf_execLossPacket source seqs s hs
  | .timeExchange port peer time => wf_execTimeExchange port peer time s hs
  | .flitArrival port flit => wf_execFlitArrival port flit s hs
  | .linkNakResend port lseq => wf_execLinkNakResend port lseq s hs
  | .sendWindowDoubleUpset port lseq => wf_execSendWindowDoubleUpset port lseq s hs
  | .replayNotice rid => wf_execReplayNotice rid s hs
  | .portDown port => wf_execPortDown port s hs
  | .orteWrite svc value => wf_execOrteWrite svc value s hs
  | .oparkWrite svc value => wf_execOparkWrite svc value s hs
  | .oheatWrite svc value => wf_execOheatWrite svc value s hs
  | .oasgnWrite svc value => wf_execOasgnWrite svc value s hs
  | .opticalWakeTrigger port => wf_execOpticalWakeTrigger port s hs
  | .ringSettleDone ring => wf_execRingSettleDone ring s hs
  | .ringLocked ring => wf_execRingLocked ring s hs
  | .ringLockTimeout ring => wf_execRingLockTimeout ring s hs
  | .ringDeskewDone ring => wf_execRingDeskewDone ring s hs
  | .stripeWiden port => wf_execStripeWiden port s hs
  | .monitorSample ring => wf_execMonitorSample ring s hs
  | .parkFlit port mask => wf_execParkFlit port mask s hs
  | .wakeFlit port mask => wf_execWakeFlit port mask s hs
  | .lockReport port => wf_execLockReport port s hs
  | .hostLaunchWrite offset bytes => wf_execHostLaunchWrite offset bytes s hs
  | .hostCommandWrite offset bytes => wf_execHostCommandWrite offset bytes s hs
  | .hostQueueDeliver mid => wf_execHostQueueDeliver mid s hs
  | .hqsizeWrite offset bytes => wf_execHqsizeWrite offset bytes s hs
  | .hqheadWrite offset bytes => wf_execHqheadWrite offset bytes s hs
  | .hqbaseWrite offset bytes => wf_execHqbaseWrite offset bytes s hs
  | .powerGood signatureOk trained peers => wf_execPowerGood signatureOk trained peers s hs
  | .thermalThrottle => wf_execThermalThrottle s hs
  | .thermalTrip => wf_execThermalTrip s hs
  | .d3hotRequest => wf_execD3hotRequest s hs
  | .getVersion request => wf_execGetVersion request s hs
  | .getCapabilities request => wf_execGetCapabilities request s hs
  | .negotiateAlgorithms request => wf_execNegotiateAlgorithms request s hs
  | .getDigests request => wf_execGetDigests request s hs
  | .getCertificate request => wf_execGetCertificate request s hs
  | .challenge request => wf_execChallenge request s hs
  | .getMeasurements request => wf_execGetMeasurements request s hs
  | .keyExchange request => wf_execKeyExchange request s hs
  | .finish request => wf_execFinish request s hs
  | .create body => wf_execCreate body s hs
  | .destroy body => wf_execDestroy body s hs
  | .setKey body => wf_execSetKey body s hs
  | .setPkg body => wf_execSetPkg body s hs
  | .log body => wf_execLog body s hs
  | .route body => wf_execRoute body s hs
  | .packageLoss reason => wf_execPackageLoss reason s hs
  | .illegalEncoding encoding wide => wf_execIllegalEncoding encoding wide s hs
  | .fetchFault address reason => wf_execFetchFault address reason s hs
  | .vendorDefinedRequest request => wf_execVendorDefinedRequest request s hs

/-! ### The functions of Sys2Proof/Machine/Rounds.lean -/

@[simp] theorem wf_newCycle (s : State) (h : Memory.wf s.mem = true) : Memory.wf s.newCycle.mem = true := by
  simp [State.newCycle, h]

@[simp] theorem wf_background (s : State) (h : Memory.wf s.mem = true) : Memory.wf s.background.mem = true := by
  simp only [State.background]
  (repeat' split) <;> simp (disch := simp [h])

/-! ### The functions of Sys2Proof/Machine/Step.lean -/

@[simp] theorem wf_issueStep (s : State) (core ctx : Nat) (h : Memory.wf s.mem = true) : OutcomeWf (issueStep s core ctx) := by
  simp only [issueStep]
  (repeat' split) <;> simp [h]

@[simp] theorem wf_takeTurn (s : State) (t : Turn) (h : Memory.wf s.mem = true) : OutcomeWf (takeTurn s t) := by
  cases t with
  | event i =>
    simp only [takeTurn]
    split
    · trivial
    · exact wf_exec i s h
  | issue core ctx =>
    simp only [takeTurn]
    split
    · trivial
    · exact wf_issueStep s core ctx h
  | slot core =>
    simp only [takeTurn]
    split
    · trivial
    · split
      · exact wf_issueStep s core _ h
      · exact h
  | tick =>
    simp only [takeTurn]
    split
    · trivial
    · simp [h]

theorem wf_step (s : State) (h : Memory.wf s.mem = true) : OutcomeWf (step s) := by
  have hb := wf_background s h
  simp only [step]
  split
  · split
    · trivial
    · exact hb
  · exact wf_takeTurn _ _ hb

/-- Settles O60: the memory of what each function of the model leaves is canonical where that of the state it acts on is. -/
theorem stepKeepsMemoryCanonical : Obligations.StepKeepsMemoryCanonical := by
  unfold Obligations.StepKeepsMemoryCanonical
  intro s t h e
  have hs := wf_step s h
  rwa [e] at hs

end Sys2Proof.Machine
